-- ==== Sys2Proof/Word.lean ====
section
/-! DEFINITION. The words of the model: bytes, the registers' width, saturating counts (00_scope R3-R5). -/

namespace Sys2Proof

/-- One byte (R5). -/
abbrev Byte := BitVec 8

/-- A 64-bit register of a thread (R218). -/
abbrev Reg := BitVec 64

/-- A 32-bit count that saturates (R74, R162, R188, R212, R301, R336, R344, R461, R471). -/
abbrev Count := BitVec 32

/-- A handle of the buffer table, 12 bits (R220). -/
abbrev Handle := BitVec 12

/-- Add `k` to a 32-bit saturating count. -/
def Count.bump (c : Count) (k : Nat := 1) : Count :=
  BitVec.ofNat 32 (min (c.toNat + k) 4294967295)

/-- x / y rounded up, for a positive divisor. -/
def ceilDiv (a b : Nat) : Nat := (a + b - 1) / b

/-- clamp(x, lo, hi) of R4. -/
def clampInt (x lo hi : Int) : Int := max lo (min x hi)

end Sys2Proof
end

