-- ==== Sys2Proof/Syntax.lean ====
section
/-! DEFINITION. The commands of the block: one constructor of `Instr` for each row of spec/opcode_table.json,
with the row's operands. An operand that is not part of the row's own data (a level on a pin, a reading, an answer of a
panel driver, a word that fails its W-code check) is what only the world outside the device decides (DESIGN CHOICE, log 1). -/

namespace Sys2Proof

/-- The fields of an Mbaol instruction word and its EXT word (R241, R243, Table 10-1). -/
structure IWord where
  rd : BitVec 4
  ra : BitVec 4
  rb : BitVec 4
  rc : BitVec 4
  fn : BitVec 8
  imm : BitVec 32
  ext : BitVec 64
  /-- no bit of the word: a scratch word of the block or item that the instruction reads is uncorrectable (R11, R218) -/
  ue : Bool := false
deriving DecidableEq, Repr, Inhabited

/-- One of the eight sequencer threads T0 to T7 (R214). -/
abbrev Tid := Fin 8

/-- What a run of the crack check shows: the failing stage 1, 2 or 3 of R391, or a pass. -/
inductive CrackRun where
  | pass
  | fail (stage : Fin 3)
deriving DecidableEq, Repr, Inhabited

/-- How a column driver answers one transaction of the panel management bus (R389). -/
inductive PmbTry where
  | ok (rdata : List Byte)
  | nak
  | badCrc
  | noAnswer
deriving DecidableEq, Repr, Inhabited

/-- The outcome of one bring-up attempt of a lane pair (R367, R368): both checks pass, or step 4 or step 6 fails. -/
inductive PairTry where
  | aligned
  | failStep4 (laneStat : BitVec 9)
  | failStep6 (laneStat : BitVec 9)
deriving DecidableEq, Repr, Inhabited

/-- What the driver of one pair answers at step 4 of R380 and how its pair's bring-up attempts end (R390, R367). -/
structure DriverAnswer where
  /-- both register reads succeed -/
  answers : Bool
  drvId : BitVec 32
  panelId : BitVec 64
  cols : BitVec 16
  rows : BitVec 16
  /-- outcomes of bring-up attempts, in order (at most four are used) -/
  tries : List PairTry
deriving DecidableEq, Repr, Inhabited

/-- The outcome of a self-test run (R499, R500). -/
inductive BistRun where
  | pass
  | fail (word : BitVec 16)
deriving DecidableEq, Repr, Inhabited

/-- The fields that a queue keeps twice (R302): write pointer, read pointer, writer mark, reader mark, ITEMS. -/
abbrev PtrField := Fin 5

/-- How one firmware copy fares in the checks of R398. -/
inductive FwCopy where
  /-- every check passes: its SVN, and whether its header sets ADVANCE (R399) -/
  | valid (svn : Fin 65) (advance : Bool)
  /-- a signature or key check fails -/
  | badCheck
deriving DecidableEq, Repr, Inhabited

/-- An SRAM that fails its memory test at boot (R502): the block, the instance, the word. -/
structure SramFail where
  block : BitVec 6
  inst : BitVec 8
  word : BitVec 16
deriving DecidableEq, Repr, Inhabited

/-- What the board and the parts show to a cold boot (R508). -/
structure BootEnv where
  sramFails : List SramFail
  fwA : FwCopy
  fwB : FwCopy
  /-- VDD_FUSE within its programming range (R395) -/
  vddFuse : Bool
  /-- component density read from the mode registers, Gbit (R308) -/
  density : BitVec 8
  /-- the data rates, in MT/s, at which every subchannel passes every training step (R333) -/
  trainsAt : List Nat
  /-- RAAIMT, RAAMMT and RAADEC read at training (R328) -/
  raaimt : Nat
  raammt : Nat
  raadec : Nat
  /-- what the TRNG gave: the BOOT_NONCE of this boot (R395) -/
  nonce : BitVec 384
deriving DecidableEq, Repr, Inhabited

/-- The strap pins as sampled at a rising reset edge (R504). -/
structure Straps where
  bootMode : BitVec 2
  origin : Bool
  ingest : Bool
deriving DecidableEq, Repr, Inhabited

/-- Words that stay uncorrectable when a gallery computes its band of one hogel row (R110, R117, R146, R157, R172). -/
structure PixelUe where
  /-- replica words: (hx, view index, layer, bank) whose filtered sample is zeroed -/
  replica : List (Nat × Nat × Nat × Nat)
  /-- graphic line words: (graphic layer, image column) -/
  gfx : List (Nat × Nat)
  /-- page words: hogel column -/
  page : List Nat
  /-- map words: (line py, subpixel column j) -/
  umap : List (Nat × Nat)
  /-- ring words: (layer, layer line, tile column) whose segment its second read from DRAM does not give either (R117) -/
  ring : List (Nat × Nat × Nat) := []
deriving DecidableEq, Repr, Inhabited

/-- One symbol error of a burst: which 32-byte word (false A, true B), the symbol (0-31 data, 32-35 check), the error. -/
structure SymErr where
  wordB : Bool
  sym : Fin 36
  err : Byte
deriving DecidableEq, Repr, Inhabited

/-- What has gone wrong in stored bursts when a command slot comes: `errs`: symbol errors that bursts of the subchannel now hold, by address
(R312); `lost`: epoch entries now uncorrectable (R319). -/
structure SlotErrs where
  errs : List (Nat × SymErr) := []
  lost : List (BitVec 18) := []
deriving DecidableEq, Repr, Inhabited

/-- The header of a fabric frame, by field (Table 18-4). -/
structure FabHdr where
  lseq : BitVec 64
  ttl : BitVec 8
  len : BitVec 12
  ftype : BitVec 4
  tc : BitVec 2
  bcast : Bool
  detour : Bool
  auth : Bool
  last : Bool
  first : Bool
  rsvd : Bool
  fidx : BitVec 8
  src : BitVec 12
  dst : BitVec 12
deriving DecidableEq, Repr, Inhabited

/-- A fabric frame as it reaches a port (R435-R438): what the wire checks show, the header, the payload, and RX_TIME. -/
structure FabFrame where
  symErr : Bool
  ue : Bool
  crcErr : Bool
  hdr : FabHdr
  /-- payload as received: ciphertext on a link with keys -/
  payload : List Byte
  tag : BitVec 128
  rxTime : Nat
deriving DecidableEq, Repr, Inhabited

/-- A frame of the link authentication (R431): HELLO with its fields, or PROOF with its signature. -/
inductive AuthMsg where
  | hello (nonce : BitVec 384) (serial : BitVec 64) (node : BitVec 16) (dikCert dekCert : List Byte)
  | proof (sig : List Byte)
deriving DecidableEq, Repr, Inhabited

/-- Which timing generator's source edge or which pipeline reader: 0-7 graphic layers, 8 frame-store scan-out (R228). -/
abbrev Reader := Fin 9

/-- What one poll of a driver reads: LANE_STAT, and the register of the LINES_OK counts at bring-up (R367, R369, Table 15-7). -/
structure LaneRead where
  stat : BitVec 32
  lines : BitVec 32 := 0
deriving DecidableEq, Repr, Inhabited

/-- One poll of a used driver, or no successful read. -/
abbrev LaneStat := Option LaneRead

/-- The three registers read back from an identified driver (R392): DRV_ID, DRV_INDEX, DRV_STAT, or how the poll failed. -/
inductive DrvPoll where
  | ok (drvId : BitVec 32) (drvIndex : BitVec 6) (drvStat : BitVec 3)
  | check
  | timeout
deriving DecidableEq, Repr, Inhabited

/-- An MR4 report of one subchannel (R330, R478): normal range, doubled refresh, above the doubled-rate range. -/
inductive Mr4 where
  | normal
  | doubled
  | above
deriving DecidableEq, Repr, Inhabited

/-- An AES3 input frame (R463, R470): two 24-bit samples with their V, U, C bits, or a biphase, preamble or parity error. -/
inductive AesFrame where
  | ok (a b : BitVec 24) (vuc : BitVec 6)
  | bad
deriving DecidableEq, Repr, Inhabited

/-- The IEEE 1149.1 instructions (R421). -/
inductive TapInstr where
  | bypass
  | idcode
  | samplePreload
  | extest
  | privateInstr (code : Nat)
deriving DecidableEq, Repr, Inhabited

/-- The commands of the PS9616, one constructor per row of spec/opcode_table.json, in the table's order. -/
inductive Instr where
  | add (t : Tid) (w : IWord)
  | sub (t : Tid) (w : IWord)
  | and (t : Tid) (w : IWord)
  | or (t : Tid) (w : IWord)
  | xor (t : Tid) (w : IWord)
  | shl (t : Tid) (w : IWord)
  | shr (t : Tid) (w : IWord)
  | movi (t : Tid) (w : IWord)
  | cmp (t : Tid) (w : IWord)
  | br (t : Tid) (w : IWord)
  | brc (t : Tid) (w : IWord)
  | call (t : Tid) (w : IWord)
  | ret (t : Tid) (w : IWord)
  | loop (t : Tid) (w : IWord)
  | halt (t : Tid) (w : IWord)
  | haltCompletion (t : Tid)
  | waitline (t : Tid) (w : IWord)
  | waittime (t : Tid) (w : IWord)
  | waitevt (t : Tid) (w : IWord)
  | waitq (t : Tid) (w : IWord)
  | waitSatisfied (t : Tid)
  | waitTimeout (t : Tid)
  /-- `ue`: the scratch word read is uncorrectable (R218). -/
  | ld (t : Tid) (w : IWord) (ue : Bool)
  | st (t : Tid) (w : IWord)
  | ldh (t : Tid) (w : IWord)
  | sth (t : Tid) (w : IWord)
  | unitInstructionCompletion (t : Tid)
  /-- `op`: the operation's number in the thread's list of outstanding operations. -/
  | asyncOperationCompletion (t : Tid) (op : Nat)
  | balloc (t : Tid) (w : IWord)
  | bfree (t : Tid) (w : IWord)
  | bufferRelease (h : Handle)
  /-- `ue`: the granule's epoch entry is uncorrectable (R319). -/
  | granuleZeroingDone (g : BitVec 18) (ue : Bool)
  | binfo (t : Tid) (w : IWord)
  | bseal (t : Tid) (w : IWord)
  | planchk (t : Tid) (w : IWord)
  | plancommit (t : Tid) (w : IWord)
  | planslotLoad (t : Tid) (w : IWord)
  | planslotFree (t : Tid) (w : IWord)
  | planslotState (t : Tid) (w : IWord)
  | planslotStatus (t : Tid) (w : IWord)
  | sattach (t : Tid) (w : IWord)
  | sattachDetach (t : Tid) (w : IWord)
  | sseek (t : Tid) (w : IWord)
  | splay (t : Tid) (w : IWord)
  | spause (t : Tid) (w : IWord)
  | blt (t : Tid) (w : IWord)
  | crcset (t : Tid) (w : IWord)
  | crcrun (t : Tid) (w : IWord)
  | crcget (t : Tid) (w : IWord)
  | crcput (t : Tid) (w : IWord)
  | fsend (t : Tid) (w : IWord)
  | fgroup (t : Tid) (w : IWord)
  | ftime (t : Tid) (w : IWord)
  /-- `crack`, `crack2`: the crack check of step 1 and its repeat; `drv`: what the drivers answer at steps 4 and 5. -/
  | ppowerUp (t : Tid) (w : IWord) (crack crack2 : CrackRun) (drv : List DriverAnswer)
  | ppowerDown (t : Tid) (w : IWord)
  | pclear (t : Tid) (w : IWord)
  | plightOn (t : Tid) (w : IWord)
  | plightOff (t : Tid) (w : IWord)
  | pselfEnter (t : Tid) (w : IWord)
  | pselfExit (t : Tid) (w : IWord)
  | pupdate (t : Tid) (w : IWord)
  /-- `tries`: the answers to the transaction and its retries (R389). -/
  | pmbx (t : Tid) (w : IWord) (tries : List PmbTry)
  | qmark (t : Tid) (w : IWord)
  | qrewind (t : Tid) (w : IWord)
  | qrelease (t : Tid) (w : IWord)
  | qflush (t : Tid) (w : IWord)
  | tgset (t : Tid) (w : IWord)
  | tgaddr (t : Tid) (w : IWord)
  | aset (t : Tid) (w : IWord)
  /-- `readBack`: the flash copy reads back valid (R490). -/
  | trimstage (t : Tid) (w : IWord) (readBack : Bool)
  | trimapply (t : Tid) (w : IWord)
  | tread (t : Tid) (w : IWord)
  | svcRemove (t : Tid) (w : IWord)
  | svcReturn (t : Tid) (w : IWord)
  | svcState (t : Tid) (w : IWord)
  | svcRestart (t : Tid) (w : IWord)
  | svcLaunch (t : Tid) (w : IWord)
  /-- `upset`: the field whose two copies differ at this update (R302). -/
  | svcQpost (t : Tid) (w : IWord) (upset : Option (Fin 64 × PtrField))
  | svcQtake (t : Tid) (w : IWord) (upset : Option (Fin 64 × PtrField))
  | svcQsub (t : Tid) (w : IWord)
  /-- `run`: how the self-test ends (R499). -/
  | bist (t : Tid) (w : IWord) (run : BistRun)
  | signal (t : Tid) (w : IWord)
  | int (t : Tid) (w : IWord)
  | threadLaunch (t : Tid)
  | dbRestart (v : BitVec 32)
  | dbSignal (v : BitVec 32)
  | intCauseClear (v : BitVec 64)
  /-- `v`: the value written to FLASH_CMD. -/
  | flashRead (v : BitVec 32)
  | flashErase (v : BitVec 32)
  | flashProgram (v : BitVec 32)
  /-- `verified`: the programmed page verifies. -/
  | flashOperationDone (verified : Bool)
  | registerWrite (off : BitVec 16) (data : List Byte)
  | queueDataWrite (q : Fin 64) (data : List Byte)
  | queueEndWrite (q : Fin 64) (data : List Byte) (upset : Option (Fin 64 × PtrField))
  | queuePop (q : Fin 64)
  | itemBaseWrite (q : Fin 64) (v : BitVec 64)
  | queueStatusClear (q : Fin 64) (v : BitVec 32)
  | bar4Read (addr : BitVec 36) (len : Nat)
  | bar4Write (addr : BitVec 36) (data : List Byte)
  | porN (straps : Straps)
  | sysRstN (straps : Straps)
  | coldBoot (env : BootEnv)
  | perstN
  | functionLevelReset
  | vddAoUndervoltage (straps : Straps)
  | pfailResponse
  | pfailNRelease
  | pgdLoss (rail : Fin 6)
  | crackCheck (run run2 : CrackRun)
  | driverReadback (pair : Fin 48) (poll : DrvPoll)
  | laneStatPoll (pair : Fin 48) (stat : LaneStat)
  | huReady
  | huReadyClear
  | noticeInSample (pins : BitVec 4)
  | noticeInAsserted (pin : Fin 4)
  | noticeInDeasserted (pin : Fin 4)
  /-- `interval`: symbol times from the last accepted edge. -/
  | refInEdge (interval : Nat)
  | refInLoss (interval : Nat)
  /-- `err`: the phase error measured at this period start, in symbol times (R341). -/
  | framePeriodStart (err : Int)
  /-- `corrupt`: a payload byte that the lane packer alters, with the error, as the fault CU7 looks for (R158). -/
  | tg0LineStart (corrupt : Option (Nat × Byte))
  /-- `tg`: false TG1, true TG2. -/
  | tgFrameStart (tg : Bool)
  | selfRefreshEntryPoint
  | scanoutLineFetch
  | frameEndChecks
  | packageExpansionDone
  | ingestItem (stream : Fin 16)
  | ingestResume (stream : Fin 16)
  | fabricClsMove (port : Fin 8)
  /-- `vddFuse`: VDD_FUSE within its programming range (R405). -/
  | documentFragment (vddFuse : Bool)
  | documentReassemblyTimeout (docId : BitVec 16)
  | keyGrant
  | decodeStart (stream : Fin 16)
  | decoderDispatch (stream : Fin 16)
  | groupRegistration (eng : Fin 8)
  | decodePacketDone (eng : Fin 8)
  | cullPassStart
  /-- `ue`: tile columns whose segment stays uncorrectable after the second read (R117). -/
  | ringFillLine (layer : Fin 64) (ue : List Nat)
  | galleryRowStart (gallery : Fin 16) (ue : PixelUe)
  | weaveRowRelease
  | cellFault (gallery : Fin 16) (cell : Fin 64)
  /-- `differs`: the verifying decoder finds a code that differs; `behind`: the encoder fell behind (R183, R184). -/
  | captureTileRow (differs behind : Bool)
  | cacheTileRowDecode
  | scoreboardRelease (t : Tid)
  | pipelineReadTorn (r : Reader)
  | blitDescriptorStart
  | blitGateOpen
  | blitRowComplete
  | blitComplete
  | dramCommandSlot (sub : Fin 16) (errs : SlotErrs)
  | urgencyRise (req : Nat)
  | refreshDue (sub : Fin 16)
  | mr4Read (reports : List Mr4)
  | zqCalibration
  | rowIdleClose (sub : Fin 16) (bank : Fin 32)
  | alertN (sub : Fin 16)
  | dramSelfRefreshEntry
  | dramSelfRefreshExit
  | fabricTrainingAttempt (port : Fin 8)
  /-- `own`, `partner`: SEEN bitmaps; `partnerP`: the port index the partner reports (R429, R430). -/
  | fabricTrained (port : Fin 8) (own partner : BitVec 8) (partnerP : BitVec 3)
  | fabricTrainingTimeout (port : Fin 8) (seen : BitVec 8)
  | backoffExpiry (port : Fin 8)
  | fabricBeacon (port : Fin 8)
  | partnerDetected (port : Fin 8)
  | authFrame (port : Fin 8) (msg : AuthMsg)
  | authTimeout (port : Fin 8)
  | fabricLaneLoss (port : Fin 8) (lost : BitVec 8)
  | fabricRetrainDone (port : Fin 8) (own partner : BitVec 8)
  | fabricFrameReceive (port : Fin 8) (f : FabFrame)
  /-- `room`: at least 2,432 byte times of the slot remain (R446); `used`: classes 0 and 1 have used their 10 %. -/
  | fabricTransmitOpportunity (port : Fin 8) (room used : Bool)
  | fabricSlotStart (port : Fin 8) (slot : Fin 256)
  | cometTimer
  | planetTimeout
  | groupCommit
  | groupPlay
  | groupSeek
  | groupPause
  | groupLight
  | groupSelf
  | groupSignal
  | groupRoute
  | groupRelease
  /-- `ue`: the store word of the sample frame is uncorrectable (R467). -/
  | audioSampleFrame (ue : Bool)
  /-- `interval`: audio clocks since the last accepted edge. -/
  | audioRefEdge (interval : Nat)
  | audioRefLoss (interval : Nat)
  | aes3InputFrame (input : Fin 2) (f : AesFrame)
  /-- `r`: readings of the 28 sensors in 1/16 degrees, none for a conversion that does not complete. -/
  | sensorSample (r : List (Option Int))
  | tripRestart (env : BootEnv) (seconds : BitVec 32)
  | lifetimeTick
  | lifetimeStore
  | flashWindowOpen
  | watchdogExpiry (security : Bool)
  | interconnectUe (link : Fin 5)
  | keyWordUe (block : BitVec 6) (inst : BitVec 8)
  | pgdChange (rail : Fin 6) (level : Bool)
  | dqsOscillatorTracking
  | refusedPortLockLoss (port : Fin 8)
  | pcieLinkChange (up : Bool)
  | tapInstruction (k : TapInstr)
  | flashRecordWriteDone (ok : Bool)
deriving DecidableEq, Repr

end Sys2Proof
end

