-- ==== Sys2Proof/Decode.lean ====
section
/-! DEFINITION. The decoder of table words, and the split of an instruction word of a program (R241, R243, R245). The opcode table gives
no row any bits (every row's list of fields is empty and none has a fixed value), so no table word spells a command. -/

namespace Sys2Proof

/-- The command that a word spells by the table's bits: none, since the table gives no row any bits. -/
def decodeTableWord (_nbits _w : Nat) : Option Instr := none

/-- The opcode and the fields of an instruction word (Table 10-1), with the second word of the forms that have one (R243). -/
def splitWord (v ext : BitVec 64) : BitVec 8 × IWord :=
  (v.extractLsb' 56 8,
    { rd := v.extractLsb' 52 4, ra := v.extractLsb' 48 4, rb := v.extractLsb' 44 4, rc := v.extractLsb' 40 4
      fn := v.extractLsb' 32 8, imm := v.extractLsb' 0 32, ext := ext })

/-- The opcodes that Table 10-2 assigns. -/
def opcodes : List Nat :=
  [0x01, 0x02, 0x03, 0x04, 0x05, 0x06, 0x07, 0x08, 0x09, 0x10, 0x11, 0x12, 0x13, 0x14, 0x15, 0x18, 0x19, 0x1A, 0x1B,
    0x20, 0x21, 0x22, 0x23, 0x28, 0x29, 0x2A, 0x2B, 0x30, 0x31, 0x32]
    ++ [0x38, 0x39, 0x3A, 0x3B, 0x40, 0x48, 0x49, 0x4A, 0x4B, 0x50, 0x51, 0x52, 0x58, 0x59, 0x5A, 0x5B, 0x5C, 0x5D,
    0x60, 0x61, 0x62, 0x63, 0x68, 0x69, 0x6C, 0x70, 0x71, 0x72, 0x78, 0x79, 0x7C, 0x7D]

/-- The subcode with which a word faults that stands for no instruction: an unassigned opcode, 0x00 included, or an `SVC` function
outside its table (R219, R245, R274). -/
def wordFault (v : BitVec 64) : Option Nat :=
  let (op, w) := splitWord v 0
  if op.toNat ∉ opcodes then some 0x03
  else if op = 0x78 ∧ 8 ≤ w.fn.toNat then some 0x20
  else none

end Sys2Proof
end

