-- ==== Sys2Proof/Config.lean ====
section
/-! DEFINITION. What one implementation fixes and the spec does not give as a value: the fuses set at manufacture, the
standard cryptographic functions that the spec names by their standard (DESIGN CHOICE, log 8), and the free values (DESIGN CHOICE, log 10). Each is an
opaque constant: nothing can be proved of it, so a claim holds whatever it is. -/

namespace Sys2Proof.Config

/-- The n-th free value (DESIGN CHOICE, log 10): a value the spec calls unpredictable (R8, R239) or does not state. -/
opaque freeValue : Nat → BitVec 64

/-- The fuse SERIAL (R395). -/
opaque serial : BitVec 64
/-- The fuse ROOT_HASH (R395). -/
opaque rootHash : BitVec 384
/-- ROOT_PUB, the key whose SHA-384 is ROOT_HASH (R398, R421). -/
opaque rootPub : List Byte
/-- The device's own node KEYID: the first 16 bytes of the SHA-384 of its DEK certificate (R406). -/
opaque ownKeyId : BitVec 128
/-- The DIK and DEK certificates (R395, R396). -/
opaque dikCert : List Byte
opaque dekCert : List Byte
/-- The fuse words that give the defaults of trim words 0 to 32 (R492). -/
opaque fuseTrim : Nat → BitVec 32

/-- SHA-384 (R401, R406). -/
opaque sha384 : List Byte → BitVec 384
/-- ECDSA P-384 with SHA-384 verifies (R401): public key, message, signature. -/
opaque ecdsaOk : List Byte → List Byte → List Byte → Bool
/-- The DIK signature of a message (R420, R431). -/
opaque dikSign : List Byte → List Byte
/-- The public key of the DIK certificate of a partner (R412). -/
opaque dikKey : List Byte → List Byte
/-- The certificate chain of a partner ends at ROOT_HASH (R413). -/
opaque certsChain : List Byte → List Byte → Bool
/-- EPH_PUB is a valid P-384 point (R410). -/
opaque p384Valid : List Byte → Bool
/-- AES-256-KW unwrap of a grant under the KEK of R410: EPH_PUB, grant bytes 0 to 0x2F, WRAPPED; none when the integrity
check fails. -/
opaque unwrapGrant : List Byte → List Byte → List Byte → Option (BitVec 256)
/-- The AES-256-GCM tag of header and ciphertext under a key (R49): key, IV, additional data, ciphertext. -/
opaque gcmTag : BitVec 256 → List Byte → List Byte → List Byte → BitVec 128
/-- The AES-256-GCM plaintext (R49): key, IV, ciphertext; as long as the ciphertext. -/
opaque gcmPlain : BitVec 256 → List Byte → List Byte → List Byte
/-- The link keys of R412 from own nonce, partner nonce, partner DEK certificate: send key, receive key, salts. -/
opaque linkKeys : BitVec 384 → BitVec 384 → List Byte → BitVec 256 × BitVec 256 × BitVec 32 × BitVec 32
/-- K1a, K1b, K2 and H as the CTR_DRBG gives them in the n-th draw (R317). -/
opaque dramKeys : Nat → BitVec 256 × BitVec 256 × BitVec 256 × BitVec 128
/-- The 48-byte nonce this device sends in the n-th HELLO (R412, R431). -/
opaque linkNonce : Nat → BitVec 384

/-- The channel-status block that AES3 makes of a template for a RATE of R463 (R465): the three fixed fields written, the CRCC
in byte 23. -/
opaque aes3Status : Nat → List Byte → List Byte

end Sys2Proof.Config
end

