-- ==== Sys2Proof/Machine/State.lean ====
section
/-! DEFINITION. The state of the PS9616 as plain data: every register, buffer, queue, counter, mode and pin the spec gives
it, the queue of waiting commands, and the model's own clock and free-value counter (logs 3 and 10). -/

namespace Sys2Proof.Machine

/-! ### Sequencer threads (09, 10) -/

/-- Thread states (R215). -/
inductive TState where
  | idle
  | running
  | waiting
  | faulted
deriving DecidableEq, Repr, Inhabited

/-- The flags Z, N, C and V (R218, R246). -/
structure Flags where
  z : Bool := false
  n : Bool := false
  c : Bool := false
  v : Bool := false
deriving DecidableEq, Repr, Inhabited

/-- Who is told the result of an operation: a waiting thread, a thread by its asynchronous form, a group command, nobody. -/
inductive Deliver where
  | thread (t : Tid)
  | async (t : Tid) (op : Nat)
  | group (gop : BitVec 16) (src : BitVec 12)
  | nobody
deriving DecidableEq, Repr, Inhabited

/-- What a thread in WAITING waits for (R215, R231, R249). -/
inductive Wait where
  | none
  /-- `WAITLINE` (R256) -/
  | line (tg : Fin 3) (line : Nat)
  /-- `WAITTIME` (R255) -/
  | time (ns : Reg)
  /-- `WAITEVT` (R232) -/
  | evt (mask : BitVec 32)
  /-- `WAITQ` (R255) -/
  | queue (q : Fin 64) (le items : Bool) (level : Reg)
  /-- `HALT` (R254) -/
  | halt
  /-- a unit instruction under way (R249) -/
  | unit
  /-- an operation that waits for the scoreboard or an earlier order on its unit (R227, R252) -/
  | held (i : Instr)
  /-- an entry of the blit queue for this asynchronous operation (R277) -/
  | entry (op : Nat)
deriving DecidableEq, Repr, Inhabited

/-- A thread fault: FLT_STATE 1, FLT_SEAL 2, FLT_QUEUE 3, FLT_MEM_UE 4, FLT_ADMIT 5, FLT_TIMEOUT 6 (Table 09-4). -/
inductive Flt where
  | state
  | seal
  | queue
  | memUe
  | admission
  | timeout
deriving DecidableEq, Repr, Inhabited

/-- What a unit writes back when a unit instruction completes (R249). -/
structure Done where
  /-- the value for RD -/
  val : Reg := 0
  /-- RD, or the result word of the asynchronous form, is written -/
  wrRd : Bool := true
  /-- `val` is a result code, so Z follows it (R218) -/
  isResult : Bool := true
  /-- the value for RC, where the instruction has a second destination -/
  rc : Option Reg := none
  /-- the instruction faults at completion -/
  flt : Option (Flt × BitVec 8) := none
  /-- it ends a blit (R226) -/
  blt : Bool := false
  /-- bytes written to the scratch of the thread (R270) -/
  scratch : Option (Nat × List Byte) := none
deriving DecidableEq, Repr, Inhabited

/-- A blit descriptor, field by field (Table 11-1). -/
structure BltDesc where
  rop : BitVec 8 := 0
  fmt : Nat := 0
  pmono : Bool := false
  gate : Bool := false
  gateTg : Nat := 0
  wmSig : Bool := false
  wmInt : Bool := false
  px0 : Nat := 0
  py0 : Nat := 0
  width : Nat := 0
  height : Nat := 0
  dst : Nat := 0
  src : Nat := 0
  tmp : Nat := 0
  gateLine : Nat := 0
  dstOff : Nat := 0
  srcOff : Nat := 0
  dstPitch : Nat := 0
  srcPitch : Nat := 0
  pat : Nat := 0
  fg : Nat := 0
  bg : Nat := 0
  wmRow : Nat := 0
  wmBit : Nat := 0
deriving DecidableEq, Repr, Inhabited

/-- A job of an asynchronous operation that still waits for earlier operations (R227, R252). -/
inductive Job where
  /-- `CRCRUN`: unit, handle, offset, length -/
  | crcRun (cu : Fin 7) (h off len : Nat)
  /-- `PLANCOMMIT`: slot, wall frame named by AT, the form that faults on refusal -/
  | commit (slot : Fin 8) (wallFrame : Option Nat) (f : Bool)
  /-- `BIST`: BLOCK_ID and instance of the unit, the memory test, how the test ends -/
  | bist (block inst : Nat) (mem : Bool) (run : BistRun)
deriving DecidableEq, Repr, Inhabited

/-- An asynchronous operation of a thread (R233). -/
structure Async where
  op : Nat
  /-- the scratch word, as a word index 0 to 511 -/
  word : Nat
  /-- address of the instruction -/
  addr : Nat
  /-- the job, while it waits for earlier operations -/
  todo : Option Job := none
  res : Option Done := none
  /-- it is a blit: blits of one thread complete in issue order (R226) -/
  blt : Bool := false
deriving DecidableEq, Repr, Inhabited

/-- What a held instruction keeps from its issue: its turn among held instructions, and the scratch (R227, R250). -/
structure Snap where
  turn : Nat
  scratch : List (Nat × Reg)
deriving DecidableEq, Repr, Inhabited

/-- One sequencer thread (R214-R219, R231-R233). -/
structure Thread where
  st : TState := .idle
  /-- g0 to g15; entry 0 is never read (R218) -/
  g : Vector Reg 16 := Vector.replicate 16 0
  fl : Flags := {}
  pc : Nat := 0
  prog : Handle := 0
  entry : BitVec 32 := 0
  recDone : Bool := false
  intDone : Bool := false
  /-- return addresses, latest first; at most 16 (R219) -/
  stack : List Nat := []
  /-- scratch words by index, ascending, unlisted 0 (R218) -/
  scratch : List (Nat × Reg) := []
  evt : BitVec 32 := 0
  wait : Wait := .none
  /-- RD and RC of the instruction that waits -/
  wRd : BitVec 4 := 0
  wRc : BitVec 4 := 0
  /-- the time at which the wait times out (R231), its NOFAULT form, the line it waits for has started -/
  wEnd : Option Nat := none
  wNoFault : Bool := false
  wHit : Bool := false
  /-- address of the instruction that waits -/
  wAddr : Nat := 0
  done : Option Done := none
  async : List Async := []
  snap : Option Snap := none
deriving DecidableEq, Repr, Inhabited

/-- A region of the scoreboard (R227): a byte range of a buffer rounded to 64 bytes, or panel rows. -/
inductive Region where
  | bytes (h : Nat) (lo hi : Nat)
  | rows (lo hi : Nat)
deriving DecidableEq, Repr, Inhabited

/-- The controlled units of R252. -/
inductive CtrlUnit where
  | stream (n : Nat)
  | slot (n : Nat)
  | cu (n : Nat)
  | queue (n : Nat)
  | tg (n : Nat)
  | audio
  | trim
  | panel
  /-- a unit under self-test (R500) -/
  | svc (n : Nat)
deriving DecidableEq, Repr, Inhabited

/-- A unit operation registered at issue (R227), in issue order. -/
structure SbOp where
  op : Nat
  thread : Tid
  /-- the thread waits for it -/
  sync : Bool
  units : List CtrlUnit := []
  /-- handles it names: their buffers are referenced (R224) -/
  handles : List Nat := []
  reads : List Region := []
  writes : List Region := []
  /-- a read of the frame pipeline: reader, and hogel row or line (R228) -/
  pipe : Option (Nat × Nat) := none
deriving DecidableEq, Repr, Inhabited

/-- The controlled resources of R236, in its order. -/
inductive Resource where
  | light
  | rails
  | selfRefresh
  | planSlots
  | stream
  | tgDiscipline
  | service
  | keySlots
deriving DecidableEq, Repr, Inhabited

/-- The levels of R236, highest first. -/
inductive Level where
  | hardware
  | security
  | group
  | host
deriving DecidableEq, Repr, Inhabited

/-- A resource held at a level by an order in force, with the order's opcode (R236, R238). -/
structure Hold where
  res : Resource
  level : Level
  op : Nat
deriving DecidableEq, Repr, Inhabited

/-! ### Buffers and memory (09, 13) -/

/-- One entry of the buffer table (R220). LOCKED and the reference count are computed from the rest of the state. -/
structure Buf where
  base : Nat
  len : Nat
  /-- none: the device or the security processor -/
  owner : Option Tid
  isSealed : Bool := false
  shared : Bool := false
  dying : Bool := false
  mapChecked : Bool := false
deriving DecidableEq, Repr, Inhabited

/-- Why a burst reads uncorrectable (R316). -/
inductive BurstBad where
  | wcode
  | tag
deriving DecidableEq, Repr, Inhabited

/-- A run of a port's request that waits at its subchannel: at most 512 bytes from `pa` (R310, R322-R324). -/
structure DramReq where
  id : Nat
  port : Nat
  pa : Nat
  len : Nat
  write : Bool
  /-- urgency level 0 to 3 -/
  urg : Fin 4 := 0
  /-- what a write writes (R331) -/
  data : List Byte := []
  /-- the write-back of a corrected burst, which a write of that burst by a port makes needless (R316) -/
  wb : Bool := false
deriving DecidableEq, Repr, Inhabited

/-- A command that a retry buffer keeps (R331): a granted request with the data of a write, or a refresh or RFM of the banks whose
number within their group it names, of all banks with none. -/
inductive RetryCmd where
  | req (r : DramReq)
  | refresh (bank : Option Nat)
  | rfm (bank : Option Nat)
deriving DecidableEq, Repr, Inhabited

/-- A port throttled on a bank: the intervals left, and the time of its latest ACT there (R329). -/
structure Throttle where
  port : Nat
  sub : Nat
  bank : Nat
  left : Nat
  last : Nat
deriving DecidableEq, Repr, Inhabited

/-- The keys of a boot: K1a and K1b of the cipher, K2 and H of the tag (R314, R315, R317). -/
structure DramKeys where
  k1a : BitVec 256 := 0
  k1b : BitVec 256 := 0
  k2 : BitVec 256 := 0
  h : BitVec 128 := 0
deriving DecidableEq, Repr, Inhabited

/-- A bank of a subchannel: the open row, RAA (R328), ACTs of this refresh interval by port (R329). -/
structure Bank where
  row : Option Nat := none
  raa : Nat := 0
  acts : List (Nat × Nat) := []
deriving DecidableEq, Repr, Inhabited

/-- One subchannel (R327-R332). -/
structure SubCh where
  banks : Vector Bank 32 := Vector.replicate 32 {}
  /-- refreshes due and not yet issued (R330) -/
  owed : Nat := 0
  /-- refreshes pulled in ahead -/
  ahead : Nat := 0
  /-- bank index of the next REFsb -/
  nextRef : Fin 32 := 0
  /-- banks with an RFM due (R328) -/
  rfm : List (Fin 32) := []
  doubled : Bool := false
  /-- retry buffer: commands issued, newest last, at most 64 (R331) -/
  retry : List RetryCmd := []
  /-- times of the latest ALERT_n assertions, newest first (R332) -/
  alerts : List Nat := []
  replaying : Bool := false
  failed : Bool := false
  ce : Count := 0
  ue : Count := 0
  tagFail : Count := 0
  replay : Count := 0
  /-- time of the last record 0x0D01 (R337) -/
  lastCe : Option Nat := none
deriving DecidableEq, Repr, Inhabited

/-- DRAM self-refresh (R334, R335). -/
inductive SrPhase where
  | out
  | entering
  | inSr
deriving DecidableEq, Repr, Inhabited

/-- The Memory Hall (13). -/
structure Dram where
  rate : Nat := 0
  density : Nat := 0
  capar : Bool := false
  idleSr : Bool := false
  sr : SrPhase := .out
  srEntries : Count := 0
  bar4Discard : Count := 0
  epochRetired : Count := 0
  /-- bursts that read uncorrectable, by burst address, ascending (R316, R551) -/
  bad : List (Nat × BurstBad) := []
  /-- symbol errors of stored bursts, by burst address, ascending: what the next read of the burst meets (R312; DESIGN CHOICE, log 12) -/
  faults : List (Nat × List SymErr) := []
  keys : DramKeys := {}
  /-- epochs other than 0, by granule, ascending (R318) -/
  epochs : List (Nat × Nat) := []
  retired : List Nat := []
  epochUe : List Nat := []
  subs : Vector SubCh 16 := Vector.replicate 16 {}
  urgent3 : Vector Count 24 := Vector.replicate 24 0
  throttle : Vector Count 24 := Vector.replicate 24 0
  throttled : List Throttle := []
  /-- 512-byte runs of the memory in zeroing that each subchannel has written (R318, R320) -/
  zeroed : Vector Nat 16 := Vector.replicate 16 0
  /-- requests not yet granted, newest first -/
  reqs : List DramReq := []
  /-- bytes charged to ports P14 to P19 in this frame period (R325) -/
  spent : Vector Nat 6 := Vector.replicate 6 0
  raaimt : Nat := 0
  raammt : Nat := 0
  raadec : Nat := 0
  zqDone : Nat := 0
  dqsDone : Nat := 0
deriving DecidableEq, Repr, Inhabited

/-- Freed memory that the device writes with zeros before it is reused: a granule of a sealed buffer, or the range of an unsealed one
(R225, R318). -/
structure ZeroJob where
  lo : Nat
  hi : Nat
  isSealed : Bool
deriving DecidableEq, Repr, Inhabited

/-- The buffer table and the allocator (R220, R221, R225). -/
structure Bufs where
  table : List (Nat × Buf) := []
  /-- handles freed, the one freed longest ago first -/
  freed : List Nat := []
  /-- the lowest handle never used -/
  fresh : Nat := 1
  /-- memory freed and not yet rewritten, the one freed longest ago first (R225, R318) -/
  zeroing : List ZeroJob := []
deriving DecidableEq, Repr, Inhabited

/-! ### Hardware queues (12) -/

/-- A watermark word but for its live bits (Table 10-15). -/
structure Wm where
  lowCross : BitVec 8 := 0
  highCross : BitVec 8 := 0
  lowEvt : Bool := false
  highEvt : Bool := false
deriving DecidableEq, Repr, Inhabited

/-- QSTATE (Table 12-4). -/
inductive QKind where
  | unconfigured
  | small
  | large
deriving DecidableEq, Repr, Inhabited

/-- One hardware queue (R293-R304). -/
structure Queue where
  kind : QKind := .unconfigured
  cap : Nat := 0
  high : Nat := 0
  low : Nat := 0
  cut : Nat := 0
  store : Handle := 0
  hostR : Bool := false
  hostW : Bool := false
  /-- items taken behind the reader mark, oldest first: they keep their space (R297) -/
  kept : List (List Byte) := []
  /-- published items, oldest first -/
  ready : List (List Byte) := []
  /-- items completed behind the writer mark: unpublished -/
  unpub : List (List Byte) := []
  /-- the item being written -/
  part : List Byte := []
  wmark : Bool := false
  rmark : Bool := false
  /-- the host's words are discarded up to its next end mark (R298) -/
  discard : Bool := false
  /-- the item being written passed SPACE (R304) -/
  past : Bool := false
  /-- the device reader has begun the item being written (R296, R298) -/
  rdMid : Bool := false
  /-- of the items kept, published and unpublished, in order: a CLS item of a fabric port, an item that came over the fabric (R54, R58) -/
  tags : List Bool := []
  /-- write and read pointer: bytes within the capacity (R295, R302) -/
  wpos : Nat := 0
  rpos : Nat := 0
  /-- a field whose two copies differ: its next update shows it (R302) -/
  upset : Option PtrField := none
  wm : Wm := {}
  partialDrop : Count := 0
  lost : Count := 0
  resets : Count := 0
  itemBase : Nat := 0
  subs : BitVec 8 := 0
deriving DecidableEq, Repr, Inhabited

/-! ### Frame plans (08) -/

/-- A depth layer entry (Table 08-2). -/
structure LayerEntry where
  w : Nat := 0
  h : Nat := 0
  s : Nat := 0
  d : Int := 0
  ox : Int := 0
  oy : Int := 0
  /-- [31:24] of OX and OY equal bit 23 -/
  oOk : Bool := true
  imgBuf : Nat := 0
  ringLines : Nat := 0
  bankX : Nat := 0
  bankY : Nat := 0
  en : Bool := false
  edge : Bool := false
  late : Nat := 0
  srcStream : Nat := 0
  srcLayer : Nat := 0
deriving DecidableEq, Repr, Inhabited

/-- A graphic layer entry (Table 08-3). -/
structure GfxEntry where
  fmt : Nat := 0
  buf : Nat := 0
  w : Nat := 0
  h : Nat := 0
  pitch : Nat := 0
  x0 : Int := 0
  y0 : Int := 0
  pal : Nat := 0
  mask : Nat := 0
  col : Nat := 0
deriving DecidableEq, Repr, Inhabited

/-- A plan, field by field (Table 08-1). -/
structure Plan where
  hasFb : Bool := false
  fbSlot : Nat := 0
  planId : BitVec 32 := 0
  hh : Nat := 1
  hv : Nat := 1
  nhx : Nat := 1
  nhy : Nat := 1
  flipU : Bool := false
  flipV : Bool := false
  subpix : Bool := false
  rateNum : Nat := 0
  rateDen : Nat := 0
  lineSym : Nat := 0
  vbl : Nat := 0
  tg0Src : Nat := 2
  gReq : Nat := 0
  load : BitVec 16 := 0
  src : List Nat := []
  bgR : Nat := 0
  bgG : Nat := 0
  bgB : Nat := 0
  gEn : BitVec 8 := 0
  m : List Int := []
  ttBuf : Nat := 0
  dither : Nat := 0
  umapFmt : Nat := 0
  outMode : Nat := 0
  capEn : Bool := false
  cpLoop : Bool := false
  umapBuf : Nat := 0
  fsBuf : Nat := 0
  fsCount : Nat := 0
  capBuf : Nat := 0
  capCount : Nat := 0
  cpBuf : Nat := 0
  cpFirst : Nat := 0
  cpCount : Nat := 0
  res : List Nat := []
  streamMb : Nat := 0
  slotEpoch : Nat := 0
  isoTx : List Nat := []
  isoRx : List Nat := []
  masks : List (BitVec 256) := []
  gfx : List GfxEntry := []
  layers : List LayerEntry := []
  /-- (TX, TY) by view index, raw S4.12 (Table 02-2) -/
  views : List (Int × Int) := []
  /-- bytes that no table assigns are zero (R189) -/
  rsvdOk : Bool := true
deriving DecidableEq, Repr, Inhabited

/-- A coefficient bank: 64 phases of 8 signed coefficients (R104). -/
abbrev CoefBank := List (List Int)

/-- The commit-time copies of one plan but for its banks (R196). -/
structure Copies where
  tt : List Nat := []
  pals : List (Nat × List (BitVec 32)) := []
  masks : List (Nat × List Byte) := []
deriving DecidableEq, Repr, Inhabited

/-- Plan slot states, numbered as `PLANSLOT` STATE returns them (Table 08-4, R261). -/
inductive SlotState where
  | empty
  | loaded
  | armed
  | inForce
  | standby
  | fbInForce
deriving DecidableEq, Repr, Inhabited

/-- A plan slot (R193). -/
structure Slot where
  st : SlotState := .empty
  /-- the image, field by field -/
  plan : Plan := {}
  copies : Copies := {}
  /-- the copies of its fall-back plan, read with its own (R196) -/
  fbCopies : Copies := {}
  /-- shadow copies of banks loaded at commit (R107) -/
  banks : List (Nat × CoefBank) := []
deriving DecidableEq, Repr, Inhabited

/-- Which plan governs a frame (R200). -/
inductive GovKind where
  | primary
  | fallback
  | minimal
deriving DecidableEq, Repr, Inhabited

/-- The plan that governs a frame, with the copies it uses (R198-R201, R530). -/
structure Gov where
  kind : GovKind
  /-- slot of the selected (primary) plan -/
  prim : Fin 8
  /-- slot of the plan itself, for `minimal` that of the selected plan -/
  slot : Fin 8
  plan : Plan
  copies : Copies
  /-- the frame is the first of the selected plan (R108, R186), whose banks come into force with it -/
  first : Bool := false
  banks : List (Nat × CoefBank) := []
deriving DecidableEq, Repr, Inhabited

/-- The plan status counters (Table 08-11). -/
structure PlanStatus where
  frames : Count := 0
  frameHolds : Count := 0
  frameDrop : Count := 0
  heldPeriods : Count := 0
  culledTiles : Count := 0
  cullLate : Count := 0
  ringUe : Count := 0
  coefUe : Count := 0
  gfxClamp : Count := 0
  gfxUe : Count := 0
  mapUe : Count := 0
  mapLockedWr : Count := 0
  fsRepeat : Count := 0
  cacheUe : Count := 0
  fallbacks : Count := 0
  sbTorn : Count := 0
  late : Vector Count 64 := Vector.replicate 64 0
  paramLate : Vector Count 64 := Vector.replicate 64 0
deriving DecidableEq, Repr, Inhabited

/-- Plan selection (08). -/
structure PlanSt where
  slots : Vector Slot 8 := Vector.replicate 8 {}
  /-- the IN_FORCE plan, even when displaced -/
  prim : Option (Fin 8) := none
  armed : Option (Fin 8) := none
  /-- wall frame that `PLANCOMMIT.AT` named -/
  armedAt : Option Nat := none
  /-- level and opcode of the order that armed it (R238) -/
  armedBy : Level × Nat := (.host, 0x31)
  /-- governed the frame of the period before (R199), governs that of the current period, and of the next -/
  prev : Option Gov := none
  cur : Option Gov := none
  next : Option Gov := none
  /-- triggers of Table 08-10, by row -/
  trig : BitVec 4 := 0
  /-- record 0x0802 written in this trigger episode (R209) -/
  episode : Bool := false
  status : PlanStatus := {}
  /-- wall frame at which the plan selected for the current frame first came into force (R186) -/
  w0 : Option Nat := none
deriving DecidableEq, Repr, Inhabited

/-- Geometry values of a layer (R31). -/
structure Geo where
  s : Nat := 0
  ox : Int := 0
  oy : Int := 0
  d : Int := 0
deriving DecidableEq, Repr, Inhabited

/-- What a depth layer presents (R66, R85, R211). -/
structure LayerRt where
  /-- the buffer of the image presented, and the half of it that synthesis reads -/
  buf : Nat := 0
  half : Bool := false
  /-- it has had a complete image (R509), of this size -/
  hasImg : Bool := false
  w : Nat := 0
  h : Nat := 0
  /-- contributes (0,0,0,0) in this frame -/
  clear : Bool := true
  geo : Geo := {}
  /-- values for the frame being decoded, once a set for it applies (R71) -/
  geoNext : Option Geo := none
  /-- values meant for a frame under FRAME_HOLD (R211) -/
  geoHeld : Option Geo := none
  /-- the last decoded image is EMPTY (R67, R70) -/
  empty : Bool := false
deriving DecidableEq, Repr, Inhabited

/-! ### Synthesis, composition, output (05, 06, 07) -/

/-- A ring slot: the layer line it holds, its samples, tile columns zeroed (R117) and culled (R129). -/
structure RingLine where
  line : Nat
  data : List Byte := []
  zeroed : List Nat := []
  culled : List Nat := []
deriving DecidableEq, Repr, Inhabited

/-- Ray synthesis (05). -/
structure Synth where
  banks : Vector CoefBank 16 := Vector.replicate 16 (List.replicate 64 [0, 0, 0, 1024, 0, 0, 0, 0])
  /-- galleries whose replica is rewritten before their next hogel row (R110) -/
  replicaBad : List Nat := []
  /-- the gallery of each place, none for a place that lost its gallery (R118, R529) -/
  places : List (Option Nat) := []
  /-- galleries lost to a device removal after the arming point of the next frame (R118) -/
  lost : List Nat := []
  /-- hogel rows finished, by place -/
  done : List Nat := []
  /-- rings of the 64 layers: lines held, newest first -/
  rings : Vector (List RingLine) 64 := Vector.replicate 64 []
  /-- next layer line to enter each ring -/
  nextLine : Vector Nat 64 := Vector.replicate 64 0
  /-- the cull pass has run for this frame (R130) -/
  culled : Bool := false
  /-- layers whose needed tiles are marked; and per layer the tiles not needed -/
  cullTiles : List (Nat × List Nat) := []
  /-- bands drawn on the background have written record 0x1706 for this frame (R529) -/
  logged1706 : Bool := false
deriving DecidableEq, Repr, Inhabited

/-- An accepted notice package (R416), with the set of page buffers that its pages take (R147). -/
structure Pkg where
  seq : BitVec 64
  nhx : Nat
  nhy : Nat
  pageCount : Nat
  pinBind : List Nat
  body : List Byte
  /-- fabric coordinates at expansion (R417) -/
  row : Nat := 0
  col : Nat := 0
  set : Nat := 0
deriving DecidableEq, Repr, Inhabited

/-- A verified stream activation (R419). -/
structure Activation where
  start : Nat
  stop : Nat
  page : Nat
deriving DecidableEq, Repr, Inhabited

/-- The page shown: a package page, the built-in page, none (R147). -/
inductive Page where
  | none
  | builtIn
  | page (n : Nat)
deriving DecidableEq, Repr, Inhabited

/-- Composition, the protected layer and the checks at scan-out (06). -/
structure Comp where
  /-- graphic rows read: layer, hogel row, row bytes, byte ranges that stayed uncorrectable (R145, R146) -/
  gfxLine : List (Nat × Nat × List Byte × List (Nat × Nat)) := []
  psum : BitVec 64 := 0
  /-- a page word stayed uncorrectable in this frame (R157) -/
  pageUe : Bool := false
  alive : BitVec 8 := 0
  page : Page := .none
  source : BitVec 2 := 0
  /-- page chosen for the frame in composition -/
  chosen : Bool := false
  /-- the checks at the end of the frame under way have been made -/
  ended : Bool := true
  pins : BitVec 4 := 0
  /-- consecutive samples at 1 and at 0, a rise was seen (R149) -/
  run1 : Vector Nat 4 := Vector.replicate 4 0
  run0 : Vector Nat 4 := Vector.replicate 4 0
  rise : BitVec 4 := 0
  noticeGlitch : Count := 0
  pageFail : Count := 0
  codeFail : Count := 0
  aliveFail : Count := 0
  failRun : BitVec 8 := 0
  /-- consecutive failing frames with a page shown; consecutive passing frames (R160) -/
  pageRun : Nat := 0
  passRun : Nat := 0
  lightHeld : Bool := false
  verified : Bool := false
  /-- running values of CU7 and of the second unit (R158) -/
  crcSeen : BitVec 32 := 0xFFFFFFFF
  crcMade : BitVec 32 := 0xFFFFFFFF
  /-- alive count CU7 expects; none for a fresh base (R159, R353) -/
  expectAlive : Option (BitVec 8) := none
  /-- alive count of the last frame at the lanes -/
  laneAlive : BitVec 8 := 0
  /-- a line of the frame at the lanes has been sent -/
  sent : Bool := false
  pkg : Option Pkg := none
  /-- the package in expansion, and the one whose page buffers are complete (R151, R418) -/
  pkgNext : Option Pkg := none
  pkgDone : Option Pkg := none
  acts : List Activation := []
deriving DecidableEq, Repr, Inhabited

/-- A capture job (R181-R184). STATE is 0 EMPTY, 1 RUNNING, 2 COMPLETE, 3 FAILED. -/
structure Capture where
  buf : Handle := 0
  count : Nat := 0
  state : BitVec 8 := 0
  reason : BitVec 8 := 0
  frames : Nat := 0
  used : Nat := 0
  maxFrame : Nat := 0
  /-- lines of the frame not yet coded, oldest first -/
  lines : List (List Nat) := []
  /-- tile rows of the frame coded; records so far; directory entries of this and of the previous frame -/
  rows : Nat := 0
  frameStart : Nat := 0
  dir : List Nat := []
  prevDir : List Nat := []
  w : Nat := 0
  h : Nat := 0
  /-- wall frame from which the lanes carry frames of the job -/
  start : Nat := 0
deriving DecidableEq, Repr, Inhabited

/-- A frame in the frame store: the slot and where it lies, its wall frame, its alive count, the page that it shows, its page check
(R160, R174, R175). -/
structure FsFrame where
  slot : Nat := 0
  buf : Nat := 0
  w : Nat := 0
  h : Nat := 0
  frame : Nat := 0
  alive : BitVec 8 := 0
  full : Bool := false
  page : Page := .none
  pageOk : Bool := true
deriving DecidableEq, Repr, Inhabited

/-- The output pixel path (07, 02). -/
structure OutPath where
  /-- rays placed: (panel line, panel pixel, three codes in subpixel order) (R39) -/
  weave : List (Nat × Nat × List Nat) := []
  /-- next hogel row to release (R40) -/
  nextRow : Nat := 0
  /-- lines released to the lane packer, by panel line (R173) -/
  lines : List (Nat × List Nat) := []
  /-- frames in the frame store; a full one is completely written (R175, R176) -/
  slots : List FsFrame := []
  /-- the frame that scan-out reads, and that at the lanes -/
  scan : FsFrame := {}
  lane : FsFrame := {}
  /-- `TGADDR` offset in FS_BUF (R348) -/
  pin : Option Nat := none
  /-- next line whose fetch begins, and the period it is for, as `count` numbers it (R347) -/
  fetchLine : Nat := 0
  fetchOf : Nat := 0
  /-- handle, offset and panel width of a fetch that has begun and waits for a write (R228) -/
  fetchAt : Option (Nat × Nat × Nat) := none
  /-- wall frame number of the period before (R175) -/
  prevFrame : Nat := 0
  panelId : BitVec 64 := 0
  /-- wall frame number F of the present period (R166) -/
  frame : Nat := 0
  /-- periods begun with a plan in force since POR_N (R166) -/
  count : Nat := 0
  /-- tile rows decoded ahead in CACHE mode (R177) -/
  cacheRow : Nat := 0
  /-- payload bytes of the line sent last, with its row -/
  sent : List Byte := []
  sentRow : Nat := 0
  /-- the packets of that line, by lane; the TEST packets of the latest bring-up, by lane (R360, R362, R367) -/
  packets : List (Nat × List Byte) := []
  tests : List (Nat × List (List Byte)) := []
deriving DecidableEq, Repr, Inhabited

/-! ### Streams and decoders (03, 04) -/

/-- SSTATE (Table 10-14). -/
inductive SState where
  | detached
  | paused
  | playing
  | stopped
deriving DecidableEq, Repr, Inhabited

/-- A packet stored in the clip buffer: where it lies and the header facts that order it (R59, R64). -/
structure Pkt where
  off : Nat
  len : Nat
  ty : Nat
  frame : Nat
  layer : Nat
  bcast : Bool
  landing : Bool
  /-- the landing index entry that names it (R63) -/
  entry : Option Nat := none
deriving DecidableEq, Repr, Inhabited

/-- One SEQ series of a clip (R57, R64). -/
structure Series where
  lastSeq : Option (BitVec 32) := none
  ingest : Option Nat := none
deriving DecidableEq, Repr, Inhabited

/-- The values of a CLIP_START (Table 03-3). -/
structure Clip where
  rateNum : Nat
  rateDen : Nat
  first : Nat
  last : Option Nat
  mask : BitVec 64
  gap : Nat
  loopable : Bool
deriving DecidableEq, Repr, Inhabited

/-- The values of a CLIP_END (R48). -/
structure ClipEnd where
  final : Nat
  loopTo : Nat
  loop : Bool
deriving DecidableEq, Repr, Inhabited

/-- A pending seek (R69, R263). -/
structure Seek where
  landing : Nat
  asked : Nat
  who : Deliver
deriving DecidableEq, Repr, Inhabited

/-- What the FRAME_START and FRAME_END of one series say of the frame being decoded (R67). -/
structure SerCount where
  /-- TG_COUNT and PARAM_COUNT of the FRAME_START; PKT_COUNT of the FRAME_END -/
  saidTg : Option Nat := none
  saidPm : Option Nat := none
  saidPkt : Option Nat := none
deriving DecidableEq, Repr, Inhabited

/-- The frame a stream decodes (R66, R67). -/
structure SDec where
  frame : Nat
  /-- packets of the frame handed to engines; those whose tag or CRC check has passed (R67, R94) -/
  sent : List Nat := []
  ok : List Nat := []
  /-- (CLS layer, first tile, count) registered (R93) -/
  cov : List (Nat × Nat × Nat) := []
  /-- depth layers made incomplete -/
  bad : List Nat := []
  /-- layers named by the FRAME_STARTs that passed -/
  mask : BitVec 64 := 0
  /-- a FRAME_START failed its check -/
  fsFail : Bool := false
  /-- its predecessor in play was frame − 1 (R68) -/
  follows : Bool := false
  node : SerCount := {}
  bc : SerCount := {}
  media : BitVec 64 := 0
deriving DecidableEq, Repr, Inhabited

/-- One stream (R53-R74, R260). -/
structure Stream where
  st : SState := .detached
  clipId : BitVec 16 := 0
  buf : Handle := 0
  ring : Bool := false
  high : Nat := 0
  low : Nat := 0
  /-- offset at which the next packet is stored -/
  wpos : Nat := 1048576
  pkts : List Pkt := []
  serN : Series := {}
  serB : Series := {}
  started : Bool := false
  /-- the latest stored CLIP_START -/
  csPkt : Option Pkt := none
  clip : Option Clip := none
  clipEnd : Option ClipEnd := none
  /-- landings since `SATTACH` (R63) -/
  landings : Nat := 0
  wA : Nat := 0
  n0 : Nat := 0
  position : Option Nat := none
  mediaTime : BitVec 64 := 0
  /-- clip frame presented last, if it was decoded (R68); clip frame presented last (R303) -/
  shown : Option Nat := none
  last : Option Nat := none
  /-- waits for the next frame boundary: pause, detach -/
  pauses : List Deliver := []
  detach : Option Deliver := none
  seek : Option Seek := none
  /-- seeks that later ones replaced in this wall frame (R69, R263) -/
  superseded : List Deliver := []
  ctr : Vector Count 33 := Vector.replicate 33 0
  wm : Wm := {}
  stalled : Bool := false
  dec : Option SDec := none
deriving DecidableEq, Repr, Inhabited

/-- A packet queued at a decoder engine (R91, R93). -/
structure EngPkt where
  stream : Fin 16
  pkt : Pkt
  tiles : Nat
  registered : Bool := false
  overlap : Bool := false
deriving DecidableEq, Repr, Inhabited

/-- A stream key (R51, R409). -/
structure Key where
  key : BitVec 256
  salt : BitVec 32
  fk : Nat
  notAfter : Nat
deriving DecidableEq, Repr, Inhabited

/-- A key slot (R51). -/
structure KeySlot where
  cur : Option Key := none
  prev : Option Key := none
deriving DecidableEq, Repr, Inhabited

/-! ### Blit engine and CRC units (11, 21) -/

/-- A blit issued to the engine (R277, R286-R292). -/
structure BltOp where
  op : Nat
  thread : Tid
  who : Deliver
  d : BltDesc
  /-- rows of the (second) pass completed; first pass of R285 under way -/
  rows : Nat := 0
  firstPass : Bool := false
  /-- elements of the row under way that are done, in the order of processing (R284, R289) -/
  done : Nat := 0
  /-- it waits at its gate; the line of the gate has started (R287) -/
  gateWait : Bool := false
  gateHit : Bool := false
  ungated : Bool := false
  /-- the result once it is settled before the end (NEED_TEMP, NO_BUDGET, MEM_UE) -/
  res : Option (BitVec 8) := none
  /-- a buffer was sealed between issue and start (R223, R240) -/
  flt : Option (Flt × BitVec 8) := none
deriving DecidableEq, Repr, Inhabited

/-- The blit engine: the first 64 of `queue` are its queue, the others wait for an entry (R277). -/
structure Blt where
  queue : List BltOp := []
  cur : Option BltOp := none
  /-- bytes charged in this frame period (R289) -/
  spent : Nat := 0
deriving DecidableEq, Repr, Inhabited

/-- Configuration of a CRC unit (Table 10-20). -/
structure CuCfg where
  width : Nat := 32
  refin : Bool := true
  refout : Bool := true
  alive : Bool := false
  poly : Nat := 0x1EDC6F41
  xorout : Nat := 0xFFFFFFFF
deriving DecidableEq, Repr, Inhabited

/-- A CRC unit (R496-R498), with the values `CRCGET` has returned from it (R239 case 6). -/
structure Cu where
  cfg : CuCfg := {}
  run : Reg := 0xFFFFFFFF
  taken : List (CuCfg × Reg) := []
deriving DecidableEq, Repr, Inhabited

/-! ### Timing generators and scan-out (14) -/

/-- TG0_STATE and the audio clock's states (Table 14-2, R470). -/
inductive Disc where
  | free
  | acquiring
  | locked
  | holdover
deriving DecidableEq, Repr, Inhabited

/-- TG0 (R338-R344). -/
structure Tg0 where
  running : Bool := false
  line : Nat := 0
  /-- symbol times from the start of the period to that of the line; length of line 0 (R339) -/
  sym : Nat := 0
  line0 : Nat := 0
  /-- period number of the schedule -/
  period : Nat := 0
  st : Disc := .free
  src : Nat := 2
  phaseErr : Int := 0
  settled : Nat := 0
  /-- corrections applied, newest first, at most 16; their sum at the loss of the source (R343) -/
  hist : List Int := []
  held : Int := 0
  /-- change of line 0 of the next period -/
  corr : Int := 0
  /-- no frame is sent in this period: it was lengthened by a phase step, or the output mode changed (R201, R341) -/
  noFrame : Bool := false
  stepNext : Bool := false
  refK : Nat := 0
  refValid : Bool := false
  /-- 16 times T_ref: the sum of the intervals whose mean it is (R342) -/
  tRef : Nat := 0
  /-- the last 16 accepted intervals, newest first (R342) -/
  ivals : List Nat := []
  refLoss : Count := 0
  refGlitch : Count := 0
  phaseSteps : Count := 0
deriving DecidableEq, Repr, Inhabited

/-- The TGSET block (Table 14-5). -/
structure TgSet where
  mode : Nat := 0
  pol : Bool := false
  lines : Nat := 0
  lsym : Nat := 0
  rm : Nat := 0
  rn : Nat := 0
  pline : Nat := 0
  plen : Nat := 0
  offset : Nat := 0
deriving DecidableEq, Repr, Inhabited

/-- TG1 or TG2 (R354, R355). -/
structure Tg where
  set : TgSet := {}
  staged : Option TgSet := none
  who : Deliver := .nobody
  sym : Nat := 0
  line : Nat := 0
  /-- frame starts since the setting came into force (R355) -/
  starts : Nat := 0
  /-- level of SYNC_OUT -/
  out : Bool := false
  st : Disc := .free
deriving DecidableEq, Repr, Inhabited

/-- Scan states (Table 14-4). -/
inductive ScanState where
  | scanning
  | entering
  | holding
  | updating
  | exiting
deriving DecidableEq, Repr, Inhabited

/-- A request of R350 that names panel rows, and who waits for it. -/
structure RowReq where
  lo : Nat
  hi : Nat
  /-- a `PCLEAR` -/
  clear : Bool
  who : Deliver
  op : Nat := 0
  /-- taken into the period under way -/
  active : Bool := false
deriving DecidableEq, Repr, Inhabited

/-- The scan state and the row-driver outputs (R345-R353). -/
structure Scan where
  st : ScanState := .scanning
  /-- the entry point has passed and HOLDING is not yet reached -/
  pastEntry : Bool := false
  /-- who waits for `PSELF.ENTER`, `PSELF.EXIT` -/
  enterTo : List Deliver := []
  exitTo : List Deliver := []
  /-- an exit is asked for at the next period start -/
  wantExit : Bool := false
  reqs : List RowReq := []
  /-- the outputs of the line under way: GSP pulses, the `GCK` that rises, the one that is still high, GOE pulses (R345) -/
  gsp : Bool := false
  gck : BitVec 4 := 0
  gckOld : BitVec 4 := 0
  goe : Bool := false
  /-- the row sent in the line under way -/
  sentRow : Option Nat := none
  /-- lines whose active part has begun in this period -/
  activeBegun : Bool := false
  /-- a clearing period with no plan in force is under way (R383) -/
  clearing : Bool := false
deriving DecidableEq, Repr, Inhabited

/-! ### Lanes and panel power (15, 16) -/

/-- Pair states (Table 15-4). -/
inductive PairState where
  | off
  | training
  | aligned
  | realign
  | failed
  | held
deriving DecidableEq, Repr, Inhabited

/-- A lane pair and its driver (Table 15-5, R390, R392). -/
structure Pair where
  crcErr : BitVec 16 := 0
  losses : BitVec 8 := 0
  fails : BitVec 4 := 0
  st : PairState := .off
  /-- DRV_ID as identified -/
  drvId : Option (BitVec 32) := none
  pollFails : Nat := 0
  /-- TRAIN blocks have been sent in this period's blanking (R370) -/
  trained : Bool := false
  /-- failed attempts of the bring-up of a quad in RETURNING (R368) -/
  tries : Nat := 0
deriving DecidableEq, Repr, Inhabited

/-- PSTATE (Table 16-3). -/
inductive PState where
  | down
  | rising
  | up
  | falling
deriving DecidableEq, Repr, Inhabited

/-- A rail sequence under way (R380, R381). -/
structure RailSeq where
  up : Bool
  /-- the rail it waits on -/
  rail : Nat
  since : Nat
  /-- RAIL_FAIL is returned at the end -/
  fails : Bool := false
  who : Deliver
deriving DecidableEq, Repr, Inhabited

/-- Panel power (16). -/
structure Pwr where
  st : PState := .down
  pen : BitVec 6 := 0
  dsch : BitVec 4 := 0xF
  pgd : BitVec 6 := 0
  lightReq : Bool := false
  cleared : Bool := false
  huReady : Bool := false
  chgEn : Bool := false
  pfailLatch : Bool := false
  crackFail : Bool := false
  /-- `PFAIL_N` counts as low (R384) -/
  pfailLow : Bool := false
  seq : Option RailSeq := none
  /-- answers of the drivers in this power-up -/
  answers : List DriverAnswer := []
  rows : Nat := 0
  /-- row ranges cleared since the rails came up (R383) -/
  clearedRows : List (Nat × Nat) := []
  /-- time at which the response of Table 16-4 began -/
  resp : Option Nat := none
  /-- a response acted since the last `PPOWER.UP` (R382) -/
  latched : Bool := false
  /-- confirmation runs of the charge window (R387) -/
  winIn : Nat := 0
  winOut : Nat := 0
  chgWin : Bool := false
  /-- write bytes of the latest transaction of the panel management bus (R270) -/
  pmb : List Byte := []
deriving DecidableEq, Repr, Inhabited

/-! ### Security (17) -/

/-- An OWNER fuse slot (R395). -/
structure OwnerSlot where
  hash : BitVec 384 := 0
  used : Bool := false
  revoked : Bool := false
deriving DecidableEq, Repr, Inhabited

/-- A roster entry (Table 17-6). -/
structure RosterEntry where
  serial : BitVec 64
  node : BitVec 12
  keyId : BitVec 128
deriving DecidableEq, Repr, Inhabited

/-- A roster (Table 17-6), with the document it came from. -/
structure Roster where
  seq : BitVec 64
  clearOk : Bool
  minCode : Nat
  thrPct : Nat
  noticeKey : BitVec 384
  issuers : List (BitVec 384)
  entries : List RosterEntry
  doc : List Byte
deriving DecidableEq, Repr, Inhabited

/-- A document being reassembled (R400). -/
structure DocAsm where
  docId : BitVec 16
  kind : Nat
  count : Nat
  len : Nat
  frags : List (Nat × List Byte)
deriving DecidableEq, Repr, Inhabited

/-- An item handed to the security processor (R73), with the stream or port it came by. -/
structure SecItem where
  isGrant : Bool
  payload : List Byte
  stream : Option (Fin 16)
deriving DecidableEq, Repr, Inhabited

/-- A stored flash copy of a document or of the lifetime block (R407, R484, R490). -/
structure FlashDoc where
  seq : BitVec 32
  data : List Byte
  valid : Bool
deriving DecidableEq, Repr, Inhabited

/-- The security processor (17). -/
structure Sec where
  own : Vector OwnerSlot 8 := Vector.replicate 8 {}
  bootSvn : Nat := 0
  fwSvn : Nat := 0
  nonce : BitVec 384 := 0
  debug : Bool := false
  debugArmed : Bool := false
  /-- stored SEQ per KIND 0 to 7 -/
  seqs : Vector (BitVec 64) 8 := Vector.replicate 8 0
  roster : Option Roster := none
  docs : List DocAsm := []
  inbox : List SecItem := []
  grantSeq : List (BitVec 384 × BitVec 64) := []
  logged1104 : Bool := false
  keys : List (Nat × KeySlot) := []
deriving DecidableEq, Repr, Inhabited

/-! ### Onaner fabric (18) -/

/-- Port states (Table 18-2). -/
inductive PortState where
  | down
  | training
  | authenticating
  | up
  | backoff
  | absent
  | refused
  | outOfService
deriving DecidableEq, Repr, Inhabited

/-- LINK (Table 18-10). -/
inductive LinkKind where
  | none
  | restricted
  | authenticated
deriving DecidableEq, Repr, Inhabited

/-- A reassembly context (R445). -/
structure Reasm where
  fidx : BitVec 8
  ftype : BitVec 4
  src : BitVec 12
  dst : BitVec 12
  bcast : Bool
  auth : Bool
  bytes : List Byte
deriving DecidableEq, Repr, Inhabited

/-- The partner of a port, as its HELLO and PROOF gave it (R412, R413). -/
structure Partner where
  serial : BitVec 64
  node : BitVec 16
  nonce : BitVec 384
  dik : List Byte
  dek : List Byte
  proved : Bool := false
deriving DecidableEq, Repr, Inhabited

/-- An item that this node originates, waiting to leave on a port: class, header facts, bytes (R443, R444). -/
structure TxItem where
  tc : BitVec 2
  ftype : BitVec 4
  bcast : Bool
  auth : Bool
  ttl : BitVec 8
  detour : Bool
  src : BitVec 12
  dst : BitVec 12
  bytes : List Byte
  /-- bytes already sent, frames already sent -/
  sentBytes : Nat := 0
  fidx : BitVec 8 := 0
deriving DecidableEq, Repr, Inhabited

/-- A frame of the control path or in transit: its header, its payload, the port it came by (none: this node) (R443, R444). -/
structure TxFrame where
  hdr : FabHdr
  payload : List Byte
  source : Option (Fin 8)
deriving DecidableEq, Repr, Inhabited

/-- A fabric port (R425-R448, Table 18-10). -/
structure Port where
  st : PortState := .down
  lanes : Nat := 0
  link : LinkKind := .none
  /-- an outcome that takes effect at the next superframe (R414) -/
  linkNext : Option LinkKind := none
  fails : Nat := 0
  widthChanges : Count := 0
  /-- SYM_ERR UE CRC_ERR TAG_FAIL REPLAY HDR_ERR RESTRICT_DROP TTL_DROP NO_ROUTE FRAG_DROP RX_DROP ISO_LATE -/
  ctr : Vector Count 12 := Vector.replicate 12 0
  groupDrop : Count := 0
  clsDrop : Count := 0
  seen : BitVec 8 := 0
  /-- retraining after lane loss (R433) -/
  retrain : Bool := false
  partner : Option Partner := none
  /-- the nonce and the HELLO this device sent -/
  nonce : BitVec 384 := 0
  hello : List Byte := []
  txKey : BitVec 256 := 0
  rxKey : BitVec 256 := 0
  txSalt : BitVec 32 := 0
  rxSalt : BitVec 32 := 0
  lseqTx : BitVec 64 := 1
  lseqRx : BitVec 64 := 0
  ctx : Vector (Option Reasm) 4 := Vector.replicate 4 none
  mask : BitVec 256 := 0
  maskNext : Option (BitVec 256 × Nat) := none
  slot : Nat := 0
  /-- comets; the control path with transit class 1; transit class 2; transit class 3 (R444) -/
  tx0 : List TxFrame := []
  tx1 : List TxFrame := []
  tx2 : List TxFrame := []
  tx3 : List TxFrame := []
  /-- items this node originates: Q32 + p (R444); items of a roster answer that wait for space there -/
  own : List TxItem := []
  waiting : List TxItem := []
  /-- per class, the source of the item whose frames are being sent: some none for this node (R443) -/
  openTx : Vector (Option (Option (Fin 8))) 4 := Vector.replicate 4 none
  /-- the last comet received from this partner: (TX_TIME, RX_TIME) (R451) -/
  cometTx : Nat := 0
  cometRx : Nat := 0
  /-- planet and HOPS that the partner announced last, its PLANET_SEQ, and when that last increased (R452) -/
  planet : Option Nat := none
  hops : Nat := 255
  planetSeq : BitVec 32 := 0
  freshAt : Option Nat := none
  /-- the partner's node address and the SEQ of its roster in force, once known (R413, R450) -/
  pNode : Option Nat := none
  pSeq : Option Nat := none
  /-- the last frame sent -/
  sent : Option (FabHdr × List Byte) := none
deriving DecidableEq, Repr, Inhabited

/-- TSTATE (Table 18-11). -/
inductive TimeState where
  | unlocked
  | acquiring
  | locked
  | holdover
  | planet
deriving DecidableEq, Repr, Inhabited

/-- A group command waiting for its time (R457). -/
structure GroupCmd where
  time : Nat
  gop : BitVec 16
  src : BitVec 12
  payload : List Byte
deriving DecidableEq, Repr, Inhabited

/-- The fabric router and fabric time (18). -/
structure Fab where
  ports : Vector Port 8 := Vector.replicate 8 {}
  /-- own (row, column) -/
  coord : Option (Nat × Nat) := none
  /-- entries other than 0xF, by destination, ascending (R441) -/
  route : List (Nat × Nat) := []
  tstate : TimeState := .unlocked
  /-- fabric time in ns (R449) -/
  ft : Nat := 0
  offset : Int := 0
  lockRun : Nat := 0
  /-- rate change in force, in parts per 10^9, and the fraction of a ns that it has built up (R451) -/
  slew : Int := 0
  slewRest : Int := 0
  /-- the one step of this ACQUIRING has been taken (R451) -/
  stepped : Bool := false
  planet : Option Nat := none
  /-- the planet followed last (R452) -/
  lastPlanet : Option Nat := none
  hops : Nat := 255
  parent : Option (Fin 8) := none
  wallOrigin : Nat := 0
  everLocked : Bool := false
  planetSeqOut : BitVec 32 := 0
  group : List GroupCmd := []
  helloCount : Nat := 0
deriving DecidableEq, Repr, Inhabited

/-! ### Audio (19) -/

/-- The ASET block (Table 19-1). -/
structure AudCfg where
  rate : Nat := 0
  ref : Nat := 0
  outEn : BitVec 8 := 0
  idleOff : BitVec 8 := 0
  lead : Nat := 64
  trail : Nat := 64
  offset : Int := 0
  stream : Nat := 255
  outSrc : List Nat := []
  cs : List Byte := []
deriving DecidableEq, Repr, Inhabited

/-- The audio block (19). -/
structure Aud where
  cfg : AudCfg := {}
  staged : Option AudCfg := none
  /-- who waits for the staged block -/
  who : Deliver := .nobody
  st : Disc := .free
  e : Int := 0
  /-- output k runs -/
  outRun : BitVec 8 := 0
  /-- index of the sample frame sent next, once the stream plays -/
  idx : Option Int := none
  /-- sample frames placed: (index, samples of up to 8 channels) (R467) -/
  store : List (Nat × List (BitVec 24)) := []
  /-- silence still to send before and after the programme (R469) -/
  leadLeft : Nat := 0
  trailLeft : Nat := 0
  /-- the last sample frame sent: per output A, B and the bits V, U, C of A in [2:0] and of B in [5:3] -/
  sent : List (BitVec 24 × BitVec 24 × BitVec 6) := []
  /-- place in the channel-status block of 192 sample frames -/
  csPos : Nat := 0
  /-- latest frame of the two inputs, bad frames in a row -/
  input : Vector (Option (BitVec 24 × BitVec 24 × BitVec 6)) 2 := Vector.replicate 2 none
  badRun : Vector Nat 2 := Vector.replicate 2 0
  goodIvals : Nat := 0
  slipRepeat : Count := 0
  slipDrop : Count := 0
  underrun : Count := 0
  late : Count := 0
  overrun : Count := 0
  resync : Count := 0
  refLoss : Count := 0
  refGlitch : Count := 0
  inErr0 : Count := 0
  inErr1 : Count := 0
deriving DecidableEq, Repr, Inhabited

/-! ### Temperature, life, trims (20, 21) -/

/-- One threshold's confirmation state (R477). -/
structure Thr where
  conf : Bool := false
  upRun : Nat := 0
  downRun : Nat := 0
deriving DecidableEq, Repr, Inhabited

/-- A sensor (R473, R474): last valid reading in 1/16 degrees, invalid until POR_N. -/
structure Sensor where
  temp : Option Int := none
  bad : Bool := false
deriving DecidableEq, Repr, Inhabited

/-- Temperatures (20). -/
structure Therm where
  sensors : Vector Sensor 28 := Vector.replicate 28 {}
  /-- J_WARN, J_THROT, D_WARN, D_THROT, P_WARN, P_THROT -/
  thr : Vector Thr 6 := Vector.replicate 6 {}
  trip : Thr := {}
  mr4Up : Nat := 0
  mr4Down : Nat := 0
  mr4Conf : Bool := false
  tripped : Bool := false
  tripSensor : Nat := 0
  tripTemp : Int := 0
  trippedLast : Bool := false
  fast : Bool := false
  /-- samples left to take every 50 us after a confirmation began (R475) -/
  fastLeft : Nat := 0
deriving DecidableEq, Repr, Inhabited

/-- The lifetime block (Table 20-4). -/
structure Life where
  powerOnS : BitVec 64 := 0
  lifeEq : BitVec 64 := 0
  band : Vector Count 5 := Vector.replicate 5 0
  warnX : Count := 0
  throtX : Count := 0
  remoteX : Count := 0
  trips : Count := 0
  pfails : Count := 0
  powerCycles : Count := 0
deriving DecidableEq, Repr, Inhabited

/-- The board table (Table 21-4). -/
structure Board where
  density : Nat := 16
  capar : Bool := false
  idleSr : Bool := false
  crackEn : Bool := false
  rate : Nat := 6400
  drivers : Nat := 1
  pmbMhz : Nat := 1
  chgTime : Nat := 1
  used : BitVec 6 := 0
  gckRise : Nat := 16
  goeOn : Nat := 64
  goeOff : Nat := 752
  pgdTmo : List Nat := []
  dlyUp : List Nat := []
  dlyDown : List Nat := []
  /-- TYPE of TREM0 to TREM3: 0 none, 1 diode, 2 thermistor -/
  trem : List Nat := []
  cs : List Nat := []
  panelPol : BitVec 96 := 0
  fabPol : BitVec 64 := 0
  panelEq : List Nat := []
  fabEq : List Nat := []
  dqMap : List Nat := []
  /-- IDEAL, BETA, R25 and RPULL of the remote inputs, as raw bytes 0x040 to 0x07F -/
  tremRaw : List Byte := []
deriving DecidableEq, Repr, Inhabited

/-- A TRIM record body (Table 21-3). -/
structure TrimRec where
  mask : BitVec 64
  words : List (BitVec 32)
deriving DecidableEq, Repr, Inhabited

/-- The trim store (R488-R495). -/
structure Trim where
  /-- the 64 words in force, as `TREAD.TRIM` returns them -/
  words : Vector (BitVec 32) 64 := Vector.replicate 64 0
  stagedTrim : Option (TrimRec × List Byte) := none
  stagedBoard : Option (Board × List Byte) := none
  /-- board table: as staged in, and the copies whose fields act later (Table 21-5) -/
  board : Board := {}
  boardBoot : Board := {}
  boardUp : Board := {}
  /-- who waits for `TRIMAPPLY` -/
  applyTo : Option Deliver := none
deriving DecidableEq, Repr, Inhabited

/-- The flash (R514): raw bytes, and the stored copies of roster, package and lifetime block (DESIGN CHOICE, log 14). -/
structure Flash where
  bytes : List (Nat × Byte) := []
  roster : Vector (Option FlashDoc) 2 := Vector.replicate 2 none
  pkg : Vector (Option FlashDoc) 2 := Vector.replicate 2 none
  life : Vector (Option FlashDoc) 2 := Vector.replicate 2 none
  /-- device writes waiting for the window: 1 roster, 2 package, 3 lifetime (R483) -/
  deferred : List (Nat × List Byte) := []
  /-- the device write under way: kind, copy, data -/
  running : Option (Nat × Bool × List Byte) := none
deriving DecidableEq, Repr, Inhabited

/-! ### Host interface, errors, service (22, 23) -/

/-- Host registers with state of their own (Table 22-5, R513), and the latest BAR4 completion. -/
structure HostIf where
  flashAddr : BitVec 27 := 0
  flashCmd : BitVec 32 := 0
  busy : Bool := false
  /-- FLASH_CMD and FLASH_ADDR as they were when the operation that runs began -/
  flashRun : BitVec 32 := 0
  flashAt : BitVec 27 := 0
  result : BitVec 3 := 0
  flashBuf : List (Nat × Byte) := []
  cause : BitVec 64 := 0
  /-- MSI-X table bytes other than 0, ascending; every vector is masked after a reset of the endpoint (R510, R513; PRESUMED, log 27) -/
  msix : List (Nat × Byte) := (List.range 64).map fun v => (16 * v + 12, 1)
  pba : BitVec 64 := 0
  /-- vector of the last MSI-X message sent -/
  sentMsg : Option (Fin 64) := none
  /-- data and poison of the last BAR4 read completion -/
  rdata : List Byte := []
  poisoned : Bool := false
  /-- poisoned completions reported through AER (R321) -/
  aer : Count := 0
deriving DecidableEq, Repr, Inhabited

/-- Start-up (R504, R508). -/
structure Boot where
  stage : BitVec 8 := 0
  stopped : Bool := false
  mode : BitVec 2 := 0
  origin : Bool := false
  ingest : Bool := false
  image : Bool := false
  link : Bool := false
  lastReset : BitVec 2 := 1
  /-- a reset has been taken and the cold boot is still to run -/
  fresh : Bool := true
deriving DecidableEq, Repr, Inhabited

/-- A key of the suppression table (R524). -/
structure ErrKey where
  block : BitVec 6
  inst : BitVec 8
  code : BitVec 16
  posted : Nat
  count : Count
deriving DecidableEq, Repr, Inhabited

/-- The error log (R523-R525); `keys` most recently used first. -/
structure ErrLog where
  total : BitVec 64 := 0
  lastChip : BitVec 128 := 0
  keys : List ErrKey := []
deriving DecidableEq, Repr, Inhabited

/-- Service states, numbered as `SVC` STATE (Table 23-4). -/
inductive SvcState where
  | inService
  | draining
  | outOfService
  | testing
  | returning
deriving DecidableEq, Repr, Inhabited

/-- A unit with service states (R526, R500). -/
structure SvcUnit where
  st : SvcState := .inService
  logicPass : Bool := false
  memPass : Bool := false
  /-- who waits for its removal; the removal was forced -/
  removeTo : Option Deliver := none
  forced : Bool := false
  /-- the test under way: memory test, outcome, who waits -/
  test : Option (Bool × BistRun × Deliver) := none
deriving DecidableEq, Repr, Inhabited

/-- Galleries, lane quads and fabric ports (Table 21-6). -/
structure Svc where
  gallery : Vector SvcUnit 16 := Vector.replicate 16 {}
  quad : Vector SvcUnit 24 := Vector.replicate 24 {}
  port : Vector SvcUnit 8 := Vector.replicate 8 {}
deriving DecidableEq, Repr, Inhabited

/-- The state of the device. -/
structure State where
  /-- commands waiting, first in, first out -/
  pending : List Instr := []
  /-- ns since POR_N (DESIGN CHOICE, log 3) -/
  now : Nat := 0
  /-- the model's own counter of free values (DESIGN CHOICE, log 10) -/
  free : Nat := 0
  /-- number of the next operation (scoreboard, asynchronous form, DRAM requests) -/
  nextOp : Nat := 0
  threads : Vector Thread 8 := Vector.replicate 8 {}
  sboard : List SbOp := []
  /-- orders in force that hold a resource of R236 -/
  holds : List Hold := []
  bufs : Bufs := {}
  /-- DRAM bytes that are not 0, by address, strictly rising -/
  mem : List Host.Cell := []
  dram : Dram := {}
  queues : Vector Queue 64
  plan : PlanSt := {}
  layers : Vector LayerRt 64 := Vector.replicate 64 {}
  synth : Synth := {}
  comp : Comp := {}
  cap : Option Capture := none
  out : OutPath := {}
  streams : Vector Stream 16 := Vector.replicate 16 {}
  engs : Vector (List EngPkt) 8 := Vector.replicate 8 []
  blt : Blt := {}
  cus : Vector Cu 8 := Vector.replicate 8 {}
  tg0 : Tg0 := {}
  tg1 : Tg := {}
  tg2 : Tg := {}
  scan : Scan := {}
  pairs : Vector Pair 48 := Vector.replicate 48 {}
  pwr : Pwr := {}
  sec : Sec := {}
  fab : Fab := {}
  aud : Aud := {}
  therm : Therm := {}
  life : Life := {}
  trim : Trim := {}
  flash : Flash := {}
  host : HostIf := {}
  boot : Boot := {}
  err : ErrLog := {}
  svc : Svc := {}
  /-- chip safe state latched (R531) -/
  safe : Bool := false
deriving DecidableEq, Repr

/-- Configuration of the fixed queues (Table 12-1, R295, R299): HIGH is 3/4 and LOW is 1/4 of the capacity; Q40 as R523
says. Q42 to Q63 are UNCONFIGURED. -/
def Queue.fixed (q : Nat) : Queue :=
  if q < 8 then { kind := .small, cap := 16384, high := 12288, low := 4096, hostW := true }
  else if q < 24 then
    { kind := .large, cap := 16711680, high := 12533760, low := 4177920, cut := 4096, hostW := true }
  else if q < 32 then { kind := .large, cap := 8355840, high := 6266880, low := 2088960 }
  else if q < 40 then { kind := .small, cap := 65536, high := 49152, low := 16384 }
  else if q < 42 then { kind := .small, cap := 65536, high := 49152, low := 16384, hostR := true }
  else {}

/-- The default of trim word `i` where no TRIM record gives it and the word is of the thermal set (Table 20-2, R492). -/
def Trim.thermalDefault (i : Nat) : BitVec 32 :=
  match i with
  | 40 => 2000
  | 41 => 2240
  | 42 => 1360
  | 43 => 1520
  | 44 => 960
  | 45 => 1120
  | _ => 0

/-- The machine right after POR_N, before its cold boot (R378, R215, R299, R441, R496, R506). -/
def State.reset : State :=
  { queues := Vector.ofFn fun i => Queue.fixed i.val
    trim := { words := Vector.ofFn fun i => Trim.thermalDefault i.val } }

/-- Why the machine stops with a fault. The spec gives every command an outcome that is a state (a thread fault, a safe
state, a discarded access are next states), so one reason is left. -/
inductive Fault where
  /-- raised by no meaning: kept so that the type has a value; safe. -/
  | none
deriving DecidableEq, Repr

/-- Why a command is refused. -/
inductive Refusal where
  /-- no meaning yet: raised only by the dispatcher, names the row; safe. -/
  | notModelled (mnemonic : String)
  /-- `TAP_INSTRUCTION` with a private instruction in debug mode: R421 lets it respond and no rule gives its effect; safe. -/
  | privateTap
deriving DecidableEq, Repr

end Sys2Proof.Machine
end

