-- ==== Sys2Proof/Machine/Ops.lean ====
section
/-! DEFINITION. The operations that every family shares: tables and memory, events and vectors, the queue words, error
records, thread faults (the one way a thread takes a fault), results, the buffer checks and the order of operations. -/

namespace Sys2Proof.Machine

/-- What a command answers. -/
abbrev Answer := Host.Outcome State Fault Refusal

/-! ### Tables -/

/-- Change entry `i` of a vector. -/
def vmod {α : Type} {n : Nat} (v : Vector α n) (i : Fin n) (f : α → α) : Vector α n := v.set i.val (f v[i.val]) i.isLt

/-- Change entry `i` of a vector, nothing beyond its end. -/
def vmodN {α : Type} {n : Nat} (v : Vector α n) (i : Nat) (f : α → α) : Vector α n :=
  if h : i < n then v.set i (f v[i]) h else v

/-- Entry `i` of a vector, the default beyond its end. -/
def vget {α : Type} [Inhabited α] {n : Nat} (v : Vector α n) (i : Nat) : α := if h : i < n then v[i] else default

/-- Read a sparse table whose unlisted keys read as `d`. -/
def tabGet {β : Type} (d : β) : List (Nat × β) → Nat → β
  | [], _ => d
  | (k, x) :: r, a => if k = a then x else tabGet d r a

/-- Write a sparse table in its canonical form: keys strictly rising, no entry equal to what an unlisted key reads as. -/
def tabSet {β : Type} [DecidableEq β] (d : β) : List (Nat × β) → Nat → β → List (Nat × β)
  | [], a, v => if v = d then [] else [(a, v)]
  | (k, x) :: r, a, v =>
    if a < k then (if v = d then (k, x) :: r else (a, v) :: (k, x) :: r)
    else if a = k then (if v = d then r else (a, v) :: r)
    else (k, x) :: tabSet d r a v

/-- The entry of key `a` of a table without a default. -/
def tabFind {β : Type} : List (Nat × β) → Nat → Option β
  | [], _ => none
  | (k, x) :: r, a => if k = a then some x else tabFind r a

/-- Put an entry into a table ordered by key. -/
def tabPut {β : Type} : List (Nat × β) → Nat → β → List (Nat × β)
  | [], a, v => [(a, v)]
  | (k, x) :: r, a, v =>
    if a < k then (a, v) :: (k, x) :: r else if a = k then (a, v) :: r else (k, x) :: tabPut r a v

/-- Remove every entry with a key from `lo` up to but without `hi`. -/
def tabClear {β : Type} (l : List (Nat × β)) (lo hi : Nat) : List (Nat × β) :=
  l.filter fun e => e.1 < lo || hi ≤ e.1

/-- The canonical form of a sparse table. -/
def tabWf {β : Type} [DecidableEq β] (d : β) (l : List (Nat × β)) : Bool :=
  decide (l.Pairwise fun a b => a.1 < b.1) && l.all fun e => e.2 != d

/-! ### Numbers and bytes (R4, R5) -/

/-- Bits [hi:lo] of a number. -/
def bitsOf (x hi lo : Nat) : Nat := x / 2 ^ lo % 2 ^ (hi + 1 - lo)

/-- Little-endian value of bytes (R5). -/
def leNat : List Byte → Nat
  | [] => 0
  | b :: r => b.toNat + 256 * leNat r

/-- `n` little-endian bytes of a number (R5). -/
def leBytes : Nat → Nat → List Byte
  | 0, _ => []
  | n + 1, x => BitVec.ofNat 8 x :: leBytes n (x / 256)

/-- `n` bytes from offset `o`, zero beyond the end. -/
def bytesAt (l : List Byte) (o n : Nat) : List Byte :=
  let r := (l.drop o).take n
  r ++ List.replicate (n - r.length) 0

/-- The `n`-byte little-endian field at offset `o`. -/
def fieldAt (l : List Byte) (o n : Nat) : Nat := leNat ((l.drop o).take n)

/-- The value of the low `n` bits as a two's-complement number (R3). -/
def signed (n x : Nat) : Int :=
  let y := x % 2 ^ n
  if y < 2 ^ (n - 1) then (y : Int) else (y : Int) - (2 ^ n : Nat)

/-- Every byte of a field is zero. -/
def zeroAt (l : List Byte) (o n : Nat) : Bool := ((l.drop o).take n).all (· == 0)

/-- An integer as `n` bits, two's complement. -/
def wrapInt (n : Nat) (x : Int) : Nat := (x % (2 ^ n : Nat)).toNat

/-! ### DRAM data (R309, R320) -/

/-- What a DRAM byte that nothing has written reads as: zero, since the zeroing engine writes every burst (R320). -/
def Memory.unlisted : Byte := 0

/-- The canonical form of memory: addresses strictly rising, no entry equal to what an unlisted byte reads as. -/
def Memory.wf (m : List Host.Cell) : Bool := tabWf Memory.unlisted m

/-- Read one byte. -/
def Memory.read (m : List Host.Cell) (a : Nat) : Byte := tabGet Memory.unlisted m a

/-- Write one byte. -/
def Memory.write (m : List Host.Cell) (a : Nat) (b : Byte) : List Host.Cell := tabSet Memory.unlisted m a b

/-- Read `n` bytes from `a` upward. -/
def Memory.readN (m : List Host.Cell) (a n : Nat) : List Byte := (List.range n).map fun i => Memory.read m (a + i)

/-- Write bytes from `a` upward. -/
def Memory.writeN (m : List Host.Cell) : Nat → List Byte → List Host.Cell
  | _, [] => m
  | a, b :: r => Memory.writeN (Memory.write m a b) (a + 1) r

/-- Zero the bytes from `lo` up to but without `hi` (R225). -/
def Memory.zero (m : List Host.Cell) (lo hi : Nat) : List Host.Cell := tabClear m lo hi

/-! ### Threads and events (R215, R232) -/

/-- A thread of the state. -/
def State.thread (s : State) (t : Tid) : Thread := s.threads[t]

/-- Change one thread. -/
def State.modThread (s : State) (t : Tid) (f : Thread → Thread) : State :=
  { s with threads := vmod s.threads t f }

/-- Set one bit of the event word of the threads that `p` names. -/
def State.eventFor (s : State) (p : Tid → Bool) (bits : BitVec 32) : State :=
  { s with threads := Vector.ofFn fun t => if p t then { s.thread t with evt := (s.thread t).evt ||| bits } else s.thread t }

/-- A device event sets its bit in every thread's event word (R232, Table 09-2). -/
def State.event (s : State) (bit : Nat) : State := s.eventFor (fun _ => true) (BitVec.ofNat 32 (2 ^ bit))

/-! ### MSI-X (R513) -/

/-- Byte `o` of the MSI-X table. -/
def HostIf.msixByte (h : HostIf) (o : Nat) : Byte := tabGet 0 h.msix o

/-- The mask bit of a vector: bit 0 of its vector control word. -/
def HostIf.masked (h : HostIf) (v : Nat) : Bool := (h.msixByte (16 * v + 12)).getLsbD 0

/-- Raise vector `v`: its CAUSE bit sets, and a message goes out on the change from 0 to 1; a masked vector sets its
pending bit instead (R513). -/
def State.raise (s : State) (v : Nat) : State :=
  let h := s.host
  if h.cause.getLsbD v then s
  else
    let b := BitVec.ofNat 64 (2 ^ v)
    let h := { h with cause := h.cause ||| b }
    if h.masked v then { s with host := { h with pba := h.pba ||| b } }
    else { s with host := { h with sentMsg := some (Fin.ofNat 64 v) } }

/-! ### Queue words and levels (R294, R297, R300) -/

/-- Bytes of queue space that an item takes: whole 32-byte words (R294). -/
def itemSpace (i : List Byte) : Nat := ceilDiv i.length 32 * 32

/-- Bytes of stored words from the reader mark, or read pointer, to the write pointer (R297). -/
def Queue.used (q : Queue) : Nat :=
  ((q.kept ++ q.ready ++ q.unpub).map itemSpace).sum + itemSpace q.part

/-- Free bytes (R297). -/
def Queue.space (q : Queue) : Nat := q.cap - q.used

/-- Bytes in the published items that the reader has not taken (R300). -/
def Queue.level (q : Queue) : Nat := (q.ready.map List.length).sum

/-- ITEMS (R294). -/
def Queue.items (q : Queue) : Nat := q.ready.length

/-- A watermark word after the level goes from `old` to `new`, and whether it crossed (R62, R300). -/
def Wm.cross (w : Wm) (lo hi old new : Nat) : Wm × Bool :=
  if old < hi && hi ≤ new then ({ w with highCross := w.highCross + 1, highEvt := true }, true)
  else if lo < old && new ≤ lo then ({ w with lowCross := w.lowCross + 1, lowEvt := true }, true)
  else (w, false)

/-- The watermark word with its live bits (Table 10-15). -/
def Wm.word (w : Wm) (lo hi level : Nat) : Nat :=
  w.lowCross.toNat * 65536 + w.highCross.toNat * 256 + (if level ≤ lo then 8 else 0) + (if hi ≤ level then 4 else 0)
    + w.lowEvt.toNat * 2 + w.highEvt.toNat

/-- A pointer moves on by `n` bytes within the capacity. -/
def Queue.ahead (q : Queue) (p n : Nat) : Nat := (p + n) % q.cap

/-- Append an item to a queue, published or behind the writer mark. -/
def Queue.add (q : Queue) (i : List Byte) (tag : Bool := false) : Queue :=
  let q := { q with wpos := q.ahead q.wpos (itemSpace i), tags := q.tags ++ [tag] }
  if q.wmark then { q with unpub := q.unpub ++ [i] } else { q with ready := q.ready ++ [i] }

/-- Append an item that fits; LOST counts one that does not. -/
def Queue.push (q : Queue) (i : List Byte) (tag : Bool := false) : Queue :=
  if itemSpace i ≤ q.space then q.add i tag else { q with lost := q.lost.bump }

/-- The vector that a watermark crossing of a queue raises (Table 22-6). -/
def wmVector (q : Nat) : Option Nat :=
  if q < 24 then some (q + 10) else if 42 ≤ q && q < 64 then some (q - 42 + 34) else none

/-- The item of Q41 that a watermark crossing or a queue reset posts (R300, R302). -/
def wmItem (ty q word : Nat) : List Byte := leBytes 16 (ty + 256 * q + 65536 * word)

/-- Replace a queue's contents and settle its crossings but for the item of Q41: the new watermark word, QWM in the words
of the subscribers and the crossing's vector; it answers whether a crossing happened (R300, R513). -/
def State.putQueueRaw (s : State) (i : Fin 64) (q : Queue) : State × Bool :=
  let old := s.queues[i]
  let (wm, hit) := q.wm.cross q.low q.high old.level q.level
  let s := { s with queues := s.queues.set i { q with wm := wm } }
  if hit then
    let s := s.eventFor (fun t => q.subs.getLsbD t) 0x10
    ((match wmVector i.val with | some v => s.raise v | none => s), true)
  else (s, false)

/-- Post an item to Q41 with its vector, and the item of the crossing that it may cause in Q41 itself (R300, R303). -/
def State.post41 (s : State) (item : List Byte) : State :=
  let q := s.queues[41]
  if itemSpace item ≤ q.space then
    let (s, hit) := s.putQueueRaw 41 (q.push item)
    let s := s.raise 9
    if hit then
      let q := s.queues[41]
      { s with queues := s.queues.set 41 (q.push (wmItem 0x12 41 (q.wm.word q.low q.high q.level))) }
    else s
  else { s with queues := s.queues.set 41 { q with lost := q.lost.bump } }

/-- Replace a queue's contents and do all that its crossings cause (R300). -/
def State.putQueue (s : State) (i : Fin 64) (q : Queue) : State :=
  let (s, hit) := s.putQueueRaw i q
  if hit then
    let q := s.queues[i]
    s.post41 (wmItem 0x12 i.val (q.wm.word q.low q.high q.level))
  else s

/-! ### Error records (R519-R525) -/

/-- KIND of a code, by Table 23-2; `info` decides for 0x1505 alone (R520). -/
def errKind (code info : Nat) : Nat :=
  if code ∈ [0x0D01, 0x0D04] then 1
  else if code ∈ [0x0501, 0x0502, 0x0601, 0x0602, 0x0603, 0x0605, 0x0606, 0x0701, 0x0703, 0x0704, 0x0909, 0x0B01, 0x0C01,
      0x0D02, 0x0D03, 0x0D07, 0x0F02, 0x0F03, 0x1303, 0x1706] then 2
  else if code ∈ [0x0301, 0x0302, 0x0303, 0x0304, 0x0305, 0x0401, 0x0702, 0x0801, 0x0802, 0x1101, 0x1102, 0x1105, 0x1205,
      0x1208, 0x1603] then 3
  else if code ∈ [0x0901, 0x0902, 0x0903, 0x0904, 0x0905, 0x0906] then 4
  else if code ∈ [0x0503, 0x0F01, 0x1001, 0x1005, 0x1006, 0x1203, 0x1204, 0x1405, 0x1503] then 5
  else if code = 0x1505 then (if info.testBit 17 then 7 else 5)
  else if code ∈ [0x0604, 0x1002, 0x1003, 0x1004, 0x1402, 0x1403, 0x1707] then 6
  else if code ∈ [0x0D05, 0x0D0A, 0x1501, 0x1601, 0x1701, 0x1702, 0x1703, 0x1704] then 7
  else 0

/-- LEVEL of a record (R521). -/
def errLevel (code info : Nat) : Nat :=
  let k := errKind code info
  if k = 7 || code = 0x0604 || code = 0x1403 then 3
  else if code ∈ [0x0503, 0x0F01, 0x1006, 0x1505, 0x1707] then 2
  else if k = 1 then 0
  else 1

/-- The 128 bits of a record (Table 23-1). -/
def errWord (code block info time : Nat) : Nat :=
  errLevel code info * 2 ^ 126 + block * 2 ^ 120 + errKind code info * 2 ^ 117 + code * 2 ^ 96
    + time % 2 ^ 48 * 2 ^ 48 + info % 2 ^ 48

/-- Post a record's item to Q40 (R523, R525): the state and whether the item was posted. -/
def State.post40 (s : State) (chip : Bool) (r rseq rep : Nat) : State × Bool :=
  let q := s.queues[40]
  let item := leBytes 32 (r + rseq % 2 ^ 64 * 2 ^ 128 + rep * 2 ^ 192)
  if (if chip then 32 else 1024) ≤ q.space then ((s.putQueue 40 (q.push item)).raise 8, true)
  else ({ s with queues := s.queues.set 40 { q with lost := q.lost.bump } }, false)

/-- Write an error record: ERR_TOTAL, LAST_CHIP, the suppression of R524, the item of Q40 (R519-R525). -/
def State.report (s : State) (code block info : Nat) : State :=
  let chip := errLevel code info == 3
  let kind := errKind code info
  let r := errWord code block info s.fab.ft
  let total := s.err.total + 1
  let e := { s.err with total := total, lastChip := if chip then BitVec.ofNat 128 r else s.err.lastChip }
  let blk := BitVec.ofNat 6 block
  let inst := BitVec.ofNat 8 (info / 2 ^ 40)
  let cod := BitVec.ofNat 16 code
  let mine := fun k : ErrKey => k.block == blk && k.inst == inst && k.code == cod
  let others := e.keys.filter fun k => !mine k
  match e.keys.find? mine with
  | some k =>
    if s.now < k.posted + 1000000 && kind != 6 && kind != 7 then
      { s with err := { e with keys := { k with count := k.count.bump } :: others } }
    else
      let (s, ok) := ({ s with err := e } : State).post40 chip r total.toNat k.count.toNat
      let k := if ok then { k with posted := s.now, count := 0 } else k
      { s with err := { s.err with keys := k :: others } }
  | none =>
    let (s, ok) := ({ s with err := e } : State).post40 chip r total.toNat 0
    if ok then { s with err := { s.err with keys := (⟨blk, inst, cod, s.now, 0⟩ :: others).take 64 } } else s

/-! ### Thread faults (R235) -/

/-- The code of a fault (Table 09-4). -/
def Flt.code : Flt → Nat
  | .state => 0x0901
  | .seal => 0x0902
  | .queue => 0x0903
  | .memUe => 0x0904
  | .admission => 0x0905
  | .timeout => 0x0906

/-- A thread takes a fault at the instruction whose address is `addr`: it stops there, the record goes to Q40, FAULT sets in
every other thread's event word, the thread's vector is raised (R235). -/
def State.faultAt (s : State) (t : Tid) (f : Flt) (sub addr : Nat) : State :=
  let s := s.modThread t fun th => { th with st := .faulted, pc := addr, wait := .none, done := none, wEnd := none, snap := none }
  let s := { s with sboard := s.sboard.filter fun o => !(o.thread == t && o.sync) }
  let s := s.report f.code 0x11 (t.val * 2 ^ 40 + sub * 2 ^ 32 + addr % 2 ^ 32)
  (s.eventFor (fun u => u != t) 0x200).raise t.val

/-- A fault at the thread's present instruction. -/
def State.fault (s : State) (t : Tid) (f : Flt) (sub : Nat) : State := s.faultAt t f sub (s.thread t).pc

/-- Restart of a FAULTED thread (R215): it returns to IDLE; other states are untouched. -/
def State.restart (s : State) (t : Tid) : State :=
  if (s.thread t).st = .faulted then s.modThread t fun th => { th with st := .idle, stack := [] } else s

/-! ### Issue (R217, R219) -/

/-- The Mbaol sequencer issues: the boot is READY, no trip and no chip safe state (R480, R508, R532). -/
def State.sequencing (s : State) : Bool :=
  s.boot.stage == 8 && !s.boot.stopped && !s.therm.tripped && !s.safe

/-- The entry of a live handle. -/
def State.buf? (s : State) (h : Nat) : Option Buf := tabFind s.bufs.table h

/-- Length of the program buffer of a thread; 0 when its handle is no longer live. -/
def State.progLen (s : State) (t : Tid) : Nat :=
  match s.buf? (s.thread t).prog.toNat with
  | some b => b.len
  | none => 0

/-- Issue an instruction of `words` words of thread `t`. A thread that is not RUNNING issues nothing. A word outside the
program buffer faults (R219, R244); otherwise the instruction runs. -/
def State.issue (s : State) (t : Tid) (words : Nat) (k : State → State) : State :=
  let th := s.thread t
  if !s.sequencing || th.st != .running then s
  else if s.progLen t < th.pc + 8 then s.fault t .state 0x03
  else if words = 2 && s.progLen t < th.pc + 16 then s.faultAt t .state 0x03 (th.pc + 8)
  else k s

/-- Move past an instruction of `words` words. -/
def Thread.next (th : Thread) (words : Nat := 1) : Thread := { th with pc := th.pc + 8 * words }

/-! ### Order of operations (R226, R227, R252) -/

/-- Two regions overlap. -/
def Region.overlaps : Region → Region → Bool
  | .bytes h lo hi, .bytes h' lo' hi' => h == h' && lo < hi' && lo' < hi
  | .rows lo hi, .rows lo' hi' => lo < hi' && lo' < hi
  | _, _ => false

/-- The region of `n` bytes from `off` of a buffer, rounded outward to 64 bytes (R227). -/
def Region.ofBytes (h off n : Nat) : Region := .bytes h (off / 64 * 64) (ceilDiv (off + n) 64 * 64)

/-- Operation `o` must wait for the earlier operation `e`: their regions overlap with a write among them, or they name one
controlled unit. -/
def SbOp.waitsFor (o e : SbOp) : Bool :=
  (o.writes.any fun r => (e.reads ++ e.writes).any r.overlaps) || (o.reads.any fun r => e.writes.any r.overlaps)
    || o.units.any fun u => e.units.contains u

/-- An operation of the scoreboard must still wait for one before it. -/
def sbBlocked (l : List SbOp) (op : Nat) : Bool :=
  match l.find? (·.op == op) with
  | none => false
  | some o => (l.takeWhile (·.op != op)).any o.waitsFor

/-- The registered operation that a thread waits for. -/
def State.syncOp (s : State) (t : Tid) : Option SbOp := s.sboard.find? fun o => o.thread == t && o.sync

/-- The next turn among held instructions. -/
def State.nextTurn (s : State) : Nat := (s.threads.toList.map fun th => match th.snap with | some x => x.turn + 1 | none => 0).foldl max 0

/-- Hold a thread: the instruction waits in WAITING for the scoreboard or for its unit, with the scratch of its issue (R227, R250, R252). -/
def State.hold (s : State) (t : Tid) (i : Instr) : State :=
  s.modThread t fun th =>
    { th with st := .waiting, wait := .held i, wAddr := th.pc, snap := some (th.snap.getD ⟨s.nextTurn, th.scratch⟩) }

/-- The thread waits for room in the scoreboard. -/
def State.unregistered (s : State) (t : Tid) : Bool := match (s.thread t).wait with | .held _ => (s.syncOp t).isNone | _ => false

/-- The scoreboard does not take the instruction of thread `t` now: it holds 256 operations, or another thread has waited for room for
longer (R227). -/
def State.full (s : State) (t : Tid) : Bool :=
  decide (256 ≤ s.sboard.length) || (List.finRange 8).any fun u =>
    u != t && s.unregistered u &&
      match (s.thread u).snap, (s.thread t).snap with
      | some x, some y => decide (x.turn < y.turn)
      | _, _ => true

/-- What a unit operation names. -/
structure Use where
  /-- it touches DRAM though it names no handle -/
  dram : Bool := false
  units : List CtrlUnit := []
  handles : List Nat := []
  reads : List Region := []
  writes : List Region := []

/-- An operation that touches DRAM meets self-refresh: one that comes during entry ends the entry; one that
comes later must wait for exit (R230, R335). -/
def State.wakeDram (s : State) (u : Use) : State × Bool :=
  if u.handles = [] ∧ !u.dram then (s, false)
  else
    match s.dram.sr with
    | .out => (s, false)
    | .entering => ({ s with dram := { s.dram with sr := .out } }, false)
    | .inSr => (s, true)

/-- Register a synchronous unit operation of thread `t` at issue and run it, unless it must wait: a full scoreboard, an
overlap with an earlier operation, an earlier order on its unit, or DRAM in self-refresh (R227, R230, R252). -/
def State.startUnit (s : State) (t : Tid) (i : Instr) (u : Use) (k : State → State) : State :=
  match s.syncOp t with
  | some o =>
    let (s, asleep) := s.wakeDram u
    if asleep || sbBlocked s.sboard o.op then s.hold t i else k s
  | none =>
    if s.full t then s.hold t i
    else
      let o : SbOp := { op := s.nextOp, thread := t, sync := true, units := u.units, handles := u.handles, reads := u.reads, writes := u.writes }
      let s := { s with sboard := s.sboard ++ [o], nextOp := s.nextOp + 1 }
      let (s, asleep) := s.wakeDram u
      if asleep || sbBlocked s.sboard o.op then s.hold t i else k s

/-- The instruction is at its unit: the thread waits for completion (R249). `d` is none while the unit still works. -/
def State.toUnit (s : State) (t : Tid) (w : IWord) (d : Option Done) : State :=
  s.modThread t fun th =>
    { th with
      st := .waiting, wait := .unit, wRd := w.rd, wRc := w.rc, wAddr := th.pc, pc := th.pc + 8, done := d, snap := none }

/-- A result code without a second destination. -/
def Done.code (r : Nat) : Done := { val := BitVec.ofNat 64 r }

/-- A result code with a value for RC. -/
def Done.codeRc (r : Nat) (v : Nat) : Done := { val := BitVec.ofNat 64 r, rc := some (BitVec.ofNat 64 v) }

/-! ### Results (R233, R249, R457) -/

/-- A group command has been executed: FABRIC, and the item of Q41 with its result (R457). -/
def State.groupResult (s : State) (gop : BitVec 16) (src : BitVec 12) (res : Nat) : State :=
  (s.event 10).post41 (leBytes 16 (0x30 + 256 * (res % 256) + 65536 * gop.toNat + 2 ^ 32 * src.toNat))

/-- Tell the one who waits for an operation how it ended. -/
def State.deliver (s : State) (d : Deliver) (x : Done) : State :=
  match d with
  | .thread t => s.modThread t fun th => if th.wait = .unit then { th with done := some x } else th
  | .async t op => s.modThread t fun th =>
      { th with async := th.async.map fun a => if a.op = op then { a with res := some x } else a }
  | .group gop src => s.groupResult gop src x.val.toNat
  | .nobody => s

/-! ### Levels of orders (R236-R238) -/

/-- Number of a level in the list of R236, 1 the highest (DEDUCED, log 16). -/
def Level.num : Level → Nat
  | .hardware => 1
  | .security => 2
  | .group => 3
  | .host => 4

/-- Number of a resource, in the order of R236 from 0 (R238). -/
def Resource.num : Resource → Nat
  | .light => 0
  | .rails => 1
  | .selfRefresh => 2
  | .planSlots => 3
  | .stream => 4
  | .tgDiscipline => 5
  | .service => 6
  | .keySlots => 7

/-- Record 0x0907 of an order that another overrides or supersedes (R238). -/
def State.overruled (s : State) (r : Resource) (win : Level) (winOp : Nat) (lose : Level) (loseOp : Nat) : State :=
  s.report 0x0907 0x11 (win.num * 2 ^ 44 + lose.num * 2 ^ 40 + r.num * 2 ^ 32 + loseOp % 65536 * 65536 + winOp % 65536)

/-- The order of a higher level than `l` that holds a resource (R236). -/
def State.higher (s : State) (r : Resource) (l : Level) : Option Hold :=
  s.holds.find? fun h => h.res == r && h.level.num < l.num

/-- A hold that a new order of level `l` on a resource overrides or supersedes: of a lower level, or of its own; the inputs of the hardware
level act side by side (R236-R238; DEDUCED, log 16). -/
def Hold.loses (h : Hold) (r : Resource) (l : Level) : Bool :=
  h.res == r && (decide (l.num < h.level.num) || h.level == l && l != .hardware)

/-- Put an order in force on a resource, in place of an earlier one of its level, with a record for each order that it overrides or
supersedes. An overridden order of a lower level keeps its hold until its own end (R236, R238; DEDUCED, log 16). -/
def State.holdAt (s : State) (r : Resource) (l : Level) (op : Nat) : State :=
  let s := (s.holds.filter fun h => h.loses r l).foldl (fun (s : State) h => s.overruled r l op h.level h.op) s
  { s with holds := ⟨r, l, op⟩ :: s.holds.filter fun h => !(h.res == r && h.level == l) }

/-- The order of a level on a resource ends. -/
def State.unhold (s : State) (r : Resource) (l : Level) : State :=
  { s with holds := s.holds.filter fun h => !(h.res == r && h.level == l) }

/-- Every order of a level ends. -/
def State.releaseLevel (s : State) (l : Level) : State := { s with holds := s.holds.filter fun h => h.level != l }

/-- An order of a thread on a resource: below the level of its holder it writes record 0x0907 and faults with FLT_STATE,
subcode 0x06 (R236, R238). -/
def State.hostOrder (s : State) (t : Tid) (r : Resource) (op : Nat) (k : State → State) : State :=
  match s.higher r .host with
  | some h => (s.overruled r h.level h.op .host op).fault t .state 0x06
  | none => k s

/-- A group command on a resource: below the level of its holder it is dropped with record 0x0907 (R236, R238). -/
def State.groupOrder (s : State) (r : Resource) (op : Nat) (k : State → State) : State :=
  match s.higher r .group with
  | some h => s.overruled r h.level h.op .group op
  | none => k s

end Sys2Proof.Machine
end

