-- ==== Sys2Proof/Machine/Basis.lean ====
section
/-! DEFINITION. Values that many families derive from the state: the plan that governs, its frame geometry and line times,
the wall frame, the light, the time that is locked, warn and throttle. -/

namespace Sys2Proof.Machine

/-- Panel width in pixels, W = NHx·Hh (Table 08-5). -/
def Plan.width (p : Plan) : Nat := p.nhx * p.hh

/-- Panel height in rows, H = NHy·Hv (Table 08-5). -/
def Plan.height (p : Plan) : Nat := p.nhy * p.hv

/-- Period start N of the schedule, in symbol times (R339). -/
def Plan.start (p : Plan) (n : Nat) : Nat := n * 1600000000 * p.rateDen / p.rateNum

/-- Fabric time S(F) at which wall frame F starts, in ns, for a wall origin (R341). -/
def Plan.wallStart (p : Plan) (origin f : Nat) : Nat := origin + ceilDiv (f * 1000000000 * p.rateDen) p.rateNum

/-- The plan in force: it governs the frame of the present period, or period 0 when that has not begun yet (R199, R509). A clearing
period has none (R383). -/
def State.plan? (s : State) : Option Plan :=
  match s.plan.cur with
  | some g => some g.plan
  | none => if s.scan.clearing then none else s.plan.next.map (·.plan)

/-- Output mode of the plan in force: 0 DIRECT, 1 STORED, 2 CACHE (Table 07-1). -/
def State.outMode (s : State) : Nat := match s.plan? with | some p => p.outMode | none => 0

/-- Panel height of the plan in force; ROWS of the panel while none is in force (R383). -/
def State.rowsH (s : State) : Nat := match s.plan? with | some p => p.height | none => s.pwr.rows

/-- Blanking lines of TG0: those of the plan in force, or the 8 of a clearing period (R383). -/
def State.vbl (s : State) : Nat := match s.plan? with | some p => p.vbl | none => 8

/-- Line period of TG0 in symbol times: that of the plan in force, or the 800 of a clearing period (R383). -/
def State.lineSym (s : State) : Nat := match s.plan? with | some p => p.lineSym | none => 800

/-- Lines of TG0's period (R198, R256). -/
def State.tg0Lines (s : State) : Nat := s.vbl + s.rowsH

/-- A generator counts: TG0 while it runs outside HOLDING, TG1 and TG2 while not OFF; none while tripped or in the chip safe
state (R231, R352, R480, R532). -/
def State.tgRuns (s : State) (g : Nat) : Bool :=
  !s.therm.tripped && !s.safe &&
    match g with
    | 0 => s.tg0.running && s.scan.st != .holding
    | 1 => s.tg1.set.mode != 0
    | _ => s.tg2.set.mode != 0

/-- The line count of a generator (R256). -/
def State.tgLine (s : State) (g : Nat) : Nat :=
  match g with
  | 0 => s.tg0.line
  | 1 => s.tg1.line
  | _ => s.tg2.line

/-- The number of lines of a generator's period; 0 for one that has no setting. -/
def State.tgLines (s : State) (g : Nat) : Nat :=
  match g with
  | 0 => if s.tg0.running then s.tg0Lines else 0
  | 1 => if s.tg1.set.mode = 0 then 0 else s.tg1.set.lines
  | _ => if s.tg2.set.mode = 0 then 0 else s.tg2.set.lines

/-- Fabric time is locked: LOCKED or PLANET (R449). -/
def State.ftLocked (s : State) : Bool := s.fab.tstate == .locked || s.fab.tstate == .planet

/-- A response of R384, R385, R391 or R392 is in progress or latched since the last `PPOWER.UP` (R382). -/
def Pwr.responded (p : Pwr) : Bool := p.resp.isSome || p.latched

/-- EMIT_EN (R382). -/
def State.emitEn (s : State) : Bool :=
  s.pwr.lightReq && s.pwr.st == .up && !s.comp.lightHeld && !s.pwr.responded

/-- The threshold crossing of a class is confirmed; classes are 0 JUNCTION, 1 DRAM, 2 PANEL. An invalid DRAM or PANEL sensor,
or fewer than 20 valid junction sensors, holds the throttle crossing (R474); MR4 confirms that of DRAM (R478). -/
def State.warn (s : State) (c : Fin 3) : Bool := (vget s.therm.thr (2 * c.val)).conf

/-- Throttle of a class (R474, R477, R478). -/
def State.throttle (s : State) (c : Fin 3) : Bool :=
  (vget s.therm.thr (2 * c.val + 1)).conf ||
    match c.val with
    | 0 => ((s.therm.sensors.toList.take 24).filter fun x => !x.bad).length < 20
    | 1 => s.therm.mr4Conf || (vget s.therm.sensors 26).bad
    | _ => (vget s.therm.sensors 27).bad

/-- A warn crossing of any class is confirmed (R479). -/
def State.anyWarn (s : State) : Bool := s.warn 0 || s.warn 1 || s.warn 2

/-- A throttle crossing of any class is confirmed (R479). -/
def State.anyThrottle (s : State) : Bool := s.throttle 0 || s.throttle 1 || s.throttle 2

/-- Units that a trip or the chip safe state stops do no work (R480, R532). -/
def State.stopped (s : State) : Bool := s.therm.tripped || s.safe

/-- Change TG0. -/
def State.modTg0 (s : State) (f : Tg0 → Tg0) : State := { s with tg0 := f s.tg0 }

/-- TG0 changes its discipline state (R340). -/
def State.setDisc (s : State) (d : Disc) : State :=
  if s.tg0.st = d then s else (s.modTg0 fun g => { g with st := d, settled := 0 }).event 15

/-- The inactive level of `SYNC_OUT`; a generator that is OFF drives it low (R354, R355, Table 14-5). -/
def TgSet.inactive (x : TgSet) : Bool := x.mode != 0 && x.pol

/-- The page that the frame at the lanes shows (R160, R175). -/
def State.lanePage (s : State) : Page := if s.outMode = 1 then s.out.lane.page else s.comp.page

/-- The wall frame number F of the present period (R166). -/
def State.wallFrame (s : State) : Nat := s.out.frame

/-- The node address row × 64 + column, once coordinates are known (R434). -/
def State.node? (s : State) : Option Nat := s.fab.coord.map fun c => c.1 * 64 + c.2

end Sys2Proof.Machine
end

