-- ==== Sys2Proof/Machine/Flags.lean ====
section
/-! DEFINITION. Every flag computation of the spec (R218, R231, R246, R247, Table 10-3). -/

namespace Sys2Proof.Machine

/-- Z and N of a value. -/
def Flags.zn (f : Flags) (r : Reg) : Flags := { f with z := r == 0, n := r.msb }

/-- The flags of `ADD`: C is the carry out of bit 63, V signed overflow (Table 10-3). -/
def Flags.ofAdd (a b : Reg) : Flags :=
  { z := a + b == 0, n := (a + b).msb, c := decide (2 ^ 64 ≤ a.toNat + b.toNat),
    v := a.msb == b.msb && (a + b).msb != a.msb }

/-- The flags of `SUB` and `CMP`: C is 1 when RA ≥ B as unsigned values (Table 10-3). -/
def Flags.ofSub (a b : Reg) : Flags :=
  { z := a - b == 0, n := (a - b).msb, c := decide (b.toNat ≤ a.toNat),
    v := a.msb != b.msb && (a - b).msb != a.msb }

/-- The flags of `AND`, `OR` and `XOR`: C and V are 0 (Table 10-3). -/
def Flags.ofLogic (r : Reg) : Flags := { z := r == 0, n := r.msb, c := false, v := false }

/-- The flags of a shift: C is the last bit shifted out, 0 for a shift of 0 (Table 10-3). -/
def Flags.ofShift (r : Reg) (out : Bool) : Flags := { z := r == 0, n := r.msb, c := out, v := false }

/-- The last bit that `SHL` by `k` below 64 shifts out of `a`. -/
def shlOut (a : Reg) (k : Nat) : Bool := decide (k ≠ 0) && a.getLsbD (64 - k)

/-- The last bit that `SHR` by `k` below 64 shifts out of `a`. -/
def shrOut (a : Reg) (k : Nat) : Bool := decide (k ≠ 0) && a.getLsbD (k - 1)

/-- The conditions of `BRC` (Table 10-4); none for the codes 0xE and 0xF. -/
def Flags.cond (f : Flags) (code : BitVec 4) : Option Bool :=
  match code.toNat with
  | 0 => some f.z
  | 1 => some (!f.z)
  | 2 => some (f.n != f.v)
  | 3 => some (f.n == f.v)
  | 4 => some (!f.c)
  | 5 => some f.c
  | 6 => some f.n
  | 7 => some (!f.n)
  | 8 => some f.v
  | 9 => some (!f.v)
  | 10 => some (!f.z && f.n == f.v)
  | 11 => some (f.z || f.n != f.v)
  | 12 => some (f.c && !f.z)
  | 13 => some (!f.c || f.z)
  | _ => none

/-- Z after a unit instruction: 1 when the result is 0 (R218). -/
def Flags.ofResult (f : Flags) (r : Reg) : Flags := { f with z := r == 0 }

end Sys2Proof.Machine
end

