-- ==== Sys2Proof/Machine/Operands.lean ====
section
/-! DEFINITION. The operand forms of the Mbaol instructions: registers, the operand B, scratch words and parameter blocks,
handles and their checks (R218, R242, R243, R250, R257). -/

namespace Sys2Proof.Machine

/-- A register as a source: g0 reads 0 (R218, R242). -/
def Thread.reg (th : Thread) (r : BitVec 4) : Reg := if r = 0 then 0 else vget th.g r.toNat

/-- A register as a destination: a write to g0 is discarded (R218, R242). -/
def Thread.setReg (th : Thread) (r : BitVec 4) (v : Reg) : Thread :=
  if r = 0 then th else { th with g := vmodN th.g r.toNat fun _ => v }

end Sys2Proof.Machine

namespace Sys2Proof

open Machine

/-- IMM sign-extended to 64 bits. -/
def IWord.simm (w : IWord) : Reg := w.imm.signExtend 64

/-- The W form: FN bit 2 (R243). -/
def IWord.two (w : IWord) : Bool := w.fn.getLsbD 2

/-- The number of words of an arithmetic instruction (R243). -/
def IWord.words (w : IWord) : Nat := if w.two then 2 else 1

/-- The operand B of Table 10-8: EXT when W = 1, else IMM sign-extended when I = 1, else RB. -/
def IWord.b (w : IWord) (th : Thread) : Reg :=
  if w.two then w.ext else if w.fn.getLsbD 0 then w.simm else th.reg w.rb

/-- A branch target: address + 8 × IMM, IMM signed (R244). -/
def IWord.target (w : IWord) (addr : Nat) : Nat := wrapInt 64 (addr + 8 * w.imm.toInt)

end Sys2Proof

namespace Sys2Proof.Machine

/-! ### Scratch (R218, R250) -/

/-- A scratch word by index. -/
def Thread.word (th : Thread) (i : Nat) : Reg := tabGet 0 th.scratch (i % 512)

/-- Write a scratch word by index. -/
def Thread.setWord (th : Thread) (i : Nat) (v : Reg) : Thread := { th with scratch := tabSet 0 th.scratch (i % 512) v }

/-- One scratch byte; addresses run modulo 4,096. -/
def Thread.scratchByte (th : Thread) (a : Nat) : Byte :=
  BitVec.ofNat 8 ((th.word (a % 4096 / 8)).toNat / 2 ^ (8 * (a % 8)))

/-- Scratch bytes from `a`, modulo 4,096. -/
def Thread.scratchRead (th : Thread) (a n : Nat) : List Byte := (List.range n).map fun i => th.scratchByte (a + i)

/-- Write scratch bytes from `a`, modulo 4,096. -/
def Thread.scratchWrite (th : Thread) : Nat → List Byte → Thread
  | _, [] => th
  | a, b :: r =>
    let i := a % 4096 / 8
    let sh := 2 ^ (8 * (a % 8))
    let old := (th.word i).toNat
    let th := th.setWord i (BitVec.ofNat 64 (old - old / sh % 256 * sh + b.toNat * sh))
    Thread.scratchWrite th (a + 1) r

end Sys2Proof.Machine

namespace Sys2Proof

open Machine

/-- The index of the scratch word that `LD` and `ST` name: (RA + IMM) mod 4,096, IMM signed, bits [2:0] ignored. -/
def IWord.ldWord (w : IWord) (th : Thread) : Nat := (th.reg w.ra + w.simm).toNat % 4096 / 8

/-- The block address: (RA + IMM[11:0]) mod 4,096 with bits [2:0] ignored (R250). -/
def IWord.blockAddr (w : IWord) (th : Thread) : Nat :=
  ((th.reg w.ra).toNat + w.imm.toNat % 4096) % 4096 / 8 * 8

/-- A parameter block of `n` bytes, as the scratch stood at issue (R250). -/
def IWord.block (w : IWord) (th : Thread) (n : Nat) : List Byte :=
  ({ th with scratch := match th.snap with | some x => x.scratch | none => th.scratch } : Thread).scratchRead (w.blockAddr th) n

/-- The asynchronous form: FN bit 7 (R250). -/
def IWord.isAsync (w : IWord) : Bool := w.fn.getLsbD 7

/-- The result word of the asynchronous form: the scratch word at IMM[23:12] (R250). -/
def IWord.resWord (w : IWord) : Nat := bitsOf w.imm.toNat 23 12 / 8

end Sys2Proof

namespace Sys2Proof.Machine

/-! ### Handles (R220, R222, R250) -/

/-- A handle read from a register: bits [11:0] (R242). -/
def handleOf (r : Reg) : Nat := r.toNat % 4096

/-- A thread may read and write a buffer: it owns it, or the buffer is unsealed and SHARED (R222). -/
def Buf.accessible (b : Buf) (t : Tid) : Bool := b.owner == some t || (b.shared && !b.isSealed && b.owner.isSome)

/-- A fault that a check found. -/
abbrev Refused := Flt × Nat

/-- Checks 1 to 5 of R250 on a handle that an instruction needs, `own` where it needs the owner. An operation that is already registered keeps the buffer it
was issued with (R225). -/
def State.checkHandle (s : State) (t : Tid) (h : Nat) (own : Bool := false) : Except Refused Buf :=
  if h = 0 then .error (.state, 0x20)
  else if 4032 ≤ h then .error (.seal, 0)
  else
    match s.buf? h with
    | none => .error (.state, 0x05)
    | some b =>
      if !b.accessible t || (own && b.owner != some t) then .error (.state, 0x04)
      else if b.dying && (s.syncOp t).isNone then .error (.state, 0x05)
      else .ok b

/-- Check 6 as well: an instruction that reads or writes contents on behalf of the program faults on a sealed buffer
(R223, R250). -/
def State.checkOpen (s : State) (t : Tid) (h : Nat) : Except Refused Buf :=
  match s.checkHandle t h with
  | .error e => .error e
  | .ok b => if b.isSealed then .error (.seal, 0) else .ok b

/-- An access of `n` bytes at `off` lies within a buffer; otherwise FLT_STATE subcode 0x22 (R251). -/
def Buf.within (b : Buf) (off n : Nat) : Except Refused Unit :=
  if off + n ≤ b.len then .ok () else .error (.state, 0x22)

/-- Run a meaning whose checks may fault the thread at its instruction. -/
def State.orFault (s : State) (t : Tid) (r : Except Refused State) : State :=
  match r with
  | .ok s' => s'
  | .error (f, sub) => s.fault t f sub

/-- Issue an instruction of one word that reads an operand block in scratch: a word of the block that is uncorrectable faults the thread
with FLT_MEM_UE (R11, R218, R250). -/
def State.issueBlock (s : State) (t : Tid) (w : IWord) (k : State → State) : State :=
  s.issue t 1 fun s => if w.ue then s.fault t .memUe 0 else k s

/-- A check that faults with FLT_STATE and a subcode unless a condition holds. -/
def need (c : Bool) (sub : Nat) : Except Refused Unit := if c then .ok () else .error (.state, sub)

end Sys2Proof.Machine
end

