-- ==== Sys2Proof/Machine/Wcode.lean ====
section
/-! DEFINITION. The W-code: check bytes, syndromes and the decoder, and how a word with symbol errors reads (R311, R312). -/

namespace Sys2Proof.Machine

/-- Multiplication in GF(2^8) with field polynomial 0x11D (R311): b's bits from the highest, doubling before each. -/
def gfMul (a b : Nat) : Nat :=
  [7, 6, 5, 4, 3, 2, 1, 0].foldl (fun acc i =>
    let sh := if acc * 2 < 256 then acc * 2 else (acc * 2) ^^^ 0x11D
    if b.testBit i then sh ^^^ a else sh) 0

/-- α^n (R311). -/
def gfPow (n : Nat) : Nat := (List.range n).foldl (fun x _ => gfMul x 2) 1

/-- The inverse: x^254, the product of x^2, x^4, …, x^128. -/
def gfInv (a : Nat) : Nat :=
  ([1, 2, 3, 4, 5, 6, 7].foldl (fun (x : Nat × Nat) _ => let sq := gfMul x.1 x.1; (sq, gfMul x.2 sq)) (a, 1)).2

/-- The check bytes p_0 to p_3 of 32 data bytes: the remainder by g(x) (R311). -/
def wCheck (d : List Byte) : List Byte :=
  let step := fun (r : List Nat) (x : Byte) =>
    let fb := x.toNat ^^^ r.getD 0 0
    [r.getD 1 0 ^^^ gfMul fb 0x0F, r.getD 2 0 ^^^ gfMul fb 0x36, r.getD 3 0 ^^^ gfMul fb 0x78, gfMul fb 0x40]
  (d.foldl step [0, 0, 0, 0]).map (BitVec.ofNat 8)

/-- The syndromes S_0 to S_3 of a codeword of 36 symbols, d_0 to d_31 then p_0 to p_3 (R312). -/
def syndromes (c : List Nat) : List Nat :=
  (List.range 4).map fun j => c.foldl (fun s x => gfMul s (gfPow j) ^^^ x) 0

/-- The outcome of the decoder. -/
inductive WOut where
  | clean
  | corrected (word : List Nat)
  | uncorrectable
deriving DecidableEq, Repr, Inhabited

/-- An error of locator x accounts for syndromes S_0 to S_3: S_(j+1) = x·S_j (R311, R312). -/
def oneError (s : List Nat) (x : Nat) : Bool :=
  [0, 1, 2].all fun j => s.getD (j + 1) 0 == gfMul x (s.getD j 0)

/-- Two errors, of locators x and y, account for S_0 to S_3: S_(j+2) = (x + y)·S_(j+1) + x·y·S_j (R311, R312). -/
def twoErrors (s : List Nat) (x y : Nat) : Bool :=
  [0, 1].all fun j => s.getD (j + 2) 0 == gfMul (x ^^^ y) (s.getD (j + 1) 0) ^^^ gfMul (gfMul x y) (s.getD j 0)

/-- The word with the errors (degree, value) taken out; the symbol at position i has degree 35 − i. -/
def fixSymbols (c : List Nat) (l : List (Nat × Nat)) : List Nat :=
  c.mapIdx fun i x => l.foldl (fun x e => if e.1 + i = 35 then x ^^^ e.2 else x) x

/-- The decoder: unchanged with zero syndromes, corrected when one or two symbol errors account for them, uncorrectable
otherwise (R312). The locator of degree d is α^d. -/
def wDecode (c : List Nat) : WOut :=
  let s := syndromes c
  let locs := (List.range 36).map fun d => (d, gfPow d)
  if s.all (· == 0) then .clean
  else
    match locs.find? fun a => oneError s a.2 with
    | some a => .corrected (fixSymbols c [(a.1, s.getD 0 0)])
    | none =>
      match (locs.flatMap fun a => (locs.take a.1).map fun b => (a, b)).find? fun p => twoErrors s p.1.2 p.2.2 with
      | some (a, b) =>
        -- e_a + e_b = S_0 and e_a α^a + e_b α^b = S_1
        let ea := gfMul (s.getD 1 0 ^^^ gfMul (s.getD 0 0) b.2) (gfInv (a.2 ^^^ b.2))
        .corrected (fixSymbols c [(a.1, ea), (b.1, ea ^^^ s.getD 0 0)])
      | none => .uncorrectable

/-! ### Words with symbol errors (R312, R316) -/

/-- The error pattern of one word. -/
def errPattern (errs : List SymErr) (b : Bool) : List Nat :=
  (List.range 36).map fun i => ((errs.filter fun e => e.wordB == b && e.sym.val == i).foldl (fun x e => x ^^^ e.err.toNat) 0)

/-- How one word reads: corrected or not, lost, or changed by a miscorrection that only the tag shows (R312). The code is linear, so
the errors alone decide. -/
def wordReads (errs : List SymErr) (b : Bool) : Nat × Option BurstBad :=
  let e := errPattern errs b
  match wDecode e with
  | .uncorrectable => (0, some .wcode)
  | .clean => (0, if e.all (· == 0) then none else some .tag)
  | .corrected w => if w.all (· == 0) then (1, none) else (1, some .tag)

end Sys2Proof.Machine
end

