-- ==== Sys2Proof/Machine/Mem.lean ====
section
/-! DEFINITION. DRAM as its users see it: the address map, bursts that read uncorrectable, reads and writes of physical
memory and of buffers, references and locks of buffers, and the allocator (R171, R220-R225, R309, R316-R321, R551). -/

namespace Sys2Proof.Machine

/-! ### Address map (R309) -/

/-- Data capacity in bytes by component density (Table 13-1); 0 before training. -/
def Dram.capacity (d : Dram) : Nat :=
  if d.density = 16 then 137438953472 else if d.density = 32 then 274877906944 else 0

/-- The subchannel index channel × 2 + subchannel of an address (Table 13-2, R336). -/
def paSub (pa : Nat) : Nat := bitsOf pa 11 9 * 2 + bitsOf pa 12 12

/-- The bank index, bank group × 4 + bank (Table 13-2). -/
def paBank (pa : Nat) : Nat := (bitsOf pa 15 13 ^^^ bitsOf pa 23 21) * 4 + bitsOf pa 17 16

/-- The row (Table 13-2). -/
def paRow (pa : Nat) : Nat := pa / 2 ^ 21

/-- The burst column (Table 13-2). -/
def paCol (pa : Nat) : Nat := bitsOf pa 20 18 * 8 + bitsOf pa 8 6

/-- The granule (R318). -/
def paGranule (pa : Nat) : Nat := pa / 2 ^ 20

/-- Information of the records 0x0D01 to 0x0D03 (Table 13-8). -/
def paInfo (pa : Nat) : Nat := bitsOf pa 11 9 * 2 ^ 40 + bitsOf pa 12 12 * 2 ^ 39 + pa % 2 ^ 38

/-! ### Requests (R310, R322) -/

/-- The runs of a request, split at 512-byte boundaries of PA: address and length (R310). -/
def dramRuns (pa n : Nat) : List (Nat × Nat) :=
  if n = 0 then []
  else
    let first := pa / 512
    (List.range ((pa + n - 1) / 512 + 1 - first)).map fun i =>
      let lo := max pa ((first + i) * 512)
      (lo, min (pa + n) ((first + i + 1) * 512) - lo)

/-- A port issues a request: its runs wait at their subchannels until command slots grant them, and entry into self-refresh ends. The
data moves at once (R310, R335; DESIGN CHOICE, log 12). -/
def State.dramRequest (s : State) (port pa n : Nat) (write : Bool) (data : List Byte := []) (wb : Bool := false) : State :=
  let runs := dramRuns pa n
  let new := (List.range runs.length).zipWith (fun i (r : Nat × Nat) =>
    ({ id := s.nextOp + i, port := port, pa := r.1, len := r.2, write := write, data := (data.drop (r.1 - pa)).take r.2, wb := wb } : DramReq)) runs
  { s with
    nextOp := s.nextOp + runs.length
    dram := { s.dram with
      reqs := new.reverse ++ s.dram.reqs
      sr := if s.dram.sr = .entering ∧ runs ≠ [] then .out else s.dram.sr } }

/-! ### Uncorrectable bursts and symbol errors (R312, R316, R319, R337, R551) -/

/-- Change the DRAM block. -/
def State.modDram (s : State) (f : Dram → Dram) : State := { s with dram := f s.dram }

/-- Change one subchannel. -/
def State.modSub (s : State) (n : Nat) (f : SubCh → SubCh) : State := s.modDram fun d => { d with subs := vmodN d.subs n f }

/-- Why the burst at `pa` reads uncorrectable. A burst of a granule whose epoch entry is lost fails its tag (R319). -/
def Dram.burstBad (d : Dram) (pa : Nat) : Option BurstBad :=
  match tabFind d.bad (pa / 64 * 64) with
  | some b => some b
  | none => if paGranule pa ∈ d.epochUe then some .tag else none

/-- A read, or the read of a partial write, meets an uncorrectable burst: the record and the count (R316, R551). -/
def State.burstError (s : State) (pa : Nat) (b : BurstBad) : State :=
  let pa := pa / 64 * 64
  match b with
  | .wcode => (s.modSub (paSub pa) fun c => { c with ue := c.ue.bump }).report 0x0D02 0x20 (paInfo pa)
  | .tag => (s.modSub (paSub pa) fun c => { c with tagFail := c.tagFail.bump }).report 0x0D03 0x22 (paInfo pa)

/-- The worse of what befalls the two words of a burst: the W-code is checked before the tag (R316). -/
def burstLost (a b : Option BurstBad) : Option BurstBad :=
  if a = some .wcode ∨ b = some .wcode then some .wcode
  else if a = some .tag ∨ b = some .tag then some .tag
  else none

/-- A read meets the symbol errors of a burst: every word corrected counts in CE; an uncorrectable burst stays so until it is written; a
corrected one writes record 0x0D01, at most once per second (R312, R316, R337). -/
def State.readErrors (s : State) (pa : Nat) (errs : List SymErr) : State :=
  let a := pa / 64 * 64
  let n := paSub a
  let (ca, la) := wordReads errs false
  let (cb, lb) := wordReads errs true
  let s := s.modSub n fun c => { c with ce := c.ce.bump (ca + cb) }
  match burstLost la lb with
  | some k => (s.modDram fun d => { d with bad := tabPut d.bad a k, faults := tabClear d.faults a (a + 64) }).burstError a k
  | none =>
    if ca + cb = 0 then s
    else if (vget s.dram.subs n).lastCe.all fun t => decide (t + 1000000000 ≤ s.now) then
      (s.modSub n fun c => { c with lastCe := some s.now }).report 0x0D01 0x20 (paInfo a)
    else s

/-- A read, or the read of a partial write, meets one burst. -/
def State.meetBurst (s : State) (a : Nat) : State :=
  match s.dram.burstBad a, tabFind s.dram.faults (a / 64 * 64) with
  | some b, _ => s.burstError a b
  | none, some errs => s.readErrors a errs
  | none, none => s

/-- What a read of the burst at `pa` finds, without its effects. -/
def Dram.readsBad (d : Dram) (pa : Nat) : Option BurstBad :=
  match d.burstBad pa, tabFind d.faults (pa / 64 * 64) with
  | some b, _ => some b
  | none, some errs => burstLost (wordReads errs false).2 (wordReads errs true).2
  | none, none => none

/-- A read of the burst at `pa` finds it uncorrectable. -/
def Dram.unreadable (d : Dram) (pa : Nat) : Bool := (d.readsBad pa).isSome

/-- A corrected burst is rewritten through port P19 (R316). -/
def State.writeBack (s : State) (a : Nat) : State :=
  let a := a / 64 * 64
  match tabFind s.dram.faults a with
  | none => s
  | some _ =>
    (s.modDram fun d => { d with faults := tabClear d.faults a (a + 64) }).dramRequest 19 a 64 true (Memory.readN s.mem a 64) true

/-- The bursts of a byte range that hold symbol errors or read uncorrectable, ascending. -/
def Dram.suspects (d : Dram) (pa n : Nat) : List Nat :=
  if n = 0 then []
  else
    let lo := pa / 64 * 64
    let listed := (d.bad.map (·.1) ++ d.faults.map (·.1)).filter fun a => decide (lo ≤ a) && decide (a < pa + n)
    let lost := d.epochUe.flatMap fun g =>
      let x := max lo (g * 1048576)
      let y := min (pa + n) ((g + 1) * 1048576)
      (List.range (ceilDiv (y - x) 64)).map fun i => x + 64 * i
    ((listed ++ lost).foldl (fun (l : List (Nat × Unit)) a => tabPut l a ()) []).map (·.1)

/-- The uncorrectable bursts of a range, ascending. -/
def Dram.badIn (d : Dram) (pa n : Nat) : List (Nat × BurstBad) := (d.suspects pa n).filterMap fun a => (d.burstBad a).map fun b => (a, b)

/-- A read meets a range: every burst with errors is corrected and written back, or reported (R11, R316, R337). -/
def State.meetErrors (s : State) (pa n : Nat) : State :=
  (s.dram.suspects pa n).foldl (fun (s : State) a => (s.meetBurst a).writeBack a) s

/-- A read that ends at the first uncorrectable burst among those listed: the state, and that burst. -/
def State.meetFirst (s : State) : List Nat → State × Option Nat
  | [] => (s, none)
  | a :: l =>
    let s := (s.meetBurst a).writeBack a
    if (s.dram.burstBad a).isSome then (s, some a) else s.meetFirst l

/-- Read `n` bytes at `pa`; none when a burst of the range is uncorrectable, with a record of each such burst (R11, R316). -/
def State.readDram (s : State) (pa n : Nat) (port : Nat := 15) : State × Option (List Byte) :=
  let s := (s.dramRequest port pa n false).meetErrors pa n
  (s, if s.dram.badIn pa n = [] then some (Memory.readN s.mem pa n) else none)

/-- Read `n` bytes at `pa`, with the uncorrectable bursts among them: the state, the bytes, and those bursts. -/
def State.readMarks (s : State) (pa n port : Nat) : State × List Byte × List Nat :=
  let s := (s.dramRequest port pa n false).meetErrors pa n
  (s, Memory.readN s.mem pa n, (s.dram.badIn pa n).map (·.1))

/-- Read a range up to its first uncorrectable burst: the state, and where that burst begins. -/
def State.readUntil (s : State) (pa n port : Nat) : State × Option Nat :=
  let s := s.dramRequest port pa n false
  s.meetFirst (s.dram.suspects pa n)

/-- The bytes of one write that fall into burst `b`. A covering write clears an uncorrectable state; a partial write reads the burst
first, and is not performed when that read finds it uncorrectable (R551). A write-back that still waits is not needed any more (R316). -/
def State.writeBurst (s : State) (pa : Nat) (data : List Byte) (b : Nat) : State :=
  let lo := max pa b
  let hi := min (pa + data.length) (b + 64)
  let part := (data.drop (lo - pa)).take (hi - lo)
  let put := fun (s : State) =>
    { s with
      mem := Memory.writeN s.mem lo part
      dram := { s.dram with
        faults := tabClear s.dram.faults b (b + 64)
        reqs := s.dram.reqs.filter fun r => !(r.wb && r.pa == b) } }
  if hi - lo = 64 then put (s.modDram fun d => { d with bad := tabClear d.bad b (b + 64) })
  else
    let s := s.meetBurst b
    if (s.dram.burstBad b).isSome then s else put s

/-- The request of a partial write for the burst that it reads, when burst `b` is not covered (R314). -/
def State.mergeRead (s : State) (pa n b port : Nat) : State :=
  if pa ≤ b ∧ b + 64 ≤ pa + n then s else s.dramRequest port b 64 false

/-- The request that writes a burst, when the write into it was performed (R314, R551). -/
def State.burstOut (s : State) (b port : Nat) : State :=
  if (s.dram.burstBad b).isSome then s else s.dramRequest port b 64 true (Memory.readN s.mem b 64)

/-- Write bytes at `pa`, burst by burst. A burst that is not covered is read, merged and written whole (R314, R551). -/
def State.writeDram (s : State) (pa : Nat) (data : List Byte) (port : Nat := 15) : State :=
  if data = [] then s
  else
    let n := data.length
    let first := pa / 64
    let last := (pa + n - 1) / 64
    let s := s.mergeRead pa n (first * 64) port
    let s := if first = last then s else s.mergeRead pa n (last * 64) port
    let s := (List.range (last + 1 - first)).foldl (fun s i => s.writeBurst pa data ((first + i) * 64)) s
    let ends := fun (b : Nat) => decide (pa ≤ b * 64 ∧ b * 64 + 64 ≤ pa + n)
    let s := if ends first then s else s.burstOut (first * 64) port
    let lo := if ends first then first else first + 1
    let hi := if ends last then last + 1 else last
    let s := if lo < hi then s.dramRequest port (lo * 64) ((hi - lo) * 64) true (Memory.readN s.mem (lo * 64) ((hi - lo) * 64)) else s
    if first = last ∨ ends last then s else s.burstOut (last * 64) port

/-! ### Buffers -/

/-- Read `n` bytes at offset `off` of a buffer. -/
def State.readBuf (s : State) (b : Buf) (off n : Nat) (port : Nat := 15) : State × Option (List Byte) :=
  s.readDram (b.base + off) n port

/-- Write bytes at offset `off` of a buffer; any write clears MAP_CHECKED (R170). -/
def State.writeBuf (s : State) (h : Nat) (off : Nat) (data : List Byte) (port : Nat := 15) : State :=
  match s.buf? h with
  | none => s
  | some b =>
    let s := s.writeDram (b.base + off) data port
    { s with bufs := { s.bufs with table := tabPut s.bufs.table h { b with mapChecked := false } } }

/-- The buffer, if any, that holds an address. -/
def State.bufAt (s : State) (pa : Nat) : Option (Nat × Buf) :=
  s.bufs.table.find? fun e => e.2.base ≤ pa && pa < e.2.base + e.2.len

/-! ### References and locks (R171, R224) -/

/-- The handles that a plan names for the parts it uses (Table 08-1). -/
def Plan.handles (p : Plan) : List Nat :=
  [p.ttBuf] ++ (if p.umapFmt = 0 then [] else [p.umapBuf]) ++ (if p.outMode = 1 then [p.fsBuf] else [])
    ++ (if p.capEn then [p.capBuf] else []) ++ (if p.outMode = 2 then [p.cpBuf] else [])
    ++ ((List.range 16).filter fun b => p.load.getLsbD b).map (fun b => p.src.getD b 0)
    ++ (p.layers.filter (·.en)).map (·.imgBuf)
    ++ ((List.range 8).filter fun g => p.gEn.getLsbD g).flatMap fun g =>
        let e := p.gfx.getD g {}
        [e.buf, e.mask] ++ if e.fmt = 1 then [e.pal] else []

/-- A slot whose plan is committed, in force or a fall-back of one (R171, R224). -/
def Slot.inUse (x : Slot) : Bool :=
  match x.st with
  | .armed | .inForce | .standby | .fbInForce => true
  | _ => false

/-- The plans that hold buffers: slots in use, and the frames in flight (R224). -/
def State.heldPlans (s : State) : List Plan :=
  (s.plan.slots.toList.filter (·.inUse)).map (·.plan) ++ (s.plan.cur.toList ++ s.plan.next.toList).map (·.plan)
    ++ (s.plan.prev.toList.filter fun g => g.plan.outMode == 1 && s.plan.cur.any fun c => c.plan.outMode == 1).map (·.plan)

/-- Buffers of images that depth layers of the plan in force still present: the frames in flight read them (R85, R224). -/
def State.shownBufs (s : State) : List Nat :=
  match s.plan.cur with
  | none => []
  | some g => ((List.finRange 64).filter fun k =>
      match g.plan.layers[k.val]? with
      | some e => e.en && s.layers[k].hasImg && !s.layers[k].clear
      | none => false).map fun k => s.layers[k].buf

/-- The reference count of a handle, saturating at 65,535 (R224, Table 10-13). -/
def State.refs (s : State) (h : Nat) : Nat :=
  let plans := (s.heldPlans.filter fun p => p.handles.contains h).length
  let ops := (s.sboard.filter fun o => o.handles.contains h).length
  let clips := (s.streams.toList.filter fun x => x.st != .detached && x.buf.toNat == h).length
  let stores := (s.queues.toList.filter fun q => q.kind == .large && q.store.toNat == h && h != 0).length
  let cap := match s.cap with | some c => if c.state == 1 && c.buf.toNat == h then 1 else 0 | none => 0
  let shown := if (s.heldPlans.any fun p => p.handles.contains h) then 0 else (s.shownBufs.filter (· == h)).length
  min 65535 (plans + ops + clips + stores + cap + shown)

/-- A buffer is LOCKED: a map of a plan in force, committed or a fall-back of one, or the CAP_BUF of a job (R171, R181). -/
def State.locked (s : State) (h : Nat) : Bool :=
  (s.heldPlans.any fun p => p.umapFmt != 0 && p.umapBuf == h)
    || (match s.cap with | some c => c.state == 1 && c.buf.toNat == h | none => false)

/-- LOCKED for blits: clip buffers and queue storage as well (R282). -/
def State.lockedBlt (s : State) (h : Nat) : Bool :=
  s.locked h || (s.streams.toList.any fun x => x.st != .detached && x.buf.toNat == h)
    || (s.queues.toList.any fun q => q.kind == .large && q.store.toNat == h && h != 0)

/-- The checks on a buffer that a thread stores to: open, within, not LOCKED (R250, R251). -/
def State.checkStore (s : State) (t : Tid) (h off n : Nat) : Except Refused Buf := do
  let b ← s.checkOpen t h
  b.within off n
  need (!s.locked h) 0x07
  return b

/-! ### The allocator (R221, R319, R321) -/

/-- Bytes that a buffer takes: whole granules when sealed, units of 64 KiB otherwise (R221). -/
def allocUnit (isSealed : Bool) : Nat := if isSealed then 1048576 else 65536

/-- The range that a buffer takes in whole units (R221). -/
def Buf.span (b : Buf) : Nat × Nat :=
  let u := allocUnit b.isSealed
  (b.base / u * u, ceilDiv (b.base + b.len) u * u)

/-- Address ranges that no new buffer may take. -/
def State.occupied (s : State) : List (Nat × Nat) :=
  (s.bufs.table.map fun e => e.2.span)
    ++ (s.bufs.zeroing.map fun j => (j.lo, j.hi)) ++ (s.dram.retired ++ s.dram.epochUe).map fun g => (g * 1048576, (g + 1) * 1048576)

/-- The highest epoch of the granules of a range (R319). -/
def Dram.maxEpoch (d : Dram) (lo hi : Nat) : Nat :=
  ((d.epochs.filter fun e => e.1 * 1048576 < hi && lo < (e.1 + 1) * 1048576).map (·.2)).foldl max 0

/-- The place of a run of `n` bytes within a region: among the free runs, one of the lowest highest epoch, then the lowest
address (R319; DESIGN CHOICE, log 11). A sealed run takes granules that nothing else touches. -/
def State.findRun (s : State) (isSealed : Bool) (lo hi n : Nat) : Option Nat :=
  let u := allocUnit isSealed
  let occ := s.occupied.map fun r => (r.1 / u * u, ceilDiv r.2 u * u)
  let cand : List Nat := [lo] ++ occ.map (·.2) ++ s.dram.epochs.map (fun e => (e.1 + 1) * 1048576)
  let cand := cand.filter fun p =>
    lo ≤ p && p + n ≤ hi && !(occ.any fun r => p < r.2 && r.1 < p + n)
  cand.foldl (fun best p =>
    match best with
    | none => some p
    | some q =>
      let a := s.dram.maxEpoch p (p + n)
      let b := s.dram.maxEpoch q (q + n)
      if a < b || (a == b && p < q) then some p else some q) none

/-- The 64 GiB boundary of the BAR4 window (R321). -/
def bar4Top : Nat := 68719476736

/-- Where a new buffer of `len` bytes is placed: a sealed one above 64 GiB when a run lies there, below otherwise; an unsealed
one below (R221, R321). -/
def State.place (s : State) (isSealed : Bool) (len : Nat) : Option Nat :=
  let u := allocUnit isSealed
  let n := ceilDiv len u * u
  let top := min bar4Top s.dram.capacity
  if isSealed then
    match s.findRun true bar4Top s.dram.capacity n with
    | some p => some p
    | none => s.findRun true 0 top n
  else s.findRun false 0 top n

/-- The handle that `BALLOC` takes: one never used, ascending, before the one freed longest ago (R221; DESIGN CHOICE, log 11). -/
def Bufs.freeHandle (b : Bufs) : Option Nat := if b.fresh < 4032 then some b.fresh else b.freed.head?

/-- Take a handle out of the free ones. -/
def Bufs.takeHandle (b : Bufs) : Bufs :=
  if b.fresh < 4032 then { b with fresh := b.fresh + 1 } else { b with freed := b.freed.drop 1 }

/-- Return the memory of a range to the zeroing engine: sealed memory as whole granules, unsealed memory as it is (R225, R318). -/
def State.freeRange (s : State) (b : Buf) : State :=
  let (lo, hi) := b.span
  let jobs : List ZeroJob :=
    if b.isSealed then (List.range ((hi - lo) / 1048576)).map fun i => ⟨lo + i * 1048576, lo + (i + 1) * 1048576, true⟩
    else [⟨lo, hi, false⟩]
  { s with bufs := { s.bufs with zeroing := s.bufs.zeroing ++ jobs } }

/-- Free a buffer: the handle, then its memory (R225). -/
def State.release (s : State) (h : Nat) : State :=
  match s.buf? h with
  | none => s
  | some b =>
    let s := { s with bufs := { s.bufs with table := s.bufs.table.filter fun e => e.1 != h, freed := s.bufs.freed ++ [h] } }
    s.freeRange b

/-- What the zeroing engine rewrites: of the memory freed, the first that is no granule without an epoch left (R319). -/
def State.zeroTarget (s : State) : Option ZeroJob :=
  s.bufs.zeroing.find? fun j => !j.isSealed || decide (tabGet 0 s.dram.epochs (paGranule j.lo) < 65535)

/-- Every subchannel has written its runs of a job. -/
def State.zeroedAll (s : State) (j : ZeroJob) : Bool := s.dram.zeroed.toList.all fun n => decide ((j.hi - j.lo) / 8192 ≤ n)

/-- A job is done: its memory is zero, and the engine takes the next one. -/
def State.endZeroing (s : State) (j : ZeroJob) : State :=
  { s with
    mem := Memory.zero s.mem j.lo j.hi
    bufs := { s.bufs with zeroing := s.bufs.zeroing.erase j }
    dram := { s.dram with
      bad := tabClear s.dram.bad j.lo j.hi, faults := tabClear s.dram.faults j.lo j.hi, zeroed := Vector.replicate 16 0 } }

/-- The granule as the zeroing engine holds it. -/
def granuleJob (g : Nat) : ZeroJob := ⟨g * 1048576, (g + 1) * 1048576, true⟩

/-- An epoch entry is uncorrectable: its granule is lost for the rest of the boot, with record 0x0D07 (R319). -/
def State.loseEpoch (s : State) (g : Nat) : State :=
  if g ∈ s.dram.epochUe ∨ s.dram.capacity ≤ g * 1048576 then s
  else
    ({ s with
      bufs := { s.bufs with zeroing := s.bufs.zeroing.filter (· != granuleJob g) }
      dram := { s.dram with
        epochUe := g :: s.dram.epochUe
        zeroed := if s.zeroTarget = some (granuleJob g) then Vector.replicate 16 0 else s.dram.zeroed } } : State).report 0x0D07 0x23 g

/-- The next free value of the spec's open ones (DESIGN CHOICE, log 10). -/
def State.freshValue (s : State) : State × BitVec 64 := ({ s with free := s.free + 1 }, Config.freeValue s.free)

/-- The next `n` of them. -/
def State.freshValues (s : State) (n : Nat) : State × List (BitVec 64) :=
  ({ s with free := s.free + n }, (List.range n).map fun i => Config.freeValue (s.free + i))

end Sys2Proof.Machine
end

