-- ==== Sys2Proof/Machine/Crc.lean ====
section
/-! DEFINITION. Check values: the CRC units, CRC-32C, the CRC-8 of the management bus (R158, R265, R266, R389,
R496-R498). -/

namespace Sys2Proof.Machine

/-! ### CRC (R497, R498) -/

/-- One input bit into a running value of `w` bits (R497). -/
def crcBit (w poly r : Nat) (b : Bool) : Nat :=
  let fb := (r.testBit (w - 1)) != b
  let r := r * 2 % 2 ^ w
  if fb then r ^^^ poly else r

/-- One input byte, least significant bit first when `refin` (R497). -/
def crcByte (w poly : Nat) (refin : Bool) (r : Nat) (x : Byte) : Nat :=
  (List.range 8).foldl (fun r i => crcBit w poly r (x.getLsbD (if refin then i else 7 - i))) r

/-- Reverse the low `w` bits. -/
def reflect (w r : Nat) : Nat := (List.range w).foldl (fun a i => if r.testBit i then a + 2 ^ (w - 1 - i) else a) 0

/-- Add 1 to a 16-bit count that saturates. -/
def sat16 (x : Nat) : Nat := min (x + 1) 65535

/-- One alive count into a running value (R498). -/
def aliveByte (r : Nat) (x : Byte) : Nat :=
  let c := x.toNat
  let last := r % 256
  let rep := bitsOf r 31 16
  let skip := bitsOf r 47 32
  if !r.testBit 8 || c = (last + 1) % 256 then c + 256 + rep * 65536 + skip * 2 ^ 32
  else if c = last then c + 256 + sat16 rep * 65536 + skip * 2 ^ 32
  else c + 256 + rep * 65536 + sat16 skip * 2 ^ 32

/-- Feed bytes into a running value under a configuration. -/
def CuCfg.feed (c : CuCfg) (r : Nat) (data : List Byte) : Nat :=
  if c.alive then data.foldl aliveByte r else data.foldl (crcByte c.width c.poly c.refin) r

/-- The final value (R497); in alive mode the running value itself (R498). -/
def CuCfg.final (c : CuCfg) (r : Nat) : Nat :=
  if c.alive then r else (if c.refout then reflect c.width r else r) ^^^ c.xorout

/-- CRC-32C of bytes, as CU7 runs it (R158). -/
def crc32c (data : List Byte) : Nat := ({} : CuCfg).final (({} : CuCfg).feed 0xFFFFFFFF data)

/-- Continue a CRC-32C running value. -/
def crc32cFeed (r : BitVec 32) (data : List Byte) : BitVec 32 := BitVec.ofNat 32 (({} : CuCfg).feed r.toNat data)

/-- CRC-8 of the management bus (R389). -/
def crc8 (data : List Byte) : Nat := data.foldl (crcByte 8 7 false) 0

/-! ### The CRC instructions -/

/-- The unit of a CRC instruction: FN[2:0]; CU7 faults with subcode 0x23 (R251, R265). -/
def cuOf (w : IWord) : Except Refused (Fin 7) :=
  if h : w.fn.toNat % 8 < 7 then .ok ⟨w.fn.toNat % 8, h⟩ else .error (.state, 0x23)

/-- Change a CRC unit. -/
def State.modCu (s : State) (c : Fin 7) (f : Cu → Cu) : State := { s with cus := vmodN s.cus c.val f }

/-- The configuration of a `CRCSET` block; none when a field is out of its range (R266). -/
def crcConfig (b : List Byte) : Option (CuCfg × Nat) :=
  let width := fieldAt b 0 1
  let fl := fieldAt b 1 1
  let poly := fieldAt b 8 8
  let init := fieldAt b 0x10 8
  if 1 ≤ width ∧ width ≤ 64 ∧ poly < 2 ^ width then
    let alive := fl.testBit 2
    some ({ width := width, refin := fl.testBit 0, refout := fl.testBit 1, alive := alive, poly := poly
            xorout := fieldAt b 0x18 8 % 2 ^ width },
      if alive then init % 512 + bitsOf init 47 16 * 65536 else init % 2 ^ width)
  else none

/-- `CRCSET` (R265, R266). -/
def execCrcset (t : Tid) (w : IWord) (s : State) : Answer :=
  .next (s.issueBlock t w fun s =>
    let b := w.block (s.thread t) 32
    s.orFault t do
      let c ← cuOf w
      match crcConfig b with
      | none => .error (.state, 0x20)
      | some (cfg, init) =>
        return s.startUnit t (.crcset t w) { units := [.cu c.val] } fun s =>
          (s.modCu c fun u => { u with cfg := cfg, run := BitVec.ofNat 64 init }).toUnit t w (some (.code 0)))

/-- Feed `n` bytes of a buffer into a unit. A burst that reads uncorrectable ends the run with FLT_MEM_UE: the bytes before
it have been fed (R265, R497). -/
def State.crcJob (s : State) (c : Fin 7) (h off n : Nat) : State × Done :=
  match s.buf? h with
  | none => (s, { wrRd := false, flt := some (.memUe, 0) })
  | some b =>
    if b.isSealed then (s, { wrRd := false, flt := some (.seal, 0) }) else
    let feed := fun (s : State) (k : Nat) =>
      let data := Memory.readN s.mem (b.base + off) k
      s.modCu c fun u => { u with run := BitVec.ofNat 64 (u.cfg.feed u.run.toNat data) }
    match s.readUntil (b.base + off) n 19 with
    | (s, some a) => (feed s (a - (b.base + off)), { wrRd := false, flt := some (.memUe, 0) })
    | (s, none) => (feed s n, .code 0)

/-- Register an asynchronous operation of a thread at issue: the result 0 is written at once (R233). -/
def State.startAsync (s : State) (t : Tid) (w : IWord) (u : Use) (job : Job) (k : Nat → State → State × Option Done) : State :=
  let op := s.nextOp
  let o : SbOp := { op := op, thread := t, sync := false, units := u.units, handles := u.handles, reads := u.reads, writes := u.writes }
  let s := { s with sboard := s.sboard ++ [o], nextOp := op + 1 }
  let (s, asleep) := s.wakeDram u
  let blocked := asleep || sbBlocked s.sboard op
  let addr := (s.thread t).pc
  let (s, res) := if blocked then (s, none) else k op s
  s.modThread t fun th =>
    { (th.setReg w.rd 0).next with
      fl := th.fl.ofResult 0
      snap := none
      async := th.async ++ [{ op := op, word := w.resWord, addr := addr, todo := if blocked then some job else none, res := res }] }

/-- `CRCRUN` (R265, R497). -/
def execCrcrun (t : Tid) (w : IWord) (s : State) : Answer :=
  .next (s.issue t 1 fun s =>
    let th := s.thread t
    let h := handleOf (th.reg w.ra)
    let off := (th.reg w.rb).toNat
    let n := (th.reg w.rc).toNat
    s.orFault t do
      let b ← s.checkOpen t h
      let c ← cuOf w
      b.within off n
      let u : Use := { units := [.cu c.val], handles := [h], reads := [.ofBytes h off n] }
      if w.isAsync then
        if s.full t then return s.hold t (.crcrun t w)
        else return s.startAsync t w u (.crcRun c h off n) fun _ s => (s.crcJob c h off n).map id some
      else
        return s.startUnit t (.crcrun t w) u fun s =>
          let (s, d) := s.crcJob c h off n
          s.toUnit t w (some d))

/-- `CRCGET`: the running value, or with FINAL the final one (R265, R497). -/
def execCrcget (t : Tid) (w : IWord) (s : State) : Answer :=
  .next (s.issue t 1 fun s => s.orFault t do
    let c ← cuOf w
    return s.startUnit t (.crcget t w) { units := [.cu c.val] } fun s =>
      let u := vget s.cus c.val
      if w.fn.getLsbD 3 then s.toUnit t w (some (.codeRc 0 (u.cfg.final u.run.toNat)))
      else
        let s := s.modCu c fun u => if u.taken.contains (u.cfg, u.run) then u else { u with taken := (u.cfg, u.run) :: u.taken }
        s.toUnit t w (some (.codeRc 0 u.run.toNat)))

/-- `CRCPUT`: a value that `CRCGET` took from a unit of the same configuration resumes it; any other is the host mistake of
R239, and the running value is then free (DESIGN CHOICE, log 10). -/
def execCrcput (t : Tid) (w : IWord) (s : State) : Answer :=
  .next (s.issue t 1 fun s => s.orFault t do
    let c ← cuOf w
    return s.startUnit t (.crcput t w) { units := [.cu c.val] } fun s =>
      let v := (s.thread t).reg w.rb
      let cfg := (vget s.cus c.val).cfg
      if s.cus.any fun u => u.taken.contains (cfg, v) then (s.modCu c fun u => { u with run := v }).toUnit t w (some (.code 0))
      else
        let (s, x) := s.freshValue
        (s.modCu c fun u => { u with run := BitVec.ofNat 64 (x.toNat % 2 ^ (if cfg.alive then 64 else cfg.width)) }).toUnit t w
          (some (.code 0)))

end Sys2Proof.Machine
end

