-- ==== Sys2Proof/Machine/QueueOps.lean ====
section
/-! DEFINITION. Operations on a hardware queue: the storage of a large queue in DRAM, items put and taken, the flush, and the comparison of
its two sets of pointers (R293-R302). -/

namespace Sys2Proof.Machine

/-! ### Storage of large queues (R293, R295) -/

/-- The device handle of the storage of Q8 to Q31 (R220, R293; DESIGN CHOICE, log 11). -/
def queueHandle (q : Nat) : Nat := 4032 + q

/-- The buffer that holds the words of a large queue: of Q8 to Q31, and of a general queue configured so (Table 12-1). -/
def State.queueStore (s : State) (q : Fin 64) : Option Buf :=
  if s.queues[q].kind != .large ∨ q.val < 8 ∨ (32 ≤ q.val ∧ q.val < 42) then none
  else s.buf? (if 8 ≤ q.val ∧ q.val < 32 then queueHandle q.val else s.queues[q].store.toNat)

/-- The END entries of `n` words from word `w`, of which the last closes its item when `last`: the bytes that hold them. -/
def endBytes (m : List Host.Cell) (base w n : Nat) (last : Bool) : List Byte :=
  (List.range ((w + n - 1) / 8 + 1 - w / 8)).map fun k =>
    (List.range 8).foldl (fun (b : Byte) j =>
      let i := 8 * (w / 8 + k) + j
      let bit := BitVec.ofNat 8 (2 ^ j)
      if i < w ∨ w + n ≤ i then b else if last && i + 1 == w + n then b ||| bit else b &&& ~~~bit) (Memory.read m (base + w / 8 + k))

/-- Write whole words at a position of the storage, and their END entries. -/
def State.writeWords (s : State) (b : Buf) (pos : Nat) (d : List Byte) (last : Bool) (port : Nat) : State :=
  if d = [] then s
  else
    let s := s.writeDram (b.base + b.len / 256 + pos) d port
    s.writeDram (b.base + pos / 256) (endBytes s.mem b.base (pos / 32) (d.length / 32) last) port

/-- The words of an item go into the storage of a large queue from its write pointer on, with their END entries and the valid count of the
last (R295; what a group is DEDUCED, log 45). -/
def State.storeWords (s : State) (q : Fin 64) (item : List Byte) (port : Nat) : State :=
  match s.queueStore q with
  | none => s
  | some b =>
    let x := s.queues[q]
    let d := item ++ List.replicate (itemSpace item - item.length) 0
    let k := x.cap - x.wpos
    let s := s.writeWords b x.wpos (d.take k) (decide (d.length ≤ k)) port
    let s := s.writeWords b 0 (d.drop k) true port
    let w := x.ahead x.wpos (d.length - 32) / 32
    s.writeDram (b.base + w / 256 * 32 + 31) [BitVec.ofNat 8 ((item.length - 1) % 32 + 1)] port

/-- The words of an item are read from the storage of a large queue, from its read pointer on; false when one is uncorrectable (R11). -/
def State.readWords (s : State) (q : Fin 64) (n port : Nat) : State × Bool :=
  match s.queueStore q with
  | none => (s, true)
  | some b =>
    let x := s.queues[q]
    let k := min n (x.cap - x.rpos)
    let (s, _, bad) := s.readMarks (b.base + b.len / 256 + x.rpos) k port
    let (s, _, bad') := if k < n then s.readMarks (b.base + b.len / 256) (n - k) port else (s, [], [])
    let (s, _, ends) := s.readMarks (b.base + x.rpos / 256) (n / 256 + 1) port
    (s, bad.isEmpty && bad'.isEmpty && ends.isEmpty)

/-! ### Flush (R298) -/

/-- A queue flushed: marks and words go; a writer that is partway through an item loses the rest of it. -/
def Queue.flush (q : Queue) : Queue :=
  let mid := q.part != [] || q.past
  { q with
    kept := [], ready := [], unpub := [], part := [], tags := [], wmark := false, rmark := false, past := false, rdMid := false
    itemBase := 0, rpos := q.wpos
    discard := q.discard || mid
    partialDrop := if mid then q.partialDrop.bump else q.partialDrop }

/-- Count LENGTH for a stream's ingest: an item that ended with ABORT (R298, Table 03-6). -/
def State.countAbort (s : State) (q : Fin 64) : State :=
  if 8 ≤ q.val ∧ q.val < 24 then
    { s with streams := vmodN s.streams (q.val - 8) fun x => { x with ctr := vmodN x.ctr 5 (·.bump) } }
  else s

/-- Flush a queue of the device; a device reader partway through an item ends with ABORT (R298). -/
def State.flushQueue (s : State) (q : Fin 64) : State :=
  let x := s.queues[q]
  let s := if x.rdMid then s.countAbort q else s
  s.putQueue q x.flush

/-! ### The two copies of the pointers (R302) -/

/-- The two copies of a queue's pointers differ at an update: the queue resets to empty. -/
def State.pointerReset (s : State) (q : Fin 64) (f : PtrField) : State :=
  let s := s.flushQueue q
  let s := { s with queues := vmod s.queues q fun x => { x with resets := x.resets.bump, wpos := 0, rpos := 0, upset := none } }
  let s := s.report 0x0C01 0x10 (q.val * 2 ^ 40 + f.val * 2 ^ 32)
  let x := s.queues[q]
  s.post41 (wmItem 0x13 q.val (x.wm.word x.low x.high x.level))

/-- The comparison at an update. -/
def State.compare (s : State) (q : Fin 64) : State :=
  match s.queues[q].upset with
  | none => s
  | some f => s.pointerReset q f

/-- One copy of a field of a queue is disturbed: the next update of the queue shows it. -/
def State.disturb (s : State) (u : Option (Fin 64 × PtrField)) : State :=
  match u with
  | none => s
  | some (q, f) => { s with queues := vmod s.queues q fun x => { x with upset := some f } }

/-- Replace a queue's contents, with all that its crossings cause and the comparison (R300, R302). -/
def State.updQueue (s : State) (q : Fin 64) (x : Queue) : State := (s.putQueue q x).compare q

/-! ### Items -/

/-- Put an item into a queue through a port; LOST counts one that does not fit. -/
def State.pushItem (s : State) (q : Fin 64) (item : List Byte) (port : Nat) (tag : Bool := false) : State :=
  let s := if itemSpace item ≤ s.queues[q].space then s.storeWords q item port else s
  s.updQueue q (s.queues[q].push item tag)

/-- Take the oldest published item; behind a reader mark it keeps its space (R297). -/
def Queue.take (q : Queue) : Option (List Byte × Queue) :=
  match q.ready with
  | [] => none
  | i :: r =>
    some (i, { q with
      ready := r, itemBase := 0, rpos := q.ahead q.rpos (itemSpace i), kept := if q.rmark then q.kept ++ [i] else []
      tags := if q.rmark then q.tags else q.tags.drop 1 })

/-- Take the oldest item of a queue through a port: the item, the state, and whether its words could be read. -/
def State.takeItem (s : State) (q : Fin 64) (port : Nat) : Option (List Byte × State × Bool) :=
  match s.queues[q].ready with
  | [] => none
  | item :: _ =>
    let (s, ok) := s.readWords q (itemSpace item) port
    match s.queues[q].take with
    | none => none
    | some (_, x) => some (item, s.updQueue q x, ok)

/-- The tag of the oldest item. -/
def Queue.tag (q : Queue) : Bool := q.tags.getD q.kept.length false

end Sys2Proof.Machine
end

