-- ==== Sys2Proof/Machine/FabBase.lean ====
section
/-! DEFINITION. Enrolment, routing and the transmit queues of the fabric: what every sender of items shares
(R403, R440-R444, R459). -/

namespace Sys2Proof.Machine

/-- The OWNER slot in force: the highest-numbered used slot that is not revoked (R395). -/
def State.ownerSlot (s : State) : Option (Fin 8) :=
  (List.finRange 8).reverse.find? fun i => s.sec.own[i].used && !s.sec.own[i].revoked

/-- The device has an owner (Table 17-5). -/
def State.owned (s : State) : Bool := s.ownerSlot.isSome

/-- ENROLLED: the roster in force has an entry with this device's SERIAL, KEYID and node address (Table 17-5). -/
def State.enrolled (s : State) : Bool :=
  s.owned &&
    match s.sec.roster, s.node? with
    | some r, some n =>
      r.entries.any fun e => e.serial == Config.serial && e.keyId == Config.ownKeyId && e.node.toNat == n
    | _, _ => false

/-- CLEAR_OK of the policy in force (R404, R406). -/
def State.clearOk (s : State) : Bool := match s.sec.roster with | some r => r.clearOk | none => true

/-- NOTICE_MIN_CODE of the policy in force (R404, R406). -/
def State.minCode (s : State) : Nat := match s.sec.roster with | some r => r.minCode | none => 2048

/-- THR_PCT of the policy in force (R404, R406). -/
def State.thrPct (s : State) : Nat := match s.sec.roster with | some r => r.thrPct | none => 50

/-- A port carries a class: UP, and AUTHENTICATED for classes 2 and 3 (R413). -/
def Port.carries (p : Port) (tc : Nat) : Bool := p.st == .up && (p.link == .authenticated || tc ≤ 1)

/-- The port towards another column, and towards another row: E 0, W 1, N 2, S 3 (R434, R440). -/
def colPort (own dst : Nat) : Option (Fin 8) :=
  if own % 64 < dst % 64 then some 0 else if dst % 64 < own % 64 then some 1 else none
def rowPort (own dst : Nat) : Option (Fin 8) :=
  if own / 64 < dst / 64 then some 3 else if dst / 64 < own / 64 then some 2 else none

/-- The first port of a list that carries the class. -/
def State.usable (s : State) (tc : Nat) (l : List (Option (Fin 8))) : Option (Fin 8) :=
  (l.filterMap id).find? fun p => s.fab.ports[p].carries tc

/-- The next hop of a frame that is not for this node, and its DETOUR bit: the route table or dimension order, else the
detour of R441; none where no port is usable. -/
def State.nextHop (s : State) (dst tc : Nat) (detour : Bool) : Option (Fin 8 × Bool) :=
  match s.node? with
  | none => none
  | some own =>
    let e := tabGet 15 s.fab.route dst
    let c := colPort own dst
    let r := rowPort own dst
    let first := if h : e < 8 then some ⟨e, h⟩ else if c.isSome then c else r
    match s.usable tc [first] with
    | some p => some (p, detour)
    | none =>
      if detour then (s.usable tc [if r.isSome then r else c]).map fun p => (p, true)
      else
        let other := if first = c then r else if first = r then c else if c.isSome then c else r
        (s.usable tc [other]).map fun p => (p, true)

/-- A frame's item as this node originates it. -/
def State.newItem (s : State) (tc : Nat) (ftype : Nat) (bcast : Bool) (dst : Nat) (bytes : List Byte) : TxItem :=
  { tc := BitVec.ofNat 2 tc, ftype := BitVec.ofNat 4 ftype, bcast := bcast, auth := s.enrolled, ttl := 255, detour := false
    src := BitVec.ofNat 12 (s.node?.getD 0), dst := BitVec.ofNat 12 dst, bytes := bytes }

/-- The transmit queue of a port, Q32 + p. -/
def txQueue (p : Fin 8) : Fin 64 := ⟨32 + p.val, by omega⟩

/-- An item fits the transmit queue: it has the space, or the item is longer than the queue and the queue is empty. -/
def State.txRoom (s : State) (p : Fin 8) (bytes : List Byte) : Bool :=
  let q := s.queues[txQueue p]
  itemSpace bytes ≤ q.space || (q.cap < itemSpace bytes && q.used == 0)

/-- Put an item that this node originates on the transmit queue of a port (R444). -/
def State.sendOwn (s : State) (p : Fin 8) (x : TxItem) : State :=
  let q := s.queues[txQueue p]
  let s := s.updQueue (txQueue p) (q.add x.bytes)
  { s with fab := { s.fab with ports := vmod s.fab.ports p fun y => { y with own := y.own ++ [x] } } }

/-- The UP cardinal ports that carry a class, on which the origin sends a broadcast (R442). -/
def State.bcastPorts (s : State) (tc : Nat) : List (Fin 8) :=
  [0, 1, 2, 3].filter fun p => s.fab.ports[p].carries tc

/-- The class of a forwarded CLS item on its first-hop port: 1 for NOTICE and KEY_GRANT, else 2 or 3 by the mask (R459). -/
def State.clsClass (s : State) (control : Bool) (p : Fin 8) : Nat :=
  if control then 1 else if s.fab.ports[p].mask = 0 then 3 else 2

/-- Forward a CLS item that an ingest device took: none while a transmit queue that it needs is full (R459). -/
def State.forwardCls (s : State) (control bcast : Bool) (dst : Nat) (item : List Byte) : Option State :=
  let ps : List (Fin 8) :=
    if bcast then [0, 1, 2, 3].filter fun p => s.fab.ports[p].carries (s.clsClass control p)
    else
      match s.nextHop dst (if control then 1 else 2) false with
      | some (p, _) => [p]
      | none => []
  if ps.all fun p => s.txRoom p item then
    some (ps.foldl (fun s p => s.sendOwn p (s.newItem (s.clsClass control p) 3 bcast dst item)) s)
  else none

end Sys2Proof.Machine
end

