-- ==== Sys2Proof/Machine/PlanImage.lean ====
section
/-! DEFINITION. The plan image field by field (Tables 08-1 to 08-3), ray positions, and the sizes that follow from a plan: ring
windows, halves, pitches (02, R111, R112, R121, R174, R189-R191). -/

namespace Sys2Proof.Machine

/-! ### Parsing (R189-R192) -/

/-- Depth layer entry at offset `o` (Table 08-2). -/
def layerEntryAt (b : List Byte) (o : Nat) : LayerEntry :=
  let f := fun i n => fieldAt b (o + i) n
  let off := fun i => signed 24 (f i 4)
  let ok := fun i => decide (signed 32 (f i 4) = signed 24 (f i 4))
  { w := f 0 2, h := f 2 2, s := f 4 2, d := signed 16 (f 6 2), ox := off 8, oy := off 12, oOk := ok 8 && ok 12
    imgBuf := f 16 2, ringLines := f 18 2, bankX := bitsOf (f 20 1) 3 0, bankY := bitsOf (f 20 1) 7 4
    en := (f 21 1).testBit 0, edge := (f 21 1).testBit 1, late := bitsOf (f 21 1) 3 2
    srcStream := f 22 1, srcLayer := f 23 1 }

/-- Graphic entry at offset `o` (Table 08-3). -/
def gfxEntryAt (b : List Byte) (o : Nat) : GfxEntry :=
  let f := fun i n => fieldAt b (o + i) n
  { fmt := bitsOf (f 0 1) 1 0, buf := f 2 2, w := f 4 2, h := f 6 2, pitch := f 8 4, x0 := signed 16 (f 12 2)
    y0 := signed 16 (f 14 2), pal := f 16 2, mask := f 18 2, col := bitsOf (f 20 4) 23 0 }

/-- Byte ranges of the image below 0x0C00 that no table assigns (R189), as offset and length. -/
def planRsvd : List (Nat × Nat) :=
  [(0x09, 7), (0x14, 40), (0x47, 1), (0x55, 43), (0x81, 1), (0xA4, 28), (0xC7, 57), (0x115, 1), (0x11B, 1), (0x11E, 2)]
    ++ [(0x126, 2), (0x130, 80), (0x18E, 50), (0x1E8, 24)]
    ++ (List.range 8).flatMap (fun g => [(0x300 + 32 * g + 1, 1), (0x300 + 32 * g + 24, 8)])
    ++ (List.range 64).map fun k => (0x400 + 32 * k + 24, 8)

/-- Offsets of the handle fields, whose bits [15:12] are 0 (R189). -/
def planHandleFields : List Nat :=
  (List.range 16).map (fun b => 0x84 + 2 * b) ++ [0x112, 0x116, 0x118, 0x11C, 0x124]
    ++ (List.range 8).flatMap (fun g => [0x300 + 32 * g + 2, 0x300 + 32 * g + 16, 0x300 + 32 * g + 18])
    ++ (List.range 64).map fun k => 0x410 + 32 * k

/-- PLAN_LEN of R189 for a hogel size. -/
def planLen (hh hv : Nat) : Nat := ceilDiv (0x0C00 + 4 * hh * hv) 64 * 64

/-- The image field by field (Table 08-1). -/
def planOfBytes (b : List Byte) : Plan :=
  let f := fun o n => fieldAt b o n
  let words := fun o n => (List.range n).map fun i => f (o + 2 * i) 2
  let hh := f 0x40 1
  let hv := f 0x41 1
  let gf := f 0x46 1
  let fl := f 0x114 1
  { hasFb := (f 7 1).testBit 0, fbSlot := f 8 1, planId := BitVec.ofNat 32 (f 0x10 4), hh := hh, hv := hv
    nhx := f 0x42 2, nhy := f 0x44 2, flipU := gf.testBit 0, flipV := gf.testBit 1, subpix := gf.testBit 2
    rateNum := f 0x48 4, rateDen := f 0x4C 4, lineSym := f 0x50 2, vbl := f 0x52 2, tg0Src := f 0x54 1, gReq := f 0x80 1
    load := BitVec.ofNat 16 (f 0x82 2), src := words 0x84 16, bgR := f 0xC0 2, bgG := f 0xC2 2, bgB := f 0xC4 2
    gEn := BitVec.ofNat 8 (f 0xC6 1), m := (words 0x100 9).map fun x => signed 16 x, ttBuf := f 0x112 2
    dither := bitsOf fl 1 0, umapFmt := bitsOf fl 3 2, outMode := bitsOf fl 5 4, capEn := fl.testBit 6, cpLoop := fl.testBit 7
    umapBuf := f 0x116 2, fsBuf := f 0x118 2, fsCount := f 0x11A 1, capBuf := f 0x11C 2, capCount := f 0x120 4
    cpBuf := f 0x124 2, cpFirst := f 0x128 4, cpCount := f 0x12C 4, res := words 0x180 6, streamMb := f 0x18C 2
    slotEpoch := f 0x1C0 8, isoTx := words 0x1C8 8, isoRx := words 0x1D8 8
    masks := (List.range 8).map fun p => BitVec.ofNat 256 (f (0x200 + 32 * p) 32)
    gfx := (List.range 8).map fun g => gfxEntryAt b (0x300 + 32 * g)
    layers := (List.range 64).map fun k => layerEntryAt b (0x400 + 32 * k)
    views := (List.range (hh * hv)).map fun n => (signed 16 (f (0xC00 + 4 * n) 2), signed 16 (f (0xC02 + 4 * n) 2))
    rsvdOk := planRsvd.all (fun r => zeroAt b r.1 r.2) && planHandleFields.all (fun o => decide (f o 2 < 4096))
      && zeroAt b (0xC00 + 4 * hh * hv) (b.length - (0xC00 + 4 * hh * hv)) }

/-! ### Layers of a plan -/

/-- Depth layer entry `k`. -/
def Plan.layer (p : Plan) (k : Nat) : LayerEntry := p.layers.getD k {}

/-- Indices of the enabled depth layers, ascending. -/
def Plan.enabled (p : Plan) : List Nat := (List.range 64).filter fun k => (p.layer k).en

/-- L, the number of enabled depth layers (R190). -/
def Plan.count (p : Plan) : Nat := p.enabled.length

/-- Indices of the enabled graphic layers, ascending. -/
def Plan.gfxOn (p : Plan) : List Nat := (List.range 8).filter fun g => p.gEn.getLsbD g

/-- Graphic entry `g`. -/
def Plan.gfxLayer (p : Plan) (g : Nat) : GfxEntry := p.gfx.getD g {}

/-- The layer is fed by a stream (R190). -/
def LayerEntry.fed (e : LayerEntry) : Bool := e.srcStream != 0xFF

/-- Tiles per row, and tile rows, of an image (R76). -/
def tilesX (w : Nat) : Nat := ceilDiv w 32
def tilesY (h : Nat) : Nat := ceilDiv h 32

/-- PITCH of a decoded image (R77). -/
def layerPitch (w : Nat) : Nat := 192 * tilesX w

/-- Offset of the tile map in a half (R191). -/
def mapOffset (w h : Nat) : Nat := layerPitch w * h

/-- HALF_k (R191). -/
def halfLen (w h : Nat) : Nat := layerPitch w * h + 64 * ceilDiv (tilesX w * tilesY h) 64

/-- LB_k, one ring line (Table 08-5). -/
def lineBytes (w : Nat) : Nat := ceilDiv (6 * w) 64 * 64

/-- FS_PITCH (R174). -/
def fsPitch (w : Nat) : Nat := ceilDiv (36 * w) 512 * 64

/-- Bytes of a map body (R169). -/
def Plan.mapBody (p : Plan) : Nat := 3 * p.width * p.height * if p.umapFmt = 1 then 2 else 1

/-- Bytes per sample of a graphic format (Table 06-2). -/
def gfxBytes (fmt : Nat) : Nat := if fmt = 0 then 4 else 1

/-- Bytes of an image row that R145 reads. -/
def GfxEntry.rowBytes (e : GfxEntry) : Nat := ceilDiv (e.w * gfxBytes e.fmt) 64 * 64

/-! ### Ray positions (R32-R34) -/

/-- The geometry values of an entry. -/
def LayerEntry.geo (e : LayerEntry) : Geo := { s := e.s, ox := e.ox, oy := e.oy, d := e.d }

/-- x64 of R32 for one axis: raw scale, offset, disparity, tangent, hogel coordinate. -/
def layerPos (s : Nat) (o d t : Int) (h : Nat) : Int :=
  let n : Int := (s : Int) * (2 * h + 1) * 128 + o * 4096 + d * t - 524288
  (n + 8192) / 16384

/-- Integer part of a position (R33). -/
def layerInt (s : Nat) (o d t : Int) (h : Nat) : Int := layerPos s o d t h / 64

/-- Smallest and largest value of a list, (0, 0) when empty. -/
def extremes (l : List Int) : Int × Int :=
  match l with
  | [] => (0, 0)
  | x :: r => (r.foldl min x, r.foldl max x)

/-- TXmin, TXmax; TYmin, TYmax. -/
def Plan.txRange (p : Plan) : Int × Int := extremes (p.views.map (·.1))
def Plan.tyRange (p : Plan) : Int × Int := extremes (p.views.map (·.2))

/-- One axis keeps to the bound of R34. -/
def boundAxis (s : Nat) (o d : Int) (r : Int × Int) (nh size : Nat) : Bool :=
  [0, nh - 1].all fun h => [r.1, r.2].all fun t =>
    let i := layerInt s o d t h
    decide (-4096 ≤ i) && decide (i ≤ (size : Int) + 4095)

/-- The values of a layer keep to R31 and R34 (R35). -/
def Plan.geoOk (p : Plan) (k : Nat) (g : Geo) : Bool :=
  let e := p.layer k
  decide (1 ≤ g.s ∧ g.s ≤ 65535) && boundAxis g.s g.ox g.d p.txRange p.nhx e.w && boundAxis g.s g.oy g.d p.tyRange p.nhy e.h

/-- Window of hogel row `h`: lo(h) and hi(h) (R112). -/
def Plan.window (p : Plan) (g : Geo) (h : Nat) : Int × Int :=
  let a := layerInt g.s g.oy g.d p.tyRange.1 h
  let b := layerInt g.s g.oy g.d p.tyRange.2 h
  (min a b - 3, max a b + 4)

/-- clamp to the lines of a layer. -/
def clampLine (x : Int) (hk : Nat) : Nat := (clampInt x 0 ((hk : Int) - 1)).toNat

/-- REQ_LINES_k and NEW_LINES_k (R112). -/
def Plan.ringNeed (p : Plan) (k : Nat) (g : Geo) : Nat × Nat :=
  let hk := (p.layer k).h
  (List.range p.nhy).foldl (fun acc h =>
    let hn := if h + 1 < p.nhy then h + 1 else h
    let a := clampLine (p.window g h).1 hk
    let b := clampLine (p.window g hn).2 hk
    let new := if 0 < h then clampLine (p.window g h).2 hk - clampLine (p.window g (h - 1)).2 hk else 0
    (max acc.1 (b + 1 - a), max acc.2 new)) (1, 1)

/-- RL_k (R111). -/
def Plan.ringLines (p : Plan) (k : Nat) : Nat :=
  let e := p.layer k
  if e.ringLines = 0 then (p.ringNeed k e.geo).1 else e.ringLines

/-- C_row (R121). -/
def Plan.cRow (p : Plan) : Nat := ceilDiv (ceilDiv p.nhx p.gReq * p.hh * p.hv) 64 * p.count

end Sys2Proof.Machine
end

