-- ==== Sys2Proof/Machine/Admission.lean ====
section
/-! DEFINITION. Admission: the checks of Table 08-6 in order with their exact figures, the pair of a plan and its fall-back,
recheck(), the report, the minimal plan (R107, R113, R154, R155, R165, R170, R185, R195-R210, R530). -/

namespace Sys2Proof.Machine

/-! ### Codes (Table 08-9) -/

def admSynth : Nat := 0x01
def admRing : Nat := 0x02
def admDram : Nat := 0x03
def admQos : Nat := 0x04
def admLane : Nat := 0x05
def admDecode : Nat := 0x06
def admFabric : Nat := 0x07
def admGeom : Nat := 0x08
def admCoef : Nat := 0x09
def admMap : Nat := 0x0A
def admProt : Nat := 0x0B
def admTherm : Nat := 0x0C
def admSeal : Nat := 0x0D
def admTiming : Nat := 0x0E

/-- DETAIL of a total, or of no detail (Table 08-8). -/
def noDetail : Nat := 0xFFFF

/-! ### Buffers of a plan -/

/-- A handle of a plan that is live, not dying and names a buffer of at least `n` bytes (Table 08-6). -/
def State.planBuf (s : State) (h n : Nat) : Option Buf :=
  if h = 0 ∨ 4032 ≤ h then none
  else match s.buf? h with
    | some b => if b.dying ∨ b.len < n then none else some b
    | none => none

/-- The fall-back slot of a plan. -/
def State.fbSlot (s : State) (p : Plan) : Option Slot :=
  if p.hasFb then (if h : p.fbSlot < 8 then some s.plan.slots[p.fbSlot] else none) else none

/-- FDATA of a container for `n` frames (R178). -/
def fdata (n : Nat) : Nat := 4096 + ceilDiv (16 * n) 65536 * 65536

/-- Header of a cache container as one value, and whether its check value holds (Table 07-5). -/
def cacheHeader (b : List Byte) : Nat × Bool := (fieldAt b 0 64, fieldAt b 60 4 == crc32c (b.take 60))

/-- MAX_FRAME of a CACHE plan's container, 0 where it cannot be read. -/
def State.maxFrame (s : State) (p : Plan) : Nat :=
  match s.planBuf p.cpBuf 4096 with
  | some b => bitsOf (leNat (Memory.readN s.mem b.base 64)) 383 320
  | none => 0

/-! ### Figures (Tables 08-5 and 08-7) -/

/-- The figures of a plan per frame; port shares are in eighths of a byte. -/
structure Figures where
  cRow : Nat
  work : Nat
  fill : Nat
  refill : List Nat
  ring : Nat
  ringBad : Option Nat
  tiles : Nat
  ports : List Nat

/-- Bytes per frame on a port, in eighths (Table 08-7). -/
def State.portShare (s : State) (p : Plan) (q : Nat) : Nat :=
  let mb := 1000000 * p.streamMb
  let fed := p.enabled.filter fun k => (p.layer k).fed
  let dec := (fed.map fun k =>
    let e := p.layer k
    lineBytes e.w * e.h + 64 * ceilDiv (tilesX e.w * tilesY e.h) 64).sum
  let res := if 14 ≤ q ∧ q ≤ 19 then 1000000 * p.res.getD (q - 14) 0 else 0
  let own :=
    if 2 ≤ q ∧ q ≤ 5 then
      ((p.enabled.filter fun k => k % 4 + 2 == q).map fun k => lineBytes (p.layer k).w * (p.layer k).h).sum
        + ((p.gfxOn.filter fun g => g % 4 + 2 == q).map fun g => (p.gfxLayer g).h * (p.gfxLayer g).rowBytes).sum
    else if q = (if s.boot.mode = 0 then 16 else 17) then mb
    else if q = 18 then 4 * p.nhx * p.nhy
    else if q = 21 then (if p.umapFmt = 0 then 0 else p.mapBody)
    else if q ≤ 1 then (if p.outMode = 1 then fsPitch p.width * p.height else 0)
    else if q = 20 then
      (if p.capEn then 9 * p.width * p.height else 0) + (if p.outMode = 2 then s.maxFrame p else 0)
    else 0
  8 * (own + res) + if 6 ≤ q ∧ q ≤ 13 then dec + mb else 0

/-- The figures of a plan. -/
def State.measure (s : State) (p : Plan) : Figures :=
  let need := fun k => p.ringNeed k (p.layer k).geo
  let onPort := fun (q : Nat) => p.enabled.filter fun k => k % 4 == q
  let fill := (List.range 4).map fun q => ((onPort q).map fun k =>
    let e := p.layer k
    lineBytes e.w * (clampLine (p.window e.geo 0).2 e.h + 1)).sum
  { cRow := p.cRow
    work := if p.outMode = 0 then p.cRow else p.nhy * p.cRow
    fill := fill.foldl max 0
    refill := (List.range 4).map fun q => ((onPort q).map fun k => (need k).2 * lineBytes (p.layer k).w).sum
    ring := 6 * (p.enabled.map fun k => (p.layer k).w * p.ringLines k).sum
    ringBad := p.enabled.find? fun k =>
      let e := p.layer k
      e.h < e.ringLines || (e.ringLines != 0 && e.ringLines < (need k).1)
    tiles := ((p.enabled.filter fun k => (p.layer k).fed).map fun k => tilesX (p.layer k).w * tilesY (p.layer k).h).sum
    ports := (List.range 24).map (s.portShare p) }

/-- PR_p in bytes per second. -/
def portPeak (q : Nat) : Nat := if q ≤ 1 ∨ q = 20 ∨ q = 21 then 204800000000 else 51200000000

/-- DR in bytes per second (Table 08-5). -/
def State.dr (s : State) : Nat := 51200000 * s.dram.rate

/-- SYNTH clocks and DRAM bytes (in eighths) per frame. -/
def State.needs (s : State) (p : Plan) : Nat × Nat := (p.nhy * p.cRow, ((List.range 24).map (s.portShare p)).sum)

/-! ### Checks. Each answers none when the plan passes, else the DETAIL. -/

/-- One check: it may read buffers, so it threads the state. -/
abbrev Check := State → State × Option Nat

/-- A check that reads nothing and names no index. -/
def holds (c : Bool) : Option Nat := if c then none else some noDetail

/-- Fields of the plan as a whole (check 1). -/
def Plan.fieldsOk (p : Plan) : Bool :=
  p.rsvdOk && decide (1 ≤ p.hh ∧ p.hh ≤ 32 ∧ 1 ≤ p.hv ∧ p.hv ≤ 32 ∧ 1 ≤ p.nhx ∧ 1 ≤ p.nhy ∧ p.width ≤ 16384 ∧ p.height ≤ 16384)
    && p.views.length == p.hh * p.hv && (!p.hasFb || decide (p.fbSlot < 8)) && decide (8 ≤ p.vbl ∧ p.vbl ≤ 1024)
    && decide (p.tg0Src ≤ 2 ∧ 1 ≤ p.gReq ∧ p.gReq ≤ 16 ∧ p.bgR ≤ 4095 ∧ p.bgG ≤ 4095 ∧ p.bgB ≤ 4095)
    && decide (p.dither ≤ 2 ∧ p.umapFmt ≤ 2 ∧ p.outMode ≤ 2)
    && (!p.capEn || decide (1 ≤ p.capCount ∧ p.capCount ≤ 65536 ∧ p.outMode ≠ 2))
    && (p.outMode != 1 || decide (2 ≤ p.fsCount ∧ p.fsCount ≤ 4)) && p.m.all fun x => decide (-16384 ≤ x ∧ x ≤ 16383)

/-- Depth layer `k` keeps to R31, R34 and R190, and its buffer is long enough. -/
def State.layerOk (s : State) (p : Plan) (k : Nat) : Bool :=
  let e := p.layer k
  decide (1 ≤ e.w ∧ e.w ≤ 4096 ∧ 1 ≤ e.h ∧ e.h ≤ 4096) && e.oOk && decide (e.late ≠ 3)
    && (decide (e.srcStream ≤ 15) && decide (e.srcLayer ≤ 63) || e.srcStream == 0xFF) && p.geoOk k e.geo
    && (s.planBuf e.imgBuf (halfLen e.w e.h * if e.fed then 2 else 1)).isSome

/-- Graphic layer `g` keeps to R140. -/
def State.gfxOk (s : State) (p : Plan) (g : Nat) : Bool :=
  let e := p.gfxLayer g
  decide (e.fmt ≤ 2 ∧ 1 ≤ e.w ∧ e.w ≤ 16384 ∧ 1 ≤ e.h ∧ e.h ≤ 16384 ∧ e.pitch % 64 = 0 ∧ e.w * gfxBytes e.fmt ≤ e.pitch
      ∧ e.pitch ≤ 65536)
    && (s.planBuf e.buf ((e.h - 1) * e.pitch + e.rowBytes)).isSome && (s.planBuf e.mask 128).isSome
    && (e.fmt != 1 || (s.planBuf e.pal 1024).isSome)

/-- The container of a CACHE plan keeps to R185, and its buffer holds the index entries that playback reads and the bytes used (R165). -/
def State.containerOk (s : State) (p : Plan) : State × Bool :=
  match s.planBuf p.cpBuf 4096 with
  | none => (s, false)
  | some b =>
    let (s, r) := s.readBuf b 0 64
    match r with
    | none => (s, false)
    | some h =>
      let (v, ok) := cacheHeader h
      (s, ok && bitsOf v 31 0 == 0x48434346 && bitsOf v 55 48 == 2 && bitsOf v 175 160 == p.width && bitsOf v 191 176 == p.height
        && decide (1 ≤ p.cpCount ∧ p.cpFirst + p.cpCount ≤ bitsOf v 255 224)
        && decide (4096 + 16 * (p.cpFirst + p.cpCount) ≤ b.len ∧ bitsOf v 319 256 ≤ b.len))

/-- Check 1, ADM_GEOM. -/
def checkGeom (p : Plan) : Check := fun s =>
  if !p.fieldsOk then (s, some noDetail)
  else if p.outMode = 1 ∧ (s.planBuf p.fsBuf (p.fsCount * (fsPitch p.width * p.height))).isNone then (s, some noDetail)
  else if p.capEn ∧ (s.planBuf p.capBuf (fdata p.capCount + ceilDiv (9 * p.width * p.height) 2)).isNone then (s, some noDetail)
  else
    let (s, ok) := if p.outMode = 2 then s.containerOk p else (s, true)
    if !ok then (s, some noDetail)
    else
      match p.enabled.find? fun k => !s.layerOk p k with
      | some k => (s, some k)
      | none => (s, p.gfxOn.find? fun g => !s.gfxOk p g)

/-- A handle names a sealed buffer. -/
def State.sealedBuf (s : State) (h : Nat) : Bool := match s.buf? h with | some b => b.isSealed | none => false

/-- Check 2, ADM_SEAL. -/
def checkSeal (p : Plan) : Check := fun s =>
  if p.outMode = 1 ∧ !s.sealedBuf p.fsBuf ∨ p.capEn ∧ !s.sealedBuf p.capBuf ∨ p.outMode = 2 ∧ !s.sealedBuf p.cpBuf then
    (s, some noDetail)
  else if s.clearOk then (s, none)
  else (s, p.enabled.find? fun k => (p.layer k).fed && !s.sealedBuf (p.layer k).imgBuf)

/-- The 16-bit little-endian numbers of an image. -/
def words16 : List Byte → List Nat
  | a :: b :: r => (a.toNat + 256 * b.toNat) :: words16 r
  | _ => []

/-- The 1,025 entries of a transfer table image. -/
def ttOf (b : List Byte) : List Nat := words16 (b.take 2050)

/-- The matrix step of R166 for one component. -/
def matrixRow (m : List Int) (r : Nat) (c : Nat × Nat × Nat) : Nat :=
  let e := fun i => m.getD (3 * r + i) 0
  (clampInt ((e 0 * c.1 + e 1 * c.2.1 + e 2 * c.2.2 + 2048) / 4096) 0 32768).toNat

/-- The transfer step of R166. -/
def transfer (tt : List Nat) (v : Nat) : Nat :=
  let t := fun i => tt.getD i 0
  let i := v / 32
  if i = 1024 then t 1024 else (((t i : Int) + (((t (i + 1) : Int) - t i) * (v % 32 : Nat) + 16) / 32)).toNat

/-- White maps to at least NOTICE_MIN_CODE in every component (R155, R167). -/
def whiteOk (p : Plan) (tt : List Nat) (least : Nat) : Bool :=
  (List.range 3).all fun r => decide (least ≤ transfer tt (matrixRow p.m r (32768, 32768, 32768)) / 16)

/-- A list of numbers is non-decreasing. -/
def rising : List Nat → Bool
  | a :: b :: r => decide (a ≤ b) && rising (b :: r)
  | _ => true

/-- Check 3, ADM_PROT (R154, R155, R165). -/
def checkProt (p : Plan) : Check := fun s =>
  if p.outMode = 2 ∧ !p.hasFb then (s, some noDetail)
  else if s.comp.pkg.any fun g => g.nhx != p.nhx || g.nhy != p.nhy then (s, some noDetail)
  else
    match s.planBuf p.ttBuf 2050 with
    | none => (s, none)
    | some b =>
      let (s, r) := s.readBuf b 0 2050
      match r with
      | none => (s, none)
      | some x => (s, holds (rising (ttOf x) && whiteOk p (ttOf x) s.minCode))

/-- The coefficients of a bank image, and whether every SIGN_EXT agrees (R104, R107). -/
def bankOf (b : List Byte) : CoefBank × Bool :=
  ((List.range 64).map fun p => (List.range 8).map fun t => signed 12 (fieldAt b (16 * p + 2 * t) 2),
    (List.range 512).all fun i => decide (signed 16 (fieldAt b (2 * i) 2) = signed 12 (fieldAt b (2 * i) 2)))

/-- Banks that a plan loads. -/
def Plan.loads (p : Plan) : List Nat := (List.range 16).filter fun b => p.load.getLsbD b

/-- Check 4, ADM_COEF, without the contents. R107 gives a bad SRC handle the code of this check and check 1 names every handle but two:
the model leaves it to this check (DESIGN CHOICE, log 37). -/
def checkCoef (p : Plan) : Check := fun s =>
  (s, holds ((p.loads.all fun b => (s.planBuf (p.src.getD b 0) 1024).isSome)
    && match s.fbSlot p with | some f => f.plan.load == 0 | none => true))

/-- The header of a map keeps to Table 07-4 and to the attached panel (R169, R170). -/
def State.mapHeaderOk (s : State) (p : Plan) (b : List Byte) : Bool :=
  let v := fieldAt b 0 64
  bitsOf v 31 0 == 0x50414D55 && bitsOf v 39 32 == p.umapFmt && bitsOf v 63 40 == 0 && bitsOf v 79 64 == p.width
    && bitsOf v 95 80 == p.height && (bitsOf v 159 96 == 0 || bitsOf v 159 96 == s.out.panelId.toNat)
    && bitsOf v 479 192 == 0 && bitsOf v 511 480 == crc32c (b.take 60) && zeroAt b 64 4032

/-- The header of a plan's map; `body` also checks the body where MAP_CHECKED is clear, and sets it (R170). -/
def State.mapOk (s : State) (p : Plan) (body : Bool) : State × Bool :=
  if p.umapFmt = 0 then (s, true)
  else
    match s.planBuf p.umapBuf (4096 + p.mapBody) with
    | none => (s, false)
    | some b =>
      let (s, r) := s.readBuf b 0 4096
      match r with
      | none => (s, false)
      | some h =>
        if !s.mapHeaderOk p h then (s, false)
        else if !body ∨ b.mapChecked then (s, true)
        else
          let (s, r) := s.readBuf b 4096 p.mapBody 21
          match r with
          | none => (s, false)
          | some x =>
            if crc32c x = bitsOf (fieldAt h 0 64) 191 160 then
              ({ s with bufs := { s.bufs with table := tabPut s.bufs.table p.umapBuf { b with mapChecked := true } } }, true)
            else (s, false)

/-- Check 5, ADM_MAP, without the body. -/
def checkMap (p : Plan) : Check := fun s =>
  if (s.planBuf p.ttBuf 2050).isNone then (s, some noDetail)
  else
    let (s, ok) := s.mapOk p false
    (s, holds ok)

/-- Check 6, ADM_TIMING, with the bound of R346. -/
def checkTiming (p : Plan) : Check := fun s =>
  let f := s.measure p
  let n := p.rateNum
  let d := p.rateDen
  let lines := p.height + p.vbl
  let a := decide (d ≠ 0 ∧ 24 * d ≤ n ∧ n ≤ 240 * d ∧ (8192 < p.height → n ≤ 120 * d))
  let b := decide (lines * p.lineSym * 5 * n ≤ 8000000000 * d ∧ 8000000000 * d < (lines + 1) * p.lineSym * 5 * n)
  let t := f.fill * 30 + f.work * 1024
  let c := if p.outMode = 0 then decide (t * 8 ≤ p.vbl * p.lineSym * 5 * 1536) else decide (t * n ≤ 1536000000000 * d)
  let r := p.outMode != 0 || decide (f.cRow ≤ 291 * p.hv * p.lineSym / 320)
  if !(a && b && c && r) then (s, some noDetail)
  else
    match (List.range 4).find? fun q => decide (f.cRow * 512 < f.refill.getD q 0 * 15) with
    | some q => (s, some (q + 2))
    | none => (s, holds (decide (s.trim.boardUp.goeOff + 8 ≤ p.lineSym)))

/-- Column drivers that a plan needs (Table 08-6). -/
def Plan.drivers (p : Plan) : Nat := ceilDiv (3 * p.width) 1024

/-- Lane quads that serve the drivers of a plan. -/
def Plan.quads (p : Plan) : Nat := ceilDiv p.drivers 2

/-- Check 7, ADM_LANE. -/
def checkLane (p : Plan) : Check := fun s =>
  (s, holds (decide (790 ≤ p.lineSym ∧ p.drivers ≤ s.trim.boardUp.drivers)
    && (List.range p.quads).all fun q => (vget s.svc.quad q).st == .inService))

/-- Galleries IN_SERVICE. -/
def State.galleries (s : State) : List Nat := (List.range 16).filter fun g => (vget s.svc.gallery g).st == .inService

/-- Check 8, ADM_SYNTH. -/
def checkSynth (p : Plan) : Check := fun s =>
  (s, holds (decide (p.gReq ≤ s.galleries.length ∧ p.nhy * p.cRow * p.rateNum ≤ 1425000000 * p.rateDen)))

/-- Check 9, ADM_RING. -/
def checkRing (p : Plan) : Check := fun s =>
  let f := s.measure p
  (s, match f.ringBad with | some k => some k | none => holds (decide (f.ring ≤ 33554432)))

/-- Check 10, ADM_DECODE. -/
def checkDecode (p : Plan) : Check := fun s =>
  (s, holds (decide (1024 * (s.measure p).tiles * p.rateNum ≤ 14400000000 * p.rateDen)))

/-- Check 11, ADM_DRAM. -/
def checkDram (p : Plan) : Check := fun s =>
  (s, holds (decide ((s.needs p).2 * p.rateNum ≤ 8 * s.dr * p.rateDen)))

/-- Check 12, ADM_QOS. -/
def checkQos (p : Plan) : Check := fun s =>
  (s, (List.range 24).find? fun q => decide (8 * portPeak q * p.rateDen < s.portShare p q * p.rateNum))

/-- Ones of a slot mask. -/
def popcount (m : BitVec 256) : Nat := ((List.range 256).filter fun i => m.getLsbD i).length

/-- SF_p: isochronous frames in a slot (Table 08-6). -/
def Plan.slotFrames (p : Plan) (lanes : Nat) : Nat := 1440000000 * lanes * p.rateDen / (p.rateNum * 622592)

/-- Check 13, ADM_FABRIC. -/
def checkFabric (p : Plan) : Check := fun s =>
  (s, (List.range 8).find? fun q =>
    let n := max (p.isoTx.getD q 0) (p.isoRx.getD q 0)
    let x := vget s.fab.ports q
    n != 0 && !(x.st == .up && decide (n ≤ popcount (p.masks.getD q 0) * p.slotFrames x.lanes)))

/-- The throttle allowance of R210. -/
def State.allowance (s : State) (p : Plan) : Bool :=
  let (a, b) := s.needs p
  decide (a * p.rateNum * 100 ≤ s.thrPct * 1425000000 * p.rateDen ∧ b * p.rateNum * 100 ≤ s.thrPct * 8 * s.dr * p.rateDen)

/-- Check 14, ADM_THERM (R197, R207, R210). -/
def checkTherm (asFb : Bool) (p : Plan) : Check := fun s =>
  let bound := asFb || !p.hasFb || s.anyThrottle
  let warm := s.anyWarn && match s.plan? with
    | some c =>
      let (a, b) := s.needs p
      let (x, y) := s.needs c
      decide (x * c.rateNum * p.rateDen < a * p.rateNum * c.rateDen ∨ y * c.rateNum * p.rateDen < b * p.rateNum * c.rateDen)
    | none => false
  (s, holds ((!bound || s.allowance p) && !warm))

/-- Run checks in order: the code and DETAIL of the first that fails, else (0, none). -/
def runChecks : List (Nat × Check) → State → State × Nat × Nat
  | [], s => (s, 0, noDetail)
  | (c, f) :: r, s =>
    match f s with
    | (s, some d) => (s, c, d)
    | (s, none) => runChecks r s

/-- The checks that recheck() repeats (R200). -/
def laterChecks (asFb : Bool) (p : Plan) : List (Nat × Check) :=
  [(admTiming, checkTiming p), (admLane, checkLane p), (admSynth, checkSynth p), (admDecode, checkDecode p),
    (admDram, checkDram p), (admQos, checkQos p), (admFabric, checkFabric p), (admTherm, checkTherm asFb p)]

/-- The checks of Table 08-6 in order; `slotBad` and `fbCache` are the rules of R197 on the fall-back slot. -/
def allChecks (asFb slotBad fbCache : Bool) (p : Plan) : List (Nat × Check) :=
  [(admGeom, checkGeom p), (admGeom, fun s => (s, holds (!slotBad))), (admSeal, checkSeal p), (admProt, checkProt p),
    (admProt, fun s => (s, holds (!fbCache))), (admCoef, checkCoef p), (admMap, checkMap p), (admTiming, checkTiming p),
    (admLane, checkLane p), (admSynth, checkSynth p), (admRing, checkRing p), (admDecode, checkDecode p), (admDram, checkDram p),
    (admQos, checkQos p), (admFabric, checkFabric p), (admTherm, checkTherm asFb p)]

/-- The fall-back slot breaks check 1: its state, or HAS_FB of its plan (R197). -/
def State.fbSlotBad (s : State) (p : Plan) : Bool :=
  p.hasFb && match s.fbSlot p with | some f => !(f.st == .loaded || f.st == .standby) || f.plan.hasFb | none => true

/-- The fall-back is a CACHE plan (R197). -/
def State.fbCache (s : State) (p : Plan) : Bool := match s.fbSlot p with | some f => f.plan.outMode == 2 | none => false

/-- The checks of a plan and of its fall-back: RESULT, DETAIL, FB_RESULT (R195, R197). -/
def State.admission (s : State) (p : Plan) : State × Nat × Nat × Nat :=
  let bad := s.fbSlotBad p
  let (s, code, det) := runChecks (allChecks false bad (s.fbCache p) p) s
  if !p.hasFb then (s, code, det, 0)
  else if bad then (s, code, det, admGeom)
  else
    match s.fbSlot p with
    | none => (s, code, det, admGeom)
    | some f =>
      if f.plan.outMode = 2 then (s, code, det, admProt)
      else
        let (s, fc, fd) := runChecks (allChecks true false false f.plan) s
        if code = 0 ∧ fc ≠ 0 then (s, fc, fd, fc) else (s, code, det, fc)

/-- recheck() of one plan (R200). -/
def State.recheck (s : State) (asFb : Bool) (p : Plan) : Nat := (runChecks (laterChecks asFb p) s).2.1

/-- recheck() of an armed plan with its fall-back (R200). -/
def State.recheckArmed (s : State) (p : Plan) : Nat :=
  let c := s.recheck false p
  if c ≠ 0 then c else match s.fbSlot p with | some f => s.recheck true f.plan | none => 0

/-! ### What the checks and loads of a plan read (R195, R196, R227) -/

/-- The buffers that the checks of a plan and its commit-time loads read: handle, offset, length. -/
def Plan.reads (p : Plan) : List (Nat × Nat × Nat) :=
  [(p.ttBuf, 0, 2050)] ++ (if p.umapFmt = 0 then [] else [(p.umapBuf, 0, 4096 + p.mapBody)])
    ++ (if p.outMode = 2 then [(p.cpBuf, 0, 64)] else []) ++ p.loads.map (fun b => (p.src.getD b 0, 0, 1024))
    ++ p.gfxOn.flatMap fun g =>
        let e := p.gfxLayer g
        (e.mask, 0, 128) :: if e.fmt = 1 then [(e.pal, 0, 1024)] else []

/-- The reads of a plan and of its fall-back. -/
def State.pairReads (s : State) (p : Plan) : List (Nat × Nat × Nat) :=
  p.reads ++ match s.fbSlot p with | some f => f.plan.reads | none => []

/-! ### The report (R205, Table 08-8) -/

/-- NEED of the report: rounded up, a u64; none where its formula divides by zero. -/
def needOf (num den : Nat) : Option Nat := if den = 0 then none else some (min (ceilDiv num den) (2 ^ 64 - 1))

/-- LIMIT of the report: rounded down, a u64. -/
def limitOf (num den : Nat) : Option Nat := if den = 0 then none else some (min (num / den) (2 ^ 64 - 1))

/-- The pairs of the report in their order, from offset 0x010. -/
def State.reportPairs (s : State) (p : Plan) : List (Option Nat) :=
  let f := s.measure p
  let n := p.rateNum
  let d := p.rateDen
  let g := if p.gReq = 0 then 0 else 1
  let direct := p.outMode = 0
  [needOf (p.nhy * f.cRow * n) (d * g), some 1425000000, needOf f.cRow g,
    some (if direct then 291 * p.hv * p.lineSym / 320 else 0), needOf (f.fill * 30 + f.work * 1024) (1536 * g),
    (if direct then limitOf (p.vbl * p.lineSym * 5) 8 else limitOf (1000000000 * d) n), some f.ring, some 33554432,
    needOf (1024 * f.tiles * n) d, some 14400000000, needOf ((s.needs p).2 * n) (8 * d), some s.dr]
    ++ (List.range 24).flatMap fun q => [needOf (s.portShare p q * n) (8 * d), some (portPeak q)]

/-- Lay out the pairs; a figure whose formula has no value is free (DESIGN CHOICE, log 10). -/
def State.reportBody (s : State) : List (Option Nat) → State × List Byte
  | [] => (s, [])
  | some v :: r =>
    let (s, l) := s.reportBody r
    (s, leBytes 8 v ++ l)
  | none :: r =>
    let (s, v) := s.freshValue
    let (s, l) := s.reportBody r
    (s, leBytes 8 v.toNat ++ l)

/-- The admission report of 512 bytes. -/
def State.admReport (s : State) (p : Plan) (code det fb : Nat) : State × List Byte :=
  let (s, body) := s.reportBody (s.reportPairs p)
  (s, bytesAt (leBytes 2 code ++ leBytes 2 det ++ leBytes 12 fb ++ body) 0 512)

/-! ### The minimal plan (R530) -/

/-- The minimal plan of a selected plan. -/
def Plan.minimal (p : Plan) : Plan :=
  { p with
    gReq := 0, load := 0, layers := p.layers.map fun e => { e with en := false }, gEn := 0, bgR := 0, bgG := 0, bgB := 0
    umapFmt := 0, outMode := 0, capEn := false, hasFb := false }

end Sys2Proof.Machine
end

