-- ==== Sys2Proof/Machine/Alu.lean ====
section
/-! DEFINITION. The arithmetic instructions (R253, Table 10-8), `LD` and `ST` (Table 10-11). -/

namespace Sys2Proof.Machine

/-- An arithmetic instruction: RD and the flags come from RA, B and the flags before; no fault of its own (R253). -/
def State.alu (s : State) (t : Tid) (w : IWord) (f : Flags → Reg → Reg → Reg × Flags) : State :=
  s.issue t w.words fun s => s.modThread t fun th =>
    let (r, fl) := f th.fl (th.reg w.ra) (w.b th)
    { (th.setReg w.rd r).next w.words with fl := fl }

/-- `ADD` (R253). -/
def execAdd (t : Tid) (w : IWord) (s : State) : Answer :=
  .next (s.alu t w fun _ a b => (a + b, Flags.ofAdd a b))

/-- `SUB` (R253). -/
def execSub (t : Tid) (w : IWord) (s : State) : Answer :=
  .next (s.alu t w fun _ a b => (a - b, Flags.ofSub a b))

/-- `AND` (R253). -/
def execAnd (t : Tid) (w : IWord) (s : State) : Answer :=
  .next (s.alu t w fun _ a b => (a &&& b, Flags.ofLogic (a &&& b)))

/-- `OR` (R253). -/
def execOr (t : Tid) (w : IWord) (s : State) : Answer :=
  .next (s.alu t w fun _ a b => (a ||| b, Flags.ofLogic (a ||| b)))

/-- `XOR` (R253). -/
def execXor (t : Tid) (w : IWord) (s : State) : Answer :=
  .next (s.alu t w fun _ a b => (a ^^^ b, Flags.ofLogic (a ^^^ b)))

/-- `SHL`: by B mod 64 (R253). -/
def execShl (t : Tid) (w : IWord) (s : State) : Answer :=
  .next (s.alu t w fun _ a b =>
    let k := b.toNat % 64
    (a <<< k, Flags.ofShift (a <<< k) (shlOut a k)))

/-- The value of `SHR`: logical, or arithmetic when FN bit 1 is 1 (R253). -/
def shrValue (w : IWord) (a : Reg) (k : Nat) : Reg := if w.fn.getLsbD 1 then a.sshiftRight k else a >>> k

/-- `SHR`: by B mod 64 (R253). -/
def execShr (t : Tid) (w : IWord) (s : State) : Answer :=
  .next (s.alu t w fun _ a b =>
    let k := b.toNat % 64
    (shrValue w a k, Flags.ofShift (shrValue w a k) (shrOut a k)))

/-- The value of `MOVI`: IMM sign-extended, or EXT in the two-word form (R253). -/
def moviValue (w : IWord) : Reg := if w.two then w.ext else w.simm

/-- `MOVI`: C and V stay (Table 10-3). -/
def execMovi (t : Tid) (w : IWord) (s : State) : Answer :=
  .next (s.alu t w fun fl _ _ => (moviValue w, fl.zn (moviValue w)))

/-- `CMP`: the flags of RA − B and no register (R253). -/
def execCmp (t : Tid) (w : IWord) (s : State) : Answer :=
  .next (s.issue t w.words fun s => s.modThread t fun th =>
    { th.next w.words with fl := Flags.ofSub (th.reg w.ra) (w.b th) })

/-- `LD`: RD takes the scratch word; an uncorrectable word faults with FLT_MEM_UE (R218, R257). -/
def execLd (t : Tid) (w : IWord) (ue : Bool) (s : State) : Answer :=
  .next (s.issue t 1 fun s =>
    if ue then s.fault t .memUe 0
    else s.modThread t fun th => (th.setReg w.rd (th.word (w.ldWord th))).next)

/-- `ST`: the scratch word takes RB (R218, R257). -/
def execSt (t : Tid) (w : IWord) (s : State) : Answer :=
  .next (s.issue t 1 fun s => s.modThread t fun th => (th.setWord (w.ldWord th) (th.reg w.rb)).next)

end Sys2Proof.Machine
end

