-- ==== Sys2Proof/Machine/Audio.lean ====
section
/-! DEFINITION. Programme audio: settings, sample frames and their slips, references and inputs (19, R47). -/

namespace Sys2Proof.Machine

/-! ### ASET (R464) -/

/-- The ASET block (Table 19-1), none where a field is outside its range or a reserved bit is set. -/
def audOfBlock (b : List Byte) : Option AudCfg :=
  let f := fun o n => fieldAt b o n
  let src := (List.range 8).map fun k => f (0x10 + k) 1
  let off := signed 32 (f 8 4)
  if f 0 1 ≤ 1 ∧ f 1 1 ≤ 4 ∧ 64 ≤ f 4 2 ∧ 64 ≤ f 6 2 ∧ -65536 ≤ off ∧ off ≤ 65535 ∧ (f 0x0C 1 ≤ 15 ∨ f 0x0C 1 = 255)
      ∧ zeroAt b 0x0D 3 ∧ zeroAt b 0x30 16 ∧ (src.all fun x => decide (x / 16 ≤ 3) && x / 4 % 4 == 0) then
    some { rate := f 0 1, ref := f 1 1, outEn := BitVec.ofNat 8 (f 2 1), idleOff := BitVec.ofNat 8 (f 3 1), lead := f 4 2
           trail := f 6 2, offset := off, stream := f 0x0C 1, outSrc := src, cs := bytesAt b 0x18 24 }
  else none

/-- The stream that plays the programme. -/
def State.audStream (s : State) (n : Nat) : Option Stream := if h : n < 16 then some s.streams[n] else none

/-- The stream of a setting is PLAYING. -/
def State.audPlaying (s : State) (n : Nat) : Bool := match s.audStream n with | some x => x.st == .playing | none => false

/-- The clock state: with REF = 4 it follows TG0 (R468, R470). -/
def State.audClock (s : State) : Disc :=
  if s.aud.cfg.ref = 4 then (if s.tg0.running then .locked else .acquiring) else s.aud.st

/-- `ASET`: a refusal changes nothing; a setting waits for the next sample frame boundary. -/
def execAset (t : Tid) (w : IWord) (s : State) : Answer :=
  .next (s.issueBlock t w fun s =>
    let b := w.block (s.thread t) 64
    s.startUnit t (.aset t w) { units := [.audio] } fun s =>
      match audOfBlock b with
      | none => s.toUnit t w (some (.code 0xE0))
      | some c =>
        let o := s.aud.cfg
        if (c.rate ≠ o.rate ∨ c.ref ≠ o.ref ∨ c.stream ≠ o.stream) ∧ s.audPlaying c.stream then
          s.toUnit t w (some (.code 0xE2))
        else ({ s with aud := { s.aud with staged := some c, who := .thread t } } : State).toUnit t w none)

/-- Bring a staged setting into force and tell who waits for it; a reference that changes is acquired anew. -/
def State.applyAset (s : State) : State :=
  match s.aud.staged with
  | none => s
  | some c =>
    let st : Disc := if c.ref = 0 then .free else if c.ref = s.aud.cfg.ref then s.aud.st else .acquiring
    let changed := st != s.aud.st
    let keep := c.outEn &&& (s.aud.outRun ||| ~~~s.aud.cfg.outEn)
    let who := s.aud.who
    let s := { s with
      aud := { s.aud with
        cfg := c, staged := none, who := .nobody, st := st, outRun := keep
        goodIvals := if changed then 0 else s.aud.goodIvals } }
    let s := if changed then s.event 12 else s
    s.deliver who (.code (match s.audClock with | .free | .locked => 0 | _ => 0xE1))

/-! ### Samples (R466, R467, R469) -/

/-- Sample frames per second of RATE. -/
def AudCfg.fs (c : AudCfg) : Nat := if c.rate = 1 then 96000 else 48000

/-- The length and rate of an AUDIO payload keep to R47 and the setting (R72). -/
def AudCfg.packetOk (c : AudCfg) (p : List Byte) : Bool :=
  let v := fieldAt p 0 24
  let n := bitsOf v 79 64
  decide (24 ≤ p.length ∧ 1 ≤ n ∧ n ≤ 8192) && bitsOf v 83 80 < 8 && bitsOf v 87 84 == c.rate
    && p.length == 24 + 4 * (bitsOf v 83 80 + 1) * n

/-- Place one sample frame by its index: LATE behind the frame being sent, OVERRUN 16,384 or more ahead of it. -/
def Aud.put (a : Aud) (i : Nat) (v : List (BitVec 24)) : Aud :=
  let cur := a.idx.getD 0
  if (i : Int) < cur then { a with late := a.late.bump }
  else if cur + 16384 ≤ (i : Int) then { a with overrun := a.overrun.bump }
  else { a with store := tabPut a.store i v }

/-- Place the samples of an AUDIO packet of a stream. -/
def State.placeAudio (s : State) (i : Fin 16) (p : List Byte) : State :=
  if s.aud.cfg.stream ≠ i.val then s
  else
    let v := fieldAt p 0 24
    let ch := bitsOf v 83 80 + 1
    let first := bitsOf v 63 0
    { s with
      aud := (List.range (bitsOf v 79 64)).foldl (fun a j =>
        a.put (first + j) ((List.range ch).map fun c => BitVec.ofNat 24 (fieldAt p (24 + 4 * (j * ch + c)) 4))) s.aud }

/-- The programme sample frame of this boundary: none where there is none, `some none` for a missing one. -/
def Aud.programme (a : Aud) (ue : Bool) : Option (Option (List (BitVec 24))) :=
  match a.idx with
  | some i => if 0 ≤ i ∧ a.leadLeft = 0 then some (if ue then none else tabFind a.store i.toNat) else none
  | none => none

/-- V, U and C of both subframes of a stream output: U is 0, C follows the channel-status block (R465, R467). -/
def State.audVuc (s : State) (v : Bool) : BitVec 6 :=
  let c := ((Config.aes3Status s.aud.cfg.rate s.aud.cfg.cs).getD (s.aud.csPos / 8) 0).getLsbD (s.aud.csPos % 8)
  BitVec.ofNat 6 (9 * (v.toNat + 4 * c.toNat))

/-- What output `k` sends: samples of its stream pair, a relayed input, or silence with the template (R465, R467). -/
def State.audOut (s : State) (prog : Option (Option (List (BitVec 24)))) (k : Nat) : BitVec 24 × BitVec 24 × BitVec 6 :=
  let x := s.aud.cfg.outSrc.getD k 0
  let quiet := (0, 0, s.audVuc false)
  let relay := fun (j : Fin 2) =>
    if s.aud.cfg.ref = 2 + j.val ∧ s.aud.st = .locked then (s.aud.input[j]).getD quiet else quiet
  if !(s.aud.outRun.getLsbD k) then (0, 0, 0)
  else
    match x / 16 with
    | 1 =>
      match prog with
      | some (some v) => (v.getD (2 * (x % 4)) 0, v.getD (2 * (x % 4) + 1) 0, s.audVuc false)
      | some none => (0, 0, s.audVuc true)
      | none => quiet
    | 2 => relay 0
    | 3 => relay 1
    | _ => quiet

/-- Outputs that go low once the trailing silence has been sent (R469). -/
def Aud.settleRun (a : Aud) : Aud :=
  let low := if a.idx.isNone && a.trailLeft == 0 then a.cfg.idleOff &&& ~~~a.outRun else 0
  { a with outRun := a.cfg.outEn &&& ~~~low }

/-- Count down the leading and trailing silence. An output with IDLE_OFF stops at the end of its trailing silence. -/
def Aud.silence (a : Aud) : Aud :=
  let lead := a.leadLeft - 1
  if a.idx.isNone && a.trailLeft == 1 then { a with leadLeft := lead, trailLeft := 0, outRun := a.cfg.outEn &&& ~~~a.cfg.idleOff }
  else { a.settleRun with leadLeft := lead, trailLeft := a.trailLeft - (if a.idx.isNone then 1 else 0) }

/-- `AUDIO_SAMPLE_FRAME`: a staged setting applies; every output sends one sample frame; the index moves on. Samples that the
leading silence passes over count as LATE. -/
def execAudioSampleFrame (ue : Bool) (s : State) : Answer :=
  if s.therm.tripped ∨ s.safe then .next s
  else
    let s := s.applyAset
    let prog := s.aud.programme ue
    let sent := (List.range 8).map (s.audOut prog)
    let a := s.aud
    let a := if prog = some none then { a with underrun := a.underrun.bump } else a
    let passed := match a.idx with
      | some i => if 0 ≤ i ∧ 0 < a.leadLeft ∧ (tabFind a.store i.toNat).isSome then 1 else 0
      | none => 0
    let a := { a with sent := sent, csPos := (a.csPos + 1) % 192, late := a.late.bump passed }
    let a := match a.idx with
      | some i => { a with store := a.store.filter fun e => decide (i ≤ (e.1 : Int)), idx := some (i + 1) }
      | none => a
    .next { s with aud := a.silence }

/-! ### Against the picture (R466, R468, R469) -/

/-- The index due at the start of wall frame `n`. -/
def State.audDue (s : State) (x : Stream) (p : Plan) (n : Nat) : Int :=
  let first := match x.clip with | some c => c.first | none => 0
  let f0 : Int := (x.wA : Int) + ((first : Int) - x.n0) + if p.outMode = 1 then 1 else 0
  ((n : Int) - f0) * (s.aud.cfg.fs * p.rateDen) / (p.rateNum : Int) - s.aud.cfg.offset

/-- What a TG0 period start does: E and its slip or resync while the programme plays; its start and its end otherwise. -/
def State.audPeriod (s : State) : State :=
  let a := s.aud
  match s.audStream a.cfg.stream, s.plan? with
  | some x, some p =>
    if x.st = .playing ∧ s.scan.st ≠ .holding then
      let due := s.audDue x p s.wallFrame
      match a.idx with
      | none => { s with aud := { a with idx := some due, leadLeft := a.cfg.lead, trailLeft := 0, outRun := a.cfg.outEn } }
      | some i =>
        let e := i - due
        let s := { s with aud := { a with e := e } }
        if 2048 ≤ e.natAbs then
          (({ s with aud := { s.aud with idx := some due, resync := s.aud.resync.bump } } : State).report 0x1303 0x2E
            (wrapInt 32 e)).event 12
        else if 1 ≤ e then
          ({ s with aud := { s.aud with idx := some (i - 1), slipRepeat := s.aud.slipRepeat.bump } } : State).event 12
        else if e ≤ -1 then
          ({ s with aud := { s.aud with idx := some (i + 1), slipDrop := s.aud.slipDrop.bump } } : State).event 12
        else s
    else if a.idx.isSome then { s with aud := { a with idx := none, trailLeft := a.cfg.trail, store := [] } }
    else s
  | _, _ => if a.idx.isSome then { s with aud := { a with idx := none, trailLeft := a.cfg.trail, store := [] } } else s

/-! ### References (R463, R470) -/

/-- The reference period in audio clocks of 24.576 MHz. -/
def AudCfg.refT (c : AudCfg) : Nat := if c.rate = 1 then 256 else 512

/-- The clock loses its reference: HOLDOVER. -/
def State.audLoss (s : State) (interval : Nat) : State :=
  if s.aud.cfg.ref = 0 ∨ s.aud.cfg.ref = 4 ∨ s.aud.st = .holdover then { s with aud := { s.aud with goodIvals := 0 } }
  else
    (({ s with aud := { s.aud with st := .holdover, goodIvals := 0, refLoss := s.aud.refLoss.bump } } : State).report 0x1301 0x2E
      (s.aud.cfg.ref + interval % 2 ^ 24 * 256)).event 12

/-- `AUDIO_REF_EDGE`. -/
def execAudioRefEdge (interval : Nat) (s : State) : Answer :=
  let c := s.aud.cfg
  if s.therm.tripped ∨ s.safe ∨ c.ref = 0 ∨ c.ref = 4 then .next s
  else if 8 * interval < c.refT then .next { s with aud := { s.aud with refGlitch := s.aud.refGlitch.bump } }
  else if 256 * interval < 255 * c.refT ∨ 257 * c.refT < 256 * interval then .next (s.audLoss interval)
  else
    let n := s.aud.goodIvals + 1
    match s.aud.st with
    | .locked => .next s
    | st =>
      if 16 ≤ n then
        .next ((({ s with aud := { s.aud with st := .locked, goodIvals := n } } : State).report 0x1302 0x2E c.ref).event 12)
      else
        let s' : State := { s with aud := { s.aud with st := .acquiring, goodIvals := n } }
        .next (if st = .acquiring then s' else s'.event 12)

/-- `AUDIO_REF_LOSS`: no accepted edge within 2T. -/
def execAudioRefLoss (interval : Nat) (s : State) : Answer :=
  if s.therm.tripped ∨ s.safe ∨ interval < 2 * s.aud.cfg.refT then .next s else .next (s.audLoss interval)

/-- `AES3_INPUT_FRAME`: two bad frames in a row of the reference input count as a loss. -/
def execAes3InputFrame (i : Fin 2) (f : AesFrame) (s : State) : Answer :=
  if s.therm.tripped ∨ s.safe then .next s
  else
    match f with
    | .ok a b x =>
      .next { s with aud := { s.aud with input := s.aud.input.set i (some (a, b, x)), badRun := s.aud.badRun.set i 0 } }
    | .bad =>
      let n := s.aud.badRun[i] + 1
      let a := { s.aud with badRun := s.aud.badRun.set i n }
      let a := if i.val = 0 then { a with inErr0 := a.inErr0.bump } else { a with inErr1 := a.inErr1.bump }
      let s := { s with aud := a }
      .next (if n = 2 ∧ a.cfg.ref = 2 + i.val then s.audLoss 0 else s)

/-- AUD_STATUS (Table 19-3). E is the low 16 bits of the difference: what the field shows of a value beyond s16 is open (R4; DESIGN CHOICE,
log 40). -/
def State.audStatus (s : State) : Nat :=
  let c := match s.audClock with | .free => 0 | .acquiring => 1 | .locked => 2 | .holdover => 3
  wrapInt 16 s.aud.e * 65536 + s.aud.outRun.toNat * 256 + s.aud.cfg.ref * 32 + s.aud.cfg.rate * 16 + c

/-- The audio counters in the order of R471. -/
def Aud.counters (a : Aud) : List Count :=
  [a.slipRepeat, a.slipDrop, a.underrun, a.late, a.overrun, a.resync, a.refLoss, a.refGlitch, a.inErr0, a.inErr1]

end Sys2Proof.Machine
end

