-- ==== Sys2Proof/Machine/Ptc.lean ====
section
/-! DEFINITION. Perset tile coding: tiles, the decoder of one record in both profiles, group headers and groups, and the
encoder of the lossless profile (R45, R75-R90, R95, R99, R100, R548). -/

namespace Sys2Proof.Machine

/-! ### Tiles (R76, R77) -/

/-- The rectangle that a tile covers. -/
structure TileRect where
  x0 : Nat
  y0 : Nat
  tw : Nat
  th : Nat
deriving DecidableEq, Repr, Inhabited

/-- The rectangle of tile `i` of a w × h image (R76). -/
def tileRect (w h i : Nat) : TileRect :=
  let tx := i % tilesX w
  let ty := i / tilesX w
  { x0 := 32 * tx, y0 := 32 * ty, tw := min (32 * tx + 32) w - 32 * tx, th := min (32 * ty + 32) h - 32 * ty }

/-- Component `c` of a packed sample (R77). -/
def comp (v c : Nat) : Nat := v / 2 ^ (12 * c) % 4096

/-- Pack components in order R, G, B, A (R77). -/
def packComps : List Nat → Nat
  | [] => 0
  | c :: r => c % 4096 + 4096 * packComps r

/-- The map byte of decoded samples: OPAQUE and EMPTY (R78). -/
def tileMapByte (l : List Nat) : Nat :=
  (if l.all fun v => comp v 3 == 4095 then 1 else 0) + (if l.all (· == 0) then 2 else 0)

/-! ### Bits (R79) -/

/-- The bits of bytes, bit 7 of each byte first. -/
def bitList (l : List Byte) : List Bool :=
  l.flatMap fun b => (List.range 8).map fun i => b.getLsbD (7 - i)

/-- Read `n` bits, most significant first; running out is syntax error 0x09 (R88). -/
def getBits : Nat → Nat → List Bool → Except Nat (Nat × List Bool)
  | 0, acc, l => .ok (acc, l)
  | _ + 1, _, [] => .error 0x09
  | n + 1, acc, b :: r => getBits n (2 * acc + b.toNat) r

/-- Count one-bits up to the fuel; a zero-bit that ends them is consumed (R89). -/
def getOnes : Nat → List Bool → Except Nat (Nat × List Bool)
  | 0, l => .ok (0, l)
  | _ + 1, [] => .error 0x09
  | _ + 1, false :: r => .ok (0, r)
  | n + 1, true :: r => do
    let (k, r) ← getOnes n r
    return (k + 1, r)

/-- Read a Rice code of parameter `k` (R89). -/
def rice (k : Nat) (l : List Bool) : Except Nat (Nat × List Bool) := do
  let (n, l) ← getOnes 24 l
  if n = 24 then getBits 13 0 l
  else
    let (v, l) ← getBits k 0 l
    return (n * 2 ^ k + v, l)

/-- Read the components of a sample. -/
def getSample : Nat → List Bool → Except Nat (Nat × List Bool)
  | 0, l => .ok (0, l)
  | n + 1, l => do
    let (c, l) ← getBits 12 0 l
    let (v, l) ← getSample n l
    return (c + 4096 * v, l)

/-! ### Palette mode (R86) -/

/-- `n` samples read one after another. -/
def getSamples (nc : Nat) : Nat → List Bool → Except Nat (List Nat × List Bool)
  | 0, l => .ok ([], l)
  | n + 1, l => do
    let (v, l) ← getSample nc l
    let (r, l) ← getSamples nc n l
    return (v :: r, l)

/-- `n` palette indices; an index of P or more is syntax error 0x06. -/
def getIndices (b p : Nat) : Nat → List Bool → Except Nat (List Nat × List Bool)
  | 0, l => .ok ([], l)
  | n + 1, l => do
    let (v, l) ← getBits b 0 l
    if p ≤ v then .error 0x06
    else
      let (r, l) ← getIndices b p n l
      return (v :: r, l)

/-- Index bits of a palette of `p` entries. -/
def palBits (p : Nat) : Nat := if p = 2 then 1 else if p ≤ 4 then 2 else if p ≤ 8 then 3 else 4

/-- A PAL body. -/
def palTile (nc n : Nat) (l : List Bool) : Except Nat (List Nat × List Bool) := do
  let (pm, l) ← getBits 4 0 l
  if pm = 0 then .error 0x05
  else
    let (ent, l) ← getSamples nc (pm + 1) l
    let (ix, l) ← getIndices (palBits (pm + 1)) (pm + 1) n l
    return (ix.map fun i => ent.getD i 0, l)

/-! ### Predictive mode (R87, R88, R90) -/

/-- The sum and count of a context. -/
abbrev PtcCtx := Nat × Nat

/-- The Rice parameter of a context. -/
def PtcCtx.k (c : PtcCtx) : Nat := ((List.range 12).find? fun k => c.1 ≤ c.2 * 2 ^ k).getD 12

/-- A context after a value `m`. -/
def PtcCtx.put (c : PtcCtx) (m : Nat) : PtcCtx :=
  if c.2 + 1 = 64 then ((c.1 + m) / 2, 32) else (c.1 + m, c.2 + 1)

/-- The left, above and above-left neighbours of component `c` at raster index `i`. -/
def neighbours (tw : Nat) (done : List Nat) (i c : Nat) : Int × Int × Int :=
  let v := fun j => (comp (done.getD j 0) c : Int)
  let x := i % tw
  let y := i / tw
  if x = 0 ∧ y = 0 then (2048, 2048, 2048)
  else if y = 0 then (v (i - 1), v (i - 1), v (i - 1))
  else if x = 0 then (v (i - tw), v (i - tw), v (i - tw))
  else (v (i - 1), v (i - tw), v (i - tw - 1))

/-- The median-edge prediction. -/
def predict (a b d : Int) : Int :=
  if max a b ≤ d then min a b else if d ≤ min a b then max a b else a + b - d

/-- The context of a gradient. -/
def ctxOf (a b d : Int) : Nat :=
  let g := (a - d).natAbs + (b - d).natAbs
  if g = 0 then 0 else if g < 16 then 1 else if g < 128 then 2 else 3

/-- Undo the mapping of a prediction error. -/
def unmapErr (m : Nat) : Int := if m % 2 = 1 then -(((m + 1) / 2 : Nat) : Int) else ((m / 2 : Nat) : Int)

/-- Map a prediction error to a non-negative integer. -/
def mapErr (t : Int) : Nat := if t < 0 then 2 * t.natAbs - 1 else 2 * t.natAbs

/-- Contexts, by component × 4 + context; samples done; bits left. -/
structure PredSt where
  ctx : List PtcCtx := List.replicate 16 (4, 1)
  done : List Nat := []
  bits : List Bool := []

/-- Decode component `c` of the sample at index `i`; `cur` holds the components before it. -/
def predComp (tw qstep aq i : Nat) (st : PredSt × Nat) (c : Nat) : Except Nat (PredSt × Nat) := do
  let (s, cur) := st
  let (a, b, d) := neighbours tw s.done i c
  let j := 4 * c + ctxOf a b d
  let x := s.ctx.getD j (4, 1)
  let (m, bits) ← rice x.k s.bits
  let q : Int := if c = 3 ∧ aq = 1 then 1 else qstep
  let v := (clampInt (predict a b d + unmapErr m * q) 0 4095).toNat
  return ({ s with ctx := s.ctx.set j (x.put m), bits := bits }, cur + v * 4096 ^ c)

/-- Decode the sample at index `i`. -/
def predSample (tw nc qstep aq : Nat) (s : PredSt) (i : Nat) : Except Nat PredSt := do
  let (s, v) ← (List.range nc).foldlM (predComp tw qstep aq i) (s, 0)
  return { s with done := s.done ++ [v] }

/-- A PRED body. -/
def predTile (lossless : Bool) (tw n : Nat) (l : List Bool) : Except Nat (List Nat × List Bool) := do
  let (qstep, l) ← getBits 8 0 l
  if qstep = 0 ∨ (lossless ∧ qstep ≠ 1) then .error 0x07
  else
    let (aq, l) ← getBits 1 0 l
    if lossless ∧ aq ≠ 0 then .error 0x08
    else
      let (z, l) ← getBits 7 0 l
      if z ≠ 0 then .error 0x08
      else
        let s ← (List.range n).foldlM (predSample tw (if lossless then 3 else 4) qstep aq) { bits := l }
        return (s.done, s.bits)

/-! ### One record (R80-R87, R99, R548) -/

/-- Padding to the byte boundary is zero, and no byte is left (R79, R81). -/
def padOk (l : List Bool) : Except Nat Unit :=
  if (l.take (l.length % 8)).any id then .error 0x0A else if l.length / 8 ≠ 0 then .error 0x09 else .ok ()

/-- A decoded record: the samples, the record's bytes, its mode and header flag bits. -/
structure Rec where
  samples : List Nat
  len : Nat
  mode : Nat
  flags : Nat
deriving DecidableEq, Repr, Inhabited

/-- BODY_LEN of a fixed-size mode (Table 04-2, R99). -/
def fixedLen (lossless : Bool) (mode : Nat) : Option Nat :=
  match mode with
  | 0 => some 0
  | 1 => some 4
  | 2 => some (if lossless then 5 else 6)
  | 3 => some 0
  | _ => none

/-- Modes of the profile. -/
def modeOk (lossless : Bool) (mode : Nat) : Bool :=
  if lossless then mode == 0 || mode == 2 || mode == 4 || mode == 5 else decide (mode < 6)

/-- Decode the record at the head of `b` for a tile; `ref` is the reference image by absolute position, already clamped to the
image by `w` and `h`; `first` forbids SKIP (first frame of a capture). The checks run in the order of R548. -/
def decodeRecord (lossless first : Bool) (w h : Nat) (r : TileRect) (ref : Nat → Nat → Nat) (b : List Byte) : Except Nat Rec := do
  if b.length < 4 then .error 0x04
  else
    let hd := fieldAt b 0 4
    let mode := hd % 8
    let flags := bitsOf hd 5 4
    let len := bitsOf hd 31 16
    if !modeOk lossless mode then .error 0x01
    else if bitsOf hd 15 6 ≠ 0 ∨ hd.testBit 3 ∨ ((mode < 2 ∨ lossless) ∧ flags ≠ 0) then .error 0x02
    else if b.length < 4 + len then .error 0x04
    else if (fixedLen lossless mode).any (· != len) then .error 0x03
    else if lossless ∧ first ∧ mode = 0 then .error 0x0B
    else
      let nc := if lossless then 3 else 4
      let n := r.tw * r.th
      let bits := bitList ((b.drop 4).take len)
      let at' := fun (dx dy : Int) => (List.range n).map fun i =>
        ref (clampInt (r.x0 + i % r.tw + dx) 0 ((w : Int) - 1)).toNat (clampInt (r.y0 + i / r.tw + dy) 0 ((h : Int) - 1)).toNat
      let (samples, rest) ← (match mode with
        | 0 => .ok (at' 0 0, bits)
        | 1 => do
          let (mx, l) ← getBits 13 0 bits
          let (my, l) ← getBits 13 0 l
          return (at' (signed 13 mx) (signed 13 my), l)
        | 2 => do
          let (v, l) ← getSample nc bits
          return (List.replicate n v, l)
        | 3 => .ok (List.replicate n 0, bits)
        | 4 => palTile nc n bits
        | _ => predTile lossless r.tw n bits : Except Nat (List Nat × List Bool))
      padOk rest
      return ⟨samples, 4 + len, mode, flags⟩

/-! ### Groups (R45, R81, R95) -/

/-- The group header: FIRST_TILE, TILE_COUNT, and whether it is bad for an image of `nt` tiles (R45, Table 03-6). -/
def groupHeader (p : List Byte) (nt : Nat) : Nat × Nat × Bool :=
  let first := fieldAt p 0 4
  let count := fieldAt p 4 2
  (first, count, fieldAt p 6 2 != 0 || count == 0 || decide (nt < first + count))

/-- A group decoded: the tiles written, and the first syntax error with its tile. -/
structure GroupOut where
  tiles : List (Nat × Rec) := []
  err : Option (Nat × Nat) := none
deriving Repr, Inhabited

/-- Decode the records of a group from tile `t` on; they must fill the payload exactly (R81, R548). -/
def decodeRecords (w h : Nat) (ref : Nat → Nat → Nat) : Nat → Nat → List Byte → GroupOut → GroupOut
  | 0, t, b, out => if b = [] then out else { out with err := some (0x04, t - 1) }
  | n + 1, t, b, out =>
    match decodeRecord false false w h (tileRect w h t) ref b with
    | .error e => { out with err := some (e, t) }
    | .ok r => decodeRecords w h ref n (t + 1) (b.drop r.len) { out with tiles := out.tiles ++ [(t, r)] }

/-! ### The encoder of the lossless profile (R99, R100) -/

/-- `n` bits of a number, most significant first. -/
def bitsMsb (n v : Nat) : List Bool := (List.range n).map fun i => v.testBit (n - 1 - i)

/-- Bytes of a bitstream, padded with zeros. -/
def packBits : Nat → List Bool → List Byte
  | 0, _ => []
  | n + 1, l =>
    let x := l.take 8 ++ List.replicate (8 - (l.take 8).length) false
    BitVec.ofNat 8 (x.foldl (fun a b => 2 * a + b.toNat) 0) :: packBits n (l.drop 8)

/-- Bytes of a bitstream. -/
def bitsToBytes (l : List Bool) : List Byte := packBits (ceilDiv l.length 8) l

/-- The components of a sample, 12 bits each. -/
def sampleBits (nc v : Nat) : List Bool := (List.range nc).flatMap fun c => bitsMsb 12 (comp v c)

/-- The Rice code of `m`, in the first form wherever it applies. -/
def riceBits (k m : Nat) : List Bool :=
  if m / 2 ^ k < 24 then List.replicate (m / 2 ^ k) true ++ [false] ++ bitsMsb k (m % 2 ^ k)
  else List.replicate 24 true ++ bitsMsb 13 m

/-- Distinct samples in order of first appearance. -/
def firstSeen (l : List Nat) : List Nat := l.foldl (fun acc v => if acc.contains v then acc else acc ++ [v]) []

/-- Code one sample of a lossless PRED tile. -/
def encPredSample (tw : Nat) (s : PredSt) (iv : Nat × Nat) : PredSt :=
  let s := (List.range 3).foldl (fun (s : PredSt) c =>
    let (a, b, d) := neighbours tw s.done iv.1 c
    let j := 4 * c + ctxOf a b d
    let x := s.ctx.getD j (4, 1)
    let m := mapErr ((comp iv.2 c : Int) - predict a b d)
    { s with ctx := s.ctx.set j (x.put m), bits := s.bits ++ riceBits x.k m }) s
  { s with done := s.done ++ [iv.2] }

/-- The body of a lossless PRED tile. -/
def encPred (tw : Nat) (l : List Nat) : List Byte :=
  let s := ((List.range l.length).zip l).foldl (encPredSample tw) {}
  bitsToBytes (bitsMsb 8 1 ++ bitsMsb 8 0 ++ s.bits)

/-- The body of a lossless PAL tile. -/
def encPal (l : List Nat) : List Byte :=
  let ent := firstSeen l
  bitsToBytes (bitsMsb 4 (ent.length - 1) ++ ent.flatMap (sampleBits 3)
    ++ l.flatMap fun v => bitsMsb (palBits ent.length) (ent.idxOf v))

/-- A record of a mode and a body. -/
def mkRecord (mode : Nat) (body : List Byte) : List Byte := leBytes 4 (body.length * 65536 + mode) ++ body

/-- The record of a lossless tile; `same` when every sample equals the reference (R100). -/
def encodeTile (tw : Nat) (same : Bool) (l : List Nat) : List Byte :=
  let ent := firstSeen l
  if same then mkRecord 0 []
  else if ent.length = 1 then mkRecord 2 (bitsToBytes (sampleBits 3 (l.getD 0 0)))
  else
    let pred := encPred tw l
    if ent.length ≤ 16 then
      let pal := encPal l
      if pal.length ≤ pred.length then mkRecord 4 pal else mkRecord 5 pred
    else mkRecord 5 pred

end Sys2Proof.Machine
end

