-- ==== Sys2Proof/Machine/Composition.lean ====
section
/-! DEFINITION. The arithmetic of one ray: the polyphase filter, the depth stack, graphic layers and pages, the output chain,
uniformity correction, and where its codes land (R26, R28, R32-R36, R39, R101, R126, R135-R144, R166, R168, R169). -/

namespace Sys2Proof.Machine

/-! ### The filter (R101) -/

/-- A filtered sample, four unsigned 12-bit components (R103). -/
structure Sample where
  r : Nat := 0
  g : Nat := 0
  b : Nat := 0
  a : Nat := 0
deriving DecidableEq, Repr, Inhabited

/-- Sum of coefficients times taps. -/
def macSum (c : List Int) (tap : Nat → Int) : Int := ((List.range 8).map fun t => c.getD t 0 * tap t).sum

/-- One component: the horizontal pass saturates to s16, the vertical pass to 12 bits. `tap t r` is tap `t` of row `r`. -/
def filterComp (cx cy : List Int) (tap : Nat → Nat → Int) : Nat :=
  let row := fun r => clampInt ((macSum cx (fun t => tap t r) + 512) / 1024) (-32768) 32767
  (clampInt ((macSum cy row + 512) / 1024) 0 4095).toNat

/-- The filtered sample of stored 48-bit samples. -/
def filterSample (cx cy : List Int) (tap : Nat → Nat → Nat) : Sample :=
  let f := fun c => filterComp cx cy fun t r => (comp (tap t r) c : Int)
  let a := f 3
  { r := min (f 0) a, g := min (f 1) a, b := min (f 2) a, a := a }

/-- Coefficients of a phase. -/
def CoefBank.phase (b : CoefBank) (p : Nat) : List Int := b.getD p []

/-- A bank is cull-safe (R126). -/
def CoefBank.cullSafe (b : CoefBank) : Bool := (List.range 64).all fun p => decide (1024 ≤ (b.phase p).sum)

/-- Taps and phase of a position: first tap, phase (R33). -/
def tapOf (x64 : Int) : Int × Nat := (x64 / 64 - 3, (x64 % 64).toNat)

/-! ### Composition (R135-R144) -/

/-- A colour in U1.15. -/
structure Rgb where
  r : Nat := 0
  g : Nat := 0
  b : Nat := 0
deriving DecidableEq, Repr, Inhabited

/-- e(v) of R135. -/
def expand12 (v : Nat) : Nat := (v * 32768 + 2047) / 4095

/-- g(w) of R141. -/
def expand8 (w : Nat) : Nat := (w * 32768 + 127) / 255

/-- A product of U1.15 numbers, rounded. -/
def mul15 (t x : Nat) : Nat := (t * x + 16384) / 32768

/-- The depth layers of a ray, in ascending index, with the early stop: A_acc, colour, and the layers that were computed (R136,
R137, R122). -/
def depthStack (f : Nat → Sample) : List Nat → Nat → Rgb → Nat × Rgb × List Nat
  | [], acc, c => (acc, c, [])
  | k :: rest, acc, c =>
    if acc = 32768 then (acc, c, [])
    else
      let t := 32768 - acc
      let x := f k
      let c := { r := c.r + mul15 t (expand12 x.r), g := c.g + mul15 t (expand12 x.g), b := c.b + mul15 t (expand12 x.b) : Rgb }
      let (a, c, l) := depthStack f rest (min 32768 (acc + mul15 t (expand12 x.a))) c
      (a, c, k :: l)

/-- The background, opaque (R136, R138). -/
def background (p : Plan) (acc : Nat) (c : Rgb) : Rgb :=
  let t := 32768 - acc
  { r := c.r + mul15 t (expand12 p.bgR), g := c.g + mul15 t (expand12 p.bgG), b := c.b + mul15 t (expand12 p.bgB) }

/-- A graphic or page sample: alpha and colour in U1.15. -/
structure Cover where
  a : Nat
  c : Rgb
deriving DecidableEq, Repr, Inhabited

/-- An ARGB8888 word: the cover, and whether a colour component was clamped to alpha (R141). -/
def coverOf (w : Nat) : Cover × Bool :=
  let a := bitsOf w 31 24
  let v := fun hi lo => bitsOf w hi lo
  let e := fun x => expand8 (min x a)
  ({ a := expand8 a, c := { r := e (v 23 16), g := e (v 15 8), b := e (v 7 0) } },
    decide (a < v 23 16) || decide (a < v 15 8) || decide (a < v 7 0))

/-- Straight colour under coverage `w` (Table 06-2, A8). -/
def coverA8 (w col : Nat) : Cover :=
  let a := expand8 w
  let e := fun x => mul15 (expand8 x) a
  { a := a, c := { r := e (bitsOf col 23 16), g := e (bitsOf col 15 8), b := e (bitsOf col 7 0) } }

/-- Composite a cover over a colour (R144). -/
def Cover.over (x : Cover) (c : Rgb) : Rgb :=
  let t := 32768 - x.a
  { r := x.c.r + mul15 t c.r, g := x.c.g + mul15 t c.g, b := x.c.b + mul15 t c.b }

/-! ### The output chain (R166, R168) -/

/-- The ordered dither matrix (Table 07-2). -/
def b4 : List Nat := [0, 8, 2, 10, 12, 4, 14, 6, 3, 11, 1, 9, 15, 7, 13, 5]

/-- The dither offset of a pixel in wall frame `f`. -/
def ditherOf (mode px py f : Nat) : Nat :=
  let m := b4.getD (py % 4 * 4 + px % 4) 0
  match mode with
  | 0 => 8
  | 1 => m
  | _ => (m + 5 * (f % 16)) % 16

/-- Code of component `r` (0 red, 1 green, 2 blue) of a pixel. -/
def outCode (p : Plan) (tt : List Nat) (c : Rgb) (px py f r : Nat) : Nat :=
  min ((transfer tt (matrixRow p.m r (c.r, c.g, c.b)) + ditherOf p.dither px py f) / 16) 4095

/-- Correct one code by its map word (R168, Table 07-3). -/
def correct (fmt word x : Nat) : Nat :=
  if x = 0 then 0
  else
    let (k, off) := if fmt = 1 then (768 + bitsOf word 15 6, signed 6 word) else (896 + 4 * bitsOf word 7 2, signed 2 word)
    (clampInt ((((x * k + 512) / 1024 : Nat) : Int) + 2 * off) 0 4095).toNat

/-- Bytes of a map word. -/
def mapWordLen (fmt : Nat) : Nat := if fmt = 1 then 2 else 1

/-- Offset in the map buffer of the word of subpixel column `j` on line `py` (R169). -/
def mapWordAt (p : Plan) (py j : Nat) : Nat := 4096 + (py * (3 * p.width) + j) * mapWordLen p.umapFmt

/-! ### Rays and pixels (R28, R39) -/

/-- Panel pixel of view `n` of a hogel. -/
def pixelOf (p : Plan) (hx hy n : Nat) : Nat × Nat :=
  let u := n % p.hh
  let v := n / p.hh
  (hx * p.hh + (if p.flipU then p.hh - 1 - u else u), hy * p.hv + if p.flipV then p.hv - 1 - v else v)

end Sys2Proof.Machine
end

