-- ==== Sys2Proof/Machine/Control.lean ====
section
/-! DEFINITION. Control flow, `HALT` and launches, thread restarts, software events, and the completion of unit and
asynchronous operations (R214-R219, R233, R249, R254, R273, R512). -/

namespace Sys2Proof.Machine

/-- Branch to the target of R244. -/
def Thread.branch (th : Thread) (w : IWord) : Thread := { th with pc := w.target th.pc }

/-- `BR` (R254). -/
def execBr (t : Tid) (w : IWord) (s : State) : Answer :=
  .next (s.issue t 1 fun s => s.modThread t fun th => th.branch w)

/-- `BRC`: condition codes 0xE and 0xF fault as an unassigned opcode does (R247). -/
def execBrc (t : Tid) (w : IWord) (s : State) : Answer :=
  .next (s.issue t 1 fun s =>
    match (s.thread t).fl.cond (w.fn.setWidth 4) with
    | none => s.fault t .state 0x03
    | some true => s.modThread t fun th => th.branch w
    | some false => s.modThread t fun th => th.next)

/-- `CALL`: a 17th nested call faults with FLT_STATE, subcode 0x02 (R219, R254). -/
def execCall (t : Tid) (w : IWord) (s : State) : Answer :=
  .next (s.issue t 1 fun s =>
    if 16 ≤ (s.thread t).stack.length then s.fault t .state 0x02
    else s.modThread t fun th => { th.branch w with stack := (th.pc + 8) :: th.stack })

/-- Enter the wait of `HALT` (R254). -/
def State.halt (s : State) (t : Tid) : State :=
  s.modThread t fun th => { th with st := .waiting, wait := .halt, wAddr := th.pc }

/-- `RET`: with an empty stack it acts as `HALT` (R219, R254). -/
def execRet (t : Tid) (_w : IWord) (s : State) : Answer :=
  .next (s.issue t 1 fun s =>
    match (s.thread t).stack with
    | [] => s.halt t
    | a :: r => s.modThread t fun th => { th with pc := a, stack := r })

/-- `LOOP`: on g0 the decrement is discarded and 2^64 − 1 is not 0, so it always branches (R242, R254). -/
def execLoop (t : Tid) (w : IWord) (s : State) : Answer :=
  .next (s.issue t 1 fun s => s.modThread t fun th =>
    let v := th.reg w.rd - 1
    let th' := th.setReg w.rd v
    if v = 0 then th'.next else th'.branch w)

/-- `HALT` (R254). -/
def execHalt (t : Tid) (_w : IWord) (s : State) : Answer := .next (s.issue t 1 fun s => s.halt t)

/-- The completion record of REC_DONE (R254). -/
def completionItem (t : Tid) (th : Thread) : List Byte :=
  leBytes 16 (t.val + 256 + 65536 * th.entry.toNat + 2 ^ 64 * (th.reg 1).toNat)

/-- `HALT` completes once no asynchronous operation of the thread is outstanding: REC_DONE, INT_DONE, IDLE (R254). -/
def execHaltCompletion (t : Tid) (s : State) : Answer :=
  let th := s.thread t
  if th.st = .waiting ∧ th.wait = .halt ∧ th.async = [] ∧ s.sequencing then
    let s := s.modThread t fun th => { th with st := .idle, wait := .none, stack := [] }
    let s := if th.recDone then s.post41 (completionItem t th) else s
    .next (if th.intDone then s.raise t.val else s)
  else .next s

/-- A launch may run PROG: a start-up program buffer, or a live, unsealed buffer that the thread may read (R216). -/
def State.launchable (s : State) (t : Tid) (h : Nat) : Bool :=
  match s.buf? h with
  | none => false
  | some b => (4032 ≤ h && h < 4040) || (0 < h && h < 4032 && !b.isSealed && !b.dying && b.accessible t)

/-- A descriptor keeps to Table 09-1: its length, its reserved bits, ENTRY a multiple of 8. -/
def launchOk (d : List Byte) : Bool :=
  let v := fieldAt d 0 32
  d.length == 32 && bitsOf v 31 28 == 0 && bitsOf v 15 2 == 0 && bitsOf v 63 32 % 8 == 0

/-- An IDLE thread takes the oldest descriptor of its queue: it starts, or the descriptor is discarded with a FLT_STATE
record of subcode 0x01 (R214, R216). -/
def execThreadLaunch (t : Tid) (s : State) : Answer :=
  if (s.thread t).st = .idle ∧ s.sequencing then
    let qi : Fin 64 := ⟨t.val, by omega⟩
    match s.takeItem qi 15 with
    | none => .next s
    | some (d, s, _) =>
      let v := fieldAt d 0 32
      let h := bitsOf v 27 16
      if launchOk d && s.launchable t h then
        .next (s.modThread t fun th =>
          { th with
            st := .running, wait := .none, fl := {}, stack := [], done := none
            pc := bitsOf v 63 32, entry := BitVec.ofNat 32 (bitsOf v 63 32), prog := BitVec.ofNat 12 h
            recDone := v.testBit 0, intDone := v.testBit 1
            g := Vector.ofFn fun i =>
              match i.val with
              | 1 => BitVec.ofNat 64 (bitsOf v 127 64)
              | 2 => BitVec.ofNat 64 (bitsOf v 191 128)
              | 3 => BitVec.ofNat 64 (bitsOf v 255 192)
              | _ => 0 })
      else .next (s.report 0x0901 0x11 (t.val * 2 ^ 40 + 2 ^ 32 + bitsOf v 63 32))
  else .next s

/-- `SIGNAL`: event bits IMM[31:16] in the threads of IMM[7:0] (R273). -/
def execSignal (t : Tid) (w : IWord) (s : State) : Answer :=
  .next (s.issue t 1 fun s =>
    (s.eventFor (fun u => w.imm.getLsbD u.val) (w.imm &&& 0xFFFF0000)).modThread t fun th => th.next)

/-- `INT`: the thread's vector (R273). -/
def execInt (t : Tid) (_w : IWord) (s : State) : Answer :=
  .next (s.issue t 1 fun s => (s.raise t.val).modThread t fun th => th.next)

/-- BAR0 answers: the endpoint is enabled, the boot has reached stage 0x01 and no trip holds (R480, R504, R508). -/
def State.bar0Open (s : State) : Bool :=
  (s.boot.mode == 0 || s.boot.mode == 2) && 1 ≤ s.boot.stage && !s.therm.tripped

/-- The restart doorbell: every FAULTED thread named (R215, R512). -/
def execDbRestart (v : BitVec 32) (s : State) : Answer :=
  if s.bar0Open then
    .next ((List.finRange 8).foldl (fun s t => if v.getLsbD t.val then s.restart t else s) s)
  else .next s

/-- The signal doorbell: BITS in the threads named (R512). -/
def execDbSignal (v : BitVec 32) (s : State) : Answer :=
  if s.bar0Open then .next (s.eventFor (fun u => v.getLsbD u.val) (v &&& 0xFFFF0000)) else .next s

/-- `SVC` RESTART: NOT_FAULTED when the thread is not FAULTED (R215, R274). -/
def execSvcRestart (t : Tid) (w : IWord) (s : State) : Answer :=
  .next (s.issue t 1 fun s =>
    let n := ((s.thread t).reg w.ra).toNat
    if h : n < 8 then
      s.startUnit t (.svcRestart t w) {} fun s =>
        if (s.thread ⟨n, h⟩).st = .faulted then (s.restart ⟨n, h⟩).toUnit t w (some (.code 0))
        else s.toUnit t w (some (.code 0x30))
    else s.fault t .state 0x20)

end Sys2Proof.Machine
end

