-- ==== Sys2Proof/Machine/Queues.lean ====
section
/-! DEFINITION. Hardware queues: marks, flush, posts and takes of threads, the host's windows, launches (12, R274, R304). -/

namespace Sys2Proof.Machine

/-- The side of a queue belongs to threads (Table 12-1). -/
def threadSide (q : Nat) (writer : Bool) : Bool :=
  if q < 24 then writer
  else if q < 32 then !writer
  else if q < 40 then false
  else if q < 42 then !writer
  else true

/-- The queue of a thread instruction: IMM[5:0] (R271). -/
def qImm (w : IWord) : Fin 64 := Fin.ofNat 64 w.imm.toNat

/-- A queue of a register operand, 0 to 63. -/
def qReg (r : Reg) : Option (Fin 64) := if h : r.toNat < 64 then some ⟨r.toNat, h⟩ else none

/-- A check that faults with FLT_QUEUE unless a condition holds (R305). -/
def needQ (c : Bool) (sub : Nat) : Except Refused Unit := if c then .ok () else .error (.queue, sub)

/-! ### Marks (R297) -/

/-- `QMARK` on a side. -/
def Queue.mark (q : Queue) (writer : Bool) : Except Refused Queue := do
  needQ (q.kind != .unconfigured) 0x01
  if writer then
    needQ (!q.wmark) 0x03
    return { q with wmark := true }
  else
    needQ (!q.rmark) 0x03
    return { q with rmark := true }

/-- `QREWIND`: the writer discards every word after its mark, which drops; the reader takes its items again and keeps its
mark. -/
def Queue.rewind (q : Queue) (writer : Bool) : Except Refused Queue := do
  needQ (q.kind != .unconfigured) 0x01
  if writer then
    needQ q.wmark 0x04
    let back := (q.unpub.map itemSpace).sum
    return { q with
      unpub := [], part := [], past := false, wmark := false, rdMid := false, tags := q.tags.take (q.kept.length + q.ready.length)
      wpos := q.ahead q.wpos (q.cap - back) }
  else
    needQ q.rmark 0x04
    let back := (q.kept.map itemSpace).sum
    return { q with ready := q.kept ++ q.ready, kept := [], itemBase := 0, rpos := q.ahead q.rpos (q.cap - back) }

/-- `QRELEASE`: the writer's items publish; the space of the reader's items is freed; the mark drops. -/
def Queue.release (q : Queue) (writer : Bool) : Except Refused Queue := do
  needQ (q.kind != .unconfigured) 0x01
  if writer then
    needQ q.wmark 0x04
    return { q with ready := q.ready ++ q.unpub, unpub := [], wmark := false }
  else
    needQ q.rmark 0x04
    return { q with kept := [], rmark := false, tags := q.tags.drop q.kept.length }

/-- A mark operation of a thread; a device reader loses the item that a rewind of the writer takes back, as at a flush (R297, R298). -/
def State.markOp (s : State) (t : Tid) (w : IWord) (i : Instr) (f : Queue → Bool → Except Refused Queue) : State :=
  s.issue t 1 fun s =>
    let q := qImm w
    let writer := w.fn.getLsbD 0
    s.startUnit t i { units := [.queue q.val] } fun s =>
      s.orFault t do
        needQ (threadSide q.val writer) 0x02
        let x ← f s.queues[q] writer
        let s := if s.queues[q].rdMid && !x.rdMid then s.countAbort q else s
        return (s.updQueue q x).toUnit t w (some (.code 0))

/-- `QMARK` (R297). -/
def execQmark (t : Tid) (w : IWord) (s : State) : Answer := .next (s.markOp t w (.qmark t w) Queue.mark)

/-- `QREWIND` (R297). -/
def execQrewind (t : Tid) (w : IWord) (s : State) : Answer := .next (s.markOp t w (.qrewind t w) Queue.rewind)

/-- `QRELEASE` (R297). -/
def execQrelease (t : Tid) (w : IWord) (s : State) : Answer := .next (s.markOp t w (.qrelease t w) Queue.release)

/-! ### Flush (R298) -/

/-- `QFLUSH`; with the writer side it also unconfigures a general queue and releases its storage (R298). -/
def execQflush (t : Tid) (w : IWord) (s : State) : Answer :=
  .next (s.issue t 1 fun s =>
    let q := qImm w
    s.startUnit t (.qflush t w) { units := [.queue q.val] } fun s =>
      s.orFault t do
        needQ (threadSide q.val true || threadSide q.val false) 0x02
        needQ (s.queues[q].kind != .unconfigured) 0x01
        let s := (s.flushQueue q).compare q
        let s :=
          if 42 ≤ q.val && w.fn.getLsbD 0 then
            { s with
              queues := vmod s.queues q fun x =>
                { x with kind := .unconfigured, cap := 0, high := 0, low := 0, cut := 0, store := 0, hostR := false
                         hostW := false } }
          else s
        return s.toUnit t w (some (.code 0)))

/-! ### Posts and takes of threads (R274, R299) -/

/-- Bytes of the pool that the small general queues use (R293). -/
def State.poolUsed (s : State) : Nat :=
  (((s.queues.toList.drop 42).filter fun q => q.kind == .small).map (·.cap)).sum

/-- The configuration that a descriptor gives a general queue (R295, R299, Table 12-3); the counters and subscriptions stay. -/
def State.configure (s : State) (t : Tid) (q : Queue) (d : List Byte) : Option Queue :=
  let v := fieldAt d 0 32
  let low := bitsOf v 255 192
  let high := bitsOf v 191 128
  let cut := bitsOf v 127 96
  let store := bitsOf v 83 72
  let size := bitsOf v 71 68
  if d.length = 32 ∧ bitsOf v 31 0 = 0x46554551 ∧ bitsOf v 63 32 = 0 ∧ bitsOf v 67 66 = 0 ∧ bitsOf v 95 84 = 0 ∧ low < high then
    let base := { q with low := low, high := high, cut := cut, hostW := v.testBit 64, hostR := v.testBit 65 }
    if store = 0 then
      let cap := size * 4096
      if 1 ≤ size ∧ cut = 0 ∧ high ≤ cap ∧ s.poolUsed + cap ≤ 1048576 then some { base with kind := .small, cap := cap } else none
    else
      match s.checkOpen t store with
      | .error _ => none
      | .ok b =>
        let cap := b.len / 256 * 255
        if !b.dying ∧ size = 0 ∧ b.len % 65536 = 0 ∧ 1048576 ≤ b.len ∧ b.len ≤ 268435456 ∧ high ≤ cap ∧ cut % 64 = 0 then
          some { base with kind := .large, cap := cap, store := BitVec.ofNat 12 store }
        else none
  else none

/-- Post one whole item of a thread to a queue: the result code and the state, or a fault (R274, R299, R305). -/
def State.post (s : State) (t : Tid) (q : Fin 64) (item : List Byte) : Except Refused (State × Nat) := do
  needQ (threadSide q.val true) 0x02
  let x := s.queues[q]
  if x.kind = .unconfigured then
    match s.configure t x item with
    | none => .error (.queue, 0x06)
    | some x => return ({ s with queues := s.queues.set q x }, 0)
  else
    needQ (item.length ≤ x.cap) 0x05
    if x.space < itemSpace item then return (s, 0x50)
    else return (s.pushItem q item 15, 0)

/-- The bytes that `SVC` QPOST names: buffer RB at offset RC, or scratch when RB is 0. -/
def State.postBytes (s : State) (t : Tid) (h off n : Nat) (ue : Bool) : Except Refused (State × Option (List Byte)) :=
  if h = 0 then .ok (s, if ue then none else some ((s.thread t).scratchRead off n))
  else do
    let b ← s.checkOpen t h
    b.within off n
    return s.readBuf b off n

/-- `SVC` QPOST (R274). An uncorrectable source word faults with FLT_MEM_UE. -/
def execSvcQpost (t : Tid) (w : IWord) (upset : Option (Fin 64 × PtrField)) (s : State) : Answer :=
  .next (s.issue t 1 fun s =>
    let th := s.thread t
    let h := handleOf (th.reg w.rb)
    let off := (th.reg w.rc).toNat
    let n := w.imm.toNat
    s.orFault t do
      if h ≠ 0 then
        let _ ← s.checkOpen t h
      match qReg (th.reg w.ra) with
      | none => .error (.state, 0x20)
      | some q =>
        need (1 ≤ n) 0x20
        let u : Use := { units := [.queue q.val], handles := if h = 0 then [] else [h], dram := s.queues[q].kind == .large
                         reads := if h = 0 then [] else [.ofBytes h off n] }
        return s.startUnit t (.svcQpost t w upset) u fun s =>
          let s := s.disturb upset
          s.orFault t do
            let (s, bytes) ← s.postBytes t h off n w.ue
            match bytes with
            | none => .error (.memUe, 0)
            | some item =>
              let (s, r) ← s.post t q item
              return s.toUnit t w (some (.code r)))

/-- `SVC` QTAKE: the oldest whole item; ITEM_LONG leaves it in place, and so does an uncorrectable word, with FLT_MEM_UE (R274, Table 09-4). -/
def execSvcQtake (t : Tid) (w : IWord) (upset : Option (Fin 64 × PtrField)) (s : State) : Answer :=
  .next (s.issue t 1 fun s =>
    let th := s.thread t
    let h := handleOf (th.reg w.rb)
    let off := w.imm.toNat
    s.orFault t do
      if h ≠ 0 then
        let _ ← s.checkStore t h off 0
      match qReg (th.reg w.ra) with
      | none => .error (.state, 0x20)
      | some q =>
        needQ (threadSide q.val false) 0x02
        let len := match s.queues[q].ready with | i :: _ => i.length | [] => 0
        let u : Use := { units := [.queue q.val], handles := if h = 0 then [] else [h], dram := s.queues[q].kind == .large
                         writes := if h = 0 then [] else [.ofBytes h off len] }
        return s.startUnit t (.svcQtake t w upset) u fun s =>
          let s := s.disturb upset
          s.orFault t do
            needQ (s.queues[q].kind != .unconfigured) 0x01
            match s.queues[q].ready with
            | [] => return s.toUnit t w (some (.codeRc 0x51 0))
            | item :: _ =>
              let room := if h = 0 then 4096 else match s.buf? h with | some b => b.len - off | none => 0
              if room < item.length then return s.toUnit t w (some (.codeRc 0x52 item.length))
              else
                match s.takeItem q 15 with
                | some (_, u, true) =>
                  let u := if h = 0 then u.modThread t (·.scratchWrite off item) else u.writeBuf h off item
                  return u.toUnit t w (some (.codeRc 0 item.length))
                | _ => return (s.readWords q (itemSpace item) 15).1.fault t .memUe 0)

/-- `SVC` QSUB, class S: the result is written in its issue slot (R274). -/
def execSvcQsub (t : Tid) (w : IWord) (s : State) : Answer :=
  .next (s.issue t 1 fun s =>
    match qReg ((s.thread t).reg w.ra) with
    | none => s.fault t .state 0x20
    | some q =>
      let bit := BitVec.ofNat 8 (2 ^ t.val)
      let s := { s with
        queues := vmod s.queues q fun x =>
          { x with subs := if w.imm.getLsbD 0 then x.subs ||| bit else x.subs &&& ~~~bit } }
      s.modThread t fun th => { (th.setReg w.rd 0).next with fl := th.fl.ofResult 0 })

/-- `SVC` LAUNCH: the 32-byte descriptor at the block address to the queue of thread RA (R274). -/
def execSvcLaunch (t : Tid) (w : IWord) (s : State) : Answer :=
  .next (s.issueBlock t w fun s =>
    let n := ((s.thread t).reg w.ra).toNat
    let d := w.block (s.thread t) 32
    if h : n < 8 then
      let q : Fin 64 := ⟨n, by omega⟩
      s.startUnit t (.svcLaunch t w) { units := [.queue n] } fun s =>
        let x := s.queues[q]
        if x.space < itemSpace d then s.toUnit t w (some (.code 0x50))
        else (s.pushItem q d 15).toUnit t w (some (.code 0))
    else s.fault t .state 0x20)

/-! ### The host's windows (R304, R508, R532) -/

/-- BAR2 serves the window of a queue: HOSTED, READY, not tripped; in the chip safe state Q40 and Q41 alone. -/
def State.bar2Open (s : State) (q : Fin 64) : Bool :=
  s.boot.mode == 0 && s.boot.stage == 8 && !s.boot.stopped && !s.therm.tripped && (!s.safe || q.val == 40 || q.val == 41)

/-- The item that the host writes passes the queue's space: its bytes are discarded with the rest of it, LOST counts it. -/
def Queue.overflow (q : Queue) : Queue := { q with part := [], past := true, rdMid := false, lost := q.lost.bump }

/-- Append the host's bytes to the item being written (R298, R304). -/
def Queue.hostBytes (q : Queue) (d : List Byte) : Queue :=
  if q.discard || q.past then q
  else
    let free := q.space + itemSpace q.part
    if itemSpace (q.part ++ d) ≤ free then { q with part := q.part ++ d } else q.overflow

/-- A write to the DATA region of a queue window (R304). -/
def execQueueDataWrite (q : Fin 64) (d : List Byte) (s : State) : Answer :=
  let x := s.queues[q]
  if s.bar2Open q && x.hostW && x.kind != .unconfigured then
    let s := if x.rdMid && (x.hostBytes d).past then s.countAbort q else s
    .next { s with queues := s.queues.set q (x.hostBytes d) }
  else .next s

/-- The item that the host ends enters the queue: behind the others, or first when a device reader has begun it (R296). -/
def State.hostItem (s : State) (q : Fin 64) (item : List Byte) : State :=
  let x := s.queues[q]
  if x.rdMid then
    let s := s.storeWords q item 16
    s.updQueue q { x with
      part := [], rdMid := false, ready := item :: x.ready, wpos := x.ahead x.wpos (itemSpace item), tags := false :: x.tags }
  else ({ s with queues := s.queues.set q { x with part := [] } } : State).pushItem q item 16

/-- A write to END: its bytes, then the end mark, which publishes the item or ends a discard (R298, R304). -/
def execQueueEndWrite (q : Fin 64) (d : List Byte) (upset : Option (Fin 64 × PtrField)) (s : State) : Answer :=
  let s := s.disturb upset
  let x := s.queues[q]
  if s.bar2Open q && x.hostW && x.kind != .unconfigured then
    let x' := x.hostBytes d
    let s := if x.rdMid && x'.past then s.countAbort q else s
    if x'.discard || x'.past then .next { s with queues := s.queues.set q { x' with discard := false, past := false } }
    else if x'.part = [] then .next s
    else .next (({ s with queues := s.queues.set q x' } : State).hostItem q x'.part)
  else if s.bar2Open q && x.kind == .unconfigured then .next { s with queues := s.queues.set q { x with discard := false } }
  else .next s

/-- A write to POP removes the oldest item (R304). -/
def execQueuePop (q : Fin 64) (s : State) : Answer :=
  let x := s.queues[q]
  if s.bar2Open q && x.hostR then
    match s.takeItem q 16 with
    | none => .next s
    | some (_, s, _) => .next s
  else .next s

/-- A write to ITEM_BASE: a multiple of 1 MiB below the length of the oldest item (R304). -/
def execItemBaseWrite (q : Fin 64) (v : BitVec 64) (s : State) : Answer :=
  let x := s.queues[q]
  let len := match x.ready with | i :: _ => i.length | [] => 0
  if s.bar2Open q && x.hostR && v.toNat % 1048576 == 0 && v.toNat < len then
    .next { s with queues := s.queues.set q { x with itemBase := v.toNat } }
  else .next s

/-- A write of 1 to sticky bits of the watermark word at offset 0x1C of the status (R301); a queue that the host may not use
discards it. -/
def execQueueStatusClear (q : Fin 64) (v : BitVec 32) (s : State) : Answer :=
  let x := s.queues[q]
  if s.bar2Open q && (x.hostR || x.hostW) then
    .next { s with
      queues := s.queues.set q
        { x with wm := { x.wm with lowEvt := x.wm.lowEvt && !v.getLsbD 1, highEvt := x.wm.highEvt && !v.getLsbD 0 } } }
  else .next s

/-- The queue status of 64 bytes (Table 12-4). -/
def State.queueStatus (s : State) (q : Fin 64) : List Byte :=
  let x := s.queues[q]
  let lost := if 24 ≤ q.val ∧ q.val < 32 then vget (vget s.fab.ports (q.val - 24)).ctr 10 else x.lost
  leBytes 1 q.val ++ leBytes 1 (match x.kind with | .unconfigured => 0 | .small => 1 | .large => 2)
    ++ leBytes 1 (x.wmark.toNat + 2 * x.rmark.toNat) ++ leBytes 5 0 ++ leBytes 8 x.level ++ leBytes 8 x.space
    ++ leBytes 4 x.items ++ leBytes 4 (x.wm.word x.low x.high x.level) ++ leBytes 4 x.partialDrop.toNat
    ++ leBytes 4 lost.toNat ++ leBytes 4 x.resets.toNat ++ leBytes 20 0

end Sys2Proof.Machine
end

