-- ==== Sys2Proof/Machine/Streams.lean ====
section
/-! DEFINITION. Coldom Layered Stream packets, their authentication, the clip buffer, ingest, and the stream instructions
(03, R260-R264). -/

namespace Sys2Proof.Machine

/-! ### Packets (R41-R44) -/

/-- The header of a packet, field by field (Table 03-1). -/
structure Cls where
  sync : Nat
  ver : Nat
  ty : Nat
  landing : Bool
  bcast : Bool
  node : Nat
  clip : Nat
  frame : Nat
  layer : Nat
  len : Nat
  slot : Nat
  salt : Nat
  seq : Nat
  rsvd : Bool
  crcOk : Bool
deriving DecidableEq, Repr, Inhabited

/-- Read a header. -/
def clsOf (b : List Byte) : Cls :=
  let v := fieldAt b 0 48
  { sync := bitsOf v 15 0, ver := bitsOf v 23 16, ty := bitsOf v 31 24, landing := v.testBit 32, bcast := v.testBit 33
    node := bitsOf v 59 48, clip := bitsOf v 79 64, frame := bitsOf v 119 80, layer := bitsOf v 127 120
    len := bitsOf v 151 128, slot := bitsOf v 159 152, salt := bitsOf v 191 160, seq := bitsOf v 287 256
    rsvd := bitsOf v 47 34 != 0 || bitsOf v 63 60 != 0 || bitsOf v 351 288 != 0
    crcOk := bitsOf v 383 352 == crc32c (b.take 44) }

/-- PAYLOAD_LEN keeps to Table 03-2 for its type; for AUDIO the bounds and the multiple alone (R47). -/
def lenOk (ty n : Nat) : Bool :=
  match ty with
  | 1 => n == 64
  | 2 => n == 32
  | 3 => decide (8 ≤ n ∧ n ≤ 1048576)
  | 4 => decide (16 ≤ n ∧ n ≤ 1024) && n % 16 == 0
  | 5 => decide (28 ≤ n ∧ n ≤ 262168) && n % 4 == 0
  | 6 => n == 16
  | 7 => decide (1 ≤ n ∧ n ≤ 65536)
  | 8 => decide (1 ≤ n ∧ n ≤ 4096)
  | 9 => n == 16
  | _ => decide (n ≤ 1048576)

/-- A NOTICE or KEY_GRANT (R73), or one of these or a PAD, which stand outside the series (R57). -/
def Cls.forSec (h : Cls) : Bool := h.ty == 7 || h.ty == 8
def Cls.outside (h : Cls) : Bool := h.forSec || h.ty == 10

/-- The payload of an item. -/
def payloadOf (item : List Byte) : List Byte := (item.drop 48).take (item.length - 64)

/-- The trailer of a clear packet: CRC-32C of header and payload, then zeros (R42). -/
def clearOkTrailer (item : List Byte) : Bool :=
  let n := item.length - 16
  fieldAt item n 4 == crc32c (item.take n) && zeroAt item (n + 4) 12

/-! ### Counters and records (R74, R549) -/

/-- Change a stream without a look at its watermarks. -/
def State.modStream (s : State) (i : Fin 16) (f : Stream → Stream) : State := { s with streams := vmod s.streams i f }

/-- Add to counter `c` of a stream's status, in the order of Table 10-14. -/
def State.countStream (s : State) (i : Fin 16) (c : Nat) (k : Nat := 1) : State :=
  s.modStream i fun x => { x with ctr := vmodN x.ctr c fun n => n.bump k }

/-- Tiles queued at an engine (R91). -/
def engTiles (l : List EngPkt) : Nat := (l.map (·.tiles)).sum

/-- The engine with the fewest tiles queued, the lowest-numbered among equals (R91). -/
def State.pickEngine (s : State) : Fin 8 :=
  (List.finRange 8).foldl (fun best e => if engTiles s.engs[e] < engTiles s.engs[best] then e else best) 0

/-- Record 0x0302 or 0x0303 of a packet of a type and a frame (R549). -/
def State.clsRecord (s : State) (code : Nat) (e : Nat) (i : Fin 16) (ty frame : Nat) : State :=
  s.report code 0x0D (e * 2 ^ 40 + i.val * 2 ^ 32 + ty * 2 ^ 24 + frame % 2 ^ 24)

/-! ### Keys and authentication (R49-R52, R411) -/

/-- The key in force in a slot for a frame; none when the slot is empty, the frame needs a key older than the previous one, or its time is
over (R51). -/
def State.keyFor (s : State) (slot frame : Nat) : Option Key :=
  match tabFind s.sec.keys slot with
  | none => none
  | some k =>
    match (match k.cur with | some c => if c.fk ≤ frame then some c else k.prev.filter fun p => p.fk ≤ frame | none => none) with
    | none => none
    | some k => if k.notAfter = 0 || (s.ftLocked && s.fab.ft < k.notAfter) then some k else none

/-- The plaintext of an item under a key, as long as its ciphertext. -/
def decrypt (k : Key) (item : List Byte) : List Byte :=
  bytesAt (Config.gcmPlain k.key (bytesAt item 20 12) (payloadOf item)) 0 (item.length - 64)

/-- Authenticate and decrypt an item at engine `e`: its payload, or none with the outcome of Table 03-6. `clearOnly` says that
its layer image is unsealed, so only KEY_SLOT 0 packets may fill it (Table 08-6). -/
def State.openItem (s : State) (e : Nat) (i : Fin 16) (clearOnly : Bool) (item : List Byte) : State × Option (List Byte) :=
  let h := clsOf item
  if h.slot = 0 then
    if clearOkTrailer item then (s, some (payloadOf item)) else (s.countStream i 19, none)
  else if clearOnly then ((s.countStream i 17).clsRecord 0x0302 e i h.ty h.frame, none)
  else
    match s.keyFor h.slot h.frame with
    | none => ((s.countStream i 18).clsRecord 0x0303 e i h.ty h.frame, none)
    | some k =>
      let tag := Config.gcmTag k.key (bytesAt item 20 12) (item.take 48) (payloadOf item)
      if h.salt = k.salt.toNat ∧ fieldAt item (item.length - 16) 16 = tag.toNat then (s, some (decrypt k item))
      else ((s.countStream i 17).clsRecord 0x0302 e i h.ty h.frame, none)

/-- Read the stored bytes of a packet; none when a word is uncorrectable. -/
def State.readPkt (s : State) (i : Fin 16) (p : Pkt) (port : Nat := 19) : State × Option (List Byte) :=
  match s.buf? s.streams[i].buf.toNat with
  | none => (s, none)
  | some b => s.readBuf b p.off p.len port

/-- A packet with an uncorrectable word fails as a tag would (R11; DESIGN CHOICE, log 25). -/
def State.unreadPkt (s : State) (e : Nat) (i : Fin 16) (p : Pkt) : State := (s.countStream i 17).clsRecord 0x0302 e i p.ty p.frame

/-- Open a stored packet. -/
def State.openPkt (s : State) (e : Nat) (i : Fin 16) (clearOnly : Bool) (p : Pkt) : State × Option (List Byte) :=
  match s.readPkt i p (6 + e % 8) with
  | (s, some item) => s.openItem e i clearOnly item
  | (s, none) => (s.unreadPkt e i p, none)

/-! ### The clip buffer and FILL (R59-R63, R260) -/

/-- Bytes from one packet to the next: 64-byte units (R59). -/
def Pkt.span (p : Pkt) : Nat := ceilDiv p.len 64 * 64

/-- Bytes from the start of the first packet of a run to the end of the last. -/
def runBytes (l : List Pkt) : Nat :=
  match l.getLast? with
  | none => 0
  | some p => (l.map Pkt.span).sum - p.span + p.len

/-- A FRAME_START of a frame. -/
def Pkt.starts (p : Pkt) (f : Nat) : Bool := p.ty == 2 && p.frame == f

/-- The stored packets from the FRAME_START of frame `f`, of the latest clip start that has one, on. -/
def Stream.fromFrame (x : Stream) (f : Nat) : List Pkt :=
  let after := (x.pkts.reverse.takeWhile fun p => p.ty != 1).reverse
  if after.any (·.starts f) then after.dropWhile fun p => !p.starts f else x.pkts.dropWhile fun p => !p.starts f

/-- FILL (R260). -/
def Stream.fill (x : Stream) : Nat :=
  match x.position with
  | none => runBytes x.pkts
  | some f => runBytes (x.fromFrame f)

/-- Replace a stream and settle its watermark crossings: sticky bits, counters, SWM (R62). -/
def State.putStream (s : State) (i : Fin 16) (x : Stream) : State :=
  let old := s.streams[i]
  if old.st = .detached ∨ x.st = .detached then { s with streams := s.streams.set i x }
  else
    let (wm, hit) := x.wm.cross x.low x.high old.fill x.fill
    let s := { s with streams := s.streams.set i { x with wm := wm } }
    if hit then s.event 5 else s

/-- The first frame that a RING buffer must keep: that of the latest stored landing at or before the frame being decoded, else
that frame; none while there is no POSITION (R60). -/
def Stream.keepFrom (x : Stream) : Option Nat :=
  x.position.map fun p =>
    let l := (x.pkts.filter fun q => q.ty == 2 && q.landing && q.frame ≤ p).map (·.frame)
    if l = [] then p else l.foldl max 0

/-- Drop the oldest packets until a packet of `size` bytes at `off` overwrites none; none when a protected one is in the way. -/
def evict (keep : Option Nat) (off size tail : Nat) (wrap : Bool) : Nat → List Pkt → List Pkt → Option (List Pkt × List Pkt)
  | 0, l, gone => some (l, gone)
  | _ + 1, [], gone => some ([], gone)
  | n + 1, p :: r, gone =>
    if (wrap && tail ≤ p.off) || (p.off < off + size && off < p.off + p.span) then
      if keep.any (· ≤ p.frame) then none
      else
        let same := (p :: r).takeWhile fun q => q.frame == p.frame
        evict keep off size tail wrap n ((p :: r).drop same.length) (gone ++ same)
    else some (p :: r, gone)

/-- Where the next packet goes: its offset, the packets kept, the packets overwritten; none when it must wait (R59-R61). -/
def Stream.place (x : Stream) (bufLen size : Nat) : Option (Nat × List Pkt × List Pkt) :=
  if x.wpos + size ≤ bufLen then
    if x.ring then (evict x.keepFrom x.wpos size x.wpos false x.pkts.length x.pkts []).map fun r => (x.wpos, r)
    else some (x.wpos, x.pkts, [])
  else if !x.ring || bufLen < 1048576 + size then none
  else (evict x.keepFrom 1048576 size x.wpos true x.pkts.length x.pkts []).map fun r => (1048576, r)

/-- An index entry (R59). -/
def indexEntry (frame off : Nat) (valid : Bool) : List Byte := leBytes 8 (frame % 2 ^ 40 + valid.toNat * 2 ^ 63) ++ leBytes 8 off

/-- Clear VALID in the entries of overwritten landings (R63). -/
def State.dropEntries (s : State) (h : Nat) (gone : List Pkt) : State :=
  gone.foldl (fun s p => match p.entry with | some e => s.writeBuf h (16 * e) (indexEntry p.frame p.off false) | none => s) s

/-! ### Clip values (R550) -/

/-- The values of a CLIP_START payload (Table 03-3). -/
def clipOf (p : List Byte) : Clip :=
  let v := fieldAt p 0 64
  { rateNum := bitsOf v 31 0, rateDen := bitsOf v 63 32, first := bitsOf v 103 64
    last := if bitsOf v 167 128 = 2 ^ 40 - 1 then none else some (bitsOf v 167 128)
    mask := BitVec.ofNat 64 (bitsOf v 255 192), gap := bitsOf v 271 256, loopable := v.testBit 272 }

/-- The values of a CLIP_END payload (R48). -/
def clipEndOf (p : List Byte) : ClipEnd :=
  let v := fieldAt p 0 16
  { final := bitsOf v 39 0, loopTo := bitsOf v 103 64, loop := v.testBit 104 }

/-- Authenticate the stored CLIP_START; its values stand from now on, or none of the clip have been read. -/
def State.readClip (s : State) (i : Fin 16) : State :=
  match s.streams[i].csPkt with
  | none => s
  | some p =>
    let (s, r) := s.openPkt s.pickEngine.val i false p
    s.modStream i fun x => { x with clip := r.map clipOf }

/-- `SPLAY` and `SSEEK` try a CLIP_START again that could not be read. -/
def State.retryClip (s : State) (i : Fin 16) : State := if s.streams[i].clip = none then s.readClip i else s

/-- The last frame of play, and where it loops to (R70). -/
def Stream.finalFrame (x : Stream) : Option (Nat × Option Nat) :=
  match x.clipEnd with
  | some e => some (e.final, if e.loop then some e.loopTo else none)
  | none => (x.clip.bind (·.last)).map fun l => (l, none)

/-- The clip frame of wall frame `n`, which is not before W_A (R65). -/
def Stream.clipAt (x : Stream) (n : Nat) : Nat := x.n0 + (n - x.wA)

/-- W_A and N0 for wall frame `n` once play has looped back to LOOP_TO as often as it has by then (R65, R70). -/
def Stream.wrap (x : Stream) (n : Nat) : Stream :=
  match x.finalFrame with
  | some (f, some back) =>
    if x.wA ≤ n ∧ x.n0 ≤ f ∧ back ≤ f ∧ f < x.clipAt n then
      let first := x.wA + (f - x.n0) + 1
      { x with wA := first + (n - first) / (f + 1 - back) * (f + 1 - back), n0 := back }
    else x
  | _ => x

/-- The stream goes on to the clip frame of wall frame `n`, unless a seek takes its place (R65, R70). -/
def Stream.aim (x : Stream) (n : Nat) : Stream :=
  if x.seek.isSome ∨ n < x.wA then x
  else
    let y := x.wrap n
    { y with position := some (y.clipAt n), shown := if y.wA = x.wA then x.shown else none }

/-- Authenticate a stored CLIP_END; one that fails is absent. A stream that its LOOP turns back decodes LOOP_TO next (R70, R550). -/
def State.readClipEnd (s : State) (i : Fin 16) (p : Pkt) : State :=
  let (s, r) := s.openPkt s.pickEngine.val i false p
  match r with
  | some b =>
    let x := { s.streams[i] with clipEnd := some (clipEndOf b) }
    let y := x.aim (s.wallFrame + 1)
    if x.st ≠ .playing ∨ y.position = x.position then s.modStream i fun _ => x
    else { s.putStream i { y with dec := none } with engs := s.engs.map fun l => l.filter fun e => e.stream != i }
  | none => s

/-! ### Ingest (R54-R64) -/

/-- What ingest does with an item: discard with a counter, hand to the security processor, forward only, discard a PAD, or store
with a gap in SEQ. -/
inductive Verdict where
  | discard (ctr : Nat)
  | sec
  | forward
  | pad
  | store (gap : Nat)
deriving DecidableEq, Repr, Inhabited

/-- The checks of a header from SYNC to TYPE, which R54 and R55 share: the counter of the first that fails. -/
def Cls.first4 (h : Cls) : Option Nat :=
  if h.sync ≠ 0xC15A then some 0
  else if !h.crcOk then some 1
  else if h.ver ≠ 1 then some 2
  else if h.ty = 0 ∨ 10 < h.ty then some 3
  else none

/-- The checks from the reserved fields to KEY_SLOT (R55, Table 03-6). -/
def State.clsMid (s : State) (h : Cls) (n : Nat) : Option Nat :=
  if h.rsvd ∨ (h.landing ∧ h.ty ≠ 2) then some 4
  else if n ≠ 64 + h.len ∨ !lenOk h.ty h.len then some 5
  else if (if h.ty = 3 then 63 < h.layer else h.layer ≠ 0xFF) then some 6
  else if 63 < h.slot ∨ (h.forSec ∧ h.slot ≠ 0) then some 7
  else if h.slot = 0 ∧ !h.outside ∧ !s.clearOk then some 8
  else none

/-- Addressed to this device (R56). -/
def State.addressed (s : State) (h : Cls) : Bool := h.bcast || s.node? == some h.node

/-- This device forwards what is for other nodes: INGEST, with known coordinates (R56). -/
def State.forwards (s : State) : Bool := s.boot.ingest && s.node?.isSome

/-- The series of a packet. -/
def Stream.series (x : Stream) (bcast : Bool) : Series := if bcast then x.serB else x.serN

/-- The checks from CLIP_ID on (R55, R57, R64). -/
def Stream.order (x : Stream) (h : Cls) : Verdict :=
  let r := x.series h.bcast
  if h.clip ≠ x.clipId.toNat ∨ (h.ty ≠ 1 ∧ !x.started) then .discard 10
  else if h.ty = 1 then .store 0
  else
    let d := match r.lastSeq with | some l => (h.seq + 2 ^ 32 - l.toNat) % 2 ^ 32 | none => 1
    if d = 0 ∨ 2 ^ 31 ≤ d then .discard 11
    else
      let stale := match r.ingest with
        | some f => if h.ty = 2 then decide (h.frame ≤ f) else decide (3 ≤ h.ty ∧ h.ty ≤ 6 ∧ h.frame < f)
        | none => false
      let orphan := decide (3 ≤ h.ty ∧ h.ty ≤ 6) && (match r.ingest with | some f => decide (f < h.frame) | none => true)
      if stale then .discard 13 else if orphan then .discard 14 else .store (d - 1)

/-- What ingest does with an item of a stream (R55, R56). -/
def State.judge (s : State) (i : Fin 16) (item : List Byte) : Verdict :=
  let h := clsOf item
  if item.length < 64 then .discard 5
  else
    match h.first4 with
    | some c => .discard c
    | none =>
      match s.clsMid h item.length with
      | some c => .discard c
      | none =>
        if !s.addressed h then
          if !s.forwards then .discard 9 else if h.ty = 10 then .pad else .forward
        else if h.ty = 10 then .pad
        else if h.forSec then .sec
        else s.streams[i].order h

/-- The stream whose counters take what fails in a NOTICE or KEY_GRANT that came over the fabric: the lowest-numbered attached one with its
CLIP_ID, else the lowest-numbered attached one (R73, R74; DESIGN CHOICE, log 18). -/
def State.fabStream (s : State) (clip : Nat) : Option (Fin 16) :=
  let l := (List.finRange 16).filter fun i => s.streams[i].st != .detached
  match l.find? fun i => s.streams[i].clipId.toNat == clip with
  | some i => some i
  | none => l.head?

/-- Hand a NOTICE or KEY_GRANT to the security processor after its trailer check (R73). -/
def State.toSecurity (s : State) (stream : Option (Fin 16)) (item : List Byte) : State :=
  if clearOkTrailer item then
    { s with sec := { s.sec with inbox := s.sec.inbox ++ [⟨(clsOf item).ty == 8, payloadOf item, stream⟩] } }
  else match stream with | some i => s.countStream i 19 | none => s

/-- The ingest queue of a stream. -/
def ingestQueue (i : Fin 16) : Fin 64 := ⟨8 + i.val, by omega⟩

/-- The port through which the oldest item of an ingest queue is stored: P17 for one that came over the fabric, P16 otherwise (R58). -/
def State.clipPort (s : State) (i : Fin 16) : Nat := if s.queues[ingestQueue i].tag then 17 else 16

/-- Store a packet at its place: the series, the clip buffer, the landing index, the clip values (R57, R59-R64, R550). A CLIP_END stands
until the next one that is read, past a new CLIP_START too (R70; DESIGN CHOICE, log 25). -/
def State.storePkt (s : State) (i : Fin 16) (item : List Byte) (gap off : Nat) (kept gone : List Pkt) (port : Nat) : State :=
  let h := clsOf item
  let x := s.streams[i]
  let hd := x.buf.toNat
  let s := s.dropEntries hd gone
  let s := s.writeBuf hd off item port
  let s := if gap = 0 then s else s.countStream i 12 gap
  let ing := (x.series h.bcast).ingest
  let s := match ing with
    | some f => if h.ty = 2 ∧ f + 1 < h.frame then s.countStream i 15 (h.frame - f - 1) else s
    | none => s
  let lands := h.ty == 2 && h.landing
  let e := if x.ring then x.landings % 65536 else x.landings
  let full := 65536 ≤ e || kept.any (·.entry == some e)
  let s := if lands then (if full then s.countStream i 29 else s.writeBuf hd (16 * e) (indexEntry h.frame off true) port) else s
  let p : Pkt := ⟨off, item.length, h.ty, h.frame, h.layer, h.bcast, h.landing, if lands && !full then some e else none⟩
  let x := s.streams[i]
  let seq := some (BitVec.ofNat 32 h.seq)
  let x :=
    if h.ty = 1 then { x with serN := { lastSeq := seq }, serB := { lastSeq := seq }, started := true, csPkt := some p }
    else
      let r := x.series h.bcast
      let r := { r with lastSeq := seq, ingest := if h.ty = 2 then some h.frame else r.ingest }
      if h.bcast then { x with serB := r } else { x with serN := r }
  let s := s.putStream i { x with
    pkts := kept ++ [p], wpos := off + p.span, landings := x.landings + lands.toNat
    csPkt := match x.csPkt with | some c => if gone.any (·.off == c.off) then none else some c | none => none }
  if h.ty = 1 then s.readClip i else if h.ty = 9 then s.readClipEnd i p else s

/-- Length of a stream's clip buffer. -/
def State.clipLen (s : State) (i : Fin 16) : Nat := match s.buf? s.streams[i].buf.toNat with | some b => b.len | none => 0

/-- Take the oldest item out of an ingest queue. -/
def State.takeIngest (s : State) (i : Fin 16) : State :=
  match s.takeItem (ingestQueue i) (s.clipPort i) with
  | some (_, s, _) => s
  | none => s

/-- Take one whole item of an ingest queue and do with it what its header asks for. An item that cannot be stored, or whose
forwarding must wait, stays in the queue (R55, R56, R61, R459). -/
def State.ingest (s : State) (i : Fin 16) (item : List Byte) : State :=
  let h := clsOf item
  let both := s.forwards && h.bcast
  match s.judge i item with
  | .discard c =>
    let s := (s.takeIngest i).countStream i c
    if c = 8 then s.report 0x0301 0x10 ((8 + i.val) * 2 ^ 40 + i.val * 2 ^ 32 + h.ty * 2 ^ 24 + h.clip) else s
  | .pad => s.takeIngest i
  | .forward => match s.forwardCls h.forSec false h.node item with | some s => s.takeIngest i | none => s
  | .sec =>
    match (if both then s.forwardCls true true 0 item else some s) with
    | some s => (s.takeIngest i).toSecurity (some i) item
    | none => s
  | .store gap =>
    match s.streams[i].place (s.clipLen i) (ceilDiv item.length 64 * 64) with
    | none => s.modStream i fun x => { x with stalled := true }
    | some (off, kept, gone) =>
      match (if both then s.forwardCls false true 0 item else some s) with
      | some s => (s.takeIngest i).storePkt i item gap off kept gone (s.clipPort i)
      | none => s

/-- `INGEST_ITEM`: an attached stream takes the oldest item of its queue; an item still being written is begun once CUT bytes
of it are there, and is then waited for (R53, R55, R296). An item whose words are uncorrectable is dropped (R11; DESIGN CHOICE, log 45). -/
def execIngestItem (i : Fin 16) (s : State) : Answer :=
  let x := s.streams[i]
  let q := s.queues[ingestQueue i]
  if x.st = .detached ∨ x.stalled ∨ !s.sequencing then .next s
  else
    match q.ready with
    | item :: _ =>
      if q.rdMid then .next s
      else
        match s.takeItem (ingestQueue i) (s.clipPort i) with
        | some (_, u, false) => .next u
        | _ => .next (s.ingest i item)
    | [] =>
      if !q.wmark && q.cut != 0 && q.cut ≤ q.part.length then
        .next { s with queues := s.queues.set (ingestQueue i) { q with rdMid := true } }
      else .next s

/-- `INGEST_RESUME`: once the waiting packet fits, ingest takes items again (R61). -/
def execIngestResume (i : Fin 16) (s : State) : Answer :=
  let x := s.streams[i]
  let size := match s.queues[ingestQueue i].ready with | item :: _ => ceilDiv item.length 64 * 64 | [] => 0
  if x.stalled && (x.place (s.clipLen i) size).isSome then .next (s.modStream i fun x => { x with stalled := false })
  else .next s

/-! ### Attach and detach (R53, R59, R262, R264) -/

/-- Item 0x50 of Q41 (Table 12-8). -/
def streamItem (i : Fin 16) (ev frame wall : Nat) : List Byte :=
  leBytes 16 (0x50 + 256 * i.val + 65536 * ev + frame % 2 ^ 40 * 2 ^ 24 + wall % 2 ^ 64 * 2 ^ 64)

/-- Post a stream event. -/
def State.streamEvent (s : State) (i : Fin 16) (ev frame : Nat) : State := s.post41 (streamItem i ev frame s.wallFrame)

/-- Bytes of the clip buffers of all attached streams (R59). -/
def State.clipTotal (s : State) : Nat :=
  ((List.finRange 16).filter fun i => s.streams[i].st != .detached).foldl (fun a i => a + s.clipLen i) 0

/-- Write VALID = 0 in every entry of a landing index (R59). -/
def State.clearIndex (s : State) (h : Nat) (b : Buf) : State :=
  let cells := s.mem.filter fun c => b.base ≤ c.1 && c.1 < b.base + 1048576 && (c.1 - b.base) % 16 == 7
  cells.foldl (fun s c => s.writeBuf h (c.1 - b.base) [c.2 &&& 0x7F]) (s.writeBuf h 0 [])

/-- The checks of a handle under `BFREE`, `BINFO` and `SATTACH`: none when it is not live (R250). -/
def State.findHandle (s : State) (h : Nat) : Except Refused (Option Buf) :=
  if h = 0 ∨ 4096 ≤ h then .error (.state, 0x20)
  else if 4032 ≤ h then .error (.seal, 0)
  else .ok (s.buf? h)

/-- `SATTACH` (R53, R59, R262, R264). The counters start at 0 here (DESIGN CHOICE, log 25). -/
def execSattach (t : Tid) (w : IWord) (s : State) : Answer :=
  .next (s.issueBlock t w fun s => s.orFault t do
    let b := w.block (s.thread t) 32
    let hd := fieldAt b 4 2
    let found ← s.findHandle hd
    if found.isSome then
      let _ ← s.checkHandle t hd
    let n := fieldAt b 0 1
    if found = none then return s.startUnit t (.sattach t w) {} fun s => s.toUnit t w (some (.code 0x11))
    else
      need (fieldAt b 1 1 ≤ 1 && fieldAt b 16 8 < fieldAt b 8 8) 0x20
      if hn : n < 16 then
        return s.startUnit t (.sattach t w) { units := [.stream n], handles := [hd] } fun s =>
          let i : Fin 16 := ⟨n, hn⟩
          match s.buf? hd with
          | none => s.toUnit t w (some (.code 0x11))
          | some buf =>
            if s.streams[i].st ≠ .detached then s.toUnit t w (some (.code 0x24))
            else if buf.len < 2097152 then s.toUnit t w (some (.code 0x15))
            else if 107374182400 < s.clipTotal + buf.len then s.toUnit t w (some (.code 0x28))
            else
              let s := s.clearIndex hd buf
              let x : Stream := { st := .paused, clipId := BitVec.ofNat 16 (fieldAt b 2 2), buf := BitVec.ofNat 12 hd
                                  ring := fieldAt b 1 1 == 1, high := fieldAt b 8 8, low := fieldAt b 16 8 }
              ({ s with streams := s.streams.set i x } : State).toUnit t w (some (.code 0))
      else .error (.state, 0x20))

/-- A stream is detached: its packets go, its counters stay. -/
def Stream.detached (x : Stream) : Stream := { ctr := x.ctr }

/-- Detach a stream at once. -/
def State.detachNow (s : State) (i : Fin 16) : State :=
  { s.modStream i Stream.detached with engs := s.engs.map fun l => l.filter fun e => e.stream != i }

/-- `SATTACH.D`: a playing stream is first paused at the next frame boundary (R262). -/
def execSattachDetach (t : Tid) (w : IWord) (s : State) : Answer :=
  .next (s.issueBlock t w fun s =>
    let n := fieldAt (w.block (s.thread t) 32) 0 1
    if hn : n < 16 then
      let i : Fin 16 := ⟨n, hn⟩
      s.startUnit t (.sattachDetach t w) { units := [.stream n] } fun s =>
        match s.streams[i].st with
        | .detached => s.toUnit t w (some (.code 0x25))
        | .playing =>
          s.hostOrder t .stream 0x38 fun s =>
            (s.modStream i fun x => { x with detach := some (.thread t) }).toUnit t w none
        | _ => (s.detachNow i).toUnit t w (some (.code 0))
    else s.fault t .state 0x20)

/-! ### Seek, play, pause (R65, R69, R262, R263) -/

/-- A seek of a stream: the state, and its result when it returns at once (R69, R263). A pending seek that it replaces returns SUPERSEDED at
the end of the wall frame, with the record of R238. Without a stored FRAME_START every frame lies beyond the last (NOT_YET; DESIGN CHOICE,
log 25). -/
def State.seekStream (s : State) (i : Fin 16) (frame : Nat) (who : Deliver) (l : Level) (op : Nat) : State × Option Done :=
  let s := s.retryClip i
  let x := s.streams[i]
  if x.st = .detached then (s, some (.code 0x25))
  else
    let lastFs := (x.pkts.filter fun p => p.ty == 2).getLast?
    if !(lastFs.any fun p => frame ≤ p.frame) then ((s.streamEvent i 3 frame).event 6, some (.code 0x22))
    else
      match (x.pkts.filter fun p => p.entry.isSome && p.frame ≤ frame).map (·.frame) with
      | [] => ((s.streamEvent i 2 frame).event 6, some (.code 0x21))
      | f :: r =>
        let land := r.foldl max f
        if x.st = .playing then
          let s := match x.seek with
            | some k =>
              let old : Level := match k.who with | .group _ _ => .group | _ => .host
              let oldOp := match k.who with | .group _ _ => 3 | _ => 0x39
              ((s.streamEvent i 4 k.asked).overruled .stream l op old oldOp).modStream i fun x =>
                { x with superseded := x.superseded ++ [k.who] }
            | none => s
          (s.modStream i fun x => { x with seek := some ⟨land, frame, who⟩ }, none)
        else
          let s := s.putStream i { x with position := some land, shown := none }
          ((s.streamEvent i 1 land).event 6, some (.codeRc 0 land))

/-- `SSEEK`. -/
def execSseek (t : Tid) (w : IWord) (s : State) : Answer :=
  .next (s.issue t 1 fun s =>
    let n := ((s.thread t).reg w.ra).toNat
    let frame := ((s.thread t).reg w.rb).toNat
    if hn : n < 16 then
      s.startUnit t (.sseek t w) { units := [.stream n] } fun s =>
        s.hostOrder t .stream 0x39 fun s =>
          let (s, r) := s.seekStream ⟨n, hn⟩ frame (.thread t) .host 0x39
          s.toUnit t w r
    else s.fault t .state 0x20)

/-- Play a stream: clip frame `n0` presents at wall frame `wa` (R65, R263, R550). -/
def State.playStream (s : State) (i : Fin 16) (wa n0 : Nat) : State × Nat :=
  let s := s.retryClip i
  let x := s.streams[i]
  if x.st = .detached then (s, 0x25)
  else if x.st = .playing then (s, 0x24)
  else if x.position ≠ some n0 then (s, 0x27)
  else if wa < s.wallFrame + 2 then (s, 0x26)
  else
    match s.plan?, x.clip with
    | some p, some c =>
      if c.rateDen = 0 ∨ c.rateNum * p.rateDen ≠ p.rateNum * c.rateDen then (s, 0x20)
      else (s.modStream i fun x => { x with st := .playing, wA := wa, n0 := n0, shown := none, last := none, dec := none }, 0)
    | _, _ => (s, 0x20)

/-- `SPLAY`. -/
def execSplay (t : Tid) (w : IWord) (s : State) : Answer :=
  .next (s.issue t 1 fun s =>
    let th := s.thread t
    let n := (th.reg w.ra).toNat
    if hn : n < 16 then
      s.startUnit t (.splay t w) { units := [.stream n] } fun s =>
        s.hostOrder t .stream 0x3A fun s =>
          let (s, r) := s.playStream ⟨n, hn⟩ (th.reg w.rb).toNat (th.reg w.rc).toNat
          s.toUnit t w (some (.code r))
    else s.fault t .state 0x20)

/-- Pause a stream at the next frame boundary; its result when it returns at once (R262). -/
def State.pauseStream (s : State) (i : Fin 16) (who : Deliver) : State × Option Done :=
  match s.streams[i].st with
  | .detached => (s, some (.code 0x25))
  | .playing => (s.modStream i fun x => { x with pauses := x.pauses ++ [who] }, none)
  | _ => (s, some (.code 0))

/-- `SPAUSE`. -/
def execSpause (t : Tid) (w : IWord) (s : State) : Answer :=
  .next (s.issue t 1 fun s =>
    let n := ((s.thread t).reg w.ra).toNat
    if hn : n < 16 then
      s.startUnit t (.spause t w) { units := [.stream n] } fun s =>
        s.hostOrder t .stream 0x3B fun s =>
          let (s, r) := s.pauseStream ⟨n, hn⟩ (.thread t)
          s.toUnit t w r
    else s.fault t .state 0x20)

/-! ### Status (R260) -/

/-- The stream status of 200 bytes (Table 10-14). -/
def State.streamStatus (s : State) (i : Fin 16) : List Byte :=
  let x := s.streams[i]
  let ones := 2 ^ 40 - 1
  let ing := match x.serN.ingest, x.serB.ingest with
    | some a, some b => max a b
    | some a, none => a
    | none, some b => b
    | none, none => ones
  let st := match x.st with | .detached => 0 | .paused => 1 | .playing => 2 | .stopped => 3
  leBytes 1 i.val ++ leBytes 1 st ++ leBytes 6 x.clipId.toNat ++ leBytes 8 (ing % 2 ^ 40)
    ++ leBytes 8 (x.position.getD ones % 2 ^ 40) ++ leBytes 8 x.fill ++ leBytes 8 (x.wm.word x.low x.high x.fill)
    ++ leBytes 8 x.wA ++ leBytes 8 x.n0 ++ leBytes 8 x.mediaTime.toNat ++ x.ctr.toList.flatMap (fun c => leBytes 4 c.toNat)
    ++ leBytes 4 0

end Sys2Proof.Machine
end

