-- ==== Sys2Proof/Machine/Decoders.lean ====
section
/-! DEFINITION. Decoding: the start of a frame, the decoder engines, coverage, the packets of a frame, and what is complete at
the period start (R66-R72, R85, R91-R96, R211). -/

namespace Sys2Proof.Machine

/-! ### Start and dispatch (R66, R91) -/

/-- The enabled depth layers of the plan of the next frame that CLS layer `l` of stream `i` feeds (R71, R91, R190). -/
def State.takers (s : State) (i : Fin 16) (l : Nat) : List Nat :=
  match s.plan.next with
  | some g => g.plan.enabled.filter fun k =>
      let e := g.plan.layer k
      e.srcStream == i.val && e.srcLayer == l
  | none => []

/-- The plan of the next frame. -/
def State.nextPlan (s : State) : Plan := match s.plan.next with | some g => g.plan | none => {}

/-- The stored packets of frame `c` that a decoder engine reads. -/
def Stream.framePkts (x : Stream) (c : Nat) : List Pkt :=
  (x.fromFrame c).filter fun p => p.frame == c && decide (2 ≤ p.ty ∧ p.ty ≤ 6)

/-- Frame `c` is marked LANDING. -/
def Stream.lands (x : Stream) (c : Nat) : Bool := (x.framePkts c).any fun p => p.ty == 2 && p.landing

/-- `DECODE_START`: in the period before its own, once the first FRAME_END of the frame is stored. -/
def execDecodeStart (i : Fin 16) (s : State) : Answer :=
  let x := s.streams[i]
  match x.position with
  | none => .next s
  | some c =>
    if x.st = .playing ∧ x.wA ≤ s.wallFrame + 1 ∧ s.tgRuns 0 ∧ !(x.dec.any fun d => d.frame == c)
        ∧ !(x.finalFrame.any fun f => f.1 < c) ∧ (x.framePkts c).any (·.ty == 6) then
      .next (s.modStream i fun x =>
        { x with dec := some { frame := c, follows := x.shown.any fun n => n + 1 == c } })
    else .next s

/-- What an engine sees of a packet before the tag is checked: none without a key, or where only clear packets are allowed. -/
def State.peek (s : State) (clearOnly : Bool) (item : List Byte) : Option (List Byte) :=
  let h := clsOf item
  if h.slot = 0 then some (payloadOf item)
  else if clearOnly then none
  else (s.keyFor h.slot h.frame).map fun k => decrypt k item

/-- The stored bytes of a packet, without a look at uncorrectable bursts. -/
def State.rawPkt (s : State) (i : Fin 16) (p : Pkt) : List Byte :=
  match s.buf? s.streams[i].buf.toNat with
  | some b => Memory.readN s.mem (b.base + p.off) p.len
  | none => []

/-- An image of a taker is unsealed, so that only clear packets may fill it (Table 08-6). -/
def State.clearOnly (s : State) (ks : List Nat) : Bool :=
  ks.any fun k => match s.buf? (s.nextPlan.layer k).imgBuf with | some b => !b.isSealed | none => false

/-- `DECODER_DISPATCH`: the next packet of the frame goes to the engine with the fewest tiles queued; a group that no layer
takes goes to none. A group whose header cannot be read counts as no tiles (R91; DESIGN CHOICE, log 25). -/
def execDecoderDispatch (i : Fin 16) (s : State) : Answer :=
  let x := s.streams[i]
  match (if s.tgRuns 0 then x.dec else none) with
  | none => .next s
  | some d =>
    match (x.framePkts d.frame).find? fun p => !d.sent.contains p.off with
    | none => .next s
    | some p =>
      let s' := s.modStream i fun x => { x with dec := some { d with sent := d.sent ++ [p.off] } }
      let ks := s.takers i p.layer
      if p.ty = 3 ∧ ks = [] then .next s'
      else
        let tiles := if p.ty = 3 then
            match s.peek (s.clearOnly ks) (s.rawPkt i p) with | some b => fieldAt b 4 2 | none => 0
          else 0
        .next { s' with engs := vmod s'.engs s.pickEngine fun l => l ++ [⟨i, p, tiles, false, false⟩] }

/-! ### Registration (R93) -/

/-- Place of a packet in stream order. -/
def Stream.orderOf (x : Stream) (p : Pkt) : Nat := x.pkts.findIdx fun q => q.off == p.off

/-- An earlier group of the same stream and layer has still to register. -/
def State.regWaits (s : State) (e : EngPkt) : Bool :=
  s.engs.toList.flatten.any fun o =>
    o.pkt.ty == 3 && !o.registered && o.stream == e.stream && o.pkt.layer == e.pkt.layer
      && s.streams[e.stream].orderOf o.pkt < s.streams[e.stream].orderOf e.pkt

/-- Number of tiles of a depth layer of the next frame's plan. -/
def State.tileCount (s : State) (k : Nat) : Nat :=
  let l := s.nextPlan.layer k
  tilesX l.w * tilesY l.h

/-- The group header is good for a layer (R45, Table 03-6). -/
def State.headerOk (s : State) (b : List Byte) (k : Nat) : Bool := !(groupHeader b (s.tileCount k)).2.2

/-- Mark a queued packet at the head of an engine. -/
def State.setHead (s : State) (e : Fin 8) (x : EngPkt) : State := { s with engs := vmod s.engs e fun l => x :: l.drop 1 }

/-- Change the frame that a stream decodes. -/
def State.modDec (s : State) (i : Fin 16) (f : SDec → SDec) : State := s.modStream i fun x => { x with dec := x.dec.map f }

/-- `GROUP_REGISTRATION`: the tile range of the group at the head of an engine enters its layer's coverage. -/
def execGroupRegistration (e : Fin 8) (s : State) : Answer :=
  match s.engs[e] with
  | [] => .next s
  | g :: _ =>
    match (if s.tgRuns 0 then s.streams[g.stream].dec else none) with
    | none => .next s
    | some d =>
      if g.pkt.ty ≠ 3 ∨ g.registered ∨ s.regWaits g then .next s
      else
        let ks := s.takers g.stream g.pkt.layer
        match s.peek (s.clearOnly ks) (s.rawPkt g.stream g.pkt) with
        | none => .next (s.setHead e { g with registered := true })
        | some b =>
          let (first, count, _) := groupHeader b 0
          if !(ks.any (s.headerOk b)) then .next (s.setHead e { g with registered := true })
          else if d.cov.any fun c => c.1 == g.pkt.layer && c.2.1 < first + count && first < c.2.1 + c.2.2 then
            .next (s.setHead e { g with registered := true, overlap := true })
          else
            .next ((s.setHead e { g with registered := true }).modDec g.stream fun d =>
              { d with cov := d.cov ++ [(g.pkt.layer, first, count)] })

/-! ### Groups (R68, R78, R85, R93-R96) -/

/-- The half of a layer's image that is built for the next frame: the one that synthesis does not read (R91). -/
def LayerRt.building (rt : LayerRt) (imgBuf : Nat) : Nat := if rt.buf = imgBuf && rt.hasImg && !rt.half then 1 else 0

/-- A sample of the reference image of layer `k` (R85): 0 where there is none. A sample that lies in an uncorrectable burst is
marked in bits from 48 up by the address of the burst plus 1. -/
def State.refSample (s : State) (rt : LayerRt) (w h : Nat) (x y : Nat) : Nat :=
  if rt.clear ∨ !rt.hasImg ∨ rt.w ≠ w ∨ rt.h ≠ h then 0
  else
    match s.buf? rt.buf with
    | none => 0
    | some b =>
      let a := b.base + (if rt.half then halfLen w h else 0) + y * layerPitch w + 6 * x
      match (s.dram.suspects a 6).find? s.dram.unreadable with
      | some p => (p + 1) * 2 ^ 48
      | none => leNat (Memory.readN s.mem a 6)

/-- Tiles whose reference met an uncorrectable burst: the burst's record, and a free value in place of each lost sample
(R239, R316). -/
def State.settleTile (s : State) (r : Rec) : State × Rec :=
  let lost := (r.samples.filter fun v => 2 ^ 48 ≤ v).map fun v => v / 2 ^ 48 - 1
  if lost = [] then (s, r)
  else
    let s := lost.eraseDups.foldl State.meetBurst s
    let (s, v) := s.freshValues r.samples.length
    (s, { r with samples := r.samples.zipWith (fun x u => if 2 ^ 48 ≤ x then u.toNat % 2 ^ 48 else x) v })

/-- Write one decoded tile and its map byte into the half being built (R78, R91). -/
def State.writeTile (s : State) (e : Fin 8) (k t : Nat) (samples : List Nat) : State :=
  let l := s.nextPlan.layer k
  let r := tileRect l.w l.h t
  let o := (vget s.layers k).building l.imgBuf * halfLen l.w l.h
  let s := (List.range r.th).foldl (fun s y =>
    s.writeBuf l.imgBuf (o + (r.y0 + y) * layerPitch l.w + 6 * r.x0)
      (((samples.drop (y * r.tw)).take r.tw).flatMap fun v => leBytes 6 v) (6 + e.val)) s
  s.writeBuf l.imgBuf (o + mapOffset l.w l.h + t) [BitVec.ofNat 8 (tileMapByte samples)] (6 + e.val)

/-- One decoded tile of layer `k`: the landing rule, the reference reset, the flag bits, the write (R68, R78, R82, R85). FLAG_MISMATCH counts
per depth layer, and REF_RESET wherever the sizes differ, under CLEAR too (DESIGN CHOICE, log 25). -/
def State.putTile (s : State) (e : Fin 8) (i : Fin 16) (d : SDec) (lands : Bool) (k t : Nat) (r : Rec) : State :=
  let l := s.nextPlan.layer k
  let rt := vget s.layers k
  let usesRef := decide (r.mode < 2)
  let s := if usesRef && lands then s.countStream i 26 else s
  let s := if usesRef && rt.hasImg && (rt.w != l.w || rt.h != l.h) then s.countStream i 31 else s
  let (s, r) := if usesRef && lands && !d.follows then (s, { r with samples := r.samples.map fun _ => 0 }) else s.settleTile r
  let s := if !usesRef && tileMapByte r.samples != r.flags then s.countStream i 30 else s
  s.writeTile e k t r.samples

/-- Decode a group for layer `k`: the state and the syntax error, if any. -/
def State.decodeFor (s : State) (e : Fin 8) (i : Fin 16) (d : SDec) (lands : Bool) (b : List Byte) (k : Nat) : State × Option (Nat × Nat) :=
  let l := s.nextPlan.layer k
  let (first, count, _) := groupHeader b 0
  let out := decodeRecords l.w l.h (s.refSample (vget s.layers k) l.w l.h) count first (b.drop 8) {}
  (out.tiles.foldl (fun s x => s.putTile e i d lands k x.1 x.2) s, out.err)

/-- The tag or CRC check of a packet has passed. -/
def State.passed (s : State) (g : EngPkt) : State := s.modDec g.stream fun d => { d with ok := d.ok ++ [g.pkt.off] }

/-- The layers made incomplete. -/
def State.spoil (s : State) (i : Fin 16) (ks : List Nat) : State := s.modDec i fun d => { d with bad := d.bad ++ ks }

/-- A TILE_GROUP at engine `e`: tiles are written before the tag is known; its conditions count when the tag passes. Record 0x0401 names the
plan's depth layer, the first taker with an error (R96; DESIGN CHOICE, log 25). -/
def State.doneGroup (s : State) (e : Fin 8) (g : EngPkt) (d : SDec) : State :=
  let i := g.stream
  let ks := s.takers i g.pkt.layer
  let only := s.clearOnly ks
  let lands := s.streams[i].lands d.frame
  let (s, item) := s.readPkt i g.pkt (6 + e.val)
  match item with
  | none => (s.unreadPkt e.val i g.pkt).spoil i ks
  | some item =>
    let body := s.peek only item
    let good := match body with | some b => ks.filter (s.headerOk b) | none => []
    let (sd, errs) := if g.overlap then (s, []) else
      match body with
      | none => (s, [])
      | some b => good.foldl (fun (a : State × List (Nat × Nat × Nat)) k =>
          let (s, r) := a.1.decodeFor e i d lands b k
          (s, a.2 ++ match r with | some (c, t) => [(k, c, t)] | none => [])) (s, [])
    let (so, ok) := sd.openItem e.val i only item
    match ok with
    | none =>
      ([26, 30, 31].foldl (fun a c => a.modStream i fun x => { x with ctr := vmodN x.ctr c fun _ => vget s.streams[i].ctr c }) so).spoil i ks
    | some b =>
      let so := so.passed g
      let s := if 256 < (groupHeader b 0).2.1 then so.countStream i 32 else so
      let s := if good.length < ks.length then s.countStream i 20 else s
      let s := if g.overlap then s.countStream i 21 else s
      let s := match errs with
        | [] => s
        | (k, c, t) :: _ => (s.countStream i 23).report 0x0401 0x0F (e.val * 2 ^ 40 + c * 2 ^ 32 + k * 2 ^ 24 + t % 2 ^ 14)
      s.spoil i (if g.overlap then ks else (ks.filter fun k => !good.contains k) ++ errs.map (·.1))

/-! ### LAYER_PARAMS (R46, R71) -/

/-- The values of a layer before an entry of the frame being decoded: those in force, or for a layer of a plan that comes into
force with the frame, those that the plan gives. -/
def State.baseGeo (s : State) (k : Nat) : Geo :=
  let rt := vget s.layers k
  match rt.geoNext with
  | some g => g
  | none =>
    match s.plan.cur, s.plan.next with
    | some a, some b =>
      if a.kind = b.kind ∧ a.slot = b.slot ∧ a.plan = b.plan then rt.geoHeld.getD rt.geo else (b.plan.layer k).geo
    | _, some b => (b.plan.layer k).geo
    | _, none => rt.geo

/-- The values after an entry of Table 03-5. -/
def Geo.entry (g : Geo) (v : Nat) : Geo :=
  { s := if v.testBit 8 then bitsOf v 31 16 else g.s
    ox := if v.testBit 9 then signed 24 (bitsOf v 55 32) else g.ox
    oy := if v.testBit 10 then signed 24 (bitsOf v 87 64) else g.oy
    d := if v.testBit 11 then signed 16 (bitsOf v 111 96) else g.d }

/-- OX and OY of an entry are sign-extended as R46 says. -/
def entrySigns (v : Nat) : Bool :=
  (!(v.testBit 9) || signed 32 (bitsOf v 63 32) == signed 24 (bitsOf v 55 32))
    && (!(v.testBit 10) || signed 32 (bitsOf v 95 64) == signed 24 (bitsOf v 87 64))

/-- Apply an entry to a depth layer that takes it, if the checks of R35 and the ring of R114 allow. -/
def State.applyEntry (s : State) (i : Fin 16) (v k : Nat) : State :=
  let p := s.nextPlan
  let g := (s.baseGeo k).entry v
  if entrySigns v && p.geoOk k g && (p.ringNeed k g).1 ≤ p.ringLines k then
    { s with layers := vmodN s.layers k fun rt => { rt with geoNext := some g } }
  else
    let s := s.countStream i 24
    { s with
      plan := { s.plan with
        status := { s.plan.status with paramLate := vmodN s.plan.status.paramLate k Count.bump } } }

/-- A LAYER_PARAMS packet. -/
def State.doneParams (s : State) (i : Fin 16) (b : List Byte) : State :=
  let es := (List.range (b.length / 16)).map fun j => fieldAt b (16 * j) 16
  let ls := es.map fun v => bitsOf v 7 0
  if ls.eraseDups.length ≠ ls.length then s.countStream i 24
  else es.foldl (fun s v => (s.takers i (bitsOf v 7 0)).foldl (fun s k => s.applyEntry i v k) s) s

/-! ### The end of a packet -/

/-- Change the counts of the series of a packet. -/
def SDec.modSer (d : SDec) (bcast : Bool) (f : SerCount → SerCount) : SDec :=
  if bcast then { d with bc := f d.bc } else { d with node := f d.node }

/-- A packet that is no TILE_GROUP. -/
def State.doneOther (s : State) (e : Fin 8) (g : EngPkt) : State :=
  let i := g.stream
  let (s, r) := s.openPkt e.val i false g.pkt
  let s := if r.isSome then s.passed g else s
  match g.pkt.ty, r with
  | 2, none => s.modDec i fun d => { d with fsFail := true }
  | 2, some b => s.modDec i fun d =>
      { d.modSer g.pkt.bcast fun c => { c with saidTg := some (fieldAt b 8 4), saidPm := some (fieldAt b 12 4) } with
        mask := d.mask ||| BitVec.ofNat 64 (fieldAt b 0 8), media := BitVec.ofNat 64 (fieldAt b 16 8) }
  | 4, some b => s.doneParams i b
  | 5, some b => if s.aud.cfg.packetOk b then s.placeAudio i b else s.countStream i 25
  | 6, some b => s.modDec i fun d => d.modSer g.pkt.bcast fun c => { c with saidPkt := some (fieldAt b 0 4) }
  | _, _ => s

/-- `DECODE_PACKET_DONE`: the engine ends the packet at its head. -/
def execDecodePacketDone (e : Fin 8) (s : State) : Answer :=
  match s.engs[e] with
  | [] => .next s
  | g :: r =>
    let s' : State := { s with engs := s.engs.set e r }
    match s.streams[g.stream].dec with
    | none => .next s'
    | some d =>
      if !s.tgRuns 0 then .next s
      else if g.pkt.ty = 3 then (if g.registered then .next (s'.doneGroup e g d) else .next s) else .next (s'.doneOther e g)

/-! ### At the period start (R66, R67, R70, R211) -/

/-- Mismatches of the counts of one series (R67). -/
def countErrors (ps : List Pkt) (bcast : Bool) (c : SerCount) : Nat :=
  let n := fun t => (ps.filter fun p => p.bcast == bcast && p.ty == t).length
  let fs := match c.saidTg, c.saidPm with | some a, some b => decide (a ≠ n 3 ∨ b ≠ n 4) | _, _ => false
  let fe := match c.saidPkt with | some a => decide (a ≠ n 3 + n 4 + n 5) | none => false
  fs.toNat + fe.toNat

/-- How a layer of the frame that just finished decoding stands. -/
inductive Built where
  /-- complete: the half being built is its image -/
  | fresh
  /-- repeats its previous image unchanged -/
  | repeats
  /-- EMPTY: a landing codes nothing for it -/
  | empty
  | late
deriving DecidableEq, Repr, Inhabited

/-- The outcome of depth layer `k` fed by stream `x` for the clip frame `c` that presents (R67, R94). `nt` is its number of tiles. A packet
whose check has not been made yet has not passed. -/
def Stream.built (x : Stream) (c k nt cls : Nat) : Built :=
  match x.dec with
  | none => .late
  | some d =>
    if d.frame ≠ c then .late
    else
      let groups := (x.framePkts c).filter fun p => p.ty == 3 && p.layer == cls
      let starts := (x.framePkts c).filter fun p => p.ty == 2
      let covered := ((d.cov.filter fun c => c.1 == cls).map fun c => c.2.2).sum
      if groups ≠ [] then
        if covered = nt ∧ !d.bad.contains k ∧ groups.all (fun p => d.ok.contains p.off) then .fresh else .late
      else if d.fsFail ∨ !(starts.all fun p => d.ok.contains p.off) ∨ (d.mask.getLsbD cls) ∨ !(x.clip.any fun c => c.mask.getLsbD cls) then .late
      else if starts.any (·.landing) then .empty
      else .repeats

end Sys2Proof.Machine
end

