-- ==== Sys2Proof/Machine/Playback.lean ====
section
/-! DEFINITION. Playback at a frame boundary: what each stream and each depth layer presents, seeks, loops, stops, pauses
(R65-R70, R85, R211, R262, R263). -/

namespace Sys2Proof.Machine

/-! ### Streams at a boundary -/

/-- A stream plays, and wall frame `n` is not before W_A. -/
def Stream.plays (x : Stream) (n : Nat) : Bool := x.st == .playing && x.position.isSome && decide (x.wA ≤ n)

/-- A playing stream has a clip frame for wall frame `n` (R65). -/
def Stream.due (x : Stream) (n : Nat) : Bool := x.plays n && !(x.finalFrame.any fun f => f.1 < x.clipAt n)

/-- A stream has played its final frame by wall frame `n` (R70). -/
def Stream.over (x : Stream) (n : Nat) : Bool := x.plays n && x.finalFrame.any fun f => f.1 < x.clipAt n

/-- A pending seek of a stream takes effect at the start of wall frame `n`, and those that it replaced return SUPERSEDED, after STREAM is set
(R69, R263). -/
def State.applySeek (s : State) (i : Fin 16) (n : Nat) : State :=
  let old := s.streams[i].superseded
  let s := if old = [] then s
    else old.foldl (fun s d => s.deliver d (.code 0x23)) ((s.modStream i fun x => { x with superseded := [] }).event 6)
  let x := s.streams[i]
  match x.seek with
  | some k =>
    let s := s.putStream i { x with position := some k.landing, wA := n + 1, n0 := k.landing, seek := none, shown := none, dec := none }
    ((s.streamEvent i 1 k.landing).event 6).deliver k.who (.codeRc 0 k.landing)
  | none => s

/-- The engines drop what is left of a stream's frame: the decoding period is over. -/
def State.dropQueued (s : State) (i : Fin 16) : State := { s with engs := s.engs.map fun l => l.filter fun e => e.stream != i }

/-- A playing stream pauses now, and what it was decoding is dropped; those who wait for it, and a detach, are served (R262, R351). -/
def State.pauseNow (s : State) (i : Fin 16) : State :=
  let x := s.streams[i]
  let s := (s.modStream i fun x => { x with st := if x.st = .playing then .paused else x.st, pauses := [], detach := none, dec := none }).dropQueued i
  let s := x.pauses.foldl (fun s d => s.deliver d (.code 0)) s
  match x.detach with
  | some d => (s.detachNow i).deliver d (.code 0)
  | none => s

/-- Clip frame `c` presents at wall frame `n`: if it has been decoded, the counts of R67 and MEDIA_TIME; and where play goes on (R65, R69,
R70). -/
def State.presentFrame (s : State) (i : Fin 16) (n c : Nat) : State :=
  let x := s.streams[i]
  let s := match x.dec with
    | some d =>
      if d.frame = c then
        let ps := x.framePkts c
        let s := s.countStream i 22 (countErrors ps false d.node + countErrors ps true d.bc)
        s.modStream i fun x => { x with shown := some c, mediaTime := d.media }
      else s.modStream i fun x => { x with shown := none }
    | none => s.modStream i fun x => { x with shown := none }
  let s := s.dropQueued i
  s.putStream i ({ s.streams[i] with dec := none, last := some c }.aim (n + 1))

/-- One stream at the start of wall frame `n`: its frame presents, or it stops after its final frame; then a pending seek and a
pending pause take effect. A stream that stops before it has presented a frame names its final frame (R303; DESIGN CHOICE, log 25). -/
def State.streamBoundary (s : State) (i : Fin 16) (n : Nat) : State :=
  let s := s.modStream i fun x => if x.st = .playing then x.wrap n else x
  let x := s.streams[i]
  let s :=
    if x.due n then s.presentFrame i n (x.clipAt n)
    else if x.over n && x.seek.isNone then
      let last := x.last.getD (match x.finalFrame with | some f => f.1 | none => 0)
      ((s.modStream i fun x => { x with st := .stopped, dec := none }).streamEvent i 0 last).event 6
    else s
  let s := s.applySeek i n
  if x.pauses.isEmpty && x.detach.isNone then s else s.pauseNow i

/-! ### Depth layers at a boundary (R66, R211) -/

/-- How layer `k` of plan `p` stands for wall frame `n`, by the streams as decoding left them; none where its stream does not
play, so that the layer keeps its image. -/
def State.standing (s : State) (p : Plan) (k n : Nat) : Option Built :=
  let e := p.layer k
  if h : e.srcStream < 16 then
    let x := s.streams[e.srcStream].wrap n
    if !x.due n then none
    else
      match x.built (x.clipAt n) k (tilesX e.w * tilesY e.h) e.srcLayer with
      | .late => if x.pauses.isEmpty && x.detach.isNone then some .late else none
      | b => some b
  else none

/-- A layer keeps the image it had: (0, 0, 0, 0) where it has none of the size of the plan (R211, R509). -/
def LayerRt.keep (rt : LayerRt) (e : LayerEntry) : LayerRt :=
  { rt with clear := rt.clear || !rt.hasImg || rt.w != e.w || rt.h != e.h }

/-- A layer shows its last decoded image: its stream does not play, or the frame repeats it (R67, R70, R211). -/
def LayerRt.still (rt : LayerRt) (e : LayerEntry) : LayerRt :=
  { rt with clear := rt.empty || !rt.hasImg || rt.w != e.w || rt.h != e.h }

/-- The image of a layer for the frame. -/
def LayerRt.image (rt : LayerRt) (e : LayerEntry) (b : Option Built) : LayerRt :=
  if !e.fed then { rt with buf := e.imgBuf, half := false, hasImg := true, w := e.w, h := e.h, clear := false, empty := false }
  else
    match b with
    | none => rt.still e
    | some .fresh =>
      { rt with buf := e.imgBuf, half := rt.building e.imgBuf == 1, hasImg := true, w := e.w, h := e.h, clear := false
                empty := false }
    | some .repeats => rt.still e
    | some .empty => { rt with clear := true, empty := true }
    | some .late => if e.late = 1 then { rt with clear := true } else rt.keep e

/-- The values of a layer for the frame: those of a set that applies, those that a plan gives when it comes into force, those that waited
under FRAME_HOLD, else those in force (R37, R71, R211). -/
def LayerRt.values (rt : LayerRt) (e : LayerEntry) (newPlan : Bool) : Geo :=
  match rt.geoNext with
  | some g => g
  | none => if newPlan then e.geo else rt.geoHeld.getD rt.geo

/-- Plan `p` comes into force while the panel holds its codes: its values, and the images that stand (R37, R352). -/
def State.planLayers (s : State) (p : Plan) : State :=
  { s with
    layers := Vector.ofFn fun k : Fin 64 =>
      let e := p.layer k
      let rt := s.layers[k]
      if e.en then { rt.image e none with geo := rt.values e true, geoNext := none, geoHeld := none } else rt }

/-- The depth layers of the frame of plan `p`. A layer that was not enabled keeps the image it presented last, which is its reference (R85;
DESIGN CHOICE, log 25). A frame under FRAME_HOLD keeps images and values, and the values meant for it wait
for the next. -/
def State.layerBoundary (s : State) (p : Plan) (newPlan : Bool) (n : Nat) : State :=
  let st := fun k => s.standing p k n
  let lates := p.enabled.filter fun k => st k == some .late
  let hold := lates.any fun k => (p.layer k).late == 2
  let layers := Vector.ofFn fun k : Fin 64 =>
    let e := p.layer k
    let rt := s.layers[k]
    if !e.en then rt
    else if hold then { rt.keep e with geoHeld := some (rt.values e newPlan), geoNext := none }
    else { rt.image e (st k) with geo := rt.values e newPlan, geoNext := none, geoHeld := none }
  let c := s.plan.status
  let c := { c with late := lates.foldl (fun v k => vmodN v k fun x => x.bump) c.late
                    frameHolds := if hold then c.frameHolds.bump else c.frameHolds }
  { s with layers := layers, plan := { s.plan with status := c } }

end Sys2Proof.Machine
end

