-- ==== Sys2Proof/Machine/Links.lean ====
section
/-! DEFINITION. Fabric ports: training, back-off, link authentication, lane loss and retraining
(R412-R414, R425-R433). -/

namespace Sys2Proof.Machine

/-- Change a port. -/
def State.modPort (s : State) (p : Fin 8) (f : Port → Port) : State :=
  { s with fab := { s.fab with ports := vmod s.fab.ports p f } }

/-- A fabric record of a port (Table 18-12). -/
def State.portRecord (s : State) (code : Nat) (p : Fin 8) (info : Nat) : State := s.report code 0x09 (p.val * 2 ^ 40 + info)

/-- A port state as Table 18-2 numbers it. -/
def PortState.num : PortState → Nat
  | .down => 0
  | .training => 1
  | .authenticating => 2
  | .up => 3
  | .backoff => 4
  | .absent => 5
  | .refused => 6
  | .outOfService => 7

/-- What a port keeps of its link when its lanes go: the counters, the masks, Q32 + p and the reassembly tags. -/
def Port.dropLink (y : Port) : Port :=
  { y with
    lanes := 0, link := .none, linkNext := none, retrain := false, seen := 0, partner := none
    txKey := 0, rxKey := 0, txSalt := 0, rxSalt := 0, ctx := Vector.replicate 4 none
    tx0 := [], tx1 := [], tx2 := [], tx3 := [], openTx := Vector.replicate 4 none, waiting := []
    cometTx := 0, cometRx := 0, planet := none, hops := 255, freshAt := none, pNode := none, pSeq := none }

/-- A state with lanes that have been trained. -/
def PortState.trained (x : PortState) : Bool := x == .authenticating || x == .up || x == .refused

/-- A port changes state: entering or leaving UP posts item 0x31 with FABRIC and vector 59 (R427). -/
def State.setPort (s : State) (p : Fin 8) (x : PortState) : State :=
  let old := s.fab.ports[p].st
  let s := s.modPort p fun y => if x.trained then { y with st := x } else { y.dropLink with st := x }
  if (old == .up) == (x == .up) then s
  else
    ((s.event 10).post41 (leBytes 16 (0x31 + 256 * p.val + 65536 * x.num + 2 ^ 20 * s.fab.ports[p].lanes))).raise 59

/-- A failed attempt: record 0x1202, and BACKOFF, or ABSENT with record 0x1203 after the 8th in a row (R432). -/
def State.attemptFailed (s : State) (p : Fin 8) (reason seen : Nat) : State :=
  let s := s.portRecord 0x1202 p (reason * 2 ^ 32 + seen)
  let n := s.fab.ports[p].fails + 1
  let s := s.modPort p fun y => { y with fails := n }
  if n < 8 then s.setPort p .backoff else (s.setPort p .absent).portRecord 0x1203 p 0

/-! ### Training (R428-R430) -/

/-- Number of lanes of the set that both sides choose from U (R430); 0 for an empty U. -/
def chosenLanes (u : Nat) : Nat :=
  if u % 256 = 0 then 0
  else if u % 256 = 255 then 8
  else if u % 16 = 15 ∨ u / 16 % 16 = 15 then 4
  else if [0, 2, 4, 6].any fun i => u / 2 ^ i % 4 == 3 then 2
  else 1

/-- The partner's port is one that this port may meet (Table 18-1, R429). -/
def portMeets (p : Fin 8) (q : Nat) : Bool :=
  match p.val with
  | 0 => q == 1
  | 1 => q == 0
  | 2 => q == 3
  | 3 => q == 2
  | _ => decide (4 ≤ q)

/-- `FABRIC_TRAINING_ATTEMPT`: a port in DOWN sends TS1 blocks (R428). -/
def execFabricTrainingAttempt (p : Fin 8) (s : State) : Answer :=
  .next (if s.fab.ports[p].st = .down ∧ 6 ≤ s.boot.stage.toNat ∧ !s.boot.stopped then s.setPort p .training else s)

/-- A certificate preceded by its u16 length (R431). -/
def lenBytes (l : List Byte) : List Byte := leBytes 2 l.length ++ l

/-- The bytes of a HELLO (R431). -/
def helloBytes (nonce : BitVec 384) (serial : BitVec 64) (node : Nat) (dik dek : List Byte) : List Byte :=
  leBytes 48 nonce.toNat ++ leBytes 8 serial.toNat ++ leBytes 2 node ++ lenBytes dik ++ lenBytes dek

/-- This device's HELLO on a port, with the node address of the moment it was sent. -/
def State.ownHello (s : State) (nonce : BitVec 384) : List Byte :=
  helloBytes nonce Config.serial (s.node?.getD 0xFFFF) Config.dikCert Config.dekCert

/-- Cut an item into payloads of at most 2,048 bytes. -/
def chunks : Nat → List Byte → List (List Byte)
  | 0, _ => []
  | n + 1, l => l.take 2048 :: if l.length ≤ 2048 then [] else chunks n (l.drop 2048)

/-- The frames of an item that this node originates, with the LSEQ of the hop still to fill in (R436, R443). -/
def State.framesOf (s : State) (tc ftype : Nat) (bcast : Bool) (dst : Nat) (item : List Byte) : List TxFrame :=
  let cs := chunks (item.length / 2048 + 1) item
  cs.mapIdx fun i c =>
    { hdr := { lseq := 0, ttl := 255, len := BitVec.ofNat 12 c.length, ftype := BitVec.ofNat 4 ftype, tc := BitVec.ofNat 2 tc
               bcast := bcast, detour := false, auth := s.enrolled, last := i + 1 == cs.length, first := i == 0, rsvd := false
               fidx := BitVec.ofNat 8 i, src := BitVec.ofNat 12 (s.node?.getD 0), dst := BitVec.ofNat 12 dst }
      payload := c
      source := none }

/-- Queue frames of the control path on a port (R444). -/
def State.sendControl (s : State) (p : Fin 8) (fs : List TxFrame) : State := s.modPort p fun y => { y with tx1 := y.tx1 ++ fs }

/-- `FABRIC_TRAINED`: the ports must be ones that meet and U not empty; the port then authenticates with a HELLO
(R428-R431). -/
def execFabricTrained (p : Fin 8) (own partner : BitVec 8) (partnerP : BitVec 3) (s : State) : Answer :=
  .next (
    if s.fab.ports[p].st ≠ .training then s
    else if !portMeets p partnerP.toNat then s.attemptFailed p 2 own.toNat
    else
      let n := chosenLanes (own &&& partner).toNat
      if n = 0 then s.attemptFailed p 3 own.toNat
      else
        let nonce := Config.linkNonce s.fab.helloCount
        let s := { s with fab := { s.fab with helloCount := s.fab.helloCount + 1 } }
        let hello := s.ownHello nonce
        let s := (s.setPort p .authenticating).modPort p fun y =>
          { y with lanes := n, seen := own, nonce := nonce, hello := hello, partner := none }
        s.sendControl p (s.framesOf 1 1 false 0 hello))

/-- `FABRIC_TRAINING_TIMEOUT`: 10 ms after step 1 (R428). -/
def execFabricTrainingTimeout (p : Fin 8) (seen : BitVec 8) (s : State) : Answer :=
  .next (if s.fab.ports[p].st = .training then s.attemptFailed p 1 seen.toNat else s)

/-- `BACKOFF_EXPIRY`: the next attempt starts (R432). -/
def execBackoffExpiry (p : Fin 8) (s : State) : Answer :=
  .next (if s.fab.ports[p].st = .backoff then s.setPort p .training else s)

/-- `FABRIC_BEACON`: TS1 blocks for 100 us leave an ABSENT port, which stays ABSENT (R427). -/
def execFabricBeacon (_ : Fin 8) (s : State) : Answer := .next s

/-- `PARTNER_DETECTED`: a new attempt at once, with the failure count at 0 (R432). -/
def execPartnerDetected (p : Fin 8) (s : State) : Answer :=
  .next (
    let y := s.fab.ports[p]
    if y.st = .absent ∨ y.st = .backoff then (s.modPort p fun y => { y with fails := 0 }).setPort p .training else s)

/-! ### Authentication (R412-R414, R431) -/

/-- The first 16 bytes of the SHA-384 of a DEK certificate (R406). -/
def keyIdOf (dek : List Byte) : BitVec 128 := (Config.sha384 dek).setWidth 128

/-- The roster in force names the partner with the node address it is known to have (R413). -/
def State.partnerMatched (s : State) (y : Port) : Bool :=
  match s.sec.roster, y.partner with
  | some r, some x =>
    r.entries.any fun e => e.serial == x.serial && e.keyId == keyIdOf x.dek && some e.node.toNat == y.pNode
  | _, _ => false

/-- SEQ of the roster in force; 0 for none (R450). -/
def State.rosterSeq (s : State) : Nat := match s.sec.roster with | some r => r.seq.toNat | none => 0

/-- AUTHENTICATED or RESTRICTED (R413). The partner's SEQ is known from its comets only (DEDUCED, log 18). -/
def State.outcome (s : State) (p : Fin 8) : LinkKind :=
  let y := s.fab.ports[p]
  if s.enrolled && s.partnerMatched y && y.pSeq == some s.rosterSeq then .authenticated else .restricted

/-- The records of a link that is RESTRICTED: 0x1103 for an unmatched partner, 0x1104 once per boot for this device. -/
def State.linkRecords (s : State) (p : Fin 8) : State :=
  let y := s.fab.ports[p]
  let s := if s.partnerMatched y then s else
    s.report 0x1103 0x0A (p.val * 2 ^ 32 + (match y.partner with | some x => x.serial.toNat % 2 ^ 32 | none => 0))
  if s.owned && !s.enrolled && !s.sec.logged1104 then
    { s.report 0x1104 0x0A (s.node?.getD 0) with sec := { s.sec with logged1104 := true } }
  else s

/-- The outcome of a port that is UP is evaluated again; a new one takes effect at the next superframe (R414, R431). -/
def State.rejudge (s : State) (p : Fin 8) : State :=
  if s.fab.ports[p].st ≠ .up then s
  else
    let k := s.outcome p
    let s := if k = .restricted then s.linkRecords p else s
    s.modPort p fun y => { y with linkNext := if k = y.link then none else some k }

/-- Every port again: a roster came into force, or this device learned its coordinates (R414, R431). -/
def State.rejudgeAll (s : State) : State := (List.finRange 8).foldl State.rejudge s

/-- The transcript of R431 from the two HELLOs, the lower SERIAL first. -/
def transcript (own other : BitVec 64) (ownHello otherHello : List Byte) : List Byte :=
  if own.toNat ≤ other.toNat then ownHello ++ otherHello else otherHello ++ ownHello

/-- Both messages of the partner are there: REFUSED, or UP (R412, R413). -/
def State.authenticate (s : State) (p : Fin 8) (x : Partner) (sig : List Byte) : State :=
  let y := s.fab.ports[p]
  let hello := helloBytes x.nonce x.serial x.node.toNat x.dik x.dek
  let msg := leBytes 48 (Config.sha384 (transcript Config.serial x.serial y.hello hello)).toNat
  let s := s.modPort p fun y => { y with fails := 0, partner := some { x with proved := true } }
  if !Config.certsChain x.dik x.dek || !Config.ecdsaOk (Config.dikKey x.dik) msg sig then
    (s.setPort p .refused).report 0x1102 0x0A (p.val * 2 ^ 32 + x.serial.toNat % 2 ^ 32)
  else
    let (tk, rk, ts, rs) := Config.linkKeys y.nonce x.nonce x.dek
    let s := s.modPort p fun y =>
      { y with
        txKey := tk, rxKey := rk, txSalt := ts, rxSalt := rs, lseqTx := 1, lseqRx := 0
        pNode := if x.node = 0xFFFF then none else some (x.node.toNat % 4096) }
    let k := s.outcome p
    let s := (s.modPort p fun y => { y with link := k, linkNext := none }).setPort p .up
    if k = .restricted then s.linkRecords p else s

/-- `AUTH_FRAME`: a HELLO is answered with a PROOF; the partner's PROOF ends the exchange (R431). -/
def execAuthFrame (p : Fin 8) (msg : AuthMsg) (s : State) : Answer :=
  .next (
    let y := s.fab.ports[p]
    if y.st ≠ .authenticating then s
    else
      match msg with
      | .hello nonce serial node dik dek =>
        let t := transcript Config.serial serial y.hello (helloBytes nonce serial node.toNat dik dek)
        let s := s.modPort p fun y => { y with partner := some ⟨serial, node, nonce, dik, dek, false⟩ }
        s.sendControl p (s.framesOf 1 1 false 0 (Config.dikSign (leBytes 48 (Config.sha384 t).toNat)))
      | .proof sig => match y.partner with | some x => s.authenticate p x sig | none => s)

/-- `AUTH_TIMEOUT`: 200 ms after TRAINED (R431). -/
def execAuthTimeout (p : Fin 8) (s : State) : Answer :=
  .next (if s.fab.ports[p].st = .authenticating then s.attemptFailed p 4 s.fab.ports[p].seen.toNat else s)

/-- `REFUSED_PORT_LOCK_LOSS`: the lanes of a REFUSED port lose lock (R431). -/
def execRefusedPortLockLoss (p : Fin 8) (s : State) : Answer :=
  .next (if s.fab.ports[p].st = .refused then s.setPort p .down else s)

/-! ### Lane loss (R433) -/

/-- `FABRIC_LANE_LOSS`: an UP port stops sending frames and retrains without the lost lanes. -/
def execFabricLaneLoss (p : Fin 8) (lost : BitVec 8) (s : State) : Answer :=
  .next (
    if s.fab.ports[p].st ≠ .up then s
    else s.modPort p fun y => { y with retrain := true, seen := y.seen &&& ~~~lost })

/-- `FABRIC_RETRAIN_DONE`: UP at the new width with record 0x1204, or DOWN with the failure count at 0. -/
def execFabricRetrainDone (p : Fin 8) (own partner : BitVec 8) (s : State) : Answer :=
  .next (
    let y := s.fab.ports[p]
    if y.st ≠ .up ∨ !y.retrain then s
    else
      let seen := y.seen &&& own
      let n := min (chosenLanes (seen &&& partner).toNat) y.lanes
      if n = 0 then (s.modPort p fun y => { y with fails := 0 }).setPort p .down
      else
        let s := s.modPort p fun y =>
          { y with retrain := false, seen := seen, lanes := n, widthChanges := if n = y.lanes then y.widthChanges else y.widthChanges.bump }
        (s.portRecord 0x1204 p (y.lanes * 16 + n)).event 10)

end Sys2Proof.Machine
end

