-- ==== Sys2Proof/Machine/Units.lean ====
section
/-! DEFINITION. Units with service states, device removals, and the end of a capture job, which many families bring about
(R118, R123, R124, R178, R184, R208, R372, R526-R529). -/

namespace Sys2Proof.Machine

/-! ### Units (Table 21-6) -/

/-- A unit is named by its BLOCK_ID and its instance. -/
abbrev UnitName := Nat × Nat

/-- The unit that a register names, if it is one of Table 21-6 (R273). -/
def unitOf (r : Reg) : Option UnitName :=
  let b := r.toNat / 256
  let i := r.toNat % 256
  if (b = 0x18 ∧ i < 16) ∨ (b = 0x2A ∧ i < 24) ∨ (b = 0x09 ∧ i < 8) then some (b, i) else none

/-- Its controlled unit (R252, R500). -/
def UnitName.ctrl (u : UnitName) : CtrlUnit := .svc (u.1 * 256 + u.2)

/-- The state of a unit. -/
def State.unit (s : State) (u : UnitName) : SvcUnit :=
  if u.1 = 0x18 then vget s.svc.gallery u.2 else if u.1 = 0x2A then vget s.svc.quad u.2 else vget s.svc.port u.2

/-- Change a unit. -/
def State.modUnit (s : State) (u : UnitName) (f : SvcUnit → SvcUnit) : State :=
  if u.1 = 0x18 then { s with svc := { s.svc with gallery := vmodN s.svc.gallery u.2 f } }
  else if u.1 = 0x2A then { s with svc := { s.svc with quad := vmodN s.svc.quad u.2 f } }
  else { s with svc := { s.svc with port := vmodN s.svc.port u.2 f } }

/-- Every unit of Table 21-6. -/
def allUnits : List UnitName :=
  (List.range 16).map (fun i => (0x18, i)) ++ (List.range 24).map (fun i => (0x2A, i)) ++ (List.range 8).map fun i => (0x09, i)

/-- A service state as `SVC` STATE numbers it. -/
def SvcState.num : SvcState → Nat
  | .inService => 0
  | .draining => 1
  | .outOfService => 2
  | .testing => 3
  | .returning => 4

/-- A change of service state: record 0x1705 and SERVICE (R526). -/
def State.setUnit (s : State) (u : UnitName) (x : SvcState) (device : Bool) : State :=
  let old := (s.unit u).st
  if old = x then s
  else
    let s := s.modUnit u fun v => { v with st := x, forced := if x = .inService then false else v.forced }
    (s.report 0x1705 u.1 (u.2 * 2 ^ 40 + device.toNat * 65536 + old.num * 256 + x.num)).event 13

/-- A plan needs a unit: for a gallery, fewer than G_REQ others are IN_SERVICE (R123); a quad serves its drivers; a port carries
its isochronous frames. -/
def State.needsUnit (s : State) (p : Plan) (u : UnitName) : Bool :=
  if u.1 = 0x18 then (s.galleries.filter (· != u.2)).length < p.gReq
  else if u.1 = 0x2A then u.2 < p.quads
  else p.isoTx.getD u.2 0 != 0 || p.isoRx.getD u.2 0 != 0

/-- The plan in force and its fall-back (R208). -/
def State.plansNow (s : State) : List Plan :=
  match s.plan.prim with
  | some i =>
    let p := s.plan.slots[i].plan
    (s.plan.cur.toList ++ s.plan.next.toList).map (·.plan) ++ p :: match s.fbSlot p with | some f => [f.plan] | none => []
  | none => []

/-- The selected plan needs a unit: its loss is a trigger (Table 08-10). -/
def State.trigUnit (s : State) (u : UnitName) : Bool :=
  u.1 != 0x09 && match s.plan.prim with | some i => s.needsUnit s.plan.slots[i].plan u | none => false

/-- A unit that the plan needs is lost: the trigger of row 1 (Table 08-10). -/
def State.loseUnit (s : State) (u : UnitName) : State :=
  if s.trigUnit u then
    { s.modUnit u fun v => { v with forced := true } with plan := { s.plan with trig := s.plan.trig ||| 2 } }
  else s

/-! ### Pairs (R372) -/

/-- Change a pair. -/
def State.modPair (s : State) (n : Nat) (f : Pair → Pair) : State := { s with pairs := vmodN s.pairs n f }

/-- Pairs that the board fits. -/
def State.usedPairs (s : State) : List Nat := List.range (min 48 s.trim.boardUp.drivers)

/-- A pair is HELD, unless it is OFF or FAILED. -/
def Pair.hold (p : Pair) : Pair :=
  match p.st with
  | .off | .failed => p
  | _ => { p with st := .held, trained := false }

/-- Hold every used pair. -/
def State.holdLanes (s : State) : State := s.usedPairs.foldl (fun s n => s.modPair n Pair.hold) s

/-- Row-driver outputs low (R346). -/
def State.rowsLow (s : State) : State :=
  { s with scan := { s.scan with gsp := false, gck := 0, gckOld := 0, goe := false, sentRow := none } }

/-- The packet of lane `l` between SOL and EOL: header, payload, CRC (R360, R362, Table 15-2). -/
def lanePacket (l alive : Nat) (test : Bool) (row : Nat) (payload : List Byte) : List Byte :=
  let b := leBytes 4 (row % 16384 + test.toNat * 2 ^ 14 + alive * 2 ^ 16 + l % 128 * 2 ^ 24) ++ payload
  b ++ leBytes 4 (crc32c b)

/-- TEST packet `k` of lane `l` (Table 15-6). -/
def testPacket (l k : Nat) : List Byte := lanePacket l 0 true k ((List.range 768).map fun i => BitVec.ofNat 8 (i + 16 * k + l))

/-! ### Device removal (R124, R368, R529) -/

/-- What removal does to the unit's own work: a gallery stops, a quad's pairs are HELD. -/
def State.stopUnit (s : State) (u : UnitName) : State :=
  if u.1 = 0x18 then
    let s := { s with synth := { s.synth with lost := s.synth.lost ++ [u.2] } }
    match s.synth.places.findIdx? (· == some u.2) with
    | some i =>
      let s := { s with synth := { s.synth with places := s.synth.places.set i none } }
      if s.synth.logged1706 then s
      else { s.report 0x1706 0x18 (u.2 * 2 ^ 40 + s.synth.done.getD i 0) with synth := { s.synth with logged1706 := true } }
    | none => s
  else if u.1 = 0x2A then (s.modPair (2 * u.2) Pair.hold).modPair (2 * u.2 + 1) Pair.hold
  else s

/-- Straight to OUT_OF_SERVICE, without draining. -/
def State.deviceRemove (s : State) (u : UnitName) : State :=
  let x := s.unit u
  if x.st = .inService ∨ x.st = .draining then
    let s := s.loseUnit u
    let s := (s.setUnit u .outOfService true).modUnit u fun v => { v with logicPass := false, memPass := false, removeTo := none }
    let s := match x.removeTo with | some who => s.deliver who (.code 0) | none => s
    s.stopUnit u
  else s

/-! ### Frame boundaries (R501, R526, R527) -/

/-- A unit becomes OUT_OF_SERVICE without a device removal: the passes are cleared, and the removal completes. -/
def State.leaveService (s : State) (u : UnitName) : State :=
  let x := s.unit u
  let s := (s.setUnit u .outOfService false).modUnit u fun v => { v with logicPass := false, memPass := false, removeTo := none }
  let s := match x.removeTo with | some who => s.deliver who (.code 0) | none => s
  if u.1 = 0x2A then (s.modPair (2 * u.2) Pair.hold).modPair (2 * u.2 + 1) Pair.hold
  else if u.1 = 0x09 then s.setPort (Fin.ofNat 8 u.2) .outOfService
  else s

/-- The bring-up of a unit in RETURNING is complete: a gallery's replica is rewritten, the used pairs of a quad are ALIGNED, a port is UP
(R368, R501). -/
def State.broughtUp (s : State) (u : UnitName) : Bool :=
  if u.1 = 0x2A then
    [2 * u.2, 2 * u.2 + 1].all fun n => !(s.usedPairs.contains n) || (vget s.pairs n).st == .aligned
  else if u.1 = 0x09 then s.fab.ports[Fin.ofNat 8 u.2].st == .up
  else true

/-- A bring-up that failed: a pair FAILED, a port that found no partner. -/
def State.bringUpFailed (s : State) (u : UnitName) : Bool :=
  if u.1 = 0x2A then [2 * u.2, 2 * u.2 + 1].any fun n => s.usedPairs.contains n && (vget s.pairs n).st == .failed
  else u.1 == 0x09 && s.fab.ports[Fin.ofNat 8 u.2].st == .absent

/-- A unit at a frame boundary whose period runs plan `p` (R123, R527). -/
def State.settleUnit (s : State) (p : Option Plan) (u : UnitName) : State :=
  match (s.unit u).st with
  | .draining => if p.any fun p => s.needsUnit p u then s else s.leaveService u
  | .returning => if s.broughtUp u then s.setUnit u .inService false else if s.bringUpFailed u then s.leaveService u else s
  | _ => s

/-- Every unit at a frame boundary: those in RETURNING before those in DRAINING. -/
def State.settleUnits (s : State) (p : Plan) : State :=
  let back := allUnits.filter fun u => (s.unit u).st == .returning
  let out := allUnits.filter fun u => (s.unit u).st == .draining
  (back ++ out).foldl (fun (s : State) u => s.settleUnit (some p) u) s

/-- While no plan is in force, what waits for a frame boundary takes place at once. -/
def State.settleNow (s : State) (u : UnitName) : State := if s.plan?.isNone then s.settleUnit none u else s

/-- Every test ends without a result (R500, R528); which of its codes the waiting instruction returns is not stated (R248; DESIGN
CHOICE, log 10). -/
def State.endTests (s : State) : State :=
  allUnits.foldl (fun s u =>
    match (s.unit u).test with
    | some (_, _, who) =>
      let (s, v) := s.freshValue
      ((s.modUnit u fun x => { x with test := none }).setUnit u .outOfService false).deliver who (.code (if v.getLsbD 0 then 0x83 else 0))
    | none => s) s

/-! ### The end of a capture job (R178, R184) -/

/-- The container header of a job (Table 07-5). -/
def Capture.header (c : Capture) : List Byte :=
  let v := 0x48434346 + c.state.toNat * 2 ^ 48 + c.reason.toNat * 2 ^ 64 + c.w * 2 ^ 160 + c.h * 2 ^ 176 + c.count % 2 ^ 32 * 2 ^ 192
    + c.frames % 2 ^ 32 * 2 ^ 224 + c.used % 2 ^ 64 * 2 ^ 256 + c.maxFrame % 2 ^ 64 * 2 ^ 320
  let b := leBytes 60 v
  b ++ leBytes 4 (crc32c b)

/-- Write the header of a job. -/
def State.writeHeader (s : State) (c : Capture) : State := s.writeBuf c.buf.toNat 0 c.header 20

/-- The running job ends: STATE 2 COMPLETE, or 3 FAILED with its REASON and record 0x0702. -/
def State.endCapture (s : State) (state reason : Nat) : State :=
  match s.cap with
  | some c =>
    if c.state ≠ 1 then s
    else
      let c := { c with state := BitVec.ofNat 8 state, reason := BitVec.ofNat 8 reason, lines := [], dir := [], prevDir := [] }
      let s := ({ s with cap := some c } : State).writeHeader c
      let s := if state = 3 then s.report 0x0702 0x1D (reason * 2 ^ 32 + c.frames % 2 ^ 32) else s
      (s.post41 (leBytes 16 (0x52 + state * 256 + reason * 65536 + c.frames % 2 ^ 32 * 2 ^ 24 + c.used % 2 ^ 64 * 2 ^ 64))).event 14
  | none => s

end Sys2Proof.Machine
end

