-- ==== Sys2Proof/Machine/Waits.lean ====
section
/-! DEFINITION. The waits (R231, R232, R255, R256, Table 10-10). -/

namespace Sys2Proof.Machine

/-- The level of a queue that `WAITQ` compares: items or bytes (R255). -/
def State.qLevel (s : State) (q : Fin 64) (items : Bool) : Nat :=
  if items then s.queues[q].items else s.queues[q].level

/-- The condition of a wait holds. A line wait holds once the named line has started (R256). -/
def State.waitHolds (s : State) (th : Thread) : Wait → Bool
  | .line _ _ => th.wHit
  | .time ns => ns.toNat ≤ s.fab.ft
  | .evt m => th.evt &&& m != 0
  | .queue q le items level =>
    if le then s.qLevel q items ≤ level.toNat else level.toNat ≤ s.qLevel q items
  | _ => false

/-- What a wait returns in RD (Table 10-10). -/
def State.waitValue (s : State) (th : Thread) : Wait → Reg
  | .line tg _ => BitVec.ofNat 64 (s.tgLine tg.val)
  | .time _ => BitVec.ofNat 64 s.fab.ft
  | .evt m => (th.evt &&& m).setWidth 64
  | .queue q _ items _ => BitVec.ofNat 64 (s.qLevel q items)
  | _ => 0

/-- A wait is one of the four of R231. -/
def Wait.isWait : Wait → Bool
  | .line _ _ | .time _ | .evt _ | .queue _ _ _ _ => true
  | _ => false

/-- Return from a wait: RD, Z, the bits of the mask cleared (R231, R232). -/
def State.waitReturn (s : State) (t : Tid) (wt : Wait) (z : Bool) : State :=
  s.modThread t fun th =>
    let th' := th.setReg th.wRd (s.waitValue th wt)
    { th' with
      st := .running, wait := .none, fl := { th.fl with z := z }
      evt := match wt with | .evt m => th.evt &&& ~~~m | _ => th.evt }

/-- Enter a wait; one whose condition already holds returns at once, but for a line wait without NOW (R255, R256). -/
def State.enterWait (s : State) (t : Tid) (w : IWord) (wt : Wait) (hit : Bool) : State :=
  let s := s.modThread t fun th =>
    { th with
      st := .waiting, wait := wt, wRd := w.rd, wEnd := if th.reg w.rc = 0 then none else some (s.now + 1000 * (th.reg w.rc).toNat), wNoFault := w.fn.getLsbD 7, wHit := hit
      wAddr := th.pc, pc := th.pc + 8 }
  if s.waitHolds (s.thread t) wt then s.waitReturn t wt true else s

/-- `WAITLINE`: FN[1:0] = 3, or a line beyond the generator's last, faults with subcode 0x20; with NOW it returns at once when
the count is at or beyond the line (R255, R256). -/
def execWaitline (t : Tid) (w : IWord) (s : State) : Answer :=
  .next (s.issue t 1 fun s =>
    let g := w.fn.toNat % 4
    let line := w.imm.toNat % 65536
    if h : g < 3 then
      if s.tgLines g != 0 && s.tgLines g ≤ line then s.fault t .state 0x20
      else s.enterWait t w (.line ⟨g, h⟩ line) (w.fn.getLsbD 2 && s.tgRuns g && line ≤ s.tgLine g)
    else s.fault t .state 0x20)

/-- `WAITTIME` (R255). -/
def execWaittime (t : Tid) (w : IWord) (s : State) : Answer :=
  .next (s.issue t 1 fun s => s.enterWait t w (.time ((s.thread t).reg w.ra)) false)

/-- `WAITEVT` (R232, R255). -/
def execWaitevt (t : Tid) (w : IWord) (s : State) : Answer :=
  .next (s.issue t 1 fun s => s.enterWait t w (.evt w.imm) false)

/-- `WAITQ` (R255). -/
def execWaitq (t : Tid) (w : IWord) (s : State) : Answer :=
  .next (s.issue t 1 fun s =>
    s.enterWait t w (.queue (Fin.ofNat 64 w.imm.toNat) (w.fn.getLsbD 0) (w.fn.getLsbD 1) ((s.thread t).reg w.ra)) false)

/-- The condition of a waiting thread holds (R231). -/
def execWaitSatisfied (t : Tid) (s : State) : Answer :=
  let th := s.thread t
  if th.st = .waiting ∧ th.wait.isWait ∧ s.sequencing ∧ s.waitHolds th th.wait then .next (s.waitReturn t th.wait true)
  else .next s

/-- The timeout of a wait expires while its condition does not hold: FLT_TIMEOUT, or in the NOFAULT form Z = 0 (R231). -/
def execWaitTimeout (t : Tid) (s : State) : Answer :=
  let th := s.thread t
  if th.st = .waiting ∧ th.wait.isWait ∧ th.wEnd.any (fun e => decide (e ≤ s.now)) ∧ s.sequencing ∧ !s.waitHolds th th.wait then
    if th.wNoFault then .next (s.waitReturn t th.wait false) else .next (s.faultAt t .timeout 0 th.wAddr)
  else .next s

/-- The gate of a blit opens at the start of its line (R287). -/
def BltOp.line (o : BltOp) (g : Fin 3) (line : Nat) : BltOp :=
  if o.gateWait && o.d.gateTg == g.val && o.d.gateLine == line then { o with gateHit := true } else o

/-- A line of a generator starts: line waits that name it are hit, and the gate of a blit (R256, R287). -/
def State.lineStarts (s : State) (g : Fin 3) (line : Nat) : State :=
  { s with
    blt := { s.blt with cur := s.blt.cur.map fun o => o.line g line }
    threads := s.threads.map fun th =>
      match th.wait with
      | .line g' l => if g' = g ∧ l = line then { th with wHit := true } else th
      | _ => th }

end Sys2Proof.Machine
end

