-- ==== Sys2Proof/Machine/Scan.lean ====
section
/-! DEFINITION. Timing generators and scan-out: requests, self-refresh, row updates and clears, frame addresses, lines and row
drivers, the line payload that CU7 covers, `REF_IN`, `SYNC_OUT` (14, R158, R269, R361, R383). -/

namespace Sys2Proof.Machine

/-- Change the scan block. -/
def State.modScan (s : State) (f : Scan → Scan) : State := { s with scan := f s.scan }

/-- Change the output path. -/
def State.modOut (s : State) (f : OutPath → OutPath) : State := { s with out := f s.out }

/-! ### Requests (R350-R353) -/

/-- Tell everyone in a list that an operation ended with a code. -/
def State.deliverAll (s : State) (l : List Deliver) (code : Nat) : State := l.foldl (fun s d => s.deliver d (.code code)) s

/-- Entry is abandoned: SCANNING, and `PSELF.ENTER` returns OK (R351). -/
def State.abandonEntry (s : State) : State :=
  (s.modScan fun c => { c with st := .scanning, enterTo := [], pastEntry := false }).deliverAll s.scan.enterTo 0

/-- What a request does to the scan state; `rows` says that it is served by UPDATING (R351, R352). -/
def State.request (s : State) (rows : Bool) : State :=
  match s.scan.st with
  | .scanning | .exiting => s
  | .entering => if s.scan.pastEntry then s.modScan fun c => { c with wantExit := true } else s.abandonEntry
  | .holding | .updating => if rows then s else s.modScan fun c => { c with wantExit := true }

/-- A request for rows joins those that wait; one that reaches UPDATING before its first active line is served with it (R352). -/
def State.rowRequest (s : State) (r : RowReq) : State :=
  let s := s.request true
  s.modScan fun c => { c with reqs := c.reqs ++ [{ r with active := c.st == .updating && !c.activeBegun }] }

/-- The lanes are aligned: every used pair of a quad in service is ALIGNED (guard 0x14). -/
def State.lanesAligned (s : State) : Bool :=
  s.pwr.st == .up && s.usedPairs.all fun n =>
    (vget s.svc.quad (n / 2)).st != .inService || (vget s.pairs n).st == .aligned

/-- The entry point has passed: the lanes idle, the row outputs are low, every playing stream pauses (R351). -/
def State.entryPoint (s : State) : State :=
  let s := (s.holdLanes.rowsLow).modScan fun c => { c with pastEntry := true }
  (List.finRange 16).foldl (fun s i => if s.streams[i].st = .playing then s.pauseNow i else s) s

/-- `PSELF.ENTER` accepted: in blanking the entry point has already passed. -/
def State.enterSelf (s : State) (who : Deliver) : State :=
  match s.scan.st with
  | .scanning =>
    let s := s.modScan fun c => { c with st := .entering, pastEntry := false, enterTo := c.enterTo ++ [who], wantExit := false }
    if s.scan.activeBegun then s else s.entryPoint
  | .holding => s.deliver who (.code 0)
  | _ => s.modScan fun c => { c with enterTo := c.enterTo ++ [who] }

/-- Guard 0x14. -/
def State.selfGuard (s : State) : Bool :=
  (match s.plan? with | some p => p.outMode != 2 | none => false) && s.comp.page == .none && s.lanesAligned

/-- `PSELF.ENTER` (R351). -/
def execPselfEnter (t : Tid) (w : IWord) (s : State) : Answer :=
  .next (s.issue t 1 fun s =>
    s.startUnit t (.pselfEnter t w) { units := [.panel] } fun s =>
      if !s.selfGuard then s.fault t .state 0x14
      else s.hostOrder t .selfRefresh 0x5B fun s => (s.toUnit t w none).enterSelf (.thread t))

/-- An order to leave self-refresh: it returns once the panel scans again. -/
def State.exitSelf (s : State) (who : Deliver) : State :=
  let s := s.request false
  if s.scan.st = .scanning then s.deliver who (.code 0)
  else s.modScan fun c => { c with exitTo := c.exitTo ++ [who] }

/-- `PSELF.EXIT` (R350). -/
def execPselfExit (t : Tid) (w : IWord) (s : State) : Answer :=
  .next (s.issue t 1 fun s =>
    s.startUnit t (.pselfExit t w) { units := [.panel] } fun s =>
      s.hostOrder t .selfRefresh 0x5B fun s => (s.toUnit t w none).exitSelf (.thread t))

/-- `SELF_REFRESH_ENTRY_POINT`: the lanes are idle and the panel enters HOLDING. -/
def execSelfRefreshEntryPoint (s : State) : Answer :=
  if s.scan.st ≠ .entering || s.stopped then .next s
  else
    let s := if s.scan.pastEntry then s else s.entryPoint
    let who := s.scan.enterTo
    let s := s.modScan fun c =>
      { c with st := .holding, enterTo := [], pastEntry := false, wantExit := c.wantExit || !c.reqs.isEmpty, activeBegun := false }
    .next (s.deliverAll who 0)

/-- `PUPDATE`: rows RA to RA + RB − 1 of the picture, RB at least 1 (R234, R251, R269, R353; DEDUCED, log 38). -/
def execPupdate (t : Tid) (w : IWord) (s : State) : Answer :=
  .next (s.issue t 1 fun s =>
    let ra := ((s.thread t).reg w.ra).toNat
    let rb := ((s.thread t).reg w.rb).toNat
    s.startUnit t (.pupdate t w) { writes := [.rows ra (ra + rb)] } fun s =>
      let h := match s.plan? with | some p => p.height | none => 0
      if s.pwr.st ≠ .up then s.fault t .state 0x15
      else if rb = 0 then s.fault t .state 0x20
      else if h < ra + rb then s.fault t .state 0x15
      else (s.toUnit t w none).rowRequest { lo := ra, hi := ra + rb - 1, clear := false, who := .thread t })

/-! ### Row requests at a period start -/

/-- Every row from 0 up to but without `n` lies in one of the ranges. -/
def rowsCovered (l : List (Nat × Nat)) (n : Nat) : Bool :=
  let ends := l.foldl (fun (e : Nat) _ => l.foldl (fun e r => if r.1 ≤ e && e ≤ r.2 then r.2 + 1 else e) e) 0
  n ≤ ends

/-- The requests of the period that ends are complete; a clear counts its rows (R353, R383). -/
def State.endRequests (s : State) : State :=
  let done := s.scan.reqs.filter (·.active)
  let s := s.modScan fun c => { c with reqs := c.reqs.filter fun r => !r.active }
  let s := s.deliverAll (done.map (·.who)) 0
  if s.pwr.st ≠ .up then s
  else
    let rows := s.pwr.clearedRows ++ (done.filter (·.clear)).map fun r => (r.lo, r.hi)
    { s with pwr := { s.pwr with clearedRows := rows, cleared := s.pwr.cleared || (done.any (·.clear) && rowsCovered rows s.pwr.rows) } }

/-- The scan state at the end of a period (R349-R353). -/
def State.endScan (s : State) : State :=
  let s := if s.tg0.noFrame ∨ s.scan.st = .holding then s else s.endRequests
  match s.scan.st with
  | .updating =>
    let who := s.scan.enterTo
    ((s.holdLanes.rowsLow).modScan fun c => { c with st := .holding, enterTo := [] }).deliverAll who 0
  | .exiting =>
    let who := s.scan.exitTo
    let s := (s.modScan fun c => { c with st := .scanning, exitTo := [], wantExit := false }).deliverAll who 0
    if s.scan.enterTo = [] then s
    else (s.modScan fun c => { c with st := .entering, pastEntry := false }).entryPoint
  | .entering => if s.scan.pastEntry then s else s.entryPoint
  | _ => s

/-- Held pairs realign in the blanking of the period; those of a quad in RETURNING train again (R370-R372). -/
def State.realignHeld (s : State) : State :=
  s.usedPairs.foldl (fun s n =>
    if s.pwr.st == .up && (vget s.pairs n).st == .held then
      match (vget s.svc.quad (n / 2)).st with
      | .inService => s.modPair n fun p => { p with st := .realign, losses := BitVec.ofNat 8 (min 255 (p.losses.toNat + 1)) }
      | .returning => s.modPair n fun p => { p with st := .training, trained := false }
      | _ => s
    else s) s

/-- The scan state at the start of a period, and the requests that the period serves. `frame` says that a frame is sent. -/
def State.startScan (s : State) (frame : Bool) : State :=
  let s := s.modScan fun c => { c with activeBegun := false }
  let s := match s.scan.st with
    | .holding =>
      if s.scan.wantExit then (s.modScan fun c => { c with st := .exiting }).realignHeld
      else if !s.scan.reqs.isEmpty then (s.modScan fun c => { c with st := .updating }).realignHeld
      else s
    | _ => s
  match s.scan.st with
  | .scanning | .exiting | .updating =>
    if frame then s.modScan fun c => { c with reqs := c.reqs.map fun r => { r with active := true } } else s
  | _ => s

/-! ### The lines that leave (R158, R345, R360, R361, R383) -/

/-- Lanes run in this period, so that lines can be sent. -/
def State.lanesRun (s : State) : Bool :=
  s.pwr.st == .up && !s.tg0.noFrame &&
    match s.scan.st with
    | .holding => false
    | .entering => !s.scan.pastEntry
    | _ => true

/-- Row `py` lies in a request of the period. -/
def Scan.requested (c : Scan) (py : Nat) : Bool := c.reqs.any fun r => r.active && decide (r.lo ≤ py ∧ py ≤ r.hi)

/-- Row `py` is sent in this period (R345, R353). -/
def State.rowSent (s : State) (py : Nat) : Bool :=
  s.lanesRun &&
    if s.scan.clearing then s.scan.requested py
    else if s.scan.st = .updating then s.comp.page != .none || s.scan.requested py
    else true

/-- The codes of a row are replaced by zeros (R383). -/
def Scan.cleared (c : Scan) (py : Nat) : Bool := c.reqs.any fun r => r.active && r.clear && decide (r.lo ≤ py ∧ py ≤ r.hi)

/-- Pack 12-bit codes into bytes, little-endian bit string (R361). -/
def packCodes : List Nat → List Byte
  | a :: b :: r =>
    let v := a % 4096 + b % 4096 * 4096
    BitVec.ofNat 8 v :: BitVec.ofNat 8 (v / 256) :: BitVec.ofNat 8 (v / 65536) :: packCodes r
  | [a] => [BitVec.ofNat 8 (a % 4096), BitVec.ofNat 8 (a % 4096 / 256)]
  | [] => []

/-- The codes in a bit string of 12-bit fields. -/
def unpackCodes : List Byte → List Nat
  | a :: b :: c :: r =>
    let v := a.toNat + b.toNat * 256 + c.toNat * 65536
    v % 4096 :: v / 4096 :: unpackCodes r
  | [a, b] => [(a.toNat + b.toNat * 256) % 4096]
  | _ => []

/-- The payload bytes of a row over the lanes of the fitted drivers (R358, R361); none where the pipeline has not delivered it. -/
def State.rowPayload (s : State) (py : Nat) : Option (List Byte) :=
  let n := 1536 * s.trim.boardUp.drivers
  if s.scan.cleared py then some (List.replicate n 0)
  else (tabFind s.out.lines py).map fun codes => bytesAt (packCodes codes) 0 n

/-- Alter one byte. -/
def corruptByte (l : List Byte) (c : Option (Nat × Byte)) : List Byte :=
  match c with
  | some (i, e) => l.modify i fun b => b ^^^ e
  | none => l

/-- The alive count of the frame at the lanes (R159, R175, R176). -/
def State.alivePresent (s : State) : BitVec 8 := if s.outMode = 1 then s.out.scan.alive else s.comp.alive

/-- A running capture job takes the line that the second unit sees, in line order. It fails when the frame shows a page, and when more
than two tile rows of lines wait (R181-R184). -/
def State.captureLine (s : State) (py : Nat) (made : List Byte) : State :=
  match s.cap with
  | some c =>
    if c.state = 1 ∧ c.start ≤ s.wallFrame ∧ !s.scan.clearing ∧ py = (32 * c.rows + c.lines.length) % c.h then
      if s.lanePage ≠ .none then s.endCapture 3 4
      else if 64 ≤ c.lines.length then s.endCapture 3 3
      else { s with cap := some { c with lines := c.lines ++ [(unpackCodes made).take (3 * c.w)] } }
    else s
  | none => s

/-- The packets that carry row `py` on the lanes of the used pairs that send (R358, R360-R362, R366). -/
def State.rowPackets (s : State) (py : Nat) (alive : BitVec 8) (payload : List Byte) : List (Nat × List Byte) :=
  (s.usedPairs.filter fun n => (vget s.pairs n).st == .aligned || (vget s.pairs n).st == .realign).flatMap fun n =>
    [2 * n, 2 * n + 1].map fun l => (l, lanePacket l alive.toNat false py ((payload.drop (768 * l)).take 768))

/-- The send line of row `py`: both units of R158 take the payload, which the lane packer may have altered, and the lanes send their
packets. The line leaves the buffer that held it. -/
def State.sendRow (s : State) (py : Nat) (corrupt : Option (Nat × Byte)) : State :=
  match s.rowPayload py with
  | none => s
  | some made =>
    let seen := corruptByte made corrupt
    let alive := if s.scan.clearing ∨ s.comp.sent then s.comp.laneAlive else s.alivePresent
    let s := if s.comp.sent then s else s.modOut fun o => { o with lane := o.scan }
    let s := s.captureLine py made
    { s with
      comp := { s.comp with
        crcMade := crc32cFeed s.comp.crcMade made, crcSeen := crc32cFeed s.comp.crcSeen seen, laneAlive := alive, sent := true }
      scan := { s.scan with sentRow := some py }
      out := { s.out with
        sent := seen, sentRow := py, packets := s.rowPackets py alive seen, lines := tabClear s.out.lines py (py + 1) } }

/-- The row-driver outputs of a line: `GSP` in line VBL + 1, `GCK` in the write line of row `py`, `GOE` there if the line before sent it
(R345, R346). -/
def State.rowOutputs (s : State) (line : Nat) (write : Option Nat) : State :=
  let on := s.pwr.st == .up && (match s.scan.st with | .holding => false | .entering => !s.scan.pastEntry | _ => true)
  if !on then s.rowsLow
  else
    s.modScan fun c =>
      { c with
        gsp := line == s.vbl + 1
        gckOld := c.gck
        gck := match write with | some py => BitVec.ofNat 4 (2 ^ (py % 4)) | none => 0
        goe := write.isSome && c.sentRow == write
        sentRow := none }

/-- `GSP`, `GCK[3:0]` and `GOE` at symbol `sym` of the line under way (R345). -/
def State.rowPins (s : State) (sym : Nat) : Bool × BitVec 4 × Bool :=
  let b := s.trim.boardUp
  (s.scan.gsp && decide (sym < b.gckRise + 8), if sym < b.gckRise then s.scan.gckOld else s.scan.gck,
    s.scan.goe && decide (b.goeOn ≤ sym ∧ sym < b.goeOff))

/-- The lanes of pairs in REALIGN send TRAIN blocks in the blanking of the period that starts (R370). -/
def State.trainPairs (s : State) : State :=
  { s with pairs := s.pairs.map fun x => if x.st = .realign then { x with trained := s.lanesRun } else x }

/-- A row update of SCANNING completes when the last of its rows has been sent (R353). -/
def State.finishUpdates (s : State) (py : Nat) : State :=
  let last := fun (r : RowReq) => r.active && !r.clear && r.hi == py
  if s.scan.st ≠ .scanning ∨ s.scan.clearing then s
  else
    let done := s.scan.reqs.filter last
    (s.modScan fun c => { c with reqs := c.reqs.filter fun r => !last r }).deliverAll (done.map (·.who)) 0

/-- `TG0_LINE_START`: the next line of the period. -/
def execTg0LineStart (corrupt : Option (Nat × Byte)) (s : State) : Answer :=
  let line := s.tg0.line + 1
  if !(s.tgRuns 0) ∨ s.tg0Lines ≤ line then .next s
  else
    let sym := s.tg0.sym + if line = 1 then s.tg0.line0 else s.lineSym
    let s := (s.modTg0 fun g => { g with line := line, sym := sym }).lineStarts 0 line
    let s := s.rowOutputs line (if s.vbl + 1 ≤ line then some (line - s.vbl - 1) else none)
    if line < s.vbl then .next s
    else
      let py := line - s.vbl
      let s := s.modScan fun c => { c with activeBegun := true }
      .next (if s.rowSent py then (s.sendRow py corrupt).finishUpdates py
        else s.modOut fun o => { o with lines := tabClear o.lines py (py + 1) })

/-! ### Clearing periods (R383) -/

/-- A clearing period starts: 8 blanking lines and the rows of the panel, of 800 symbol times each, with no plan in force; row `last` was
sent in the line before. -/
def State.startClearing (s : State) (last : Option Nat) : State :=
  let s := s.modTg0 fun g => { g with running := true, line := 0, sym := 0, line0 := 800, noFrame := false }
  let s := s.modScan fun c => { c with clearing := true, activeBegun := false, reqs := c.reqs.map fun r => { r with active := true } }
  (s.rowOutputs 0 last).trainPairs

/-- `PCLEAR`: rows RA to RB (R269, R383). -/
def execPclear (t : Tid) (w : IWord) (s : State) : Answer :=
  .next (s.issue t 1 fun s =>
    let ra := ((s.thread t).reg w.ra).toNat
    let rb := ((s.thread t).reg w.rb).toNat
    let last := if rb = 0xFFFF then s.rowsH - 1 else rb
    s.startUnit t (.pclear t w) { units := [.panel], writes := [.rows ra (last + 1)] } fun s =>
      if s.pwr.st ≠ .up ∨ s.emitEn then s.fault t .state 0x13
      else
        let rb := if rb = 0xFFFF then s.rowsH - 1 else rb
        if s.rowsH ≤ rb ∨ rb < ra then s.fault t .state 0x20
        else
          let s := (s.toUnit t w none).rowRequest { lo := ra, hi := rb, clear := true, who := .thread t }
          if s.plan?.isNone ∧ !s.scan.clearing then s.startClearing none else s)


/-! ### Scan-out fetch and frame addresses (R174-R176, R347, R348) -/

/-- The plan whose line `fetchLine` is due: in the period under way, or ahead of the next one where its VBL is below 32. A period that sends
no frame has no fetch (R201, R347). -/
def State.fetchPlan (s : State) : Option Plan :=
  let py := s.out.fetchLine
  match s.plan.cur with
  | none => none
  | some c =>
    if c.plan.outMode ≠ 1 ∨ !(s.tgRuns 0) then none
    else if s.out.fetchOf ≤ s.out.count then
      if !s.tg0.noFrame && decide (c.plan.vbl + py ≤ s.tg0.line + 32) then some c.plan else none
    else
      match s.plan.next with
      | some g =>
        if g.plan.outMode == 1 && !s.tg0.stepNext && decide (s.tg0Lines + g.plan.vbl + py ≤ s.tg0.line + 32) then some g.plan else none
      | none => none

/-- The frame that the fetch under way presents: that of the period before its own (R175). -/
def State.fetchFrame (s : State) : Nat := if s.out.fetchOf ≤ s.out.count then s.out.prevFrame else s.wallFrame

/-- Scan-out starts on a slot: that of its frame, or the last one completely written again, with FS_REPEAT and its record (R175, R176). -/
def State.chooseSlot (s : State) : Option State :=
  let full := s.out.slots.filter (·.full)
  match full.find? fun e => e.frame == s.fetchFrame, full with
  | some e, _ => some (s.modOut fun o => { o with scan := e })
  | none, [] => none
  | none, e :: r =>
    let best := r.foldl (fun a b => if a.frame < b.frame then b else a) e
    let c := s.plan.status
    let s := { s.modOut fun o => { o with scan := best } with plan := { s.plan with status := { c with fsRepeat := c.fsRepeat.bump } } }
    some (s.report 0x0704 0x1C (best.slot % 4))

/-- Scan-out starts at the pinned offset: the frame of the slot there, or codes of no frame, whose alive count is free (R348; DESIGN CHOICE,
log 10). -/
def State.choosePin (s : State) (p : Plan) (off : Nat) : State :=
  match s.out.slots.find? fun e => e.full && e.buf == p.fsBuf && e.slot * fsPitch e.w * e.h == off with
  | some e => s.modOut fun o => { o with scan := e }
  | none =>
    let (s, v) := s.freshValue
    s.modOut fun o => { o with scan := { buf := p.fsBuf, w := p.width, h := p.height, alive := v.setWidth 8, full := true } }

/-- Two governing plans are one use of one plan. -/
def Gov.same (a b : Gov) : Bool := a.kind == b.kind && a.prim == b.prim && a.slot == b.slot && a.plan == b.plan

/-- The pinned offset, as far as the period whose lines are fetched goes: a plan that comes into force ends the pin (R348). -/
def State.fetchPin (s : State) : Option Nat :=
  if s.out.fetchOf ≤ s.out.count || s.plan.next.any (fun n => s.plan.cur.any n.same) then s.out.pin else none

/-- The frame that a fetch of line 0 reads. -/
def State.startFetch (s : State) (p : Plan) : Option State :=
  match s.fetchPin with
  | some off => some (s.choosePin p off)
  | none => s.chooseSlot

/-- Where line `py` is read: handle, offset, panel width (R174, R199, R348). -/
def State.linePlace (s : State) (p : Plan) (py : Nat) : Nat × Nat × Nat :=
  match s.out.fetchAt, s.fetchPin with
  | some x, _ => x
  | none, some a => (p.fsBuf, a + py * fsPitch p.width, p.width)
  | none, none =>
    let f := s.out.scan
    (f.buf, (f.slot * f.h + py) * fsPitch f.w, f.w)

/-! ### Reads of the frame pipeline in the scoreboard (R228) -/

/-- The operations before the read `key` of the pipeline, all where it is not registered. -/
def State.beforePipe (s : State) (key : Nat × Nat) : List SbOp := s.sboard.takeWhile (·.pipe != some key)

/-- An earlier-issued write overlaps a range of a buffer that the pipeline reads: the thread that issued the earliest. -/
def State.pendingWrite (s : State) (key : Nat × Nat) (h off n : Nat) : Option Tid :=
  ((s.beforePipe key).find? fun o => o.writes.any fun r => r.overlaps (.ofBytes h off n)).map (·.thread)

/-- A read that has begun and must wait is registered: writes issued from now on wait for it. -/
def State.holdPipe (s : State) (key : Nat × Nat) (h off n : Nat) : State :=
  if s.sboard.any (·.pipe == some key) then s
  else
    { s with
      sboard := s.sboard ++ [{ op := s.nextOp, thread := 0, sync := false, reads := [.ofBytes h off n], pipe := some key }]
      nextOp := s.nextOp + 1 }

/-- A read of the pipeline is done. -/
def State.endPipe (s : State) (key : Nat × Nat) : State := { s with sboard := s.sboard.filter (·.pipe != some key) }

/-- Move on to the next line to fetch: of this frame, or line 0 of the next. -/
def OutPath.nextFetch (o : OutPath) (height : Nat) : OutPath :=
  if o.fetchLine + 1 < height then { o with fetchLine := o.fetchLine + 1, fetchAt := none }
  else { o with fetchLine := 0, fetchOf := max o.fetchOf o.count + 1, fetchAt := none }

/-- Fetch line `py` of the frame store: its codes, or free values where the line reads uncorrectable (R11; DESIGN CHOICE, log 10). -/
def State.fetchLine (s : State) (p : Plan) (py : Nat) : State :=
  let (h, off, w) := s.linePlace p py
  let (s, data) := match s.buf? h with
    | some b => s.readBuf b off (fsPitch w) 0
    | none => (s, none)
  let (s, codes) := match data with
    | some d => (s, (unpackCodes d).take (3 * w))
    | none => let (s, v) := s.freshValues (3 * w); (s, v.map fun (u : BitVec 64) => u.toNat % 4096)
  (s.modOut fun o => { o with lines := tabPut o.lines py codes }.nextFetch p.height).endPipe (8, py)

/-- A frame of a store with fewer lines than the plan has no line `py`. -/
def State.noLine (s : State) (py : Nat) : Bool := s.fetchPin.isNone && s.out.fetchAt.isNone && decide (s.out.scan.h ≤ py)

/-- The fetch of the next line begins; `force` lets it proceed despite a pending write, with SB_TORN and record 0x0909 (R228). -/
def State.beginFetch (s : State) (force : Bool) : State :=
  match s.fetchPlan with
  | none => s
  | some p =>
    let py := s.out.fetchLine
    match (if py = 0 ∧ s.out.fetchAt.isNone then s.startFetch p else some s) with
    | none => s
    | some s' =>
      if s'.noLine py then (if force then s else s'.modOut fun o => o.nextFetch p.height)
      else
        let (h, off, w) := s'.linePlace p py
        match s'.pendingWrite (8, py) h off (fsPitch w) with
        | none => if force then s else s'.fetchLine p py
        | some t =>
          if force then
            let c := s'.plan.status
            let s' := { s' with plan := { s'.plan with status := { c with sbTorn := c.sbTorn.bump } } }
            (s'.report 0x0909 0x11 (t.val * 2 ^ 40 + 8 * 2 ^ 32 + h % 4096 * 2 ^ 20 + py)).fetchLine p py
          else (s'.modOut fun o => { o with fetchAt := some (h, off, w) }).holdPipe (8, py) h off (fsPitch w)

/-- `SCANOUT_LINE_FETCH`: STORED mode; a fetch that overlaps an earlier-issued write waits (R228, R347). -/
def execScanoutLineFetch (s : State) : Answer := .next (s.beginFetch false)

/-- The first line whose fetch has not begun: 65536 for line 0 of the next frame (R272, R348). -/
def State.nextFetchLine (s : State) (p : Plan) : Nat :=
  let py := s.out.fetchLine + s.out.fetchAt.isSome.toNat
  if py = 0 ∨ p.height ≤ py then 65536 else py

/-- `TGADDR`: RA the buffer, RB the offset; RC says from which line it applies (R272, R348). -/
def execTgaddr (t : Tid) (w : IWord) (s : State) : Answer :=
  .next (s.issue t 1 fun s => s.orFault t do
    let h := handleOf ((s.thread t).reg w.ra)
    let off := (s.thread t).reg w.rb
    let _ ← s.checkHandle t h
    return s.startUnit t (.tgaddr t w) { units := [.tg 0], handles := [h] } fun s => s.orFault t do
      let p := s.plan?.getD {}
      need (s.plan?.isSome && p.outMode == 1 && p.fsBuf == h) 0x25
      let len := match s.buf? h with | some b => b.len | none => 0
      let off? := if off = BitVec.allOnes 64 then none else some off.toNat
      match off? with
      | none => pure ()
      | some o =>
        need (o % 64 == 0) 0x20
        need (o + fsPitch p.width * p.height ≤ len) 0x22
      let py := s.nextFetchLine p
      let back := s.out.pin.isSome && off?.isNone && py != 65536
      let s := s.modOut fun o => { o with pin := off? }
      let s := if back then s.chooseSlot.getD s else s
      return s.toUnit t w (some (.codeRc 0 py)))

/-! ### `REF_IN` and the discipline of TG0 (R340-R344) -/

/-- TG0 loses its source: HOLDOVER on the corrections of the last 16 periods, with the record of the cause (R340, R343). -/
def State.tg0Lose (s : State) (code info : Nat) : State :=
  match s.tg0.st with
  | .acquiring | .locked => ((s.modTg0 fun g => { g with held := g.hist.sum }).setDisc .holdover).report code 0x28 info
  | _ => s

/-- TG0's source is valid again. -/
def State.tg0Regain (s : State) : State :=
  if s.tg0.st = .holdover then (s.setDisc .acquiring).report 0x0E02 0x28 (s.tg0.refK * 2 ^ 32) else s

/-- Change TG1 (false) or TG2. -/
def State.modTg (s : State) (g : Bool) (f : Tg → Tg) : State := if g then { s with tg2 := f s.tg2 } else { s with tg1 := f s.tg1 }

/-- TG1 or TG2. -/
def State.tg (s : State) (g : Bool) : Tg := if g then s.tg2 else s.tg1

/-- A generator in mode 2 loses `REF_IN`. -/
def State.tgLose (s : State) (g : Bool) (interval : Nat) : State :=
  let x := s.tg g
  if x.set.mode = 2 ∧ x.st ≠ .holdover ∧ x.st ≠ .free then
    (s.modTg g fun x => { x with st := .holdover }).report 0x0E01 0x28 ((g.toNat + 1) * 2 ^ 40 + interval % 2 ^ 32)
  else s

/-- `REF_IN` is not valid any more: TG0 and the generators that follow it go to HOLDOVER. T_ref stays what it was (R355). -/
def State.refInvalid (s : State) (interval : Nat) : State :=
  let s := s.modTg0 fun g => { g with refValid := false, refK := 0 }
  let s := if s.tg0.src = 1 then s.tg0Lose 0x0E01 (interval % 2 ^ 32) else s
  (s.tgLose false interval).tgLose true interval

/-- `REF_IN` is lost or changes its rate (R342). -/
def State.refLost (s : State) (interval : Nat) : State :=
  (s.modTg0 fun g => { g with ivals := [], refLoss := g.refLoss.bump }).refInvalid interval

/-- A generator in mode 2 has a valid `REF_IN` again. -/
def State.tgRegain (s : State) (g : Bool) : State :=
  let x := s.tg g
  if x.set.mode ≠ 2 then s
  else
    let back := x.st == .holdover
    let s := s.modTg g fun x => { x with st := .locked }
    if back then s.report 0x0E02 0x28 ((g.toNat + 1) * 2 ^ 40 + s.tg0.refK * 2 ^ 32) else s

/-- Sixteen intervals agree, and their mean is k frame periods: 16 times T_ref, and k (R342). -/
def refMatch (p : Plan) (l : List Nat) : Option (Nat × Nat) :=
  let sum := l.sum
  if l.length < 16 ∨ !(l.all fun x => (16 * x - sum) * 256 ≤ sum && (sum - 16 * x) * 256 ≤ sum) then none
  else
    let tf := 16 * 1600000000 * p.rateDen
    let m := sum * p.rateNum
    (([1, 2, 3, 4, 5, 6, 7, 8] : List Nat).find? fun k => (m - k * tf) * 256 ≤ k * tf && (k * tf - m) * 256 ≤ k * tf).map fun k => (sum, k)

/-- `REF_IN` is valid for a plan (R342). -/
def State.refFound (s : State) (t k : Nat) : State :=
  let s := s.modTg0 fun g => { g with refValid := true, tRef := t, refK := k }
  let s := if s.tg0.src = 1 then s.tg0Regain else s
  (s.tgRegain false).tgRegain true

/-- The intervals are judged against the frame period of a plan that comes into force (R342). -/
def State.judgeRef (s : State) (p : Plan) : State :=
  match refMatch p s.tg0.ivals with
  | some (t, k) => if s.tg0.refValid then s.modTg0 fun g => { g with tRef := t, refK := k } else s.refFound t k
  | none => if s.tg0.refValid then s.refInvalid (s.tg0.ivals.headD 0) else s

/-- `REF_IN_EDGE`. -/
def execRefInEdge (interval : Nat) (s : State) : Answer :=
  let g := s.tg0
  if s.therm.tripped ∨ s.safe then .next s
  else if g.refValid then
    if 128 * interval < g.tRef then .next (s.modTg0 fun g => { g with refGlitch := g.refGlitch.bump })
    else if (16 * interval - g.tRef) * 256 ≤ g.tRef ∧ (g.tRef - 16 * interval) * 256 ≤ g.tRef then
      .next (s.modTg0 fun g => { g with ivals := (interval :: g.ivals).take 16 })
    else .next (s.refLost interval)
  else
    let l := (interval :: g.ivals).take 16
    let s := s.modTg0 fun g => { g with ivals := l }
    match s.plan?.bind fun p => refMatch p l with
    | some (t, k) => .next (s.refFound t k)
    | none => .next s

/-- `REF_IN_LOSS`: no accepted edge within 2·T_ref. -/
def execRefInLoss (interval : Nat) (s : State) : Answer :=
  if s.therm.tripped ∨ s.safe ∨ !s.tg0.refValid ∨ 8 * interval < s.tg0.tRef then .next s else .next (s.refLost interval)

/-- The source of TG0 is valid and measured at this period (R341, R342). -/
def State.tg0Measured (s : State) : Bool :=
  match s.tg0.src with
  | 0 => s.ftLocked
  | 1 => s.tg0.refValid && s.tg0.period % s.tg0.refK == 0
  | _ => false

/-- The correction in HOLDOVER: the average of the last 16 before the loss, held to 1/16 symbol time (R343). -/
def Tg0.heldCorr (g : Tg0) : Int := ((g.settled : Int) + 1) * g.held / 16 - (g.settled : Int) * g.held / 16

/-- The correction of a period, remembered among the last 16 (R343). -/
def Tg0.apply (g : Tg0) (c : Int) : Tg0 := { g with corr := c, hist := (c :: g.hist).take 16 }

/-- Discipline at a period start with phase error `err` (positive is late) in a period of `len` symbol times (R341, R343). -/
def State.discipline (s : State) (err : Int) (len : Nat) : State :=
  match s.tg0.st with
  | .free => s.modTg0 fun g => g.apply 0
  | .holdover => s.modTg0 fun g => { g.apply g.heldCorr with settled := g.settled + 1 }
  | st =>
    if !s.tg0Measured then s.modTg0 fun g => g.apply 0
    else if s.lineSym < err.natAbs then
      let add : Int := -err % (len : Int)
      let s := s.modTg0 fun g =>
        { g.apply 0 with phaseErr := err, corr := add, stepNext := true, settled := 0, phaseSteps := g.phaseSteps.bump }
      s.report 0x0E04 0x28 (add.toNat % 2 ^ 32)
    else
      let c := -(clampInt err (-64) 64)
      let s := s.modTg0 fun g =>
        { g.apply c with phaseErr := err, settled := if err.natAbs ≤ 16 then g.settled + 1 else 0 }
      if st = .acquiring ∧ 16 ≤ s.tg0.settled then s.setDisc .locked else s

/-! ### TG1 and TG2 (R338, R354, R355) -/

/-- The block of `TGSET` (Table 14-5). -/
def tgSetOf (b : List Byte) : TgSet :=
  { mode := fieldAt b 0 1, pol := (fieldAt b 1 1).testBit 0, lines := fieldAt b 2 2, lsym := fieldAt b 4 2, rm := fieldAt b 6 2
    rn := fieldAt b 8 2, pline := fieldAt b 10 2, plen := fieldAt b 12 2, offset := fieldAt b 16 8 }

/-- The source period of a setting as a fraction of symbol times: none in mode 3, and where the source is not known. A `REF_IN` that is lost
keeps its last period (R355). -/
def State.tgSource (s : State) (x : TgSet) : Option (Nat × Nat) :=
  match x.mode with
  | 1 => s.plan?.map fun p => (1600000000 * p.rateDen, p.rateNum)
  | 2 => if s.tg0.tRef ≠ 0 then some (s.tg0.tRef, 16) else none
  | _ => none

/-- The shortest frame period of a generator, in symbol times. -/
def State.tgPeriod (s : State) (x : TgSet) : Nat :=
  match s.tgSource x with
  | some (a, b) => a * x.rn / (b * x.rm)
  | none => x.lines * x.lsym

/-- The fields of a block are in range; reserved ones are ignored (R7, R354, R355). -/
def State.tgSetOk (s : State) (b : List Byte) : Bool :=
  let x := tgSetOf b
  x.mode ≤ 3 && 2 ≤ x.lines && 64 ≤ x.lsym
    && (x.mode == 3 || (1 ≤ x.rm && x.rm ≤ 16 && 1 ≤ x.rn && x.rn ≤ 16))
    && x.pline < x.lines && 1 ≤ x.plen && x.plen < x.lines
    && x.lines * x.lsym ≤ s.tgPeriod x
    && (match s.tgSource x with | some (p, q) => x.offset * q < p | none => x.mode != 3 || x.offset < x.lines * x.lsym)

/-- The level of SYNC_OUT in a line: low when OFF (Table 14-5). -/
def TgSet.level (x : TgSet) (line : Nat) : Bool :=
  x.mode != 0 && xor x.pol (decide ((line + x.lines - x.pline) % x.lines < x.plen))

/-- A setting in force. -/
def Tg.take (g : Tg) (x : TgSet) (valid : Bool) : Tg :=
  { g with set := x, staged := none, who := .nobody, sym := 0, line := 0, starts := 0, out := x.level 0
           st := match x.mode with | 1 => .locked | 2 => if valid then .locked else .acquiring | _ => .free }

/-- `TGSET`: FN[1:0] names the generator (R271, R354). -/
def execTgset (t : Tid) (w : IWord) (s : State) : Answer :=
  .next (s.issueBlock t w fun s =>
    let n := w.fn.toNat % 4
    let b := w.block (s.thread t) 32
    if n = 0 then s.fault t .state 0x24
    else if n = 3 then s.fault t .state 0x20
    else
      s.startUnit t (.tgset t w) { units := [.tg n] } fun s =>
        if !(s.tgSetOk b) then s.fault t .state 0x20
        else s.hostOrder t .tgDiscipline 0x68 fun s =>
          let x := tgSetOf b
          if x.mode = 0 then (s.modTg (n == 2) fun g => g.take x false).toUnit t w (some (.code 0))
          else (s.modTg (n == 2) fun g => { g with staged := some x, who := .thread t }).toUnit t w none)

/-- Frame start number `k` of a setting may happen now. In mode 1 each RN-th start that falls on a period of the source comes OFFSET symbol
times after the start of TG0's period, thus in the line that holds that moment; in HOLDING no line tells (R355; DEDUCED, log 38). -/
def State.startsNow (s : State) (x : TgSet) (k : Nat) : Bool :=
  x.mode != 1 || k % x.rn != 0 || k * x.rn % x.rm != 0 || !s.tgRuns 0
    || decide (s.tg0.sym ≤ x.offset ∧ x.offset < s.tg0.sym + if s.tg0.line = 0 then s.tg0.line0 else s.lineSym)

/-- `TG_FRAME_START`: a frame of TG1 or TG2 starts, with a staged setting if there is one. -/
def execTgFrameStart (g : Bool) (s : State) : Answer :=
  if s.therm.tripped ∨ s.safe then .next s
  else
    let x := s.tg g
    let i : Fin 3 := if g then 2 else 1
    match x.staged with
    | some y =>
      if x.set.mode = 0 ∧ !s.startsNow y 0 then .next s
      else .next (((s.modTg g fun x => x.take y s.tg0.refValid).deliver x.who (.code 0)).lineStarts i 0)
    | none =>
      if x.set.mode = 0 ∨ !s.startsNow x.set (x.starts + 1) then .next s
      else .next ((s.modTg g fun x => { x with sym := 0, line := 0, starts := x.starts + 1, out := x.set.level 0 }).lineStarts i 0)

/-- TG1 or TG2 counts `n` more symbol times within its frame: the lines that begin (R355). -/
def State.tgCount (s : State) (g : Bool) (n : Nat) : State :=
  let x := s.tg g
  if x.set.mode = 0 then s
  else
    let first := x.set.lsym + (s.tgPeriod x.set - x.set.lines * x.set.lsym)
    let sym := x.sym + n
    let line := if sym < first then 0 else min (x.set.lines - 1) (1 + (sym - first) / x.set.lsym)
    let i : Fin 3 := if g then 2 else 1
    let s := (List.range (line - x.line)).foldl (fun s k => s.lineStarts i (x.line + 1 + k)) s
    s.modTg g fun x => { x with sym := sym, line := line, out := x.set.level line }

/-- `SYNC_OUT` inactive: the trip and the chip safe state (R355, R532). -/
def State.syncOff (s : State) : State :=
  { s with tg1 := { s.tg1 with out := s.tg1.set.inactive }, tg2 := { s.tg2 with out := s.tg2.set.inactive } }

/-- A phase error in the 16 bits that report it: an error beyond them saturates (R4, R344, R356; DESIGN CHOICE, log 38). -/
def Tg0.errField (g : Tg0) : Nat := wrapInt 16 (clampInt g.phaseErr (-32768) 32767)

/-- TG_STATUS (Table 14-3); PHASE_ERR saturates (DESIGN CHOICE, log 38). -/
def State.tgStatus (s : State) : Nat :=
  let scan := match s.scan.st with | .scanning => 0 | .entering => 1 | .holding => 2 | .updating => 3 | .exiting => 4
  let st := match s.tg0.st with | .free => 0 | .acquiring => 1 | .locked => 2 | .holdover => 3
  s.tg0.errField * 65536 + s.tg0.refK * 4096 + scan * 512 + st * 16 + s.tg0.src % 4 * 4
    + s.tg0.refValid.toNat * 2 + s.ftLocked.toNat

end Sys2Proof.Machine
end

