-- ==== Sys2Proof/Machine/Synthesis.lean ====
section
/-! DEFINITION. The layer rings, the cull pass, the graphic line store, and cell faults (R102, R111-R117, R124, R126-R133, R145,
R146, R228). -/

namespace Sys2Proof.Machine

/-! ### The frame in composition -/

/-- The plan whose frame the galleries compose: none in CACHE mode, in HOLDING, while TG0 does not run (R177, R352). -/
def State.composing (s : State) : Option Gov :=
  if s.tgRuns 0 then s.plan.cur.filter fun g => g.plan.outMode != 2 else none

/-- Change synthesis. -/
def State.modSynth (s : State) (f : Synth → Synth) : State := { s with synth := f s.synth }

/-- Change the plan status. -/
def State.modStatus (s : State) (f : PlanStatus → PlanStatus) : State := { s with plan := { s.plan with status := f s.plan.status } }

/-! ### Reads that mark what stays uncorrectable (R11, R316) -/

/-- Read `n` bytes at offset `off` of a buffer; an uncorrectable burst is read again once, which finds it so again. The bytes, and the
byte ranges of those bursts relative to `off` (R117, R146, R157, R172). -/
def State.readMarked (s : State) (b : Buf) (off n port : Nat) : State × List Byte × List (Nat × Nat) :=
  let pa := b.base + off
  let (s, data, bad) := s.readMarks pa n port
  (bad.foldl (fun (s : State) a => (s.dramRequest port a 64 false).meetBurst a) s, data, bad.map fun a => (a - pa, a + 64 - pa))

/-- A range of bytes touches one of the marked ranges. -/
def marked (bad : List (Nat × Nat)) (lo n : Nat) : Bool := bad.any fun r => decide (r.1 < lo + n ∧ lo < r.2)

/-! ### Ring fill (R111, R115-R117) -/

/-- The line that `RING_FILL_LINE` writes next for layer `k`, if R115 lets it enter now: within the window of the lowest hogel row that
a gallery has not finished, into a slot whose line is no longer needed. -/
def State.ringNext (s : State) (p : Plan) (k : Nat) : Option Nat :=
  let e := p.layer k
  let rt := vget s.layers k
  let open' := ((s.synth.places.zip s.synth.done).filter fun x => x.1.isSome).map (·.2)
  match open' with
  | [] => none
  | d :: r =>
    let m := r.foldl min d
    let y := vget s.synth.nextLine k
    let last := if m + 1 < p.nhy then m + 1 else m
    let held := (vget s.synth.rings k).find? fun l => l.line % p.ringLines k == y % p.ringLines k
    if e.en ∧ !rt.clear ∧ m < p.nhy ∧ y < e.h ∧ y ≤ clampLine (p.window rt.geo last).2 e.h
        ∧ held.all (fun l => decide (l.line < clampLine (p.window rt.geo m).1 e.h)) then some y
    else none

/-- Tile columns of a line of layer `k` that the cull pass found not needed (R129). -/
def State.culledCols (s : State) (k w y : Nat) : List Nat :=
  (((tabFind s.synth.cullTiles k).getD []).filter fun t => t / tilesX w == y / 32).map (· % tilesX w)

/-- Read the segments of a line: the bytes of the line, and the columns that take (0, 0, 0, 0). -/
def State.readSegments (s : State) (b : Buf) (off w port : Nat) (skip ue : List Nat) : State × List Byte × List Nat :=
  (List.range (tilesX w)).foldl (fun (a : State × List Byte × List Nat) c =>
    let n := ceilDiv (6 * (min (32 * c + 32) w - 32 * c)) 64 * 64
    if skip.contains c then (a.1, a.2.1 ++ List.replicate n 0, a.2.2)
    else
      let (s, data, bad) := a.1.readMarked b (off + 192 * c) n port
      (s, a.2.1 ++ data, if bad ≠ [] ∨ ue.contains c then a.2.2 ++ [c] else a.2.2)) (s, [], [])

/-- A segment whose samples are zero for the rest of the frame: record 0x0501 and RING_UE (R117). -/
def State.segmentLost (s : State) (k y c : Nat) : State :=
  (s.report 0x0501 0x19 (k * 2 ^ 24 + y * 2 ^ 12 + c)).modStatus fun x => { x with ringUe := x.ringUe.bump }

/-- `RING_FILL_LINE`: the next line of a layer enters its ring whole but for culled segments (R111, R115, R117, R129). -/
def execRingFillLine (layer : Fin 64) (ue : List Nat) (s : State) : Answer :=
  let k := layer.val
  .next (
    match s.composing with
    | none => s
    | some g =>
      let p := g.plan
      match s.ringNext p k with
      | none => s
      | some y =>
        let e := p.layer k
        let rt := vget s.layers k
        let s := if y = 0 ∧ !s.synth.culled then s.modStatus fun c => { c with cullLate := c.cullLate.bump } else s
        let skip := s.culledCols k e.w y
        let (s, data, zeroed) := match s.buf? rt.buf with
          | some b => s.readSegments b ((if rt.half then halfLen e.w e.h else 0) + y * layerPitch e.w) e.w (k % 4 + 2) skip ue
          | none => (s, [], [])
        let s := zeroed.foldl (fun (s : State) c => s.segmentLost k y c) s
        let line : RingLine := { line := y, data := data, zeroed := zeroed, culled := skip }
        s.modSynth fun z => { z with
          rings := vmodN z.rings k fun l => line :: l.filter fun x => x.line % p.ringLines k != y % p.ringLines k
          nextLine := vmodN z.nextLine k fun n => n + 1 })

/-- A word of ring storage is uncorrectable as a gallery reads it: its segment is read again from DRAM, and its samples are zero where that
does not give them either (R117). -/
def State.ringLost (s : State) (p : Plan) (k y c : Nat) : State :=
  let e := p.layer k
  let rt := vget s.layers k
  match (vget s.synth.rings k).find? (·.line == y), s.buf? rt.buf with
  | some l, some b =>
    if tilesX e.w ≤ c ∨ l.zeroed.contains c ∨ l.culled.contains c then s
    else
      let off := (if rt.half then halfLen e.w e.h else 0) + y * layerPitch e.w + 192 * c
      let n := ceilDiv (6 * (min (32 * c + 32) e.w - 32 * c)) 64 * 64
      let (s, _, _) := s.readMarked b off n (k % 4 + 2)
      (s.segmentLost k y c).modSynth fun z => { z with
        rings := vmodN z.rings k fun r => r.map fun x => if x.line = y then { x with zeroed := x.zeroed ++ [c] } else x }
  | _, _ => s

/-! ### The cull pass (R126-R130) -/

/-- The integer extent of a footprint box on one axis: columns or rows `a` and `b` of the block, tangents `r` (R127). -/
def boxAxis (s : Nat) (o d : Int) (r : Int × Int) (a b : Nat) : Int × Int :=
  let l := [a, b].flatMap fun h => [layerInt s o d r.1 h, layerInt s o d r.2 h]
  ((extremes l).1 - 3, (extremes l).2 + 4)

/-- A footprint box: x from, x to, y from, y to. -/
abbrev Box := Int × Int × Int × Int

/-- The footprint box of block (bx, by) on a layer with values `g` (R127). -/
def Plan.box (p : Plan) (g : Geo) (bx by' : Nat) : Box :=
  let (x0, x1) := boxAxis g.s g.ox g.d p.txRange (8 * bx) (min (8 * bx + 7) (p.nhx - 1))
  let (y0, y1) := boxAxis g.s g.oy g.d p.tyRange (8 * by') (min (8 * by' + 7) (p.nhy - 1))
  (x0, x1, y0, y1)

/-- The tiles that a box touches in an image of w × h (R129): under CLAMP the box is clamped first. -/
def boxTiles (edge : Bool) (w h : Nat) (b : Box) : List Nat :=
  let (x0, x1, y0, y1) := b
  let inX := edge || (decide (0 ≤ x1) && decide (x0 < (w : Int)))
  let inY := edge || (decide (0 ≤ y1) && decide (y0 < (h : Int)))
  if inX && inY then
    let c0 := clampLine x0 w / 32
    let c1 := clampLine x1 w / 32
    let r0 := clampLine y0 h / 32
    let r1 := clampLine y1 h / 32
    (List.range (r1 + 1 - r0)).flatMap fun r => (List.range (c1 + 1 - c0)).map fun c => (r0 + r) * tilesX w + (c0 + c)
  else []

/-- The tile map byte of tile `t` of the image that layer `k` presents; 0 for a static layer, and for a byte that reads uncorrectable
(R78, R191). -/
def State.tileMap (s : State) (e : LayerEntry) (rt : LayerRt) (t : Nat) : Byte :=
  match (if e.fed then s.buf? rt.buf else none) with
  | some b =>
    let a := b.base + (if rt.half then halfLen e.w e.h else 0) + mapOffset e.w e.h + t
    if s.dram.unreadable a then 0 else Memory.read s.mem a
  | none => 0

/-- A block with this box is occluded at layer `k` (R128). -/
def State.occluded (s : State) (p : Plan) (k : Nat) (b : Box) : Bool :=
  let e := p.layer k
  let rt := vget s.layers k
  let tiles := boxTiles e.edge e.w e.h b
  let (x0, x1, y0, y1) := b
  let inside := decide (0 ≤ x0) && decide (x1 < (e.w : Int)) && decide (0 ≤ y0) && decide (y1 < (e.h : Int))
  let cols := (tiles.map (· % tilesX e.w)).eraseDups.length
  let rows := (tiles.map (· / tilesX e.w)).eraseDups.length
  !rt.clear && (vget s.synth.banks e.bankX).cullSafe && (vget s.synth.banks e.bankY).cullSafe && (e.edge || inside)
    && cols ≤ 4 && rows ≤ 4 && tiles.all fun t => (s.tileMap e rt t).getLsbD 0

/-- Z(B): the smallest layer at which the block is occluded, 64 when none (R128). -/
def State.zOf (s : State) (p : Plan) (bx by' : Nat) : Nat :=
  (p.enabled.find? fun j => s.occluded p j (p.box (vget s.layers j).geo bx by')).getD 64

/-- The tiles of layer `k` that are not needed, ascending (R129). -/
def State.culledTiles (s : State) (p : Plan) (z : List (Nat × Nat × Nat)) (k : Nat) : List Nat :=
  let e := p.layer k
  let need := (z.filter fun b => k ≤ b.2.2).flatMap fun b => boxTiles e.edge e.w e.h (p.box (vget s.layers k).geo b.1 b.2.1)
  (List.range (tilesX e.w * tilesY e.h)).filter fun t => !need.contains t

/-- Every 8 × 8 block of hogels with its Z. -/
def State.blocks (s : State) (p : Plan) : List (Nat × Nat × Nat) :=
  (List.range (ceilDiv p.nhy 8)).flatMap fun by' => (List.range (ceilDiv p.nhx 8)).map fun bx => (bx, by', s.zOf p bx by')

/-! ### The graphic line store (R145, R146, R228) -/

/-- The image row of graphic layer `e` for hogel row `h`, if the image covers it. -/
def GfxEntry.row (e : GfxEntry) (h : Nat) : Option Nat :=
  let r : Int := (h : Int) - e.y0
  if 0 ≤ r ∧ r < (e.h : Int) then some r.toNat else none

/-- The row of layer `g` for hogel row `h` is in the line store, or none is needed. -/
def State.gfxHeld (s : State) (p : Plan) (g h : Nat) : Bool :=
  ((p.gfxLayer g).row h).isNone || s.comp.gfxLine.any fun l => l.1 == g && l.2.1 == h

/-- A read of that row waits for a thread's write (R228). -/
def State.gfxBlocked (s : State) (p : Plan) (g h : Nat) : Option Tid :=
  let e := p.gfxLayer g
  match e.row h with
  | some r => s.pendingWrite (g, h) e.buf (r * e.pitch) e.rowBytes
  | none => none

/-- A read of that row that has begun and waits is registered (R228). -/
def State.holdGfx (s : State) (p : Plan) (g h : Nat) : State :=
  let e := p.gfxLayer g
  match e.row h with
  | some r => s.holdPipe (g, h) e.buf (r * e.pitch) e.rowBytes
  | none => s

/-- Read the row of layer `g` for hogel row `h`; rows already released leave the store. -/
def State.readGfx (s : State) (p : Plan) (g h : Nat) : State :=
  let e := p.gfxLayer g
  match e.row h, s.buf? e.buf with
  | some r, some b =>
    let (s, data, bad) := s.readMarked b (r * e.pitch) e.rowBytes (g % 4 + 2)
    let s := bad.foldl (fun (s : State) _ =>
      (s.report 0x0605 0x1B (g * 2 ^ 24 + h)).modStatus fun c => { c with gfxUe := c.gfxUe.bump }) s
    let s := s.endPipe (g, h)
    { s with comp := { s.comp with gfxLine := (s.comp.gfxLine.filter fun l => s.out.nextRow ≤ l.2.1) ++ [(g, h, data, bad)] } }
  | _, _ => s

/-- The reads of the rows of hogel row `h` that are not in the store begin; those that a pending write holds up wait. -/
def State.readGfxRow (s : State) (p : Plan) (h : Nat) : State :=
  if p.nhy ≤ h then s
  else p.gfxOn.foldl (fun (s : State) g =>
    if s.gfxHeld p g h then s else if (s.gfxBlocked p g h).isSome then s.holdGfx p g h else s.readGfx p g h) s

/-- The hogel row whose graphic rows are needed next: the lowest that an assigned gallery has not started. -/
def State.needRow (s : State) : Nat :=
  match ((s.synth.places.zip s.synth.done).filter fun x => x.1.isSome).map (·.2) with
  | [] => s.out.nextRow
  | d :: r => r.foldl min d

/-- `CULL_PASS_START`: once a frame, with the graphic rows of hogel row 0. A layer whose ring has already read a line is not culled
(R130). -/
def execCullPassStart (s : State) : Answer :=
  .next (
    match s.composing with
    | none => s
    | some g =>
      if s.synth.culled then s
      else
        let p := g.plan
        let z := s.blocks p
        let ks := p.enabled.filter fun k => vget s.synth.nextLine k == 0
        let tiles := ks.map fun k => (k, s.culledTiles p z k)
        let n := (tiles.map fun t => t.2.length).sum
        let s := s.modSynth fun y => { y with culled := true, cullTiles := tiles }
        (s.modStatus fun c => { c with culledTiles := c.culledTiles.bump n }).readGfxRow p 0)

/-- `PIPELINE_READ_TORN`: reader 0 to 7 is the graphic layer whose row the next hogel row needs; reader 8 the scan-out fetch (R228). -/
def execPipelineReadTorn (r : Reader) (s : State) : Answer :=
  .next (
    if r.val = 8 then s.beginFetch true
    else
      match s.composing with
      | none => s
      | some g =>
        let p := g.plan
        let h := s.needRow
        match s.gfxBlocked p r.val h with
        | none => s
        | some t =>
          if !p.gfxOn.contains r.val || s.gfxHeld p r.val h then s
          else
            let s := s.modStatus fun c => { c with sbTorn := c.sbTorn.bump }
            let s := s.report 0x0909 0x11 (t.val * 2 ^ 40 + r.val * 2 ^ 32 + (p.gfxLayer r.val).buf % 4096 * 2 ^ 20 + h)
            s.readGfx p r.val h)

/-- `CELL_FAULT`: a gallery that serves leaves service at once (R124, R529). -/
def execCellFault (gallery : Fin 16) (cell : Fin 64) (s : State) : Answer :=
  .next (
    let u : UnitName := (0x18, gallery.val)
    let x := (s.unit u).st
    if x = .inService ∨ x = .draining then
      (s.report 0x0503 0x18 (gallery.val * 2 ^ 40 + cell.val * 2 ^ 32)).deviceRemove u
    else s)

end Sys2Proof.Machine
end

