-- ==== Sys2Proof/Machine/Blit.lean ====
section
/-! DEFINITION. The 2D blit engine: the descriptor and its checks, `BLT`, the gate, rows, budget, watermark and results
(R233, R277-R292). -/

namespace Sys2Proof.Machine

/-! ### The descriptor (R278-R280) -/

/-- The fields of a descriptor (Table 11-1). -/
def bltOf (b : List Byte) : BltDesc :=
  let f := fun o n => fieldAt b o n
  let x := f 2 1
  { rop := BitVec.ofNat 8 (f 0 1), fmt := f 1 1 % 8, pmono := x.testBit 0, gate := x.testBit 1, gateTg := bitsOf x 3 2
    wmSig := x.testBit 4, wmInt := x.testBit 5, px0 := bitsOf (f 3 1) 2 0, py0 := bitsOf (f 3 1) 5 3
    width := f 4 2, height := f 6 2, dst := f 8 2 % 4096, src := f 0xA 2 % 4096, tmp := f 0xC 2 % 4096, gateLine := f 0xE 2
    dstOff := f 0x10 8, srcOff := f 0x18 8, dstPitch := f 0x20 4, srcPitch := f 0x24 4, pat := f 0x28 8, fg := f 0x30 6
    wmRow := f 0x36 2, bg := f 0x38 6, wmBit := f 0x3E 1 % 16 }

/-- Element size of a format; 0 for a reserved one (Table 11-2). -/
def BltDesc.size (d : BltDesc) : Nat := [1, 2, 4, 6].getD d.fmt 0

/-- Alignment of offsets and pitches (Table 11-2). -/
def BltDesc.align (d : BltDesc) : Nat := [1, 2, 4, 2].getD d.fmt 1

/-- Bytes of a row. -/
def BltDesc.rowLen (d : BltDesc) : Nat := d.width * d.size

/-- The ROP reads S; it reads D (R280). -/
def BltDesc.readsS (d : BltDesc) : Bool := (((d.rop >>> 2) ^^^ d.rop) &&& 0x33) != 0
def BltDesc.readsD (d : BltDesc) : Bool := (((d.rop >>> 1) ^^^ d.rop) &&& 0x55) != 0

/-- Offset and pitch of one operand keep to R279. -/
def BltDesc.placeOk (d : BltDesc) (off pitch : Nat) : Bool :=
  decide (off < 2 ^ 40 ∧ off % d.align = 0)
    && (d.height ≤ 1 || decide (d.rowLen ≤ pitch ∧ pitch ≤ 16777216 ∧ pitch % d.align = 0))

/-- Every field is within its range (R278, R279, R287, R288). -/
def State.bltFields (s : State) (d : BltDesc) : Bool :=
  let top := 2 ^ (8 * d.size)
  let lines := s.tgLines d.gateTg
  d.size != 0 && d.width != 0 && d.height != 0 && d.placeOk d.dstOff d.dstPitch && (!d.readsS || d.placeOk d.srcOff d.srcPitch)
    && (d.pmono || decide (d.pat < top)) && decide (d.fg < top) && decide (d.bg < top) && decide (d.wmRow ≤ d.height)
    && (!d.gate || (d.gateTg != 3 && (lines == 0 || decide (d.gateLine < lines))))

/-- Bytes from the first to the last element of an operand. -/
def BltDesc.span (d : BltDesc) (pitch : Nat) : Nat := (d.height - 1) * pitch + d.rowLen

/-- Source and destination overlap (R284, R285). -/
def BltDesc.overlaps (d : BltDesc) : Bool :=
  d.readsS && d.src == d.dst && decide (d.srcOff < d.dstOff + d.span d.dstPitch ∧ d.dstOff < d.srcOff + d.span d.srcPitch)

/-- The two passes of R285 are needed. -/
def BltDesc.twoPass (d : BltDesc) : Bool := d.overlaps && d.srcPitch != d.dstPitch

/-- Descending order of R284. -/
def BltDesc.down (d : BltDesc) : Bool := d.overlaps && d.srcPitch == d.dstPitch && decide (d.srcOff < d.dstOff)

/-- The n-th row that the engine processes. -/
def BltDesc.rowAt (d : BltDesc) (n : Nat) : Nat := if d.down then d.height - 1 - n else n

/-! ### Checks at issue (R250, R279, R282) -/

/-- A sealed source keeps to sealed destinations (R223, R282). -/
def sealedApart (dst : Buf) (src? tmp? : Option Buf) : Except Refused Unit :=
  if (src?.any (·.isSealed)) && (!dst.isSealed || tmp?.any (!·.isSealed)) then .error (.seal, 0) else .ok ()

/-- The checks of `BLT`, in order: handles DST, SRC, TMP; the seal; the fields; the extents; the lock of what it writes. -/
def State.bltCheck (s : State) (t : Tid) (d : BltDesc) : Except Refused Unit := do
  let dst ← s.checkHandle t d.dst
  let src? ← if d.readsS then (s.checkHandle t d.src).map some else .ok none
  let tmp? ← if d.tmp = 0 then .ok none else (s.checkHandle t d.tmp).map some
  sealedApart dst src? tmp?
  need (tmp?.all fun b => b.owner == some t && d.tmp != d.dst && !(d.readsS && d.tmp == d.src)) 0x04
  need (s.bltFields d) 0x20
  dst.within d.dstOff (d.span d.dstPitch)
  match src? with
  | some b => b.within d.srcOff (d.span d.srcPitch)
  | none => pure ()
  need (!s.lockedBlt d.dst && !(d.twoPass && d.tmp != 0 && s.lockedBlt d.tmp)) 0x07

/-- The handles again when the descriptor is reached: a `BSEAL` that the blit waited for may have closed one to it (R223, R240). -/
def State.bltRecheck (s : State) (t : Tid) (d : BltDesc) : Except Refused Unit := do
  let get := fun (h : Nat) => match s.buf? h with
    | some b => if b.accessible t then Except.ok b else .error ((.state, 0x04) : Refused)
    | none => .error (.state, 0x05)
  let dst ← get d.dst
  let src? ← if d.readsS then (get d.src).map some else .ok none
  let tmp? ← if d.tmp = 0 then .ok none else (get d.tmp).map some
  sealedApart dst src? tmp?

/-! ### Regions (R286) -/

/-- The rows of one operand from the n-th in order on. -/
def BltDesc.rowRegions (d : BltDesc) (h off pitch n : Nat) : List Region :=
  (List.range (d.height - n)).map fun i => .ofBytes h (off + d.rowAt (n + i) * pitch) d.rowLen

/-- Read and write regions once `n` rows of the first pass, or of the only or second pass, are complete. -/
def BltDesc.regions (d : BltDesc) (first : Bool) (n : Nat) : List Region × List Region :=
  let tmp := if d.twoPass && d.tmp != 0 then [Region.ofBytes d.tmp 0 (d.rowLen * d.height)] else []
  let src := if !d.readsS || (d.twoPass && !first) then [] else d.rowRegions d.src d.srcOff d.srcPitch n
  (src ++ tmp, d.rowRegions d.dst d.dstOff d.dstPitch (if first then 0 else n) ++ tmp)

/-- Handles that a descriptor names. -/
def BltDesc.handles (d : BltDesc) : List Nat :=
  d.dst :: (if d.readsS then [d.src] else []) ++ if d.tmp = 0 then [] else [d.tmp]

/-- Change the engine. -/
def State.modBlt (s : State) (f : Blt → Blt) : State := { s with blt := f s.blt }

/-- Change the registered operation of a blit. -/
def State.modOp (s : State) (op : Nat) (f : SbOp → SbOp) : State :=
  { s with sboard := s.sboard.map fun o => if o.op = op then f o else o }

/-! ### `BLT` -/

/-- Register a blit and put it at the end of the engine's queue (R277). -/
def State.queueBlt (s : State) (t : Tid) (d : BltDesc) (isSync : Bool) : State :=
  let op := s.nextOp
  let (r, x) := d.regions d.twoPass 0
  let s := { s with sboard := s.sboard ++ [({ op := op, thread := t, sync := isSync, handles := d.handles, reads := r, writes := x } : SbOp)], nextOp := op + 1 }
  let s := (s.wakeDram { handles := d.handles }).1
  s.modBlt fun b => { b with queue := b.queue ++ [({ op := op, thread := t, who := if isSync then .thread t else .async t op, d := d } : BltOp)] }

/-- The operation still waits for an entry of the blit queue (R277). -/
def State.bltWaits (s : State) (op : Nat) : Bool := (s.blt.queue.drop 64).any (·.op == op)

/-- `BLT`: a full scoreboard holds the thread; with a full queue the thread waits until an entry frees (R227, R277). -/
def execBlt (t : Tid) (w : IWord) (s : State) : Answer :=
  .next (s.issueBlock t w fun s =>
    let d := bltOf (w.block (s.thread t) 64)
    s.orFault t do
      s.bltCheck t d
      if s.full t then return s.hold t (.blt t w)
      else if w.isAsync then
        let op := s.nextOp
        let addr := (s.thread t).pc
        let waits := decide (64 ≤ s.blt.queue.length)
        return (s.queueBlt t d false).modThread t fun th =>
          { (th.setReg w.rd 0).next with
            st := if waits then .waiting else .running, wait := if waits then .entry op else .none, wAddr := addr
            fl := th.fl.ofResult 0, snap := none
            async := th.async ++ [{ op := op, word := w.resWord, addr := addr, blt := true }] }
      else return (s.queueBlt t d true).toUnit t w none)

/-! ### `BLIT_DESCRIPTOR_START`, `BLIT_GATE_OPEN` (R285, R287, R289) -/

/-- RES[0] of the plan in force, none without one. -/
def State.bltBudget (s : State) : Option Nat := s.plan?.map fun p => 1000000 * p.res.getD 0 0

/-- The result that a descriptor has before it begins: NO_BUDGET, NEED_TEMP. -/
def State.bltEarly (s : State) (d : BltDesc) : Option (BitVec 8) :=
  if s.bltBudget = some 0 then some 0xC1
  else if d.twoPass then
    match (if d.tmp = 0 then none else s.buf? d.tmp) with
    | some b => if d.rowLen * d.height ≤ b.len then none else some 0xC0
    | none => some 0xC0
  else none

/-- `BLIT_DESCRIPTOR_START`: the engine takes the next descriptor, once no earlier operation holds it up. -/
def execBlitDescriptorStart (s : State) : Answer :=
  .next (
    match s.blt.cur, s.blt.queue with
    | none, o :: rest =>
      if s.stopped || s.dram.sr == .inSr || sbBlocked s.sboard o.op then s
      else
        let runs := s.tgRuns o.d.gateTg && s.tgLines o.d.gateTg != 0
        let early := s.bltEarly o.d
        let o := { o with
          rows := 0, firstPass := o.d.twoPass, done := 0, res := early
          flt := match s.bltRecheck o.thread o.d with | .error (f, sub) => some (f, BitVec.ofNat 8 sub) | .ok _ => none
          gateWait := o.d.gate && early.isNone && runs, ungated := o.d.gate && early.isNone && !runs }
        s.modBlt fun b => { b with cur := some o, queue := rest }
    | _, _ => s)

/-- `BLIT_GATE_OPEN`: at the line of the gate, or at once when the generator has stopped. -/
def execBlitGateOpen (s : State) : Answer :=
  .next (
    match s.blt.cur with
    | some o =>
      if !o.gateWait || s.stopped then s
      else if o.gateHit then s.modBlt fun b => { b with cur := some { o with gateWait := false } }
      else if s.tgRuns o.d.gateTg && s.tgLines o.d.gateTg != 0 then s
      else s.modBlt fun b => { b with cur := some { o with gateWait := false, ungated := true } }
    | none => s)

/-! ### Rows (R280-R285, R289, R292) -/

/-- One result byte: bit (4p + 2s + d) of ROP at each position (R280). -/
def ropByte (rop p s d : Byte) : Byte :=
  let sel := fun (b : Bool) (x : Byte) => if b then x else ~~~x
  (List.range 8).foldl (fun acc i =>
    if rop.getLsbD i then acc ||| (sel (i.testBit 2) p &&& sel (i.testBit 1) s &&& sel (i.testBit 0) d) else acc) 0

/-- P of element (x, y) (R281). -/
def BltDesc.pattern (d : BltDesc) (x y : Nat) : Nat :=
  if d.pmono then (if (d.pat / 2 ^ (8 * ((y + d.py0) % 8))).testBit ((x + d.px0) % 8) then d.fg else d.bg) else d.pat

/-- Where the n-th row of a pass reads and writes: source address, if one is read, with its handle; destination handle, offset,
address. -/
structure BltRow where
  y : Nat
  src : Option (Nat × Nat)
  dst : Nat
  off : Nat
  pa : Nat
deriving DecidableEq, Repr, Inhabited

/-- Base address of a buffer. -/
def State.baseOf (s : State) (h : Nat) : Nat := match s.buf? h with | some b => b.base | none => 0

/-- The next row of the blit under way. -/
def State.bltRow (s : State) (o : BltOp) : BltRow :=
  let d := o.d
  let y := d.rowAt o.rows
  if o.firstPass then
    { y := y, src := some (d.src, s.baseOf d.src + d.srcOff + y * d.srcPitch), dst := d.tmp, off := y * d.rowLen
      pa := s.baseOf d.tmp + y * d.rowLen }
  else
    { y := y, dst := d.dst, off := d.dstOff + y * d.dstPitch, pa := s.baseOf d.dst + d.dstOff + y * d.dstPitch
      src := if !d.readsS then none
        else if d.twoPass then some (d.tmp, s.baseOf d.tmp + y * d.rowLen)
        else some (d.src, s.baseOf d.src + d.srcOff + y * d.srcPitch) }

/-- Bursts that a range of bytes touches. -/
def burstsOf (pa n : Nat) : Nat := if n = 0 then 0 else (pa + n - 1) / 64 + 1 - pa / 64

/-- The bytes of a row that its elements from the k0-th to before the k-th in the order of processing take: offset and length (R284). -/
def BltDesc.seg (d : BltDesc) (k0 k : Nat) : Nat × Nat :=
  (if d.down then (d.width - k) * d.size else k0 * d.size, (k - k0) * d.size)

/-- Bursts that a row covers only in part (R283). -/
def BltRow.partBursts (r : BltRow) (n : Nat) : List Nat :=
  ((if r.pa % 64 = 0 then [] else [r.pa / 64]) ++ if (r.pa + n) % 64 = 0 then [] else [(r.pa + n) / 64]).eraseDups

/-- Bytes that the first `k` elements of a row charge: their source bursts, the destination bursts that are read (all of them where the
ROP reads D, else those that the row covers in part), and those written (R283, R289). -/
def BltRow.cost (r : BltRow) (d : BltDesc) (k : Nat) (readsD : Bool) : Nat :=
  let (lo, n) := d.seg 0 k
  let all := burstsOf (r.pa + lo) n
  let part := ((r.partBursts d.rowLen).filter fun b => decide (0 < n ∧ r.pa + lo < b * 64 + 64 ∧ b * 64 < r.pa + lo + n)).length
  64 * ((match r.src with | some x => burstsOf (x.2 + lo) n | none => 0) + (if readsD then all else part) + all)

/-- The engine can pause before the k-th element: a destination burst ends there (R289). -/
def BltRow.cutAt (r : BltRow) (d : BltDesc) (k : Nat) : Bool :=
  let (lo, n) := d.seg 0 k
  k == d.width || (r.pa + if d.down then lo else lo + n) % 64 == 0

/-- The read that fails, if any, for the element at byte `i` of a row: handle and burst. -/
def State.bltBad (s : State) (r : BltRow) (n b i : Nat) (readsD : Bool) : Option (Nat × Nat) :=
  let pick := fun (h pa : Nat) (p : Nat → Bool) =>
    (((s.dram.suspects pa b).filter fun a => p a && s.dram.unreadable a).head?).map fun a => (h, a)
  match (match r.src with | some (h, a) => pick h (a + i) fun _ => true | none => none) with
  | some e => some e
  | none => pick r.dst (r.pa + i) fun a => readsD || decide (a < r.pa ∨ r.pa + n < a + 64)

/-- The result bytes of a row. -/
def State.bltBytes (s : State) (d : BltDesc) (r : BltRow) (copy : Bool) : List Byte :=
  let n := d.rowLen
  let src := match r.src with | some (_, a) => Memory.readN s.mem a n | none => List.replicate n 0
  if copy then src
  else
    let dst := Memory.readN s.mem r.pa n
    (List.range d.width).flatMap fun x =>
      let p := leBytes d.size (d.pattern x r.y)
      (List.range d.size).map fun j =>
        let i := x * d.size + j
        ropByte d.rop (p.getD j 0) (src.getD i 0) (dst.getD i 0)

/-- The blit under way has its result: its regions leave the scoreboard (R292). -/
def State.bltEnd (s : State) (o : BltOp) (res : BitVec 8) : State :=
  (s.modOp o.op fun x => { x with reads := [], writes := [] }).modBlt fun b => { b with cur := some { o with res := some res } }

/-- A row is complete: regions shrink, the watermark acts (R286, R288). -/
def State.bltRowDone (s : State) (o : BltOp) : State :=
  let d := o.d
  let n := o.rows + 1
  let o := { o with done := 0, rows := n }
  let turn := o.firstPass && n == d.height
  let o := if turn then { o with firstPass := false, rows := 0 } else o
  let (r, x) := d.regions o.firstPass o.rows
  let s := (s.modOp o.op fun y => { y with reads := r, writes := x }).modBlt fun b => { b with cur := some o }
  if o.firstPass || turn || n ≠ d.wmRow then s
  else
    let s := if d.wmSig then s.modThread o.thread fun th => { th with evt := th.evt ||| BitVec.ofNat 32 (2 ^ (16 + d.wmBit)) } else s
    if d.wmInt then s.raise o.thread.val else s

/-- Read the whole bursts of a destination range: those covered in part are read by the write (R283, R314). -/
def State.bltReadDst (s : State) (pa n : Nat) : State :=
  let lo := ceilDiv pa 64 * 64
  let hi := (pa + n) / 64 * 64
  if lo < hi then (s.readMarks lo (hi - lo) 14).1 else s

/-- Process the elements of the row under way up to the k-th, or up to one whose read is uncorrectable; what is read and written is charged
(R283, R289, R292). -/
def State.bltRun (s : State) (o : BltOp) (k : Nat) : State :=
  let d := o.d
  let r := s.bltRow o
  let n := d.rowLen
  let readsD := !o.firstPass && d.readsD
  let bad := fun j => s.bltBad r n d.size (d.seg j (j + 1)).1 readsD
  let good := ((List.range (k - o.done)).takeWhile fun j => (bad (o.done + j)).isNone).length
  let e := o.done + good
  let (lo, len) := d.seg o.done e
  let data := ((s.bltBytes d r o.firstPass).drop lo).take len
  let spent := r.cost d e readsD - r.cost d o.done readsD
  let s := match r.src with | some (_, a) => if len = 0 then s else (s.readMarks (a + lo) len 14).1 | none => s
  let s := if readsD then s.bltReadDst (r.pa + lo) len else s
  let s := (s.writeBuf r.dst (r.off + lo) data 14).modBlt fun b => { b with spent := b.spent + spent }
  if k ≤ e then
    if e = d.width then s.bltRowDone o else s.modBlt fun b => { b with cur := some { o with done := e } }
  else
    match bad e with
    | none => s
    | some (h, a) =>
      let s := ((s.dramRequest 14 a 64 false).meetBurst a).modBlt fun b => { b with spent := b.spent + 64 }
      (s.report 0x0B01 0x1E (o.thread.val * 2 ^ 40 + h % 4096 * 2 ^ 24 + r.y)).bltEnd o 0xC2

/-- How far the budget of the period reaches in the row under way: whole, or up to a burst boundary (R289). -/
def State.bltReach (s : State) (o : BltOp) : Nat :=
  let d := o.d
  let r := s.bltRow o
  let readsD := !o.firstPass && d.readsD
  match s.bltBudget with
  | none => d.width
  | some limit =>
    let left := limit - s.blt.spent + r.cost d o.done readsD
    ((List.range (d.width + 1)).filter fun k => decide (o.done < k) && r.cutAt d k && decide (r.cost d k readsD ≤ left)).getLast?.getD o.done

/-- `BLIT_ROW_COMPLETE`: the row, as far as the budget of the period reaches; the engine then pauses until the next period (R289). -/
def execBlitRowComplete (s : State) : Answer :=
  .next (
    match s.blt.cur with
    | some o =>
      if s.stopped || o.gateWait || o.res.isSome || o.flt.isSome || decide (o.d.height ≤ o.rows) then s
      else
        let k := s.bltReach o
        if k = o.done then s else s.bltRun o k
    | none => s)

/-- `BLIT_COMPLETE`: the blit ends with its result (Table 11-4). -/
def execBlitComplete (s : State) : Answer :=
  .next (
    match s.blt.cur with
    | some o =>
      if s.stopped || o.gateWait then s
      else
        let done? : Option Done := match o.flt, o.res with
          | some f, _ => some { wrRd := false, flt := some f, blt := true }
          | none, some r => some { Done.code r.toNat with blt := true }
          | none, none =>
            if o.rows = o.d.height && !o.firstPass then some { Done.code (if o.ungated then 0xC3 else 0) with blt := true } else none
        match done? with
        | none => s
        | some x =>
          let s := { s with sboard := s.sboard.filter fun x => x.op != o.op }
          (s.modBlt fun b => { b with cur := none }).deliver o.who x
    | none => s)

end Sys2Proof.Machine
end

