-- ==== Sys2Proof/Machine/FabTime.lean ====
section
/-! DEFINITION. Coordinates, comets, the election of the planet, and fabric time (R434, R449-R453). -/

namespace Sys2Proof.Machine

/-- Change the fabric router. -/
def State.modFab (s : State) (f : Fab → Fab) : State := { s with fab := f s.fab }

/-- A change of TSTATE: a lock is remembered, and TG0 with TG0_SRC = 0 loses or regains its source (R340, R449). -/
def State.setTime (s : State) (x : TimeState) : State :=
  let was := s.ftLocked
  let s := s.modFab fun f => { f with
    tstate := x, everLocked := f.everLocked || x == .locked || x == .planet
    stepped := if x = .acquiring ∧ f.tstate ≠ .acquiring then false else f.stepped }
  if s.tg0.src ≠ 0 ∨ s.ftLocked = was then s
  else if was then s.tg0Lose 0x0E03 s.tg0.errField
  else s.tg0Regain

/-! ### Election (R452, R453) -/

/-- A port carries a fresh planet. -/
def State.freshPort (s : State) (y : Port) : Bool :=
  y.st == .up && y.planet.isSome && (match y.freshAt with | some t => decide (s.now ≤ t + 1000000) | none => false)

/-- The ports whose planets count: AUTHENTICATED ones, or RESTRICTED ones where the device has no AUTHENTICATED port. -/
def State.voters (s : State) : List (Fin 8) :=
  let auth := (List.finRange 8).any fun p => s.fab.ports[p].st == .up && s.fab.ports[p].link == .authenticated
  (List.finRange 8).filter fun p =>
    s.freshPort s.fab.ports[p] && s.fab.ports[p].link == (if auth then .authenticated else .restricted)

/-- The planet followed now: record 0x1206 for a change. -/
def State.setPlanet (s : State) (b : Nat) : State :=
  let s := match s.fab.lastPlanet with
    | some o => if o = b then s else s.report 0x1206 0x09 (o * 4096 + b)
    | none => s
  s.modFab fun f => { f with planet := some b, lastPlanet := some b }

/-- Follow planet `b`, heard on ports `ps`: HOPS and the parent; a new planet or parent makes the device ACQUIRING. -/
def State.follow (s : State) (b : Nat) (ps : List (Fin 8)) : State :=
  let h := (ps.map fun p => s.fab.ports[p].hops).foldl min 254
  match ps.find? fun p => min 254 s.fab.ports[p].hops == h with
  | none => s
  | some p =>
    let same := s.fab.planet == some b && s.fab.parent == some p
    let s := (s.setPlanet b).modFab fun f => { f with hops := h + 1, parent := some p, lockRun := if same then f.lockRun else 0 }
    if same then s else s.setTime .acquiring

/-- Become PLANET; one that had never been locked sets WALL_ORIGIN (R453). -/
def State.becomePlanet (s : State) (own : Nat) : State :=
  let ever := s.fab.everLocked
  let s := (s.setPlanet own).modFab fun f =>
    { f with hops := 0, parent := none, lockRun := 0
             wallOrigin := if ever then f.wallOrigin else (ceilDiv f.ft 1000000000 + 1) * 1000000000 }
  s.setTime .planet

/-- The device works out the planet. -/
def State.elect (s : State) : State :=
  let vs := s.voters
  let heard := vs.filterMap fun p => s.fab.ports[p].planet
  match heard, s.node? with
  | b :: r, own =>
    let b := r.foldl min b
    if own.any (· ≤ b) then (if s.fab.tstate = .planet then s else s.becomePlanet (own.getD 0))
    else s.follow b (vs.filter fun p => s.fab.ports[p].planet == some b)
  | [], some own => if s.fab.tstate = .planet then s else if s.fab.parent.isSome then s else s.becomePlanet own
  | [], none => s

/-! ### Coordinates (R434) -/

/-- Coordinates that follow from those of the partner of a cardinal port. -/
def fromPartner (p : Fin 8) (row col : Nat) : Option (Nat × Nat) :=
  match p.val with
  | 1 => if col + 1 ≤ 63 then some (row, col + 1) else none
  | 0 => if 1 ≤ col then some (row, col - 1) else none
  | 2 => if row + 1 ≤ 63 then some (row + 1, col) else none
  | 3 => if 1 ≤ row then some (row - 1, col) else none
  | _ => none

/-- The coordinates are known: the package is expanded again for them (R417; DEDUCED, log 24). -/
def Comp.placed (c : Comp) (row col : Nat) : Comp :=
  { c with pkgNext := (c.pkgNext <|> c.pkgDone <|> c.pkg).map fun (k : Pkg) => { k with row := row, col := col } }

/-- A coordinate in a comet: the first one is taken, a later one that disagrees is recorded. -/
def State.learnCoord (s : State) (p : Fin 8) (node : Nat) : State :=
  match fromPartner p (node / 64) (node % 64) with
  | none => s
  | some c =>
    match s.fab.coord with
    | none => { (s.modFab fun f => { f with coord := some c }).rejudgeAll with comp := s.comp.placed c.1 c.2 }
    | some o => if o = c then s else s.portRecord 0x1205 p ((c.1 * 64 + c.2) * 4096 + o.1 * 64 + o.2)

/-! ### Comets (R450, R451) -/

/-- PLANET_SEQ that this device's comets carry: its own as PLANET, else that of its parent. -/
def State.planetSeq (s : State) : BitVec 32 :=
  match s.fab.parent with
  | some p => s.fab.ports[p].planetSeq
  | none => s.fab.planetSeqOut

/-- The comet that a port sends now (Table 18-9). -/
def State.cometBytes (s : State) (p : Fin 8) : List Byte :=
  let y := s.fab.ports[p]
  let f := s.fab
  let planet := match f.planet with | some a => a + 32768 | none => 0
  let flags := f.coord.isSome.toNat + 2 * s.ftLocked.toNat + 4 * s.boot.origin.toNat
  leBytes 2 planet ++ leBytes 1 f.hops ++ leBytes 1 flags ++ leBytes 4 (s.node?.getD 0) ++ leBytes 8 s.planetSeq.toNat
    ++ leBytes 8 f.ft ++ leBytes 8 y.cometTx ++ leBytes 8 y.cometRx ++ leBytes 8 f.wallOrigin ++ leBytes 8 s.rosterSeq
    ++ leBytes 8 0

/-- `COMET_TIMER`: every 100 us each UP port sends a comet, and the planet counts PLANET_SEQ up. -/
def execCometTimer (s : State) : Answer :=
  let s := s.elect
  let s := s.modFab fun f => { f with planetSeqOut := if f.tstate = .planet then f.planetSeqOut + 1 else f.planetSeqOut }
  .next ((List.finRange 8).foldl (fun (s : State) p =>
    let y := s.fab.ports[p]
    if y.st == .up && !y.retrain then
      s.modPort p fun y => { y with tx0 := y.tx0 ++ s.framesOf 0 0 false 0 (List.replicate 64 0) }
    else s) s)

/-- The parent's comet moves fabric time: one step in ACQUIRING beyond 1 us, else a slew of at most 10 ppm towards the parent,
whose size is a free value (DESIGN CHOICE, log 10); 16 comets within 2 ns in a row lock. -/
def State.track (s : State) (t1 t2 t3 t4 : Int) : State :=
  let twice := (t2 - t1) - (t4 - t3)
  let s := s.modFab fun f => { f with offset := twice / 2 }
  if s.fab.tstate = .acquiring ∧ !s.fab.stepped ∧ 2000 < twice.natAbs then
    s.modFab fun f => { f with ft := ((f.ft : Int) + twice / 2).toNat, stepped := true, lockRun := 0 }
  else
    let (s, v) := s.freshValue
    let ppb : Int := (v.toNat % 10001 : Nat)
    let run := if twice.natAbs ≤ 4 then s.fab.lockRun + 1 else 0
    let s := s.modFab fun f =>
      { f with slew := if 0 < twice then ppb else if twice < 0 then -ppb else 0, lockRun := min run 16 }
    if 16 ≤ run then s.setTime .locked else if s.fab.tstate = .locked then s.setTime .acquiring else s

/-- A comet arrives on a port: its payload and RX_TIME. -/
def State.comet (s : State) (p : Fin 8) (b : List Byte) (rx : Nat) : State :=
  let planet := fieldAt b 0 2
  let hops := fieldAt b 2 1
  let flags := fieldAt b 3 1
  let node := fieldAt b 4 2 % 4096
  let seq := fieldAt b 8 4
  let tx := fieldAt b 0x10 8
  let known := flags.testBit 0
  let s := if known then s.learnCoord p node else s
  let roster := fieldAt b 0x30 8
  let y := s.fab.ports[p]
  let news := (known ∧ y.pNode ≠ some node) ∨ y.pSeq ≠ some roster
  let a := if planet.testBit 15 then some (planet % 4096) else none
  let fresh := a.isSome && y.planet == a && decide (y.planetSeq.toNat < seq)
  let s := s.modPort p fun y =>
    { y with
      cometTx := tx, cometRx := rx, pNode := if known then some node else y.pNode, pSeq := some roster
      planet := a, hops := hops, planetSeq := BitVec.ofNat 32 seq
      freshAt := if fresh then some s.now else if y.planet = a then y.freshAt else none }
  let s := if news then s.rejudge p else s
  let s := s.elect
  let s :=
    if s.fab.parent = some p then
      let s := s.modFab fun f => { f with wallOrigin := fieldAt b 0x28 8 }
      if fieldAt b 0x18 8 = 0 then s else s.track (fieldAt b 0x18 8) (fieldAt b 0x20 8) tx rx
    else s
  if s.rosterSeq < roster ∧ s.node?.isSome then s.sendControl p (s.framesOf 1 5 false 0 []) else s

/-- `PLANET_TIMEOUT`: no fresh comet for 1 ms: HOLDOVER, record 0x1207, and the planet is dropped (R452). -/
def execPlanetTimeout (s : State) : Answer :=
  .next (
    match s.fab.parent, s.fab.planet with
    | some _, some a =>
      let s := (s.setTime .holdover).modFab fun f => { f with planet := none, parent := none, hops := 255, lockRun := 0 }
      s.report 0x1207 0x09 a
    | _, _ => s)

/-- Fabric time runs on by `ns`, with the rate change in force (R449, R451). -/
def Fab.run (f : Fab) (ns : Nat) : Fab :=
  let r := f.slewRest + f.slew * ns
  { f with ft := ((f.ft : Int) + ns + r / 1000000000).toNat, slewRest := r % 1000000000 }

end Sys2Proof.Machine
end

