-- ==== Sys2Proof/Machine/Power.lean ====
section
/-! DEFINITION. Panel power: rail sequences, driver identification, bring-up of the lanes, the light, the responses to power
failure and faults, hold-up charging, the panel management bus and the checks in service (15, 16). -/

namespace Sys2Proof.Machine

/-! ### Power state -/

/-- Change the power block. -/
def State.modPwr (s : State) (f : Pwr → Pwr) : State := { s with pwr := f s.pwr }

/-- Enter a power state: vector 58; a departure from UP clears LIGHT_REQ and CLEARED (R382, R513). -/
def State.setPState (s : State) (x : PState) : State :=
  if s.pwr.st = x then s
  else
    let leave := s.pwr.st == .up
    (s.modPwr fun p =>
      { p with st := x, lightReq := p.lightReq && !leave, cleared := p.cleared && !leave
               clearedRows := if leave then [] else p.clearedRows }).raise 58

/-- The board table of the power-up in progress. -/
def State.boardNow (s : State) : Board := s.trim.boardUp

/-- A rail is fitted (R377). -/
def State.railUsed (s : State) (r : Nat) : Bool := s.boardNow.used.getLsbD r

/-- Set or clear a bit of a 6-bit or 4-bit port. -/
def setBit {n : Nat} (v : BitVec n) (i : Nat) (b : Bool) : BitVec n :=
  if b then v ||| BitVec.ofNat n (2 ^ i) else v &&& ~~~BitVec.ofNat n (2 ^ i)

/-- The discharge channel of a rail (Table 16-1). -/
def railChannel (r : Nat) : Nat := if r ≤ 1 then 0 else if r ≤ 3 then 1 else r - 2

/-- Rail `r` goes down: `PEN` low, and the channel high once both its rails are down. -/
def Pwr.railDown (p : Pwr) (r : Nat) : Pwr :=
  let pen := setBit p.pen r false
  let both := (List.range 6).all fun i => railChannel i != railChannel r || !pen.getLsbD i
  { p with pen := pen, dsch := if both then setBit p.dsch (railChannel r) true else p.dsch }

/-! ### Identification and bring-up (R367, R368, R390) -/

/-- The answer of a driver. -/
def Pwr.answer (p : Pwr) (n : Nat) : DriverAnswer := p.answers.getD n ⟨false, 0, 0, 0, 0, []⟩

/-- A driver answers as one that can be identified. -/
def driverGood (a : DriverAnswer) : Bool :=
  a.answers && a.drvId != 0 && a.drvId != 0xFFFFFFFF && a.cols == 1024

/-- A pair FAILED: its quad is removed and its other pair is HELD (R368). -/
def State.failPair (s : State) (n : Nat) : State :=
  (s.modPair n fun p => { p with st := .failed, trained := false }).deviceRemove (0x2A, n / 2)

/-- Step 4 of R380: PANEL_ID, ROWS and the identity of each driver; false when none is identified. -/
def State.identify (s : State) : State × Bool :=
  let ns := s.usedPairs
  match ns.find? fun n => driverGood (s.pwr.answer n) with
  | none =>
    let s := ns.foldl (fun s n =>
      let a := s.pwr.answer n
      (s.report 0x1005 0x2C (n * 2 ^ 32 + if a.answers then a.drvId.toNat else 0)).failPair n) s
    ({ s with out := { s.out with panelId := 0 } }, false)
  | some low =>
    let a := s.pwr.answer low
    let s := { s.modPwr fun p => { p with rows := a.rows.toNat } with out := { s.out with panelId := a.panelId } }
    (ns.foldl (fun s n =>
      let b := s.pwr.answer n
      if driverGood b && b.rows == a.rows then s.modPair n fun p => { p with drvId := some b.drvId, pollFails := 0 }
      else
        let s := s.modPair n fun p => { p with drvId := none }
        (s.report 0x1005 0x2C (n * 2 ^ 32 + if b.answers then b.drvId.toNat else 0)).failPair n) s, true)

/-- The outcome of at most four attempts of one pair: none when it is ALIGNED, else the failing step and LANE_STAT. -/
def pairOutcome (l : List PairTry) : Option (Nat × Nat) :=
  let l := l.take 4
  if l.contains .aligned then none
  else match l.getLast? with
    | some (.failStep4 v) => some (4, v.toNat)
    | some (.failStep6 v) => some (6, v.toNat)
    | _ => some (4, 0)

/-- An attempt reached step 5 (Table 15-6). -/
def PairTry.tested : PairTry → Bool
  | .failStep4 _ => false
  | _ => true

/-- The lanes of pair `n` send their 16 TEST packets (Table 15-6, step 5). -/
def State.sendTests (s : State) (n : Nat) : State :=
  let put := fun (l : List (Nat × List (List Byte))) (lane : Nat) => tabPut l lane ((List.range 16).map (testPacket lane))
  { s with out := { s.out with tests := put (put s.out.tests (2 * n)) (2 * n + 1) } }

/-- What a pair does at step 5 of R380: it trains when its quad is IN_SERVICE or RETURNING (R367, R368). -/
def State.startPair (s : State) (n : Nat) : PairState :=
  match (vget s.svc.quad (n / 2)).st with
  | .inService => .aligned
  | .returning => .training
  | _ => .held

/-- Step 5 of R380: the bring-up of the lanes (R367, R368). -/
def State.bringUp (s : State) : State :=
  let go := s.usedPairs.filter fun n => (vget s.pairs n).st != .failed && (vget s.svc.quad (n / 2)).st == .inService
  let s := s.usedPairs.foldl (fun (s : State) n =>
    s.modPair n fun p => if p.st = .failed then p else { p with st := s.startPair n, trained := false, tries := 0 }) s
  go.foldl (fun s n =>
    let l := ((s.pwr.answer n).tries.take 4)
    let s := if l.any PairTry.tested then s.sendTests n else s
    match pairOutcome l with
    | none => s
    | some (step, stat) => (s.report 0x0F01 0x2A (n / 2 * 2 ^ 40 + n * 2 ^ 32 + step * 4096 + stat)).failPair n) s

/-! ### Rail sequences (R380, R381) -/

/-- Change every pair. -/
def State.mapPairs (s : State) (f : Pair → Pair) : State := { s with pairs := s.pairs.map f }

/-- A sequence ends in PSTATE DOWN. -/
def State.railsDown (s : State) (q : RailSeq) : State :=
  let s := s.mapPairs fun p => { p with st := .off, trained := false }
  let s := (s.modPwr fun p => { p with seq := none }).setPState .down
  s.deliver q.who (.code (if q.fails then 0x70 else 0))

/-- Power rails down from rail `r` in descending order, as far as `PGD` allows; fuel counts rails. -/
def State.seqDown (s : State) (q : RailSeq) : Nat → Nat → State
  | 0, _ => s.railsDown q
  | n + 1, r =>
    if !s.railUsed r then s.seqDown q n (r - 1)
    else
      let s := s.modPwr fun p => { p with pen := setBit p.pen r false }
      if s.pwr.pgd.getLsbD r then s.modPwr fun p => { p with seq := some { q with up := false, rail := r, since := s.now } }
      else (s.modPwr fun p => p.railDown r).seqDown q n (r - 1)

/-- Rails are up: identify, bring up the lanes, UP (steps 4 and 5 of R380, R386). -/
def State.railsUp (s : State) (q : RailSeq) : State :=
  let (s, ok) := s.identify
  if ok then
    let s := s.bringUp
    let s := (s.modPwr fun p => { p with seq := none, latched := false, pfailLatch := false, clearedRows := [] }).setPState .up
    let s := { s with life := { s.life with powerCycles := s.life.powerCycles.bump } }
    s.deliver q.who (.code 0)
  else
    (s.setPState .falling).seqDown { q with fails := true } 6 5

/-- Power rails up from rail `r` in ascending order, as far as `PGD` allows. -/
def State.seqUp (s : State) (q : RailSeq) : Nat → Nat → State
  | 0, _ => s.railsUp q
  | n + 1, r =>
    if !s.railUsed r then s.seqUp q n (r + 1)
    else
      let s := s.modPwr fun p => { p with pen := setBit p.pen r true }
      if s.pwr.pgd.getLsbD r then s.seqUp q n (r + 1)
      else s.modPwr fun p => { p with seq := some { q with up := true, rail := r, since := s.now } }

/-- The wait for `PGD` of a sequence runs out (R380, R381). -/
def State.pgdTimeout (s : State) (q : RailSeq) : State :=
  let s := s.report 0x1001 0x2D (q.rail * 2 ^ 32 + if q.up then 256 else 0)
  if q.up then (s.setPState .falling).seqDown { q with fails := true } (q.rail + 1) q.rail
  else (s.modPwr fun p => p.railDown q.rail).seqDown q q.rail (q.rail - 1)

/-- The time since a sequence began to wait has reached PGD_TMO. -/
def State.pgdLate (s : State) : Bool :=
  match s.pwr.seq with
  | some q => decide (q.since + s.boardNow.pgdTmo.getD q.rail 1 * 1000000 ≤ s.now)
  | none => false

/-- `PGD_CHANGE`: the level of a rail's `PGD`; the sequence that waits on it moves on. -/
def execPgdChange (r : Fin 6) (level : Bool) (s : State) : Answer :=
  let s := s.modPwr fun p => { p with pgd := setBit p.pgd r.val level }
  match s.pwr.seq with
  | some q =>
    if q.rail = r.val ∧ q.up = level then
      if q.up then .next (s.seqUp q (5 - r.val) (r.val + 1))
      else .next ((s.modPwr fun p => p.railDown r.val).seqDown q r.val (r.val - 1))
    else .next s
  | none => .next s

/-! ### The crack check (R391) -/

/-- One check, repeated once: none where it passes or only one run fails, else the stage of the second failure. -/
def crackResult (a b : CrackRun) : Option Nat :=
  match a, b with
  | .fail _, .fail k => some (k.val + 1)
  | _, _ => none

/-- `PPOWER.UP`. -/
def execPpowerUp (t : Tid) (w : IWord) (crack crack2 : CrackRun) (drv : List DriverAnswer) (s : State) : Answer :=
  .next (s.issue t 1 fun s =>
    s.startUnit t (.ppowerUp t w crack crack2 drv) { units := [.panel] } fun s =>
      if s.pwr.st ≠ .down ∨ s.pwr.pfailLow ∨ s.therm.tripped ∨ !s.pwr.huReady ∨ s.pwr.resp.isSome then s.fault t .state 0x10
      else s.hostOrder t .rails 0x58 fun s =>
        let s := { s with trim := { s.trim with boardUp := s.trim.board } }
        let bad := if s.boardNow.crackEn then crackResult crack crack2 else none
        match bad with
        | some k =>
          ((s.modPwr fun p => { p with crackFail := true }).report 0x1004 0x2D k).toUnit t w (some (.code 0x70))
        | none =>
          let s := s.modPwr fun p =>
            { p with crackFail := p.crackFail && !s.boardNow.crackEn, dsch := 0, answers := drv, clearedRows := [] }
          let s := s.mapPairs fun p => { p with st := .off, drvId := none, trained := false }
          let s := (s.toUnit t w none).setPState .rising
          s.seqUp { up := true, rail := 0, since := s.now, who := .thread t } 6 0)

/-- `PPOWER.DOWN`. -/
def execPpowerDown (t : Tid) (w : IWord) (s : State) : Answer :=
  .next (s.issue t 1 fun s =>
    s.startUnit t (.ppowerDown t w) { units := [.panel] } fun s =>
      if s.emitEn then s.fault t .state 0x11
      else s.hostOrder t .rails 0x58 fun s =>
        let s := ((s.toUnit t w none).holdLanes.rowsLow).setPState .falling
        s.seqDown { up := false, rail := 5, since := s.now, who := .thread t } 6 5)

/-! ### The light (R382) -/

/-- Guard 0x12 of `PLIGHT.ON`. -/
def State.lightGuard (s : State) : Bool :=
  s.pwr.st == .up && (s.pwr.pgd &&& s.boardNow.used == s.boardNow.used) && s.pwr.cleared && !s.comp.lightHeld && !s.pwr.pfailLow

/-- `PLIGHT.ON`. -/
def execPlightOn (t : Tid) (w : IWord) (s : State) : Answer :=
  .next (s.issue t 1 fun s =>
    s.startUnit t (.plightOn t w) { units := [.panel] } fun s =>
      if !s.lightGuard then s.fault t .state 0x12
      else s.hostOrder t .light 0x5A fun s =>
        (s.modPwr fun p => { p with lightReq := true }).toUnit t w (some (.code 0)))

/-- `PLIGHT.OFF`. -/
def execPlightOff (t : Tid) (w : IWord) (s : State) : Answer :=
  .next (s.issue t 1 fun s =>
    s.startUnit t (.plightOff t w) { units := [.panel] } fun s =>
      s.hostOrder t .light 0x5A fun s => (s.modPwr fun p => { p with lightReq := false }).toUnit t w (some (.code 0)))

/-! ### Responses (R384-R386) -/

/-- Opcode of a hardware safety order: 0xFF00 plus the input, in the order of R236 (DEDUCED, log 16). -/
def tripOp : Nat := 0xFF00
def pfailOp : Nat := 0xFF01

/-- A rail sequence in progress ends with RAIL_FAIL, overridden by a hardware safety order (R236, R238, R384). -/
def State.endSeq (s : State) (op : Nat) : State :=
  match s.pwr.seq with
  | some q => ((s.modPwr fun p => { p with seq := none }).overruled .rails .hardware op .host 0x58).deliver q.who (.code 0x70)
  | none => s

/-- Steps 2 and 3 of Table 16-4, and the start of the rest; one sequence runs when several start together (R385). -/
def State.respond (s : State) (op : Nat) : State :=
  let s := s.endSeq op
  let s := (((s.holdAt .rails .hardware op).holdAt .light .hardware op).holdLanes.rowsLow).setPState .falling
  s.modPwr fun p =>
    { p with lightReq := false, cleared := false, chgEn := false, latched := true, resp := some (p.resp.getD s.now) }

/-- `CHG_EN` follows its conditions: the charge window open, no response in progress, `PFAIL_N` high (R387). -/
def State.settleCharge (s : State) : State :=
  s.modPwr fun p => { p with chgEn := p.chgWin && p.resp.isNone && !p.pfailLow }

/-- The steps of Table 16-4 that are due. -/
def State.respSteps (s : State) : State :=
  match s.pwr.resp with
  | none => s
  | some t0 =>
    let d := s.now - t0
    let down := fun (s : State) (lim : Nat) (rs : List Nat) =>
      if lim ≤ d then rs.foldl (fun s r => s.modPwr fun p => p.railDown r) s else s
    let s := down (down (down (down s 10000 [5]) 100000 [4]) 600000 [3, 2]) 1100000 [1, 0]
    if 1100000 ≤ d then
      let s := ((s.modPwr fun p => { p with resp := none }).setPState .down).settleCharge
      if s.pwr.pfailLow || s.therm.tripped || s.safe then s
      else (s.unhold .rails .hardware).unhold .light .hardware
    else s

/-- `PFAIL_RESPONSE`: 25 consecutive low samples. -/
def execPfailResponse (s : State) : Answer :=
  if s.pwr.pfailLow then .next s
  else
    let info := s.pwr.pen.toNat * 2 ^ 18 + s.emitEn.toNat * 2 ^ 13
    let s := s.respond pfailOp
    let s := s.modPwr fun p => { p with pfailLow := true, pfailLatch := true, huReady := false }
    let s := { s with life := { s.life with pfails := s.life.pfails.bump } }
    .next ((s.endTests.endCapture 3 7).report 0x1003 0x2D info)

/-- `PFAIL_N_RELEASE`: 10 ms of high samples. -/
def execPfailNRelease (s : State) : Answer :=
  let s := (s.modPwr fun p => { p with pfailLow := false }).settleCharge
  .next (if s.pwr.resp.isSome || s.therm.tripped || s.safe then s else (s.unhold .rails .hardware).unhold .light .hardware)

/-- `PGD_LOSS`: a used rail is low for 10 µs while UP. -/
def execPgdLoss (r : Fin 6) (s : State) : Answer :=
  if s.pwr.st = .up ∧ s.railUsed r.val then
    let s := s.modPwr fun p => { p with pgd := setBit p.pgd r.val false }
    .next ((s.report 0x1002 0x2D (r.val * 2 ^ 32 + s.pwr.pgd.toNat * 2 ^ 24)).respond 0xFF00)
  else .next s

/-- `CRACK_CHECK`: the check of each second while UP. -/
def execCrackCheck (a b : CrackRun) (s : State) : Answer :=
  if s.pwr.st = .up ∧ s.boardNow.crackEn then
    match crackResult a b with
    | some k => .next (((s.modPwr fun p => { p with crackFail := true }).report 0x1004 0x2D (256 + k)).respond 0xFF00)
    | none => .next s
  else .next s

/-! ### Hold-up charging (R387) -/

/-- `HU_READY`: CHG_TIME of continuous charging. -/
def execHuReady (s : State) : Answer :=
  .next (if s.pwr.chgEn then s.modPwr fun p => { p with huReady := true } else s)

/-- `HU_READY_CLEAR`: `CHG_EN` low for 60 s. -/
def execHuReadyClear (s : State) : Answer :=
  .next (if s.pwr.chgEn then s else s.modPwr fun p => { p with huReady := false })

/-! ### Panel management bus (R270, R388, R389) -/

/-- What a transaction read, where it succeeded. -/
def pmbOk (x : PmbTry) : Option (List Byte) :=
  match x with
  | .ok d => some d
  | _ => none

/-- The result of a transaction and its two retries, with what it read. -/
def pmbResult (l : List PmbTry) (rlen : Nat) : Nat × Option (List Byte) :=
  let l := (l ++ List.replicate 3 PmbTry.noAnswer).take 3
  match l.findSome? pmbOk with
  | some d => (0, some (bytesAt d 0 rlen))
  | none => (if l.getLast? = some PmbTry.noAnswer then 0x72 else 0x71, none)

/-- `PMBX`: the write bytes go out; the read bytes reach the block when the transaction completes. -/
def execPmbx (t : Tid) (w : IWord) (tries : List PmbTry) (s : State) : Answer :=
  .next (s.issueBlock t w fun s => s.orFault t do
    let b := w.block (s.thread t) 112
    let at' := w.blockAddr (s.thread t)
    need (fieldAt b 0 1 < 64 && decide (1 ≤ fieldAt b 1 1 ∧ fieldAt b 1 1 ≤ 48) && fieldAt b 2 1 ≤ 48) 0x20
    return s.startUnit t (.pmbx t w tries) {} fun s =>
      if s.pwr.st ≠ .up then s.fault t .state 0x15
      else
        let s := s.modPwr fun p => { p with pmb := bytesAt b 8 (fieldAt b 1 1) }
        let (r, d) := pmbResult tries (fieldAt b 2 1)
        s.toUnit t w (some { Done.code r with scratch := d.map fun x => (at' + 0x40, x) }))

/-! ### Checks in service (R369, R370, R392) -/

/-- A poll of a driver fails: the record at the third in a row. -/
def State.pollFails (s : State) (n : Nat) (timeout : Bool) : State :=
  let k := (vget s.pairs n).pollFails + 1
  let s := s.modPair n fun p => { p with pollFails := k }
  if k = 3 then s.report 0x1008 0x2C (s.boardNow.cs.getD n 0 * 2 ^ 32 + timeout.toNat * 256) else s

/-- `DRIVER_READBACK`. -/
def execDriverReadback (n : Fin 48) (poll : DrvPoll) (s : State) : Answer :=
  let p := s.pairs[n]
  match p.drvId with
  | none => .next s
  | some id =>
    if s.pwr.st ≠ .up then .next s
    else
      match poll with
      | .check => .next (s.pollFails n.val false)
      | .timeout => .next (s.pollFails n.val true)
      | .ok d ix st =>
        let s := s.modPair n.val fun p => { p with pollFails := 0 }
        if d ≠ id then
          .next (((s.report 0x1006 0x2C (n.val * 2 ^ 32 + d.toNat)).modPair n.val fun p => { p with drvId := none }).failPair n.val)
        else
          let lost := ix.toNat != n.val
          let s := if lost || st != 0 && (st.getLsbD 1 || st.getLsbD 2) then
              s.report 0x1007 0x2C (n.val * 2 ^ 32 + lost.toNat * 256 + st.toNat)
            else s
          if (lost || st.getLsbD 1) && p.st == .aligned then
            .next (s.modPair n.val fun p =>
              { p with st := .realign, trained := false, losses := BitVec.ofNat 8 (min 255 (p.losses.toNat + 1)) })
          else .next s

/-- LANE_STAT shows both locks, no identity error and no loss. -/
def statGood (v : BitVec 32) : Bool := bitsOf v.toNat 1 0 == 3 && bitsOf v.toNat 7 4 == 0

/-- LANE_STAT passes step 4 of Table 15-6: both locks, no identity error. -/
def stepFour (v : BitVec 32) : Bool := bitsOf v.toNat 1 0 == 3 && bitsOf v.toNat 7 6 == 0

/-- The registers pass step 6: LINES_OK 16 and CRC_ERR 0 on each lane. -/
def stepSix (r : LaneRead) : Bool := r.lines.toNat == 16 * 65536 + 16 && bitsOf r.stat.toNat 31 16 == 0

/-- A read of a TRAINING pair of a quad in RETURNING. Until its TEST packets have been sent it decides step 4, then step 6: the pair is
ALIGNED, or starts again, and is FAILED after the fourth attempt (R368). -/
def State.returnPoll (s : State) (n : Nat) (r : LaneRead) : State :=
  let u : UnitName := (0x2A, n / 2)
  let p := vget s.pairs n
  if (s.unit u).st ≠ .returning then s
  else if !p.trained && stepFour r.stat then (s.modPair n fun p => { p with trained := true }).sendTests n
  else if p.trained && stepSix r then (s.modPair n fun p => { p with st := .aligned, trained := false, tries := 0 }).settleNow u
  else
    let s := s.modPair n fun p => { p with tries := p.tries + 1, trained := false }
    if p.tries < 3 then s
    else
      let s := s.report 0x0F01 0x2A (n / 2 * 2 ^ 40 + n * 2 ^ 32 + (if p.trained then 6 else 4) * 4096 + r.stat.toNat % 512)
      (s.modPair n fun p => { p with st := .failed, trained := false, tries := 0 }).leaveService u

/-- `LANE_STAT_POLL`. -/
def execLaneStatPoll (n : Fin 48) (stat : LaneStat) (s : State) : Answer :=
  let p := s.pairs[n]
  if p.st = .training ∧ s.pwr.st = .up then .next (match stat with | some r => s.returnPoll n.val r | none => s.pollFails n.val true)
  else
    let scanOk := match s.scan.st with | .scanning | .updating | .exiting => true | _ => false
    if s.pwr.st ≠ .up ∨ !scanOk ∨ !(decide (n.val < s.boardNow.drivers)) then .next s
    else
      match stat with
      | none => .next (s.pollFails n.val true)
      | some r =>
        let v := r.stat
        let s := s.modPair n.val fun p => { p with pollFails := 0 }
        let c0 := bitsOf v.toNat 23 16
        let c1 := bitsOf v.toNat 31 24
        let add := fun (s : State) => s.modPair n.val fun p => { p with crcErr := BitVec.ofNat 16 (min 65535 (p.crcErr.toNat + c0 + c1)) }
        match p.st with
        | .aligned =>
          let s := add s
          if statGood v && c0 < 16 && c1 < 16 then .next s
          else
            .next ((s.modPair n.val fun p =>
              { p with st := .realign, trained := false, losses := BitVec.ofNat 8 (min 255 (p.losses.toNat + 1)) }).report 0x0F02 0x2A
                (n.val / 2 * 2 ^ 40 + n.val * 2 ^ 32 + v.toNat))
        | .realign =>
          let s := add s
          if !p.trained ∨ s.tg0.line + 1 < s.vbl then .next s
          else if statGood v then
            .next ((s.modPair n.val fun p => { p with st := .aligned, fails := 0, trained := false }).report 0x0F04 0x2A
              (n.val / 2 * 2 ^ 40 + n.val * 2 ^ 32 + p.fails.toNat))
          else
            let f := min 15 (p.fails.toNat + 1)
            let s := s.modPair n.val fun p => { p with fails := BitVec.ofNat 4 f, trained := false }
            .next (if f = 8 then
              s.report 0x0F03 0x2A (n.val / 2 * 2 ^ 40 + n.val * 2 ^ 32 + v.toNat % 512) else s)
        | _ => .next s

/-- PANEL_STATUS (Table 16-7). -/
def State.panelStatus (s : State) : Nat :=
  let p := s.pwr
  let st := match p.st with | .down => 0 | .rising => 1 | .up => 2 | .falling => 3
  st * 2 ^ 30 + p.pgd.toNat * 2 ^ 24 + p.pen.toNat * 2 ^ 18 + p.dsch.toNat * 2 ^ 14 + s.emitEn.toNat * 2 ^ 13 + p.lightReq.toNat * 2 ^ 12
    + p.cleared.toNat * 2 ^ 11 + p.huReady.toNat * 2 ^ 10 + p.chgEn.toNat * 2 ^ 9 + p.pfailLatch.toNat * 2 ^ 8 + p.crackFail.toNat * 2 ^ 7

/-- The status word of a pair (Table 15-5). -/
def Pair.word (p : Pair) : Nat :=
  let st := match p.st with | .off => 0 | .training => 1 | .aligned => 2 | .realign => 3 | .failed => 4 | .held => 5
  p.crcErr.toNat * 65536 + p.losses.toNat * 256 + p.fails.toNat * 16 + st

end Sys2Proof.Machine
end

