-- ==== Sys2Proof/Machine/Protected.lean ====
section
/-! DEFINITION. The protected layer's choice of page, the words of a page and its buffer, the protected status and its items
(R147-R151, R157, R161, R417-R419, Tables 06-3, 06-5, 12-8). -/

namespace Sys2Proof.Machine

/-- PAGE as PROT_STATUS gives it (Table 06-5). -/
def Page.num : Page → Nat
  | .none => 0xF
  | .builtIn => 0xE
  | .page n => n

/-- The highest-numbered asserted pin (Table 06-3). -/
def topPin (pins : BitVec 4) : Option Nat := [3, 2, 1, 0].find? fun i => pins.getLsbD i

/-- PAGE_BIND of a pin: the page that the installed package binds it to. -/
def Pkg.bound (p : Pkg) (pin : Nat) : Option Nat :=
  match p.pinBind[pin]? with
  | some n => if n < p.pageCount then some n else none
  | none => none

/-- The page and SOURCE that Table 06-3 chooses at this moment. -/
def State.choosePage (s : State) : Page × BitVec 2 :=
  match topPin s.comp.pins with
  | some i =>
    match s.comp.pkg.bind fun p => p.bound i with
    | some n => (.page n, 1)
    | none => (.builtIn, 2)
  | none =>
    match s.comp.acts.reverse.find? fun a => s.ftLocked && decide (a.start ≤ s.fab.ft ∧ s.fab.ft < a.stop) with
    | some a => (.page a.page, 3)
    | none => (.none, 0)

/-- The word of wall hogel (X, Y), relative to the page, in a page at offset `o` of the body; colour limited to alpha (R416, R417). -/
def pageIndexWord (body : List Byte) (o x y : Nat) : Nat :=
  let pw := fieldAt body (o + 8) 2
  let cell := fieldAt body (o + 12) 1
  let j := y / cell * pw + x / cell
  let b := fieldAt body (o + 80 + j / 2) 1
  let v := fieldAt body (o + 16 + 4 * (if j % 2 = 0 then b / 16 else b % 16)) 4
  let a := bitsOf v 31 24
  a * 2 ^ 24 + min (bitsOf v 23 16) a * 2 ^ 16 + min (bitsOf v 15 8) a * 2 ^ 8 + min (bitsOf v 7 0) a

/-- The page word of hogel (hx, hy) of page `n` of a package, at the coordinates of its expansion (R417). -/
def Pkg.word (p : Pkg) (n hx hy : Nat) : Nat :=
  let o := fieldAt p.body (0x30 + 8 * n) 4
  let x : Int := ((p.col * p.nhx + hx : Nat) : Int) - fieldAt p.body o 4
  let y : Int := ((p.row * p.nhy + hy : Nat) : Int) - fieldAt p.body (o + 4) 4
  let pw := fieldAt p.body (o + 8) 2
  let ph := fieldAt p.body (o + 10) 2
  let cell := fieldAt p.body (o + 12) 1
  if 0 ≤ x ∧ x < (pw * cell : Nat) ∧ 0 ≤ y ∧ y < (ph * cell : Nat) then pageIndexWord p.body o x.toNat y.toNat else 0

/-! ### Page buffers (R147, R151, R418) -/

/-- The device handle of page `n` of a set of page buffers (DESIGN CHOICE, log 11). -/
def pageHandle (set n : Nat) : Nat := 4064 + 8 * set + n

/-- The words of a page buffer, NHx × NHy in ARGB8888 (R147, R417). -/
def Pkg.pageBytes (p : Pkg) (n : Nat) : List Byte :=
  (List.range p.nhy).flatMap fun hy => (List.range p.nhx).flatMap fun hx => leBytes 4 (p.word n hx hy)

/-- Free the page buffers of a set. -/
def State.dropPages (s : State) (set : Nat) : State :=
  (List.range 8).foldl (fun (s : State) n =>
    match s.buf? (pageHandle set n) with
    | some b => ({ s with bufs := { s.bufs with table := s.bufs.table.filter fun e => e.1 != pageHandle set n } } : State).freeRange b
    | none => s) s

/-- A set of page buffers that neither the package in force nor a complete one takes. -/
def Comp.freeSet (c : Comp) : Nat :=
  ([0, 1, 2].find? fun k => !(c.pkg.any fun p => p.set == k) && !(c.pkgDone.any fun p => p.set == k)).getD 2

/-- Write the pages of a package into sealed buffers of a free set, through P18. A page for which DRAM has no room gets no buffer
(DESIGN CHOICE, log 11). -/
def State.expandPages (s : State) (p : Pkg) : State × Pkg :=
  let p := { p with set := s.comp.freeSet }
  ((List.range p.pageCount).foldl (fun (s : State) n =>
    let d := p.pageBytes n
    match s.place true d.length with
    | some a =>
      let h := pageHandle p.set n
      ({ s with bufs := { s.bufs with table := tabPut s.bufs.table h { base := a, len := d.length, owner := none, isSealed := true } } } : State).writeBuf
        h 0 d 18
    | none => s) s, p)

/-- The buffer of the package page that is shown. -/
def State.shownPage (s : State) : Option Buf :=
  match s.comp.page, s.comp.pkg with
  | .page n, some p => s.buf? (pageHandle p.set n)
  | _, _ => none

/-- The word of a hogel of the page shown, as it was written; 0 where none is (R147, R148, R157). -/
def State.pageWord (s : State) (hx hy : Nat) : Nat :=
  match s.comp.page with
  | .none => 0
  | .builtIn => 0xFF808080
  | .page n => match s.comp.pkg with | some p => p.word n hx hy | none => 0

/-- The sum that a correct frame gives (R157). -/
def State.expectSum (s : State) (p : Plan) : BitVec 64 :=
  let sum := (List.range p.nhy).foldl (fun a hy =>
    (List.range p.nhx).foldl (fun a hx => a + (s.pageWord hx hy ^^^ (hy * p.nhx + hx))) a) 0
  BitVec.ofNat 64 (p.hh * p.hv * sum)

/-- PROT_STATUS (Table 06-5). -/
def State.protStatus (s : State) : Nat :=
  let c := s.comp
  c.laneAlive.toNat * 2 ^ 24 + c.failRun.toNat * 2 ^ 16 + c.lightHeld.toNat * 2 ^ 15 + c.verified.toNat * 2 ^ 14
    + c.source.toNat * 2 ^ 12 + c.pins.toNat * 2 ^ 8 + c.pkg.isSome.toNat * 2 ^ 7 + c.page.num

/-- Post item 0x53 with its vector (Table 12-8, R513). -/
def State.protItem (s : State) (event frame : Nat) : State :=
  (s.post41 (leBytes 16 (0x53 + event * 256 + s.comp.page.num * 4096 + s.protStatus * 2 ^ 32 + frame % 2 ^ 64 * 2 ^ 64))).raise 56

/-- Bring the chosen page into force for the frame in composition; a change posts its item and NOTICE (R151, Table 12-8). -/
def State.setPage (s : State) (frame : Nat) : State :=
  let (page, src) := s.choosePage
  let changed := page != s.comp.page
  let s := { s with comp := { s.comp with page := page, source := src, chosen := true } }
  if changed then (s.protItem 0 frame).event 7 else s

end Sys2Proof.Machine
end

