-- ==== Sys2Proof/Machine/Trim.lean ====
section
/-! DEFINITION. Flash, trim records and the board table, staging and applying, temperatures as `TREAD` gives them, host flash
operations, device-initiated writes, the lifetime block (R483, R484, R488-R495, R512, R514). -/

namespace Sys2Proof.Machine

/-! ### Flash bytes (R514; what is erased PRESUMED, log 14) -/

/-- Read flash bytes; a byte that nothing has programmed reads as erased. -/
def Flash.read (f : Flash) (a n : Nat) : List Byte := (List.range n).map fun i => tabGet 0xFF f.bytes (a + i)

/-- Put bytes into the flash. -/
def Flash.write (f : Flash) (a : Nat) (d : List Byte) : Flash :=
  { f with bytes := (d.foldl (fun (x : List (Nat × Byte) × Nat) b => (tabSet 0xFF x.1 x.2 b, x.2 + 1)) (f.bytes, a)).1 }

/-- Erase a range. -/
def Flash.erase (f : Flash) (lo hi : Nat) : Flash := { f with bytes := tabClear f.bytes lo hi }

/-- Address of copy A (false) or B of a kind: 1 TRIM, 2 BOARD (Table 22-7). -/
def recordAt (kind : Nat) (b : Bool) : Nat := 0x2000000 + (kind - 1) * 8192 + b.toNat * 4096

/-- Change the flash. -/
def State.modFlash (s : State) (f : Flash → Flash) : State := { s with flash := f s.flash }

/-! ### Records (R488, R489, R492, R493) -/

/-- Bytes `lo` up to `hi` are zero. -/
def zeros (b : List Byte) (lo hi : Nat) : Bool := zeroAt b lo (hi - lo)

/-- A u16 trim word read as s16. -/
def s16 (x : BitVec 32) : Int := signed 16 x.toNat

/-- Word `i` is within its field and range (Table 21-2). -/
def trimWordOk (i : Nat) (x : BitVec 32) : Bool :=
  let v := x.toNat
  if i < 24 then v < 65536 && decide (-128 ≤ s16 x ∧ s16 x ≤ 128)
  else if i = 24 then v < 64
  else if i = 25 then v < 256
  else if i = 26 then v < 16
  else if i < 32 then v < 32
  else if i = 32 then v < 4
  else if i < 40 then v == 0
  else if i < 46 then v < 65536
  else if i = 46 then v < 16
  else false

/-- The default of a word: its fuse word for words 0 to 32, the default of Table 20-2 for the thermal set (R492). -/
def trimDefault (i : Nat) : BitVec 32 :=
  if i ≤ 32 then
    let v := (Config.fuseTrim i).toNat
    BitVec.ofNat 32 (v % (if i < 24 then 65536 else if i = 24 then 64 else if i = 25 then 256 else if i = 26 then 16
      else if i < 32 then 32 else 4))
  else Trim.thermalDefault i

/-- Word `i` with a record in force. -/
def TrimRec.word (r : Option TrimRec) (i : Nat) : BitVec 32 :=
  match r with
  | some r => if r.mask.getLsbD i then r.words.getD i 0 else trimDefault i
  | none => trimDefault i

/-- The thermal words keep to Table 20-2. -/
def thermalOk (f : Nat → BitVec 32) : Bool :=
  let v := fun i => s16 (f i)
  let within := fun x lo hi => decide (16 * lo ≤ x ∧ x ≤ (16 * hi : Int))
  within (v 40) 60 145 && decide (v 40 + 80 ≤ v 41) && decide (v 41 ≤ 2400)
    && within (v 42) 40 105 && within (v 43) 40 105 && decide (v 42 + 32 ≤ v 43)
    && within (v 44) 30 90 && within (v 45) 30 90 && decide (v 44 + 32 ≤ v 45)

/-- The frame of a record but for SEQ and CHECK (Table 21-1). -/
def frameOk (b : List Byte) (kind : Nat) : Bool :=
  fieldAt b 0 4 == 0x4D495254 && fieldAt b 4 1 == kind && fieldAt b 5 1 == 1 && zeros b 6 8 && zeros b 12 16

/-- The TRIM body. -/
def trimOf (b : List Byte) : TrimRec :=
  { mask := BitVec.ofNat 64 (fieldAt b 0x10 8), words := (List.range 64).map fun i => BitVec.ofNat 32 (fieldAt b (0x20 + 4 * i) 4) }

/-- A TRIM body in range: masked words, reserved bytes, the thermal set after the merge. -/
def trimOk (b : List Byte) : Bool :=
  let r := trimOf b
  ((List.range 64).all fun i => !(r.mask.getLsbD i) || trimWordOk i (r.words.getD i 0))
    && zeros b 0x18 0x20 && zeros b 0x120 0xFFC && thermalOk (TrimRec.word (some r))

/-- The BOARD body. -/
def boardOf (b : List Byte) : Board :=
  let f := fun o n => fieldAt b o n
  let bytes := fun o n => (bytesAt b o n).map BitVec.toNat
  let words := fun o n => (List.range n).map fun i => f (o + 2 * i) 2
  { density := f 0x10 1, capar := (f 0x11 1).testBit 0, idleSr := (f 0x11 1).testBit 1, crackEn := (f 0x11 1).testBit 2
    rate := f 0x12 2, drivers := f 0x14 1, pmbMhz := f 0x15 1, chgTime := f 0x16 2, used := BitVec.ofNat 6 (f 0x18 1)
    gckRise := f 0x1A 2, goeOn := f 0x1C 2, goeOff := f 0x1E 2, pgdTmo := bytes 0x20 6, dlyUp := bytes 0x26 6
    dlyDown := bytes 0x2C 6, trem := (List.range 4).map fun i => f (0x40 + 16 * i) 1, cs := bytes 0x80 48
    panelPol := BitVec.ofNat 96 (f 0xC0 12), fabPol := BitVec.ofNat 64 (f 0xD0 8), panelEq := words 0x100 96
    fabEq := words 0x1C0 64, dqMap := bytes 0x240 640, tremRaw := bytesAt b 0x40 64 }

/-- The constants of a remote input suit its type (Table 21-4). -/
def tremOk (b : List Byte) (i : Nat) : Bool :=
  let o := 0x40 + 16 * i
  let f := fun k n => fieldAt b (o + k) n
  let ty := f 0 1
  f 1 1 == 0 && f 6 2 == 0
    && (ty == 0 || (ty == 1 && decide (9500 ≤ f 2 2 ∧ f 2 2 ≤ 11000))
      || (ty == 2 && decide (1000 ≤ f 4 2 ∧ f 4 2 ≤ 10000) && decide (100 ≤ f 8 4 ∧ f 8 4 ≤ 1000000)
        && decide (100 ≤ f 12 4 ∧ f 12 4 ≤ 1000000)))

/-- Each group of eight logical pins is a permutation (Table 21-4). -/
def dqOk (l : List Nat) : Bool :=
  l.all (· < 8) && (List.range 80).all fun g =>
    let x := (l.drop (8 * g)).take 8
    (List.range 8).all fun d => x.contains d

/-- A BOARD body in range. -/
def boardOk (b : List Byte) : Bool :=
  let x := boardOf b
  (x.density == 16 || x.density == 32) && fieldAt b 0x11 1 < 8 && [6400, 7200, 8000, 8800, 9600].contains x.rate
    && decide (1 ≤ x.drivers ∧ x.drivers ≤ 48) && decide (1 ≤ x.pmbMhz ∧ x.pmbMhz ≤ 25) && decide (1 ≤ x.chgTime ∧ x.chgTime ≤ 600)
    && fieldAt b 0x18 1 < 64 && 8 ≤ x.gckRise && x.gckRise + 8 ≤ x.goeOn && x.goeOn < x.goeOff && x.goeOff ≤ 782
    && x.pgdTmo.all (fun v => decide (1 ≤ v ∧ v ≤ 100)) && x.dlyUp.all (· ≤ 100) && x.dlyDown.all (· ≤ 100)
    && (List.range 4).all (tremOk b) && x.cs.all (· < 64) && decide ((x.cs.take x.drivers).Nodup)
    && x.panelEq.all (· < 4096) && x.fabEq.all (· < 4096) && dqOk x.dqMap
    && zeros b 0x19 0x1A && zeros b 0x32 0x40 && zeros b 0xB0 0xC0 && zeros b 0xCC 0xD0 && zeros b 0xD8 0x100 && zeros b 0x4C0 0xFFC

/-- The body of a kind is in range. -/
def bodyOk (kind : Nat) (b : List Byte) : Bool := if kind = 1 then trimOk b else boardOk b

/-- A copy in flash is valid (R489). -/
def recordValid (kind : Nat) (b : List Byte) : Bool :=
  frameOk b kind && fieldAt b 0xFFC 4 == crc32c (b.take 0xFFC) && bodyOk kind b

/-- SEQ `a` is newer than, or as new as, SEQ `b` (R489). -/
def seqNewer (a b : Nat) : Bool := decide (0 ≤ signed 32 (a + 2 ^ 32 - b))

/-- The newest valid copy of a kind: which one, and its bytes (R489). -/
def Flash.newest (f : Flash) (kind : Nat) : Option (Bool × List Byte) :=
  let a := f.read (recordAt kind false) 4096
  let b := f.read (recordAt kind true) 4096
  match recordValid kind a, recordValid kind b with
  | true, true => if seqNewer (fieldAt a 8 4) (fieldAt b 8 4) then some (false, a) else some (true, b)
  | true, false => some (false, a)
  | false, true => some (true, b)
  | false, false => none

/-- Write a record of a kind under R490: into the copy that does not hold the newest. A failed read-back leaves that copy erased
(DESIGN CHOICE, log 14). -/
def State.writeRecord (s : State) (kind : Nat) (b : List Byte) (readBack : Bool) : State :=
  let now := s.flash.newest kind
  let copy := match now with | some (c, _) => !c | none => false
  let seq := match now with | some (_, x) => (fieldAt x 8 4 + 1) % 2 ^ 32 | none => 1
  let body := b.take 8 ++ leBytes 4 seq ++ (b.drop 12).take (0xFFC - 12)
  let at' := recordAt kind copy
  let s := s.modFlash fun f => f.erase at' (at' + 4096)
  if readBack then s.modFlash fun f => f.write at' (body ++ leBytes 4 (crc32c body))
  else s.report 0x1504 0x03 (kind * 256 + copy.toNat)

/-! ### Temperatures (R473, R474, R483) -/

/-- A remote input has a sensor (Table 21-4). -/
def State.fitted (s : State) (k : Nat) : Bool := k < 24 || s.trim.board.trem.getD (k - 24) 0 != 0

/-- The flash write window is open (R483). -/
def State.flashWindow (s : State) : Bool :=
  let ok := fun k lo hi =>
    let x := vget s.therm.sensors k
    match x.temp with
    | some t => decide (16 * lo ≤ t ∧ t ≤ (16 * hi : Int))
    | none => false
  ((List.range 24).all fun k => (vget s.therm.sensors k).bad || ok k (-20) 110)
    && s.fitted 24 && !(vget s.therm.sensors 24).bad && ok 24 (-20) 85

/-! ### Staging and applying (R494, R495) -/

/-- Change the trim store. -/
def State.modTrim (s : State) (f : Trim → Trim) : State := { s with trim := f s.trim }

/-- `TRIMSTAGE`: STORE is FN bit 0. -/
def execTrimstage (t : Tid) (w : IWord) (readBack : Bool) (s : State) : Answer :=
  .next (s.issueBlock t w fun s => s.orFault t do
    let b := w.block (s.thread t) 16
    let kind := fieldAt b 0 1
    let h := fieldAt b 2 2
    let off := fieldAt b 8 8
    let store := w.fn.getLsbD 0
    need (h < 4096) 0x20
    let buf ← s.checkOpen t h
    need ((kind == 1 || kind == 2) && zeros b 1 2 && zeros b 4 8) 0x20
    buf.within off 4096
    let u : Use := { units := [.trim], handles := [h], reads := [.ofBytes h off 4096] }
    return s.startUnit t (.trimstage t w readBack) u fun s =>
      if store && !s.flashWindow then s.fault t .state 0x18
      else
        let (s, d) := s.readBuf buf off 4096
        match d with
        | none => s.toUnit t w (some (.code 0x80))
        | some d =>
          if !(frameOk d kind && bodyOk kind d) then s.toUnit t w (some (.code 0x80))
          else
            let s := s.modTrim fun x =>
              if kind = 1 then { x with stagedTrim := some (trimOf d, d) } else { x with stagedBoard := some (boardOf d, d) }
            if store then (s.writeRecord kind d readBack).toUnit t w (some (.code (if readBack then 0 else 0x81)))
            else s.toUnit t w (some (.code 0)))

/-- A word that comes into force at a frame boundary (Table 21-2). -/
def boundaryWord (i : Nat) : Bool := i < 24 || (40 ≤ i && i ≤ 46)

/-- Bring every staged record into force, and clear them (R495, Table 21-5). -/
def State.applyTrim (s : State) : State :=
  let old := s.trim.words
  let words := match s.trim.stagedTrim with
    | some (r, _) => Vector.ofFn fun i : Fin 64 => if boundaryWord i.val then TrimRec.word (some r) i.val else old[i]
    | none => old
  let thr := Vector.ofFn fun i : Fin 6 =>
    let x := s.therm.thr[i]
    if vget old (40 + i.val) = vget words (40 + i.val) ∧ vget old 46 = vget words 46 then x else { x with upRun := 0, downRun := 0 }
  let s := match s.trim.stagedBoard with
    | some (b, _) => s.modTrim fun x => { x with board := b }
    | none => s
  { s with trim := { s.trim with words := words, stagedTrim := none, stagedBoard := none }, therm := { s.therm with thr := thr } }

/-- A `TRIMAPPLY` that waits takes effect at a period start. -/
def State.applyDue (s : State) : State :=
  match s.trim.applyTo with
  | some who => (({ s with trim := { s.trim with applyTo := none } } : State).applyTrim).deliver who (.code 0)
  | none => s

/-- `TRIMAPPLY`: at the next period start, at once while no plan is in force. -/
def execTrimapply (t : Tid) (w : IWord) (s : State) : Answer :=
  .next (s.issue t 1 fun s =>
    s.startUnit t (.trimapply t w) { units := [.trim] } fun s =>
      if s.trim.stagedTrim = none ∧ s.trim.stagedBoard = none then s.fault t .state 0x19
      else if s.plan?.isNone then s.applyTrim.toUnit t w (some (.code 0))
      else (s.modTrim fun x => { x with applyTo := some (.thread t) }).toUnit t w none)

/-- `TREAD`: TRIM is FN bit 0. A sensor whose last sample is not valid has no temperature stated: a free value (DESIGN CHOICE, log 10). -/
def execTread (t : Tid) (w : IWord) (s : State) : Answer :=
  .next (s.issue t 1 fun s =>
    let n := ((s.thread t).reg w.ra).toNat
    if w.fn.getLsbD 0 then
      if 63 < n then s.fault t .state 0x20
      else s.startUnit t (.tread t w) {} fun s => s.toUnit t w (some (.codeRc 0 (vget s.trim.words n).toNat))
    else if 27 < n then s.fault t .state 0x20
    else
      s.startUnit t (.tread t w) {} fun s =>
        if !(s.fitted n) then s.toUnit t w (some (.code 0x82))
        else
          let x := vget s.therm.sensors n
          match x.bad, x.temp with
          | false, some v => s.toUnit t w (some (.codeRc 0 (wrapInt 64 v)))
          | _, _ => let (s, v) := s.freshValue; s.toUnit t w (some (.codeRc 0 v.toNat)))

/-! ### Host flash operations in PROGRAM mode (R512, Table 22-5) -/

/-- Change the host registers. -/
def State.modHost (s : State) (f : HostIf → HostIf) : State := { s with host := f s.host }

/-- A write of FLASH_CMD: OP and LEN take the value written. It starts operation `op` when OP names it; one that cannot run ends at once
with its RESULT. While BUSY is set, and with OP 3, which no operation has, nothing starts (Table 22-5; DEDUCED, log 32). -/
def State.flashStart (s : State) (v : BitVec 32) (op : Nat) : State :=
  let o := bitsOf v.toNat 15 14
  let len := bitsOf v.toNat 12 0
  let cmd := BitVec.ofNat 32 (o * 2 ^ 14 + len)
  if s.boot.mode ≠ 2 ∨ (o ≠ op ∧ o ≠ 3) then s
  else if s.host.busy ∨ o = 3 then s.modHost fun h => { h with flashCmd := cmd }
  else
    let a := s.host.flashAddr.toNat
    let ok := match op with
      | 0 => decide (1 ≤ len ∧ len ≤ 4096 ∧ a + len ≤ 2 ^ 27)
      | 2 => decide (1 ≤ len ∧ a % 256 + len ≤ 256)
      | _ => true
    if !ok then s.modHost fun h => { h with flashCmd := cmd, result := 3 }
    else if op ≠ 0 ∧ !s.flashWindow then s.modHost fun h => { h with flashCmd := cmd, result := 1 }
    else s.modHost fun h => { h with flashCmd := cmd, busy := true, flashRun := cmd, flashAt := h.flashAddr }

/-- `FLASH_READ`. -/
def execFlashRead (v : BitVec 32) (s : State) : Answer := .next (s.flashStart v 0)

/-- `FLASH_ERASE`. -/
def execFlashErase (v : BitVec 32) (s : State) : Answer := .next (s.flashStart v 1)

/-- `FLASH_PROGRAM`. -/
def execFlashProgram (v : BitVec 32) (s : State) : Answer := .next (s.flashStart v 2)

/-- Stored documents whose area a host write touches are no longer valid copies (Table 22-7; DESIGN CHOICE, log 14). -/
def Flash.touch (f : Flash) (lo hi : Nat) : Flash :=
  let hit := fun a n => decide (lo < a + n ∧ a < hi)
  let drop := fun (v : Vector (Option FlashDoc) 2) a n =>
    Vector.ofFn fun i : Fin 2 => if hit (a + i.val * n) n then none else v[i]
  { f with roster := drop f.roster 0x2020000 262144, pkg := drop f.pkg 0x2800000 8388608, life := drop f.life 0x2004000 4096 }

/-- `FLASH_OPERATION_DONE`: the operation ends. A page that does not verify holds free values (DESIGN CHOICE, log 10). -/
def execFlashOperationDone (verified : Bool) (s : State) : Answer :=
  if !s.host.busy then .next s
  else
    let op := bitsOf s.host.flashRun.toNat 15 14
    let len := bitsOf s.host.flashRun.toNat 12 0
    let a := s.host.flashAt.toNat
    let stop := fun (s : State) (r : BitVec 3) => s.modHost fun h => { h with busy := false, result := r }
    match op with
    | 0 =>
      let d := s.flash.read a len
      let buf := (d.foldl (fun (x : List (Nat × Byte) × Nat) b => (tabSet 0 x.1 x.2 b, x.2 + 1)) (s.host.flashBuf, 0)).1
      .next (stop (s.modHost fun h => { h with flashBuf := buf }) 0)
    | 1 =>
      let lo := a / 4096 * 4096
      .next (stop (s.modFlash fun f => (f.erase lo (lo + 4096)).touch lo (lo + 4096)) 0)
    | _ =>
      let d := (List.range len).map fun i => tabGet 0 s.host.flashBuf i
      if verified then .next (stop (s.modFlash fun f => (f.write a d).touch a (a + len)) 0)
      else
        let (s, v) := s.freshValues len
        .next (stop (s.modFlash fun f => (f.write a (v.map (·.setWidth 8))).touch a (a + len)) 2)

/-! ### Device-initiated writes (R407, R483, R490) -/

/-- The copies of a kind: 1 roster, 2 package, 3 lifetime. -/
def Flash.docs (f : Flash) (kind : Nat) : Vector (Option FlashDoc) 2 := if kind = 1 then f.roster else if kind = 2 then f.pkg else f.life

/-- Put a copy. -/
def Flash.putDoc (f : Flash) (kind : Nat) (b : Bool) (d : Option FlashDoc) : Flash :=
  let i : Fin 2 := if b then 1 else 0
  if kind = 1 then { f with roster := f.roster.set i d } else if kind = 2 then { f with pkg := f.pkg.set i d }
  else { f with life := f.life.set i d }

/-- The newest valid copy of a document (R489, R490). -/
def newestDoc (v : Vector (Option FlashDoc) 2) : Option (Bool × FlashDoc) :=
  match v[0].filter (·.valid), v[1].filter (·.valid) with
  | some a, some b => if seqNewer a.seq.toNat b.seq.toNat then some (false, a) else some (true, b)
  | some a, none => some (false, a)
  | none, some b => some (true, b)
  | none, none => none

/-- Begin the write of a copy: the one that does not hold the newest is erased. -/
def State.beginDoc (s : State) (kind : Nat) (data : List Byte) : State :=
  let copy := match newestDoc (s.flash.docs kind) with | some (c, _) => !c | none => false
  s.modFlash fun f => { f.putDoc kind copy none with running := some (kind, copy, data) }

/-- A device-initiated write: it begins in an open window, and is deferred with its record outside it (R483). -/
def State.storeDoc (s : State) (kind : Nat) (data : List Byte) : State :=
  if s.flash.running.isNone ∧ s.flashWindow then s.beginDoc kind data
  else
    let s := s.modFlash fun f => { f with deferred := (f.deferred.filter fun d => d.1 != kind) ++ [(kind, data)] }
    if s.flashWindow then s else s.report 0x1406 0x01 kind

/-- The next deferred write begins. -/
def State.nextDoc (s : State) : State :=
  match s.flash.deferred with
  | (kind, data) :: r =>
    if s.flash.running.isNone ∧ s.flashWindow then (s.modFlash fun f => { f with deferred := r }).beginDoc kind data else s
  | [] => s

/-- `FLASH_WINDOW_OPEN`. -/
def execFlashWindowOpen (s : State) : Answer := .next s.nextDoc

/-- `FLASH_RECORD_WRITE_DONE`: the new copy holds, or record 0x1504. -/
def execFlashRecordWriteDone (ok : Bool) (s : State) : Answer :=
  match s.flash.running with
  | none => .next s
  | some (kind, copy, data) =>
    let seq := match newestDoc (s.flash.docs kind) with | some (_, d) => d.seq + 1 | none => 1
    let s := s.modFlash fun f => { f with running := none }
    let s := if ok then s.modFlash fun f => f.putDoc kind copy (some ⟨seq, data, true⟩)
      else s.report 0x1504 0x03 ((kind + 2) * 256 + copy.toNat)
    .next s.nextDoc

/-! ### Lifetime (R484) -/

/-- The band of a reading. -/
def lifeBand (t : Int) : Nat := if t < 1360 then 0 else if t < 1680 then 1 else if t < 2000 then 2 else if t < 2240 then 3 else 4

/-- LIFE_USED. -/
def Life.lifeUsed (l : Life) : Nat := l.lifeEq.toNat * 1000000 / 4043304000

/-- The lifetime block of 64 bytes (Table 20-4). -/
def Life.bytes (l : Life) : List Byte :=
  leBytes 8 l.powerOnS.toNat ++ leBytes 8 l.lifeEq.toNat ++ l.band.toList.flatMap (fun c => leBytes 4 c.toNat)
    ++ leBytes 4 (min l.lifeUsed (2 ^ 32 - 1))
    ++ ([l.warnX, l.throtX, l.remoteX, l.trips, l.pfails, l.powerCycles].flatMap fun c => leBytes 4 c.toNat)

/-- A stored block. -/
def Life.ofBytes (b : List Byte) : Life :=
  let c := fun o => BitVec.ofNat 32 (fieldAt b o 4)
  { powerOnS := BitVec.ofNat 64 (fieldAt b 0 8), lifeEq := BitVec.ofNat 64 (fieldAt b 8 8)
    band := Vector.ofFn fun i => c (0x10 + 4 * i.val), warnX := c 0x28, throtX := c 0x2C, remoteX := c 0x30, trips := c 0x34
    pfails := c 0x38, powerCycles := c 0x3C }

/-- The hottest valid junction reading with its sensor, the lowest-numbered among equals. -/
def State.hottest (s : State) (ks : List Nat) : Option (Nat × Int) :=
  ks.foldl (fun (m : Option (Nat × Int)) k =>
    let x := vget s.therm.sensors k
    match x.bad, x.temp with
    | false, some t => (match m with | some (_, u) => if u < t then some (k, t) else m | none => some (k, t))
    | _, _ => m) none

/-- A saturating add of 64 bits. -/
def satAdd64 (x : BitVec 64) (n : Nat) : BitVec 64 := BitVec.ofNat 64 (min (2 ^ 64 - 1) (x.toNat + n))

/-- `LIFETIME_TICK`: one second. -/
def execLifetimeTick (s : State) : Answer :=
  let l := { s.life with powerOnS := satAdd64 s.life.powerOnS 1 }
  match s.hottest (List.range 24) with
  | none => .next { s with life := l }
  | some (_, t) =>
    let b := lifeBand t
    let weight := [2, 5, 10, 25, 50].getD b 0
    .next { s with life := { l with lifeEq := satAdd64 l.lifeEq weight, band := vmodN l.band b fun c => c.bump } }

/-- `LIFETIME_STORE`: once per hour of power-on time. -/
def execLifetimeStore (s : State) : Answer :=
  if s.therm.tripped then .next s else .next (s.storeDoc 3 s.life.bytes)

end Sys2Proof.Machine
end

