-- ==== Sys2Proof/Machine/Registers.lean ====
section
/-! DEFINITION. What the host reads in BAR0: the status words and blocks, and their places (R336, R423, R461, R486, R512;
Tables 13-7, 17-14, 18-10, 18-11, 20-6, 22-4, 22-5), and in the queue windows of BAR2 (R304, Table 12-5). No command of the table
reads them; the reads are here for claims. -/

namespace Sys2Proof.Machine

/-- BOOT_STATUS (Table 22-5). -/
def Boot.status (b : Boot) : Nat :=
  b.stage.toNat * 2 ^ 24 + b.stopped.toNat * 2 ^ 16 + b.mode.toNat * 2 ^ 14 + b.origin.toNat * 2 ^ 13 + b.ingest.toNat * 2 ^ 12
    + b.image.toNat * 2 ^ 11 + b.link.toNat * 2 ^ 10 + b.lastReset.toNat * 2 ^ 8

/-- THREAD_STATE (Table 22-5). -/
def State.threadStates (s : State) : Nat :=
  ((List.finRange 8).map fun t =>
    (match (s.thread t).st with | .idle => 0 | .running => 1 | .waiting => 2 | .faulted => 3) * 4 ^ t.val).sum

/-- SEC_STATUS (Table 17-14). -/
def State.secStatus (s : State) : Nat :=
  let own := if s.enrolled then 2 else if s.owned then 1 else 0
  let slot := match s.ownerSlot with | some n => n | none => 15
  let keys := (s.sec.keys.filter fun k => k.2.cur.isSome).length
  own * 2 ^ 30 + Bool.toNat s.sec.debug * 2 ^ 29 + s.clearOk.toNat * 2 ^ 28 + slot * 2 ^ 24 + s.sec.fwSvn * 2 ^ 16 + s.sec.bootSvn * 2 ^ 8
    + keys % 64

/-- Level of a class: 0 none, 1 warn, 2 throttle confirmed (Table 20-6). -/
def State.level (s : State) (c : Fin 3) : Nat := if s.throttle c then 2 else if s.warn c then 1 else 0

/-- THERM_STATUS (Table 20-6). -/
def State.thermStatus (s : State) : Nat :=
  let (k, t) := (s.hottest (List.range 24)).getD (0, 0)
  wrapInt 16 t * 65536 + s.therm.trippedLast.toNat * 2 ^ 15 + s.therm.fast.toNat * 2 ^ 14 + s.level 0 * 2 ^ 12
    + s.level 1 * 2 ^ 10 + s.level 2 * 2 ^ 8 + s.flashWindow.toNat * 2 ^ 7 + s.pwr.chgWin.toNat * 2 ^ 6 + k

/-- FAB_STATUS (Table 18-11). -/
def State.fabStatus (s : State) : Nat :=
  let f := s.fab
  let bits := fun (p : Port → Bool) => ((List.range 8).map fun i => if p (vget f.ports i) then 2 ^ i else 0).sum
  let st := match f.tstate with | .unlocked => 0 | .acquiring => 1 | .locked => 2 | .holdover => 3 | .planet => 4
  f.hops % 256 * 2 ^ 48 + st * 2 ^ 45 + f.coord.isSome.toNat * 2 ^ 44 + s.boot.origin.toNat * 2 ^ 43 + f.planet.getD 0 % 4096 * 2 ^ 28
    + (s.node?.getD 0) % 4096 * 2 ^ 16 + bits (fun p => p.link == .authenticated) * 256 + bits (fun p => p.st == .up)

/-- The status of a fabric port, 64 bytes (Table 18-10). -/
def Port.status (p : Port) : List Byte :=
  leBytes 1 p.st.num ++ leBytes 1 p.lanes ++ leBytes 1 (match p.link with | .none => 0 | .restricted => 1 | .authenticated => 2)
    ++ leBytes 1 p.fails ++ leBytes 4 p.widthChanges.toNat ++ (p.ctr.toList.flatMap fun c => leBytes 4 c.toNat)
    ++ leBytes 4 p.groupDrop.toNat ++ leBytes 4 p.clsDrop.toNat

/-- The DRAM status block, 512 bytes (Table 13-7). -/
def Dram.status (d : Dram) : List Byte :=
  let c := fun (x : Count) => leBytes 4 x.toNat
  leBytes 2 d.rate ++ leBytes 1 d.density ++ leBytes 1 (d.capar.toNat + 2 * d.idleSr.toNat + 4 * (d.sr == .inSr).toNat) ++ c d.srEntries
    ++ c d.bar4Discard ++ c d.epochRetired ++ leBytes 48 0
    ++ (d.subs.toList.flatMap fun x => c x.ce ++ c x.ue ++ c x.tagFail ++ c x.replay)
    ++ d.urgent3.toList.flatMap c ++ d.throttle.toList.flatMap c

/-- A temperature as BAR0 gives it: 0x8000 when the sensor is absent or invalid (Table 22-4). -/
def State.tempWord (s : State) (k : Nat) : Nat :=
  let x := vget s.therm.sensors k
  match x.temp with
  | some t => if x.bad || !s.fitted k then 0x8000 else wrapInt 16 t
  | none => 0x8000

/-- The blocks of BAR0: offset and bytes, little-endian (Table 22-4). Offsets that no block covers are reserved. -/
def State.bar0 (s : State) : List (Nat × List Byte) :=
  let w := fun o n x => (o, leBytes n x)
  let c := fun (x : Count) => leBytes 4 x.toNat
  [w 0x0000 4 0x9616B100, w 0x0008 8 Config.serial.toNat, w 0x0010 4 s.boot.status, w 0x0020 16 s.err.lastChip.toNat,
    w 0x0030 8 s.err.total.toNat, w 0x0100 4 s.protStatus, w 0x0104 4 s.tgStatus, w 0x0108 4 s.panelStatus, w 0x010C 4 s.secStatus,
    w 0x0110 4 s.audStatus, w 0x0114 4 s.thermStatus, w 0x0118 8 s.fabStatus,
    (0x0120, c s.tg0.refLoss ++ c s.tg0.refGlitch ++ c s.tg0.phaseSteps),
    (0x0130, c s.comp.pageFail ++ c s.comp.codeFail ++ c s.comp.aliveFail ++ c s.comp.noticeGlitch),
    (0x0140, s.aud.counters.flatMap c), (0x0180, (List.range 28).flatMap fun k => leBytes 2 (s.tempWord k)),
    (0x0200, s.pairs.toList.flatMap fun p => leBytes 4 p.word), (0x0400, s.fab.ports.toList.flatMap Port.status),
    (0x0600, s.dram.status), (0x0800, s.life.bytes), w 0x1008 4 s.threadStates, w 0x1010 8 s.host.cause.toNat]
    ++ (if s.boot.mode = 2 then
          [w 0x4000 4 s.host.flashAddr.toNat,
            w 0x4004 4 (s.host.busy.toNat * 2 ^ 31 + s.host.result.toNat * 2 ^ 28 + s.host.flashCmd.toNat % 65536),
            (0x5000, (List.range 4096).map fun i => tabGet 0 s.host.flashBuf i)]
        else [])
    ++ [(0x8000, (List.range 1024).map s.host.msixByte), w 0x9000 8 s.host.pba.toNat]

/-- What a read of BAR0 gives at offset `o`: 0 for the write-only doorbells and for reserved offsets (R6, R7, R512). -/
def State.bar0Byte (s : State) (o : Nat) : Byte :=
  ((s.bar0.find? fun b => decide (b.1 ≤ o) && decide (o < b.1 + b.2.length)).map fun b => b.2.getD (o - b.1) 0).getD 0

/-- The bytes of `n` from place `k` on of a list, 0 beyond its end. -/
def windowOf (l : List Byte) (k n : Nat) : List Byte := (List.range n).map fun i => l.getD (k + i) 0

/-- What the host reads at offset `off` of a queue's window in BAR2: the status, and of a queue that it may read the length of the
oldest item, ITEM_BASE and the item's bytes from there; 0 elsewhere and while the window is closed (R304, Table 12-5). -/
def State.bar2 (s : State) (q : Fin 64) (off n : Nat) : List Byte :=
  let x := s.queues[q]
  let item := x.ready.headD []
  if !s.bar2Open q then List.replicate n 0
  else if off < 64 then windowOf (s.queueStatus q) off n
  else if !x.hostR then List.replicate n 0
  else if 0x201000 ≤ off ∧ off < 0x201008 then windowOf (leBytes 8 item.length) (off - 0x201000) n
  else if 0x201010 ≤ off ∧ off < 0x201018 then windowOf (leBytes 8 x.itemBase) (off - 0x201010) n
  else if 0x210000 ≤ off ∧ off < 0x310000 then windowOf item (x.itemBase + off - 0x210000) n
  else List.replicate n 0

end Sys2Proof.Machine
end

