-- ==== Sys2Proof/Machine/Reset.lean ====
section
/-! DEFINITION. The resets of the device: what each keeps and what it clears (R378, R421, R504-R507, R534, R543). -/

namespace Sys2Proof.Machine

/-! ### What each block keeps when every domain but the always-on one is reset (R506, R534) -/

/-- A thread in IDLE; scratch clears only at POR_N (R215; DEDUCED, log 28). -/
def Thread.kept (t : Thread) : Thread := { scratch := t.scratch }

/-- A queue as configured at reset, with its counters. -/
def Queue.keptOf (q : Queue) (i : Nat) : Queue :=
  let f := Queue.fixed i
  { f with lost := q.lost, resets := q.resets, partialDrop := q.partialDrop }

/-- Counts of a subchannel. -/
def SubCh.kept (c : SubCh) : SubCh := { ce := c.ce, ue := c.ue, tagFail := c.tagFail, replay := c.replay }

/-- Counts of the DRAM block; its contents are lost (R317, R336). -/
def Dram.kept (d : Dram) : Dram :=
  { srEntries := d.srEntries, bar4Discard := d.bar4Discard, epochRetired := d.epochRetired, urgent3 := d.urgent3
    throttle := d.throttle, subs := d.subs.map SubCh.kept }

/-- Counts of the protected path and the debounce of `NOTICE_IN` (R149, R162). -/
def Comp.kept (c : Comp) : Comp :=
  { noticeGlitch := c.noticeGlitch, pageFail := c.pageFail, codeFail := c.codeFail, aliveFail := c.aliveFail
    pins := c.pins, run1 := c.run1, run0 := c.run0, rise := c.rise }

/-- The identity of the panel, and the periods since POR_N (R166). -/
def OutPath.kept (o : OutPath) : OutPath := { panelId := o.panelId, count := o.count }

/-- Counts of TG0 (R344). -/
def Tg0.kept (t : Tg0) : Tg0 := { refLoss := t.refLoss, refGlitch := t.refGlitch, phaseSteps := t.phaseSteps }

/-- Counts of the audio block (R471). -/
def Aud.kept (a : Aud) : Aud :=
  { slipRepeat := a.slipRepeat, slipDrop := a.slipDrop, underrun := a.underrun, late := a.late, overrun := a.overrun
    resync := a.resync, refLoss := a.refLoss, refGlitch := a.refGlitch, inErr0 := a.inErr0, inErr1 := a.inErr1 }

/-- Counts of a pair; it is HELD by the response until the rails are down (R376, R385). -/
def Pair.kept (p : Pair) : Pair := { crcErr := p.crcErr, losses := p.losses, fails := p.fails, st := p.st }

/-- Counts of a port (R461). -/
def Port.kept (p : Port) : Port :=
  { ctr := p.ctr, widthChanges := p.widthChanges, groupDrop := p.groupDrop, clsDrop := p.clsDrop }

/-- Before a lock fabric time counts from POR_N; numbers of HELLO nonces are never used twice (R412, R449). -/
def Fab.kept (f : Fab) (now : Nat) : Fab :=
  { ports := f.ports.map Port.kept, ft := now, helloCount := f.helloCount }

/-- Fuses, and the stored SEQ of each KIND, which the flash holds (R395, R402; DEDUCED, log 28). -/
def Sec.kept (x : Sec) : Sec := { own := x.own, bootSvn := x.bootSvn, seqs := x.seqs }

/-- The flash: a write in progress is abandoned, deferred writes are lost (R480). -/
def Flash.kept (f : Flash) : Flash := { f with deferred := [], running := none }

/-- The trims in force in the always-on domain; staged records are lost (R494). -/
def Trim.kept (x : Trim) : Trim := { x with stagedTrim := none, stagedBoard := none, applyTo := none }

/-- ERR_TOTAL and LAST_CHIP (R506, R534). -/
def ErrLog.kept (e : ErrLog) : ErrLog := { total := e.total, lastChip := e.lastChip }

/-- Every domain but the always-on one is at its reset values (R480, R506). -/
def State.bare (s : State) : State :=
  { State.reset with
    pending := s.pending, now := s.now, free := s.free, nextOp := s.nextOp, threads := s.threads.map Thread.kept
    holds := s.holds.filter fun h => h.level == .hardware
    dram := s.dram.kept, queues := Vector.ofFn fun i => s.queues[i].keptOf i.val, comp := s.comp.kept, out := s.out.kept
    tg0 := s.tg0.kept, pairs := s.pairs.map Pair.kept, pwr := s.pwr, sec := s.sec.kept, fab := s.fab.kept s.now, aud := s.aud.kept
    therm := s.therm, life := s.life, trim := s.trim.kept, flash := s.flash.kept, err := s.err.kept
    boot := { mode := s.boot.mode, origin := s.boot.origin, ingest := s.boot.ingest, lastReset := s.boot.lastReset, fresh := s.boot.fresh } }

/-! ### Pins -/

/-- The straps are sampled and the cold boot is still to run (R504). -/
def Boot.sampled (x : Straps) (last : BitVec 2) : Boot :=
  { mode := x.bootMode, origin := x.origin, ingest := x.ingest, lastReset := last, fresh := true }

/-- `POR_N`: everything but fuses and flash; the panel outputs take the levels of R378 at once (R378, R481, R506). -/
def State.powerOnReset (s : State) (x : Straps) : State :=
  { State.reset with
    pending := s.pending, free := s.free, flash := s.flash.kept
    sec := { own := s.sec.own, bootSvn := s.sec.bootSvn, seqs := s.sec.seqs }
    fab := { helloCount := s.fab.helloCount }
    boot := Boot.sampled x 1 }

/-- `POR_N`. -/
def execPorN (x : Straps) (s : State) : Answer := .next (s.powerOnReset x)

/-- `VDD_AO_UNDERVOLTAGE` acts as POR_N (R543). -/
def execVddAoUndervoltage (x : Straps) (s : State) : Answer := .next (s.powerOnReset x)

/-- `SYS_RST_N`: steps 3 to 7 of Table 16-4, then every domain but the always-on one; ignored while tripped. It ends debug mode unless
a DEBUG document was accepted in this boot (R421, R506, R507). -/
def execSysRstN (x : Straps) (s : State) : Answer :=
  if s.therm.tripped then .next s
  else
    let t := (s.respond tripOp).bare
    .next { t with boot := Boot.sampled x 2, sec := { t.sec with debug := s.sec.debugArmed } }

end Sys2Proof.Machine
end

