-- ==== Sys2Proof/Machine/Plans.lean ====
section
/-! DEFINITION. Plan slots, commits, arming, the choice of the plan of a frame, and the plan instructions
(R193-R213, R261, R509, R530). -/

namespace Sys2Proof.Machine

/-! ### Slots -/

/-- Change a plan slot. -/
def State.modSlot (s : State) (i : Fin 8) (f : Slot → Slot) : State :=
  { s with plan := { s.plan with slots := vmod s.plan.slots i f } }

/-- A slot number in a register. -/
def slotOf (r : Reg) : Except Refused (Fin 8) := if h : r.toNat < 8 then .ok ⟨r.toNat, h⟩ else .error (.state, 0x20)

/-- Item 0x51 of Q41 (Table 12-8). -/
def State.planItem (s : State) (event : Nat) (trig : Option Nat) (slot : Fin 8) (adm : Nat) (id : BitVec 32) (frame : Nat) : State :=
  s.post41 (leBytes 16 (0x51 + event * 256 + trig.getD 15 * 4096 + slot.val * 65536 + adm * 2 ^ 24 + id.toNat * 2 ^ 32
    + frame % 2 ^ 64 * 2 ^ 64))

/-- The wall frame that the next period has (R166). -/
def State.nextFrame (s : State) : Nat := if s.plan.cur = none then s.out.count else s.wallFrame + 1

/-- Set the slot states by the roles of the plans: what is armed, what is in force, and their fall-backs (Table 08-4). -/
def State.restate (s : State) : State :=
  let fbOf := fun (i : Option (Fin 8)) => i.bind fun i =>
    let p := s.plan.slots[i].plan
    if p.hasFb then (if h : p.fbSlot < 8 then some (⟨p.fbSlot, h⟩ : Fin 8) else none) else none
  let disp := s.plan.next.any fun g => g.kind == .fallback
  let role : Fin 8 → SlotState := fun i =>
    if s.plan.prim = some i then .inForce
    else if fbOf s.plan.prim = some i then (if disp then .fbInForce else .standby)
    else if s.plan.armed = some i then .armed
    else if fbOf s.plan.armed = some i then .standby
    else .loaded
  { s with
    plan := { s.plan with
      slots := Vector.ofFn fun i => if s.plan.slots[i].st = .empty then s.plan.slots[i] else { s.plan.slots[i] with st := role i } } }

/-! ### The choice of R200 -/

/-- A unit that a trigger of row 1 names is still out of service (Table 08-10). -/
def State.unitsMissing (s : State) : Bool :=
  (s.svc.gallery.toList ++ s.svc.quad.toList).any fun u => u.forced && u.st != .inService

/-- The first active trigger of a plan, by row of Table 08-10. -/
def State.trigger (s : State) (sel : Plan) : Option Nat :=
  if s.anyThrottle then some 0
  else if s.plan.trig.getLsbD 1 && s.unitsMissing then some 1
  else if s.plan.trig.getLsbD 2 then some 2
  else if sel.outMode = 2 ∧ s.choosePage.1 ≠ .none then some 3
  else none

/-- The governing plan that a slot gives; a fall-back uses the copies that were made with those of its primary (R196). -/
def State.govOf (s : State) (kind : GovKind) (prim slot : Fin 8) (newly : Bool) : Gov :=
  let x := s.plan.slots[slot]
  { kind := kind, prim := prim, slot := slot, plan := if kind = .minimal then x.plan.minimal else x.plan, first := newly
    copies := if kind = .fallback then s.plan.slots[prim].fbCopies else x.copies
    banks := if newly then s.plan.slots[prim].banks else [] }

/-- What a use of the fall-back or of the minimal plan adds when it begins: record, item, event (R207, R213, R530). A fall-back that
takes over from the minimal plan with no trigger active has trigger 15 there (DESIGN CHOICE, log 37). -/
def State.useOther (s : State) (kind : GovKind) (trig : Option Nat) (sel : Fin 8) (adm n : Nat) : State :=
  let id := s.plan.slots[sel].plan.planId
  match kind with
  | .fallback => (s.report 0x0803 0x11 (trig.getD 15 * 2 ^ 32 + id.toNat)).planItem 2 trig sel 0 id n
  | .minimal => (((s.report 0x1707 0x11 (adm * 2 ^ 32 + id.toNat)).planItem 4 trig sel adm id n)).event 3
  | .primary => s

/-- Choose between the fall-back, the plan itself and the minimal plan when the plan selected may not simply run (R200). -/
def State.useFallback (s : State) (sel : Fin 8) (trig : Option Nat) (was : GovKind) (newly : Bool) (n : Nat) : State :=
  let p := s.plan.slots[sel].plan
  let set := fun (s : State) (k : GovKind) (slot : Fin 8) (adm : Nat) =>
    let s := { s with plan := { s.plan with prim := some sel, next := some (s.govOf k sel slot newly) } }
    if k = was then s
    else
      let s := if was = .primary then { s with plan := { s.plan with episode := false } } else s
      s.useOther k trig sel adm n
  match s.fbSlot p with
  | some f =>
    let c := s.recheck true f.plan
    if c = 0 then set s .fallback (Fin.ofNat 8 p.fbSlot) 0 else set s .minimal sel c
  | none => if s.recheck false p = 0 then set s .primary sel 0 else set s .minimal sel 0

/-- A newly selected plan has no lost unit: the trigger of row 1 named units of the plan before (Table 08-10). -/
def State.clearLost (s : State) : State :=
  let f := fun (u : SvcUnit) => { u with forced := false }
  { s with
    plan := { s.plan with trig := s.plan.trig &&& 0xD }
    svc := { gallery := s.svc.gallery.map f, quad := s.svc.quad.map f, port := s.svc.port.map f } }

/-- The choice of the plan for frame `n` once the plan selected is known (R200, R209). -/
def State.useSelected (s : State) (sel : Fin 8) (newly : Bool) (n : Nat) : State :=
  let p := s.plan.slots[sel].plan
  let was := if newly then .primary else match s.plan.next with | some g => g.kind | none => .primary
  let s := if newly then s.clearLost else s
  match s.trigger p with
  | some t => s.useFallback sel (some t) was newly n
  | none =>
    let run := fun (s : State) =>
      { s with plan := { s.plan with prim := some sel, next := some (s.govOf .primary sel sel newly) } }
    if was = .primary then run s
    else
      let c := s.recheck false p
      if c = 0 then (run s).planItem 3 none sel 0 p.planId n
      else
        let s := if s.plan.episode then s
          else { s.report 0x0802 0x11 (c * 2 ^ 32 + p.planId.toNat) with plan := { s.plan with episode := true } }
        s.useFallback sel none was newly n

/-- The arming point of frame `n` (R200). -/
def State.armingPoint (s : State) (n : Nat) : State :=
  let due := match s.plan.armedAt with | some f => decide (f ≤ n) | none => true
  let s := match s.plan.armed with
    | some a =>
      if !due then match s.plan.prim with | some p => s.useSelected p false n | none => s
      else
        let x := s.plan.slots[a].plan
        let c := s.recheckArmed x
        let s := { s with plan := { s.plan with armed := none, armedAt := none } }
        if c = 0 then s.useSelected a true n
        else
          let s := ((s.report 0x0801 0x11 (c * 2 ^ 32 + x.planId.toNat)).planItem 1 none a c x.planId n).event 3
          match s.plan.prim with | some p => s.useSelected p false n | none => s
    | none => match s.plan.prim with | some p => s.useSelected p false n | none => s
  s.restate

/-! ### Commit (R196, R199, R509) -/

/-- TG0 starts the schedule of the first plan (R340, R509). -/
def State.startTg0 (s : State) (p : Plan) : State :=
  (s.modTg0 fun g => { g with running := true, period := 0, src := p.tg0Src }).setDisc (if p.tg0Src = 2 then .free else .acquiring)

/-- Read the contents of a plan's banks; none where one is unreadable or breaks SIGN_EXT (R107). -/
def State.loadBanks (s : State) (p : Plan) : List Nat → State × Option (List (Nat × CoefBank))
  | [] => (s, some [])
  | b :: r =>
    match s.planBuf (p.src.getD b 0) 1024 with
    | none => (s, none)
    | some x =>
      let (s, d) := s.readBuf x 0 1024
      match d with
      | none => (s, none)
      | some d =>
        if !(bankOf d).2 then (s, none)
        else
          let (s, l) := s.loadBanks p r
          (s, l.map fun l => (b, (bankOf d).1) :: l)

/-- Read palettes and view masks of a plan's graphic layers; none where one is unreadable (R142, R143). -/
def State.loadGfx (s : State) (p : Plan) : List Nat → State × Option (List (Nat × List (BitVec 32)) × List (Nat × List Byte))
  | [] => (s, some ([], []))
  | g :: r =>
    let e := p.gfxLayer g
    let get := fun (s : State) (h n : Nat) => match s.planBuf h n with | some b => s.readBuf b 0 n | none => (s, none)
    let (s, pal) := if e.fmt = 1 then get s e.pal 1024 else (s, some [])
    match pal with
    | none => (s, none)
    | some pal =>
      let (s, mask) := get s e.mask 128
      match mask with
      | none => (s, none)
      | some mask =>
        let (s, l) := s.loadGfx p r
        (s, l.map fun l =>
          ((if e.fmt = 1 then [(g, (List.range 256).map fun i => BitVec.ofNat 32 (fieldAt pal (4 * i) 4))] else []) ++ l.1,
            (g, mask) :: l.2))

/-- The commit-time checks and loads of one plan: the copies, or the code of what failed (R196 step 2). -/
def State.loadCopies (s : State) (p : Plan) : State × Except Nat (Copies × List (Nat × CoefBank)) :=
  let (s, banks) := s.loadBanks p p.loads
  match banks with
  | none => (s, .error admCoef)
  | some banks =>
    let (s, gfx) := s.loadGfx p p.gfxOn
    match gfx with
    | none => (s, .error admGeom)
    | some (pals, masks) =>
      match s.planBuf p.ttBuf 2050 with
      | none => (s, .error admMap)
      | some b =>
        let (s, tt) := s.readBuf b 0 2050
        match tt with
        | none => (s, .error admMap)
        | some tt =>
          let (s, ok) := s.mapOk p true
          if ok then (s, .ok ({ tt := ttOf tt, pals := pals, masks := masks }, banks)) else (s, .error admMap)

/-- Arm a plan whose checks and loads have passed; a plan armed before is superseded (R196, R238). -/
def State.arm (s : State) (slot : Fin 8) (at' : Option Nat) (lvl : Level) (op : Nat) : State :=
  let s := match s.plan.armed with
    | some a =>
      let x := s.plan.slots[a].plan
      let f := (s.plan.armedAt.getD (s.nextFrame + 1))
      (s.planItem 0 none a 0 x.planId f).overruled .planSlots lvl op s.plan.armedBy.1 s.plan.armedBy.2
    | none => s
  let s := { s with plan := { s.plan with
    armed := some slot, armedAt := if s.plan.prim = none then none else at', armedBy := (lvl, op) } }
  if s.plan.prim = none then (s.armingPoint s.nextFrame).startTg0 s.plan.slots[slot].plan else s.restate

/-- Store the copies of a plan and of its fall-back in its slot. -/
def State.putCopies (s : State) (i : Fin 8) (c : Copies × List (Nat × CoefBank)) (fb : Copies) : State :=
  s.modSlot i fun x => { x with copies := c.1, banks := c.2, fbCopies := fb }

/-- `PLANCOMMIT` on a LOADED slot: checks, loads, arming; the code (R196, R199). -/
def State.commit (s : State) (slot : Fin 8) (at' : Option Nat) (lvl : Level) (op : Nat) : State × Nat :=
  let p := s.plan.slots[slot].plan
  let (s, code, _, _) := s.admission p
  if code ≠ 0 then (s, code)
  else
    match s.loadCopies p with
    | (s, .error c) => (s, c)
    | (s, .ok c) =>
      let (s, fb) := match s.fbSlot p with
        | some f => (match s.loadCopies f.plan with | (s, .error c) => (s, Except.error c) | (s, .ok c) => (s, .ok (some c)))
        | none => (s, .ok none)
      match fb with
      | .error c => (s, c)
      | .ok fb =>
        if s.plan.prim ≠ none ∧ at'.any (· ≤ s.wallFrame + 1) then (s, 0x40)
        else
          let s := s.putCopies slot c (match fb with | some f => f.1 | none => {})
          (s.arm slot at' lvl op, 0)

/-- The result of a commit as its thread sees it. -/
def commitDone (f : Bool) (code : Nat) : Done :=
  if f && code != 0 then { wrRd := false, flt := some (.admission, 0) } else .code code

/-- A `PLANCOMMIT` that may act: its guard, then the commit (R196, R250). -/
def State.commitJob (s : State) (slot : Fin 8) (at' : Option Nat) (f : Bool) : State × Done :=
  if s.plan.slots[slot].st ≠ .loaded then (s, { wrRd := false, flt := some (.state, 0x26) })
  else
    let (s, code) := s.commit slot at' .host 0x31
    (s, commitDone f code)

/-- What a `PLANCHK` or `PLANCOMMIT` of a slot names: its slots, and the buffers that it reads (R195, R196, R227). -/
def State.slotUse (s : State) (slot : Fin 8) (units : List CtrlUnit) : Use :=
  let l := s.pairReads s.plan.slots[slot].plan
  { dram := true, units := units, handles := (l.map (·.1)).eraseDups, reads := l.map fun r => .ofBytes r.1 r.2.1 r.2.2 }

/-! ### The instructions (R261) -/

/-- `PLANCHK`: RA the slot, RB and IMM where the report goes (R195). -/
def execPlanchk (t : Tid) (w : IWord) (s : State) : Answer :=
  .next (s.issue t 1 fun s => s.orFault t do
    let th := s.thread t
    let h := handleOf (th.reg w.rb)
    let off := w.imm.toNat
    if h ≠ 0 then
      let _ ← s.checkOpen t h
    let slot ← slotOf (th.reg w.ra)
    if h ≠ 0 then
      let _ ← s.checkStore t h off 512
    let u := s.slotUse slot [.slot slot.val]
    let u : Use := if h = 0 then u else { u with handles := h :: u.handles, writes := [.ofBytes h off 512] }
    return s.startUnit t (.planchk t w) u fun s =>
      if s.plan.slots[slot].st ≠ .loaded then s.fault t .state 0x26
      else
        let p := s.plan.slots[slot].plan
        let (s, code, det, fb) := s.admission p
        let s := if h = 0 then s else
          let (s, r) := s.admReport p code det fb
          s.writeBuf h off r
        s.toUnit t w (some (.code code)))

/-- `PLANCOMMIT`: AT is FN bit 0, F is FN bit 6 (R196, R261). -/
def execPlancommit (t : Tid) (w : IWord) (s : State) : Answer :=
  .next (s.issue t 1 fun s => s.orFault t do
    let th := s.thread t
    let slot ← slotOf (th.reg w.ra)
    let at' := if w.fn.getLsbD 0 then some (th.reg w.rb).toNat else none
    let f := w.fn.getLsbD 6
    let p := s.plan.slots[slot].plan
    let u := s.slotUse slot ([.slot slot.val] ++ if p.hasFb then [.slot p.fbSlot] else [])
    let guard := fun (s : State) (k : State → State) =>
      if s.plan.slots[slot].st ≠ .loaded then s.fault t .state 0x26 else s.hostOrder t .planSlots 0x31 k
    if w.isAsync then
      if s.full t then return s.hold t (.plancommit t w)
      else
        let start := fun (s : State) => s.startAsync t w u (.commit slot at' f) fun _ s => (s.commitJob slot at' f).map id some
        -- while an earlier order on the slot is still to act, the guard waits for it
        if s.sboard.any fun e => e.units.contains (.slot slot.val) then return s.hostOrder t .planSlots 0x31 start
        else return guard s start
    else
      return s.startUnit t (.plancommit t w) u fun s => guard s fun s =>
        let (s, d) := s.commitJob slot at' f
        s.toUnit t w (some d))

/-- The slot takes a load or a free (guard 0x1D). -/
def Slot.idle (x : Slot) : Bool := x.st == .empty || x.st == .loaded

/-- Copy an image into a slot and check it: ADM_OK, or ADM_GEOM with the slot EMPTY (R194). -/
def State.loadSlot (s : State) (slot : Fin 8) (b : Buf) (off : Nat) : State × Nat :=
  let bad := fun (s : State) => (s.modSlot slot fun _ => {}, admGeom)
  let (s, hd) := s.readBuf b off 64
  match hd with
  | none => bad s
  | some hd =>
    let n := fieldAt hd 4 2
    if 16384 < n ∨ n < 0xC00 ∨ b.len < off + n then bad s
    else
      let (s, img) := s.readBuf b off n
      match img with
      | none => bad s
      | some x =>
        let crc := crc32c (x.take 0x3C ++ [0, 0, 0, 0] ++ x.drop 0x40)
        if fieldAt x 0 4 = 0x4E414C50 ∧ fieldAt x 4 2 = planLen (fieldAt x 0x40 1) (fieldAt x 0x41 1) ∧ fieldAt x 6 1 = 1
            ∧ n = fieldAt x 4 2 ∧ fieldAt x 0x3C 4 = crc then
          (s.modSlot slot fun _ => { st := .loaded, plan := planOfBytes x }, 0)
        else bad s

/-- `PLANSLOT.LOAD`. -/
def execPlanslotLoad (t : Tid) (w : IWord) (s : State) : Answer :=
  .next (s.issue t 1 fun s => s.orFault t do
    let th := s.thread t
    let h := handleOf (th.reg w.rb)
    let off := w.imm.toNat
    let b ← s.checkHandle t h
    let slot ← slotOf (th.reg w.ra)
    b.within off 64
    let u : Use := { units := [.slot slot.val], handles := [h], reads := [.ofBytes h off (min 16384 (b.len - off))] }
    return s.startUnit t (.planslotLoad t w) u fun s =>
      s.hostOrder t .planSlots 0x32 fun s =>
        if !s.plan.slots[slot].idle then s.fault t .state 0x1D
        else
          let (s, r) := s.loadSlot slot b off
          s.toUnit t w (some (.code r)))

/-- `PLANSLOT.FREE`. -/
def execPlanslotFree (t : Tid) (w : IWord) (s : State) : Answer :=
  .next (s.issue t 1 fun s => s.orFault t do
    let slot ← slotOf ((s.thread t).reg w.ra)
    return s.startUnit t (.planslotFree t w) { units := [.slot slot.val] } fun s =>
      s.hostOrder t .planSlots 0x32 fun s =>
        if !s.plan.slots[slot].idle then s.fault t .state 0x1D
        else (s.modSlot slot fun _ => {}).toUnit t w (some (.code 0)))

/-- STATE of a slot (R261). -/
def SlotState.num : SlotState → Nat
  | .empty => 0
  | .loaded => 1
  | .armed => 2
  | .inForce => 3
  | .standby => 4
  | .fbInForce => 5

/-- `PLANSLOT.STATE`. -/
def execPlanslotState (t : Tid) (w : IWord) (s : State) : Answer :=
  .next (s.issue t 1 fun s => s.orFault t do
    let slot ← slotOf ((s.thread t).reg w.ra)
    return s.startUnit t (.planslotState t w) { units := [.slot slot.val] } fun s =>
      s.toUnit t w (some (.codeRc 0 s.plan.slots[slot].st.num)))

/-- The plan status of 1,024 bytes (Table 08-11). -/
def PlanStatus.bytes (p : PlanStatus) : List Byte :=
  let w := fun (l : List Count) => l.flatMap fun c => leBytes 4 c.toNat
  bytesAt (bytesAt (w [p.frames, p.frameHolds, p.frameDrop, p.heldPeriods, p.culledTiles, p.cullLate, p.ringUe, p.coefUe, p.gfxClamp,
      p.gfxUe, p.mapUe, p.mapLockedWr, p.fsRepeat, p.cacheUe, p.fallbacks, p.sbTorn]) 0 0x100
    ++ w p.late.toList ++ w p.paramLate.toList) 0 1024

/-- `PLANSLOT.STATUS`. -/
def execPlanslotStatus (t : Tid) (w : IWord) (s : State) : Answer :=
  .next (s.issue t 1 fun s => s.orFault t do
    let h := handleOf ((s.thread t).reg w.rb)
    let off := w.imm.toNat
    let _ ← s.checkStore t h off 1024
    return s.startUnit t (.planslotStatus t w) { handles := [h], writes := [.ofBytes h off 1024] } fun s =>
      (s.writeBuf h off s.plan.status.bytes).toUnit t w (some (.code 0)))

end Sys2Proof.Machine
end

