-- ==== Sys2Proof/Machine/Frame.lean ====
section
/-! DEFINITION. The start of a frame period and what it holds, the checks at the end of a frame, `NOTICE_IN` and the expansion of a
package (R108, R118, R149-R160, R166, R175, R181, R186, R198-R201, R207, R212, R339-R353, R447, R526). -/

namespace Sys2Proof.Machine

/-- Change composition. -/
def State.modComp (s : State) (f : Comp → Comp) : State := { s with comp := f s.comp }

/-! ### Requests that a page makes (R153) -/

/-- A page chosen while the panel enters or holds self-refresh asks for the exit. -/
def State.pageRequest (s : State) : State :=
  if s.outMode ≠ 2 ∧ s.choosePage.1 ≠ .none ∧ (s.scan.st = .entering ∨ s.scan.st = .holding ∨ s.scan.st = .updating) then s.request false
  else s

/-! ### The plan that comes into force (R108, R186, R199, R212, R340, R447) -/

/-- What a plan that newly governs brings about, but for the copies of its banks. -/
def State.intoForce (s : State) (old : Option Gov) (g : Gov) : State :=
  let p := g.plan
  let s := { s with plan := { s.plan with status := { fallbacks := if g.kind == GovKind.fallback then 1 else 0 } } }
  let s := if g.kind = .minimal then s else s.event 2
  let s := s.modOut fun o => { o with pin := none }
  let s := s.modTg0 fun t => { t with src := p.tg0Src }
  let s := if p.tg0Src = 2 then s.setDisc .free
    else if (old.any fun o => o.plan.tg0Src == p.tg0Src) && s.tg0.st != .free then s
    else s.setDisc .acquiring
  let s := s.judgeRef p
  let s := if old.any fun o => o.plan.outMode != p.outMode then s.request false else s
  (List.finRange 8).foldl (fun (s : State) q =>
    s.modPort q fun y => { y with maskNext := some (p.masks.getD q.val 0, p.slotEpoch) }) s

/-- Loaded banks become the copies in force; every gallery's replica is written from them (R108, R110). -/
def State.takeBanks (s : State) (l : List (Nat × CoefBank)) : State :=
  if l.isEmpty then s
  else { s with synth := { s.synth with banks := l.foldl (fun v b => vmodN v b.1 fun _ => b.2) s.synth.banks, replicaBad := [] } }

/-- The wall frame that fabric time names at this period start, for a period that starts nearest to it (R166, R341). -/
def State.frameByTime (s : State) (p : Plan) : Nat :=
  let d := (s.fab.ft - s.fab.wallOrigin) * p.rateNum
  let unit := 1000000000 * p.rateDen
  (2 * d + unit) / (2 * unit)

/-! ### Composition of the frame (R118, R151, R159, R175) -/

/-- The galleries of a frame: the lowest IN_SERVICE, with those that a device removal took after the arming point of the frame as they
would have been, then DRAINING ones (R118). -/
def State.assigned (s : State) (p : Plan) : List Nat :=
  let st := fun g => (vget s.svc.gallery g).st
  (((List.range 16).filter fun g => st g == .inService || s.synth.lost.contains g)
    ++ (List.range 16).filter fun g => st g == .draining && !s.synth.lost.contains g).take p.gReq

/-- The gallery of each place; the place of a gallery that is lost has none. -/
def State.assign (s : State) (p : Plan) : List (Option Nat) :=
  let l := (s.assigned p).map fun g =>
    if (vget s.svc.gallery g).st == .inService || (vget s.svc.gallery g).st == .draining then some g else none
  l ++ List.replicate (p.gReq - l.length) none

/-- Synthesis starts the frame: empty rings, the places, record 0x1706 for a frame that lacks a gallery. -/
def State.startSynth (s : State) (p : Plan) : State :=
  let places := s.assign p
  let missing := places.any (·.isNone)
  let s := if missing then
      let lost := ((s.assigned p).find? fun g => (vget s.svc.gallery g).st != .inService && (vget s.svc.gallery g).st != .draining).getD 0
      s.report 0x1706 0x18 (lost * 2 ^ 40)
    else s
  { s with synth := { s.synth with
    places := places, done := List.replicate (max 1 places.length) 0, rings := Vector.replicate 64 [], nextLine := Vector.replicate 64 0
    culled := false, cullTiles := [], logged1706 := missing } }

/-- A package whose pages are complete comes into force; it ends every activation of the old one, whose page buffers are freed (R151,
R416, R419). -/
def State.swapPackage (s : State) : State :=
  match s.comp.pkgDone with
  | none => s
  | some k =>
    let s := match s.comp.pkg with | some o => s.dropPages o.set | none => s
    s.modComp fun c => { c with pkg := if k.pageCount = 0 then none else some k, pkgDone := none, acts := [] }

/-- Composition of wall frame `n` starts; the alive count moves on except for a DIRECT or CACHE frame that is not sent. -/
def State.startFrame (s : State) (p : Plan) (n : Nat) (first : Bool) : State :=
  let s := s.swapPackage
  let s := if p.outMode = 2 then
      (if s.comp.page = .none then s else (s.modComp fun c => { c with page := .none, source := 0 }).protItem 0 n |>.event 7)
    else s.setPage n
  let stamp := p.outMode == 1 || !s.tg0.noFrame
  let s := s.modComp fun c => { c with
    psum := 0, pageUe := false, ended := false, sent := false, gfxLine := [], crcSeen := 0xFFFFFFFF, crcMade := 0xFFFFFFFF
    chosen := p.outMode != 2, alive := if first || !stamp then c.alive else c.alive + 1 }
  let s := s.modOut fun o => { o with
    weave := [], nextRow := 0, cacheRow := 0, lines := if p.outMode = 1 then o.lines else []
    slots := if p.outMode = 1 then o.slots else [] }
  s.startSynth p

/-! ### Capture (R181, R184) -/

/-- A capture job of a plan starts (R181). -/
def State.startCapture (s : State) (p : Plan) (n : Nat) : State :=
  let used := fdata p.capCount
  let c : Capture := { buf := BitVec.ofNat 12 p.capBuf, count := p.capCount, state := 1, used := used, w := p.width, h := p.height
                       frameStart := used, start := if p.outMode = 1 then n + 1 else n }
  ({ s with cap := some c } : State).writeHeader c

/-! ### `FRAME_PERIOD_START` -/

/-- A clearing period ends without a plan: the next one starts while rows are still to be cleared (R383). -/
def State.endClearing (s : State) : State :=
  let s := s.endScan
  let s := s.modScan fun c => { c with clearing := false }
  if s.scan.reqs.isEmpty then (s.modTg0 fun g => { g with running := false }).rowsLow else s.startClearing (some (s.rowsH - 1))

/-- What composition, decoding and scan-out do at a period start outside HOLDING. -/
def State.startPicture (s : State) (old : Option Gov) (g : Gov) (n : Nat) (isNew : Bool) : State :=
  let p := g.plan
  let lastRow := match old with | some o => o.plan.height - 1 | none => 0
  let c := s.plan.status
  let s := if s.tg0.noFrame then s else { s with plan := { s.plan with status := { c with frames := c.frames.bump } } }
  let s := s.layerBoundary p isNew n
  let s := (List.finRange 16).foldl (fun (s : State) i => s.streamBoundary i n) s
  let s := s.startFrame p n old.isNone
  let s := ((s.event 0).event 1).lineStarts 0 0
  (s.rowOutputs 0 (if old.isSome then some lastRow else none)).trainPairs

/-- Lines fetched ahead for the period that starts are kept; any other fetch begins again with line 0 (R347). `sends` says that the period
sends a frame. -/
def State.startFetches (s : State) (sends : Bool) : State :=
  let ahead := sends && s.out.fetchOf == s.out.count
  let keep := fun (o : SbOp) => match o.pipe with | some (8, _) => ahead | some _ => false | none => true
  { s with
    sboard := s.sboard.filter keep
    out := if ahead then s.out
      else { s.out with fetchOf := if sends then s.out.count else s.out.count + 1, fetchLine := 0, fetchAt := none, lines := [] } }

/-- The length of line 0 of period N of a plan: the remainder of the schedule and the correction (R339, R341). -/
def Plan.lineZero (p : Plan) (n : Nat) (corr : Int) : Nat :=
  (((p.lineSym + p.start (n + 1) - p.start n : Nat) : Int) + corr - ((p.vbl + p.height) * p.lineSym : Nat)).toNat

/-- A period of a plan starts. -/
def State.startPeriod (s : State) (g : Gov) (err : Int) : State :=
  let old := s.plan.cur
  let p := g.plan
  let isNew := !(old.any fun o => o.same g)
  let holding := s.scan.st == .holding
  let oldMode := s.outMode
  let s := (s.endScan).modScan fun c => { c with clearing := false }
  let s := { s with plan := { s.plan with cur := some g, prev := old } }
  let s := if isNew then s.intoForce old g else s
  let s := (s.takeBanks g.banks).pageRequest
  let byTime := p.tg0Src == 0 && s.ftLocked && (old.isNone || s.tg0.stepNext)
  let n := if byTime then s.frameByTime p else if old.isNone then s.out.count else s.out.frame + 1
  let turn := old.isSome && oldMode != p.outMode
  let c := s.plan.status
  let s := { s with plan := { s.plan with
    status := { c with
      heldPeriods := if turn && p.outMode = 1 then c.heldPeriods.bump else c.heldPeriods
      frameDrop := if turn && oldMode = 1 then c.frameDrop.bump else c.frameDrop }
    w0 := if g.first then some n else s.plan.w0 } }
  let s := s.modOut fun o => { o with frame := n, prevFrame := o.frame, count := o.count + 1 }
  let s := s.modTg0 fun t => { t with
    line := 0, period := if old.isNone then t.period else t.period + 1
    noFrame := t.stepNext || (p.outMode == 1 && (old.isNone || turn)), stepNext := false, sym := 0 }
  let s := s.modTg0 fun t => { t with line0 := p.lineZero t.period t.corr }
  let s := if holding || s.tg0.noFrame || turn then s.modComp fun c => { c with expectAlive := none } else s
  let s := if isNew then s.endCapture 3 5 else s
  let s := if isNew && p.capEn then s.startCapture p n else s
  let s := s.startScan (!s.tg0.noFrame)
  let s := s.startFetches (!s.tg0.noFrame && s.scan.st != .holding)
  let s := s.settleUnits p
  let s := if s.scan.st = .holding then
      let s := if isNew then s.planLayers p else s
      (List.finRange 16).foldl (fun (s : State) i => s.streamBoundary i n) s
    else s.startPicture old g n isNew
  let s := ({ s with synth := { s.synth with lost := [] } } : State)
  let s := (s.armingPoint (n + 1)).discipline err (p.start (s.tg0.period + 2) - p.start (s.tg0.period + 1))
  let s := ({ s with dram := { s.dram with spent := Vector.replicate 6 0 }, blt := { s.blt with spent := 0 } } : State)
  s.applyDue.audPeriod

/-- `FRAME_PERIOD_START`: TG0's schedule reaches the next period start, with the phase error measured there (R198, R339, R341). -/
def execFramePeriodStart (err : Int) (s : State) : Answer :=
  .next (
    if !s.tg0.running || s.therm.tripped || s.safe then s
    else
      match s.plan.next with
      | some g => s.startPeriod g err
      | none => if s.scan.clearing then s.endClearing else s)

/-! ### `FRAME_END_CHECKS` (R157-R160) -/

/-- Alive: a frame was sent whose count CU7 can compare. -/
def State.aliveFails (s : State) (sent : Bool) : Bool := sent && s.comp.expectAlive.any (· != s.comp.laneAlive)

/-- The page check of the frame composed: its outcome goes with the frame to the store, the sum is cleared (R157, R160). -/
def State.pageCheck (s : State) (p : Plan) : State × Bool :=
  let c := s.comp
  let ok := p.outMode == 2 || (c.psum == s.expectSum p && !c.pageUe)
  let s := if ok then s else
    (s.report 0x0601 0x1B (c.page.num * 2 ^ 32 + c.alive.toNat)).modComp fun c => { c with pageFail := c.pageFail.bump }
  let mark := fun (e : FsFrame) => if e.frame = s.wallFrame then { e with pageOk := ok } else e
  let s := if p.outMode = 1 then s.modOut fun o => { o with slots := o.slots.map mark, scan := mark o.scan } else s
  (s.modComp fun c => { c with psum := 0, pageUe := false, ended := true }, ok)

/-- The outcome of the three checks of a frame at the lanes that shows `page`: counters, records, the runs of R160. -/
def State.settleChecks (s : State) (page : Page) (sent pageOk codeOk aliveOk : Bool) : State :=
  let c := s.comp
  let frame := s.wallFrame
  let s := if codeOk then s else
    (s.report 0x0602 0x2F c.laneAlive.toNat).modComp fun c => { c with codeFail := c.codeFail.bump }
  let s := if aliveOk then s else
    (s.report 0x0603 0x2F ((c.expectAlive.getD 0).toNat * 256 + c.laneAlive.toNat)).modComp fun c =>
      { c with aliveFail := c.aliveFail.bump }
  let ok := pageOk && codeOk && aliveOk
  let shown := page != .none
  let fails := if ok then 0 else min 255 (c.failRun.toNat + 1)
  let pageRun := if ok || !shown then 0 else c.pageRun + 1
  let passRun := if ok then c.passRun + 1 else 0
  let s := s.modComp fun c => { c with
    failRun := BitVec.ofNat 8 fails, verified := ok, pageRun := pageRun, passRun := passRun
    expectAlive := if sent then some (c.laneAlive + 1) else c.expectAlive
    crcSeen := 0xFFFFFFFF, crcMade := 0xFFFFFFFF, sent := false }
  let s := if pageRun = 2 then { s with plan := { s.plan with trig := s.plan.trig ||| 4 } } else s
  let s := if pageRun = 4 ∧ !s.comp.lightHeld then
      let s := s.modComp fun c => { c with lightHeld := true, passRun := 0 }
      ((s.report 0x0604 0x2F (fails * 65536 + page.num)).protItem 1 frame).endCapture 3 7
    else s
  if 16 ≤ passRun then
    let s := { s with plan := { s.plan with trig := s.plan.trig &&& 0xB } }
    if s.comp.lightHeld then (s.modComp fun c => { c with lightHeld := false }).protItem 2 frame else s
  else s

/-- `FRAME_END_CHECKS`: the page check of the frame composed, and with it the code check and the alive check of the frame at the lanes,
once; none in HOLDING. In STORED mode the frame at the lanes is an earlier one, which brings its own page check; a period that sends none
has the page check alone (R160, R175). -/
def execFrameEndChecks (s : State) : Answer :=
  .next (
    if !s.tgRuns 0 || s.comp.ended then s
    else
      match s.plan? with
      | none => s
      | some p =>
        if s.tg0.noFrame && p.outMode != 1 then s.modComp fun c => { c with ended := true }
        else
          let (s, ok) := s.pageCheck p
          let c := s.comp
          if p.outMode ≠ 1 then s.settleChecks c.page c.sent ok (c.crcSeen == c.crcMade) (!s.aliveFails c.sent)
          else if s.tg0.noFrame || !c.sent then s
          else s.settleChecks s.out.lane.page true s.out.lane.pageOk (c.crcSeen == c.crcMade) (!s.aliveFails true))

/-- `PACKAGE_EXPANSION_DONE`: the page buffers of the package that arrived last are complete, in place of a complete one that has not come
into force (R151, R418). While no plan is in force it is in force at once (DEDUCED, log 24). -/
def execPackageExpansionDone (s : State) : Answer :=
  .next (
    match s.comp.pkgNext with
    | none => s
    | some k =>
      if s.stopped then s
      else
        let s := match s.comp.pkgDone with | some o => s.dropPages o.set | none => s
        let (s, k) := (s.modComp fun c => { c with pkgNext := none, pkgDone := none }).expandPages k
        let s := s.modComp fun c => { c with pkgDone := some k }
        if s.plan?.isNone then s.swapPackage else s)

/-! ### `NOTICE_IN` (R149) -/

/-- `n` samples of pin `i` at one level: asserted after 16 in a row at 1, deasserted after 100,000 at 0; a rise that ends before the pin
is asserted is a glitch. -/
def Comp.samplePin (c : Comp) (i : Fin 4) (v : Bool) (n : Nat) : Comp :=
  let up := if v then c.run1[i] + n else 0
  let low := if v then 0 else c.run0[i] + n
  let was := c.pins.getLsbD i.val
  let now := if was then v || decide (low < 100000) else decide (16 ≤ up)
  { c with
    run1 := vmod c.run1 i fun _ => up
    run0 := vmod c.run0 i fun _ => low
    pins := setBit c.pins i.val now
    rise := setBit c.rise i.val (v && !now)
    noticeGlitch := c.noticeGlitch.bump (!v && !was && c.rise.getLsbD i.val).toNat }

/-- A pin becomes asserted: it holds panel self-refresh at the hardware level, above a `PSELF.ENTER` in progress (R236, R238). -/
def State.notice (s : State) (i : Nat) : State :=
  let op := 0xFF02 + i
  let s := if s.scan.st = .entering ∧ s.scan.enterTo.any (fun d => match d with | .thread _ => true | _ => false) then
      s.overruled .selfRefresh .hardware op .host 0x5B
    else s
  s.holdAt .selfRefresh .hardware op

/-- Pins after their samples: those that become asserted, and the end of the hold when none is. -/
def State.settlePins (s : State) (f : Comp → Comp) : State :=
  let old := s.comp.pins
  let s := s.modComp f
  let rose := (List.range 4).filter fun i => s.comp.pins.getLsbD i && !old.getLsbD i
  let s := rose.foldl State.notice s
  let s := if rose = [] then s else s.pageRequest
  if s.comp.pins = 0 ∧ old ≠ 0 then s.unhold .selfRefresh .hardware else s

/-- `NOTICE_IN_SAMPLE`: the sample of each pin that is taken every 1 µs. -/
def execNoticeInSample (pins : BitVec 4) (s : State) : Answer :=
  .next (s.settlePins fun c => (List.finRange 4).foldl (fun c i => c.samplePin i (pins.getLsbD i.val) 1) c)

/-- `NOTICE_IN_ASSERTED`: 16 samples of a pin at 1 (DEDUCED, log 46). -/
def execNoticeInAsserted (pin : Fin 4) (s : State) : Answer := .next (s.settlePins fun c => c.samplePin pin true 16)

/-- `NOTICE_IN_DEASSERTED`: 100,000 samples of a pin at 0 (DEDUCED, log 46). -/
def execNoticeInDeasserted (pin : Fin 4) (s : State) : Answer := .next (s.settlePins fun c => c.samplePin pin false 100000)

end Sys2Proof.Machine
end

