-- ==== Sys2Proof/Machine/Security.lean ====
section
/-! DEFINITION. The security processor: documents from fragments, their checks and effects, key grants, attestation
(R400-R411, R416-R421, Tables 17-2 to 17-11). -/

namespace Sys2Proof.Machine

/-- Change the security processor. -/
def State.modSec (s : State) (f : Sec → Sec) : State := { s with sec := f s.sec }

/-- The security processor works: past stage 0x05, no trip, no chip safe state (R508, R532, R533). -/
def State.secRuns (s : State) : Bool := 6 ≤ s.boot.stage && !s.boot.stopped && !s.stopped

/-! ### Fields of a document (R401) -/

/-- The parts of a document: body, signer key, signature. -/
def docBody (d : List Byte) : List Byte := d.take (d.length - 193)
def docPub (d : List Byte) : List Byte := (d.drop (d.length - 193)).take 97
def docSig (d : List Byte) : List Byte := d.drop (d.length - 96)

/-- A 48-byte hash field. -/
def hashAt (d : List Byte) (o : Nat) : BitVec 384 := BitVec.ofNat 384 (fieldAt d o 48)

def docKind (d : List Byte) : Nat := fieldAt d 4 1
def docSeq (d : List Byte) : Nat := fieldAt d 8 8
def docTarget (d : List Byte) : Nat := fieldAt d 0x10 8

/-- BODY_LEN that a kind fixes (R405, R406, R419-R421). -/
def bodyLenOk (d : List Byte) (n : Nat) : Bool :=
  match docKind d with
  | 1 | 2 => n == 0x50
  | 3 => n == 0x1E0 + 32 * fieldAt d 0x1D8 4
  | 4 => 0x70 ≤ n
  | 5 | 6 => n == 0x40
  | 7 => n == 0xB0
  | _ => false

/-- The common header keeps to Table 17-2 (subcode 0x03). -/
def docHeaderOk (d : List Byte) : Bool :=
  let n := fieldAt d 0x18 4
  decide (225 ≤ d.length) && fieldAt d 0 4 == 0x434F4453 && fieldAt d 5 1 == 1 && zeroAt d 6 2 && zeroAt d 0x1C 4 && n + 193 == d.length
    && bodyLenOk d n

/-! ### Signers (Table 17-3) -/

/-- The owner hash in force. -/
def State.ownerHash (s : State) : Option (BitVec 384) := s.ownerSlot.map fun i => s.sec.own[i].hash

/-- The hash that the signer of a kind must have; none when a kind that needs an owner finds none (R402). -/
def State.signerHash (s : State) (kind : Nat) : Option (BitVec 384) :=
  match kind with
  | 1 => some Config.rootHash
  | 4 | 5 =>
    match s.sec.roster with
    | some r => if r.noticeKey = 0 then s.ownerHash else some r.noticeKey
    | none => s.ownerHash
  | _ => s.ownerHash

/-- Checks 0x05 and 0x06; the signer block of a CHALLENGE is ignored (R402, R421). -/
def State.signerCheck (s : State) (d : List Byte) : Option Nat :=
  let kind := docKind d
  let body := docBody d
  if kind = 6 then none
  else if s.signerHash kind ≠ some (Config.sha384 (docPub d)) then some 5
  else if !Config.ecdsaOk (docPub d) body (docSig d) then some 6
  else if kind = 7 && !Config.ecdsaOk Config.rootPub (body.take 0x50) (bytesAt body 0x50 96) then some 6
  else none

/-! ### Body fields (subcode 0x08) -/

/-- The entries of a roster body. -/
def rosterEntries (d : List Byte) : List RosterEntry :=
  (List.range (fieldAt d 0x1D8 4)).map fun i =>
    let o := 0x1E0 + 32 * i
    { serial := BitVec.ofNat 64 (fieldAt d o 8), node := BitVec.ofNat 12 (fieldAt d (o + 8) 2)
      keyId := BitVec.ofNat 128 (fieldAt d (o + 16) 16) }

/-- No value stands twice in a list. -/
def noTwice (l : List Nat) : Bool :=
  match l with
  | [] => true
  | a :: r => !r.contains a && noTwice r

/-- A roster body keeps to Table 17-6. -/
def rosterOk (d : List Byte) : Bool :=
  let n := fieldAt d 0x1D8 4
  let thr := fieldAt d 0x26 1
  fieldAt d 0x20 4 < 2 && fieldAt d 0x24 2 ≤ 4095 && 10 ≤ thr && thr ≤ 100 && zeroAt d 0x27 1 && zeroAt d 0x1DC 4 && n ≤ 4096
    && ((List.range n).all fun i => fieldAt d (0x1E0 + 32 * i + 8) 2 < 4096 && zeroAt d (0x1E0 + 32 * i + 10) 6)
    && noTwice ((rosterEntries d).map fun e => e.serial.toNat) && noTwice ((rosterEntries d).map fun e => e.node.toNat)

/-- The roster that a document carries. -/
def rosterOf (d : List Byte) : Roster :=
  { seq := BitVec.ofNat 64 (docSeq d), clearOk := (fieldAt d 0x20 4).testBit 0, minCode := fieldAt d 0x24 2, thrPct := fieldAt d 0x26 1
    noticeKey := hashAt d 0x28, issuers := (List.range 8).map fun i => hashAt d (0x58 + 48 * i), entries := rosterEntries d, doc := d }

/-- Page `n` of a package body keeps to R416. -/
def pageOk (body : List Byte) (n : Nat) : Bool :=
  let o := fieldAt body (0x30 + 8 * n) 4
  let len := fieldAt body (0x34 + 8 * n) 4
  let pw := fieldAt body (o + 8) 2
  let ph := fieldAt body (o + 10) 2
  let cell := fieldAt body (o + 12) 1
  o + len ≤ body.length && 80 ≤ len && decide (1 ≤ pw ∧ pw ≤ 8192 ∧ 1 ≤ ph ∧ ph ≤ 8192 ∧ 1 ≤ cell ∧ cell ≤ 64) && zeroAt body (o + 13) 3
    && len == 80 + ceilDiv (pw * ph) 2

/-- A package body keeps to R416 and Table 17-11. -/
def packageOk (body : List Byte) : Bool :=
  let n := fieldAt body 0x24 1
  n ≤ 8 && zeroAt body 0x25 3 && zeroAt body 0x2C 4
    && ((List.range 4).all fun i => fieldAt body (0x28 + i) 1 == 0xFF || fieldAt body (0x28 + i) 1 < n) && (List.range n).all (pageOk body)

/-- The package that a document carries, for the device's coordinates (R417). -/
def State.packageOf (s : State) (d : List Byte) : Pkg :=
  let body := docBody d
  let (r, c) := s.fab.coord.getD (0, 0)
  { seq := BitVec.ofNat 64 (docSeq d), nhx := fieldAt d 0x20 2, nhy := fieldAt d 0x22 2, pageCount := fieldAt d 0x24 1
    pinBind := (List.range 4).map fun i => fieldAt d (0x28 + i) 1
    body := body, row := r, col := c }

/-- An activation body keeps to R419. -/
def State.activationOk (s : State) (d : List Byte) : Bool :=
  let a := fieldAt d 0x28 8
  let b := fieldAt d 0x30 8
  match s.comp.pkg with
  | some p => fieldAt d 0x20 8 == p.seq.toNat && decide (a < b ∧ b ≤ a + 86400000000000) && fieldAt d 0x38 1 < p.pageCount && zeroAt d 0x39 7
  | none => false

/-- Check 0x08. -/
def State.bodyCheck (s : State) (d : List Byte) : Bool :=
  match docKind d with
  | 3 => rosterOk d
  | 4 => packageOk (docBody d)
  | 5 => s.activationOk d
  | 7 => hashAt d 0x20 == s.sec.nonce
  | _ => true

/-! ### Owner slots (R405) -/

/-- The lowest unused OWNER slot. -/
def Sec.freeSlot (x : Sec) : Option (Fin 8) := (List.finRange 8).find? fun i => !x.own[i].used

/-- Check 0x09, and whether fuse programming is what fails. -/
def State.ownCheck (s : State) (d : List Byte) (vddFuse : Bool) : Option Bool :=
  match docKind d with
  | 1 =>
    if s.owned then some false
    else if !vddFuse || s.sec.freeSlot.isNone then some true else none
  | 2 =>
    if !s.owned then some false
    else if !vddFuse || (hashAt d 0x20 != 0 && s.sec.freeSlot.isNone) then some true else none
  | _ => none

/-- Program the lowest unused slot; the stored SEQ of every kind is 0 (R405). -/
def Sec.claim (x : Sec) (h : BitVec 384) : Sec :=
  match x.freeSlot with
  | none => x
  | some i => { x with own := x.own.set i { hash := h, used := true, revoked := false }, seqs := Vector.replicate 8 0 }

/-! ### Effects (R405-R408, R416-R421) -/

/-- A roster comes into force: every port's outcome is judged again (R406, R414). -/
def State.rosterInForce (s : State) (d : List Byte) : State := (s.modSec fun x => { x with roster := some (rosterOf d) }).rejudgeAll

/-- A package waits for its expansion, in place of one whose expansion is under way (R418). -/
def State.packageExpands (s : State) (d : List Byte) : State :=
  { s with comp := { s.comp with pkgNext := some (s.packageOf d) } }

/-- The attestation item (Table 17-9). -/
def State.attestation (s : State) (nonce : List Byte) : List Byte :=
  let own := if s.enrolled then 2 else if s.owned then 1 else 0
  let b := leBytes 1 0x20 ++ leBytes 1 own ++ leBytes 1 (Bool.toNat s.sec.debug) ++ leBytes 1 s.sec.bootSvn ++ leBytes 1 s.sec.fwSvn ++ leBytes 3 0
    ++ leBytes 8 Config.serial.toNat ++ bytesAt nonce 0 32 ++ leBytes 8 s.sec.seqs[3].toNat ++ leBytes 8 s.sec.seqs[4].toNat
    ++ leBytes 48 s.sec.nonce.toNat ++ leBytes 2 Config.dikCert.length ++ leBytes 2 Config.dekCert.length ++ Config.dikCert ++ Config.dekCert
  b ++ if s.sec.debug then List.replicate 96 0 else bytesAt (Config.dikSign b) 0 96

/-- The effect of an accepted document. -/
def State.docEffect (s : State) (d : List Byte) : State :=
  match docKind d with
  | 1 => (s.modSec fun x => x.claim (hashAt d 0x20)).rejudgeAll
  | 2 =>
    let revoke := fun (x : Sec) =>
      match s.ownerSlot with
      | none => x
      | some i => { x with own := x.own.set i { x.own[i] with revoked := true } }
    let s := s.modSec fun x =>
      let x := { revoke x with roster := none, keys := [] }
      if hashAt d 0x20 = 0 then x else x.claim (hashAt d 0x20)
    s.rejudgeAll
  | 3 => (s.rosterInForce d).storeDoc 1 d
  | 4 => (s.packageExpands d).storeDoc 2 d
  | 5 =>
    { s with comp := { s.comp with acts := s.comp.acts ++ [⟨fieldAt d 0x28 8, fieldAt d 0x30 8, fieldAt d 0x38 1⟩] } }
  | 6 => s.post41 (s.attestation (bytesAt d 0x20 32))
  | 7 => s.modSec fun x => { x with debugArmed := true }
  | _ => s

/-- A document is refused: its record, and the count of the stream that brought a package or activation (R402, Table 03-6). -/
def State.docRefused (s : State) (kind sub : Nat) (id : BitVec 16) (stream : Option (Fin 16)) : State :=
  let info := sub * 2 ^ 32 + kind % 256 * 2 ^ 24 + id.toNat
  if kind = 4 ∨ kind = 5 then
    let s := match stream with | some i => s.countStream i 27 | none => s
    s.report 0x0304 0x0A info
  else s.report 0x1105 0x0A info

/-- Handle a complete document: the checks in the order of Table 17-4, then its effect; an accepted document stores its SEQ (R402). -/
def State.document (s : State) (d : List Byte) (id : BitVec 16) (stream : Option (Fin 16)) (vddFuse : Bool) : State :=
  let kind := docKind d
  if !docHeaderOk d then s.docRefused kind 3 id stream
  else if docTarget d ≠ 0 ∧ docTarget d ≠ Config.serial.toNat then s
  else
    match s.signerCheck d with
    | some sub => s.docRefused kind sub id stream
    | none =>
      if kind ≠ 6 ∧ docSeq d ≤ (vget s.sec.seqs kind).toNat then s.docRefused kind 7 id stream
      else if !s.bodyCheck d then s.docRefused kind 8 id stream
      else
        match s.ownCheck d vddFuse with
        | some fuse =>
          let s := if fuse then s.report 0x1106 0x0A 1 else s
          s.docRefused kind 9 id stream
        | none =>
          let s := s.docEffect d
          if kind = 6 then s else s.modSec fun x => { x with seqs := vmodN x.seqs kind fun _ => BitVec.ofNat 64 (docSeq d) }

/-! ### Fragments (R400) -/

/-- A fragment header keeps to R400. -/
def fragOk (b : List Byte) : Bool :=
  let count := fieldAt b 5 1
  let len := fieldAt b 8 4
  decide (16 ≤ b.length) && zeroAt b 1 1 && zeroAt b 6 2 && zeroAt b 12 4 && fieldAt b 4 1 < count && count ≤ 64 && 1 ≤ len && len ≤ 4193280

/-- The fragments joined in FRAG order. -/
def DocAsm.join (a : DocAsm) : List Byte := (List.range a.count).flatMap fun i => (tabFind a.frags i).getD []

/-- A fragment joins its document; a third open document discards the oldest; a complete one is handled. -/
def State.fragment (s : State) (b : List Byte) (stream : Option (Fin 16)) (vddFuse : Bool) : State :=
  let kind := fieldAt b 0 1
  let id := BitVec.ofNat 16 (fieldAt b 2 2)
  let count := fieldAt b 5 1
  let len := fieldAt b 8 4
  let drop := fun (s : State) => s.modSec fun x => { x with docs := x.docs.filter fun a => a.docId != id }
  let old := s.sec.docs.find? fun a => a.docId == id
  let agrees := match old with | some a => a.kind == kind && a.count == count && a.len == len | none => true
  if !fragOk b || !agrees then (drop s).docRefused kind 1 id stream
  else
    let s := if old.isSome || s.sec.docs.length < 2 then s
      else match s.sec.docs with
        | a :: r => (s.modSec fun x => { x with docs := r }).docRefused a.kind 2 a.docId none
        | [] => s
    let a : DocAsm := old.getD ⟨id, kind, count, len, []⟩
    let a := { a with frags := tabPut a.frags (fieldAt b 4 1) (b.drop 16) }
    if a.frags.length < count then
      s.modSec fun x => { x with docs := (if old.isSome then x.docs.map fun y => if y.docId = id then a else y else x.docs ++ [a]) }
    else
      let s := drop s
      if a.join.length = len then s.document a.join id stream vddFuse else s.docRefused kind 1 id stream

/-- `DOCUMENT_FRAGMENT`: the next item of the security processor is a NOTICE (R73, R400, R402). -/
def execDocumentFragment (vddFuse : Bool) (s : State) : Answer :=
  match s.sec.inbox with
  | [] => .next s
  | x :: r =>
    if x.isGrant || !s.secRuns then .next s
    else .next ((s.modSec fun y => { y with inbox := r }).fragment x.payload x.stream vddFuse)

/-- `DOCUMENT_REASSEMBLY_TIMEOUT` (R400). -/
def execDocumentReassemblyTimeout (id : BitVec 16) (s : State) : Answer :=
  match s.sec.docs.find? fun a => a.docId == id with
  | none => .next s
  | some a => .next ((s.modSec fun x => { x with docs := x.docs.filter fun a => a.docId != id }).docRefused a.kind 2 id none)

/-! ### Key grants (R51, R409, R410) -/

/-- The slot after a grant (R51). -/
def KeySlot.grant (k : KeySlot) (n : Key) : KeySlot := { cur := some n, prev := k.cur }

/-- The checks of Table 17-8 in order: the key, or the subcode. -/
def State.grantCheck (s : State) (b : List Byte) : Except Nat Key :=
  let slot := fieldAt b 5 1
  let fk := bitsOf (fieldAt b 0x10 8) 39 0
  let pub := bytesAt b 0xB9 97
  let issuer := Config.sha384 pub
  let slotNow := (tabFind s.sec.keys slot).getD {}
  if b.length ≠ 378 || fieldAt b 0 4 != 0x544E5247 || fieldAt b 4 1 != 1 || !zeroAt b 6 2 || !zeroAt b 0x15 3 || !zeroAt b 0x1C 4 then .error 1
  else if slot < 1 || 63 < slot then .error 2
  else if !s.enrolled || s.sec.debug then .error 3
  else if fieldAt b 8 8 ≠ Config.serial.toNat then .error 4
  else if !(match s.sec.roster with | some r => (r.issuers.filter (· != 0)).contains issuer | none => false) then .error 5
  else if !Config.ecdsaOk pub (b.take 0x11A) (bytesAt b 0x11A 96) then .error 6
  else if (match s.sec.grantSeq.find? (·.1 == issuer) with | some g => decide (fieldAt b 0x28 8 ≤ g.2.toNat) | none => false) then .error 7
  else if !Config.p384Valid (bytesAt b 0x30 97) then .error 8
  else
    match Config.unwrapGrant (bytesAt b 0x30 97) (b.take 0x30) (bytesAt b 0x91 40) with
    | none => .error 9
    | some k =>
      if (match slotNow.cur with | some c => decide (fk ≤ c.fk) | none => false) then .error 10
      else .ok { key := k, salt := BitVec.ofNat 32 (fieldAt b 0x18 4), fk := fk, notAfter := fieldAt b 0x20 8 }

/-- Handle a grant. -/
def State.grantItem (s : State) (b : List Byte) (stream : Option (Fin 16)) : State :=
  let slot := fieldAt b 5 1
  match s.grantCheck b with
  | .error sub =>
    let s := match stream with | some i => s.countStream i 28 | none => s
    s.report 0x0305 0x0A (sub * 2 ^ 32 + slot % 64)
  | .ok k =>
    let issuer := Config.sha384 (bytesAt b 0xB9 97)
    s.modSec fun x =>
      { x with
        keys := tabPut x.keys slot (((tabFind x.keys slot).getD {}).grant k)
        grantSeq := (issuer, BitVec.ofNat 64 (fieldAt b 0x28 8)) :: x.grantSeq.filter fun g => g.1 != issuer }

/-- `KEY_GRANT`: the next item of the security processor is a grant (R73, R402, R410). -/
def execKeyGrant (s : State) : Answer :=
  match s.sec.inbox with
  | [] => .next s
  | x :: r =>
    if !x.isGrant || !s.secRuns then .next s
    else .next ((s.modSec fun y => { y with inbox := r }).grantItem x.payload x.stream)

end Sys2Proof.Machine
end

