-- ==== Sys2Proof/Machine/Boot.lean ====
section
/-! DEFINITION. The cold boot, stage by stage, and the restart after a thermal trip (R308, R320, R333, R391, R398, R399, R407, R418, R481,
R488-R492, R502, R504-R509, R514-R518, Tables 22-1, 22-3, 22-8). -/

namespace Sys2Proof.Machine

/-- Change BOOT_STATUS. -/
def State.modBoot (s : State) (f : Boot → Boot) : State := { s with boot := f s.boot }

/-- Enter a stage (R508). -/
def State.atStage (s : State) (n : BitVec 8) : State := s.modBoot fun b => { b with stage := n }

/-- The boot stops at its stage (R508). -/
def State.bootStops (s : State) : State := s.modBoot fun b => { b with stopped := true }

/-- A stage: it runs unless the boot has stopped. -/
def State.bootStage (s : State) (n : BitVec 8) (k : State → State) : State := if s.boot.stopped then s else k (s.atStage n)

/-! ### Stage 0x02: SRAM (R502) -/

/-- A unit of Table 21-6. -/
def testedUnit (block inst : Nat) : Bool :=
  (block == 0x18 && decide (inst < 16)) || (block == 0x2A && decide (inst < 24)) || (block == 0x09 && decide (inst < 8))

/-- An SRAM fails its memory test. -/
def State.sramFails (s : State) (f : SramFail) : State :=
  let b := f.block.toNat
  let i := f.inst.toNat
  let info := i * 2 ^ 40 + b * 2 ^ 32 + 65536 + f.word.toNat
  if testedUnit b i then
    let s := s.modUnit (b, i) fun v => { v with st := .outOfService }
    let s := if b = 0x09 then s.modFab fun x => { x with ports := vmodN x.ports i fun p => { p with st := .outOfService } } else s
    s.report 0x1505 0x04 info
  else (s.report 0x1505 0x04 (info + 2 ^ 17)).bootStops

/-! ### Stage 0x03: firmware (R398) -/

/-- A copy passes: its SVN and ADVANCE. -/
def fwPasses (svn : Nat) (c : FwCopy) : Option (Nat × Bool) :=
  match c with
  | .valid v a => if svn ≤ v.val then some (v.val, a) else none
  | .badCheck => none

/-- Record 0x1101 of a copy that fails. -/
def State.fwRecord (s : State) (c : FwCopy) (copy : Nat) : State :=
  match c with
  | .badCheck => s.report 0x1101 0x0A (2 ^ 32 + copy)
  | .valid v _ => if s.sec.bootSvn ≤ v.val then s else s.report 0x1101 0x0A (2 * 2 ^ 32 + copy)

/-- The valid copy with the higher SVN boots, copy A when they are equal. -/
def State.bootFirmware (s : State) (e : BootEnv) : State × Bool :=
  let s := (s.fwRecord e.fwA 0).fwRecord e.fwB 1
  let boot := fun (s : State) (v : Nat) (b : Bool) => (s.modSec fun x => { x with fwSvn := v }).modBoot fun x => { x with image := b }
  match fwPasses s.sec.bootSvn e.fwA, fwPasses s.sec.bootSvn e.fwB with
  | some (v, a), some (w, b) => if v < w then (boot s w true, b) else (boot s v false, a)
  | some (v, a), none => (boot s v false, a)
  | none, some (w, b) => (boot s w true, b)
  | none, none => (s.bootStops, false)

/-! ### Stage 0x04: trims and the board table (R489, R491, R492) -/

/-- Record 0x1502 of each invalid copy. -/
def State.copyRecords (s : State) : State :=
  [(1, false), (1, true), (2, false), (2, true)].foldl (fun (s : State) (k : Nat × Bool) =>
    if recordValid k.1 (s.flash.read (recordAt k.1 k.2) 4096) then s else s.report 0x1502 0x03 (k.1 * 256 + k.2.toNat)) s

/-- The records in force; without a valid BOARD record the boot stops. -/
def State.bootTrims (s : State) : State :=
  let s := s.copyRecords
  let r := (s.flash.newest 1).map fun x => trimOf x.2
  match s.flash.newest 2 with
  | none => (s.report 0x1501 0x03 0).bootStops
  | some (_, b) =>
    s.modTrim fun x => { x with words := Vector.ofFn fun i => TrimRec.word r i.val, board := boardOf b, boardBoot := boardOf b, boardUp := boardOf b }

/-! ### Stage 0x05: DRAM (R308, R317, R320, R333) -/

/-- The keys of the n-th draw (R317). -/
def dramKeysOf (n : Nat) : DramKeys :=
  let k := Config.dramKeys n
  { k1a := k.1, k1b := k.2.1, k2 := k.2.2.1, h := k.2.2.2 }

/-- Device buffers of the storage of Q8 to Q31, below the top of DRAM: 16 of 16 MiB and 8 of 8 MiB (R293; DESIGN CHOICE, log 11). -/
def queueStores (cap : Nat) : List (Nat × Buf) :=
  (List.range 16).map (fun i => (4040 + i, { base := cap - 335544320 + i * 16777216, len := 16777216, owner := none }))
    ++ (List.range 8).map fun i => (4056 + i, { base := cap - 67108864 + i * 8388608, len := 8388608, owner := none })

/-- Training at the target rate, then at each lower one; every burst is then zero at epoch 0 under new keys. -/
def State.bootDram (s : State) (e : BootEnv) : State :=
  let b := s.trim.boardBoot
  if e.density.toNat ≠ b.density then (s.report 0x0D0A 0x20 0).bootStops
  else
    match ([9600, 8800, 8000, 7200, 6400].filter fun r => decide (r ≤ b.rate)).find? e.trainsAt.contains with
    | none => (s.report 0x0D0A 0x20 6400).bootStops
    | some r =>
      let s := if r < b.rate then s.report 0x0D09 0x20 (b.rate * 65536 + r) else s
      let dram : Dram := { s.dram.kept with density := b.density }
      { s with
        mem := [], bufs := { table := queueStores dram.capacity }
        free := s.free + 1
        dram := { s.dram.kept with
          keys := dramKeysOf s.free
          rate := r, density := b.density, capar := b.capar, idleSr := b.idleSr, raaimt := e.raaimt, raammt := e.raammt, raadec := e.raadec } }

/-! ### Stage 0x06: security (R395, R397, R407, R418, R421, R434, R484) -/

/-- A stored copy passes the checks of its kind again but for SEQ (R407). -/
def State.copyHolds (s : State) (kind : Nat) (d : List Byte) : Bool :=
  docHeaderOk d && docKind d == kind && (s.signerCheck d).isNone && s.bodyCheck d

/-- The stored roster and package come into force; the package is expanded before any thread is launched. -/
def State.bootDocs (s : State) : State :=
  let s := match newestDoc s.flash.roster with
    | some (_, c) => if s.copyHolds 3 c.data then s.rosterInForce c.data else s
    | none => s
  match newestDoc s.flash.pkg with
  | some (_, c) =>
    if s.copyHolds 4 c.data then
      let p := s.packageOf c.data
      if p.pageCount = 0 then s
      else
        let (s, p) := s.expandPages p
        { s with comp := { s.comp with pkg := some p } }
    else s
  | none => s

/-- The lifetime block after POR_N is that of the newest copy; later boots find it in the always-on domain (DEDUCED, log 28). -/
def State.bootLife (s : State) : State :=
  if s.boot.lastReset ≠ 1 then s
  else match newestDoc s.flash.life with
    | some (_, c) => { s with life := Life.ofBytes c.data }
    | none => s

/-- The security processor and the fabric start: a new nonce, no stream key, the origin's coordinates. -/
def State.bootSecurity (s : State) (e : BootEnv) : State :=
  let s := s.modFab fun f => { f with coord := if s.boot.origin then some (0, 0) else none }
  let s := s.modSec fun x => { x with nonce := e.nonce, keys := [], grantSeq := [], docs := [], inbox := [] }
  let s := if s.sec.debug then s.report 0x1107 0x0A 0 else s
  s.bootDocs.bootLife

/-! ### Stage 0x07: start-up programs (R515, R516) -/

/-- Start of the start-up region. -/
def startAt : Nat := 0x3800000

/-- COUNT of a directory; 0 when it fails MAGIC, COUNT or CHECK. -/
def Flash.startCount (f : Flash) : Nat :=
  let d := f.read startAt 4096
  let n := fieldAt d 4 4
  if fieldAt d 0 4 == 0x54525453 && n ≤ 8 && fieldAt d 0xFFC 4 == crc32c (d.take 0xFFC) then n else 0

/-- Entry `i` of the directory. -/
def Flash.startEntry (f : Flash) (i : Nat) : List Byte := f.read (startAt + 0x10 + 48 * i) 48

/-- Base address of start-up program buffer `i`, 1 MiB below the storage of the queues (DESIGN CHOICE, log 11). -/
def State.startBase (s : State) (i : Nat) : Nat := s.dram.capacity - 343932928 + i * 1048576

/-- The entry is in range (Table 22-8). -/
def startRange (e : List Byte) : Bool :=
  let off := fieldAt e 0 4
  let len := fieldAt e 4 4
  let doff := fieldAt e 16 4
  let dlen := fieldAt e 20 4
  off % 8 == 0 && len % 8 == 0 && 8 ≤ len && len ≤ 1048576 && off + len ≤ 8388608 && dlen ≤ 4194304
    && (dlen == 0 || doff + dlen ≤ 8388608) && fieldAt e 28 1 < 8

/-- An entry applies to the boot mode. -/
def State.startApplies (s : State) (e : List Byte) : Bool := s.boot.mode == 1 || (s.boot.mode == 0 && (fieldAt e 29 1).testBit 0)

/-- The launch descriptor of an entry (Table 09-1). -/
def startItem (i : Nat) (e : List Byte) (data status : Nat) : List Byte :=
  leBytes 32 (1 + (4032 + i) * 65536 + fieldAt e 8 4 * 2 ^ 32 + fieldAt e 32 8 * 2 ^ 64 + data * 2 ^ 128 + status * 2 ^ 192)

/-- A buffer takes its place in the table with contents in memory. -/
def State.putBuffer (s : State) (h : Nat) (b : Buf) (d : List Byte) : State :=
  { s with mem := Memory.writeN s.mem b.base d, bufs := { s.bufs with table := tabPut s.bufs.table h b } }

/-- Load and post one entry, or skip it with record 0x1603. -/
def State.startProgram (s : State) (i : Nat) : State :=
  let e := s.flash.startEntry i
  let skip := fun (s : State) (why : Nat) => s.report 0x1603 0x00 (i * 2 ^ 32 + why)
  if !s.startApplies e then s
  else if !startRange e then skip s 1
  else
    let image := s.flash.read (startAt + fieldAt e 0 4) (fieldAt e 4 4)
    let dlen := fieldAt e 20 4
    let data := s.flash.read (startAt + fieldAt e 16 4) dlen
    if crc32c image ≠ fieldAt e 12 4 then skip s 2
    else if dlen ≠ 0 && crc32c data != fieldAt e 24 4 then skip s 3
    else
      let t : Tid := Fin.ofNat 8 (fieldAt e 28 1)
      let q : Fin 64 := ⟨t.val, by omega⟩
      let put := fun (s : State) (h : Nat) =>
        let s := s.putBuffer (4032 + i) { base := s.startBase i, len := image.length, owner := none } image
        s.pushItem q (startItem i e h s.boot.status) 15
      if s.queues[q].space < 32 then skip s 4
      else if dlen = 0 then put s 0
      else
        match s.place false dlen, s.bufs.freeHandle with
        | some p, some h =>
          let s := { s with bufs := s.bufs.takeHandle }
          put (s.putBuffer h { base := p, len := dlen, owner := some t } data) h
        | _, _ => skip s 4

/-- The entries in order; a STANDALONE device on which none applies writes record 0x1602 (R517). -/
def State.bootPrograms (s : State) : State :=
  let n := s.flash.startCount
  let s := if s.boot.mode = 1 && !((List.range n).any fun i => s.startApplies (s.flash.startEntry i)) then s.report 0x1602 0x00 0 else s
  (List.range n).foldl State.startProgram s

/-! ### READY (R399) -/

/-- ADVANCE: BOOT_SVN is programmed up to the SVN of the image, or record 0x1106 without VDD_FUSE. -/
def State.advanceSvn (s : State) (advance vddFuse : Bool) : State :=
  let v := s.sec.fwSvn
  if !advance || v ≤ s.sec.bootSvn then s
  else if vddFuse then (s.modSec fun x => { x with bootSvn := v }).report 0x1108 0x0A v
  else s.report 0x1106 0x0A 2

/-- The start-up stages by boot mode (R504, R508). -/
def State.coldBoot (s : State) (e : BootEnv) : State :=
  let s := s.modBoot fun b => { b with fresh := false, stopped := false, stage := 0 }
  if s.boot.mode = 3 then (s.report 0x1601 0x00 3).bootStops
  else
    let s := s.atStage 1
    if s.boot.mode = 2 then s
    else
      let s := s.bootStage 2 fun s => e.sramFails.foldl State.sramFails s
      let (s, advance) := if s.boot.stopped then (s, false) else (s.atStage 3).bootFirmware e
      let s := s.bootStage 4 State.bootTrims
      let s := s.bootStage 5 fun s => s.bootDram e
      let s := s.bootStage 6 fun s => s.bootSecurity e
      let s := s.bootStage 7 State.bootPrograms
      s.bootStage 8 fun s => s.advanceSvn advance e.vddFuse

/-- `COLD_BOOT`: it follows a reset (R506, R508). -/
def execColdBoot (e : BootEnv) (s : State) : Answer :=
  .next (if s.boot.fresh && !s.therm.tripped then s.coldBoot e else s)

/-- `TRIP_RESTART`: the trip ends with a cold boot, which records it (R386, R481, R484). -/
def execTripRestart (e : BootEnv) (seconds : BitVec 32) (s : State) : Answer :=
  if !s.therm.tripped then .next s
  else
    let s := { s with
      therm := { s.therm with tripped := false, trippedLast := true, trip := {} }
      life := { s.life with trips := s.life.trips.bump } }
    let s := if s.pwr.resp.isSome || s.pwr.pfailLow then s else (s.unhold .rails .hardware).unhold .light .hardware
    let s := s.report 0x1403 0x01 (s.therm.tripSensor * 2 ^ 32 + wrapInt 16 s.therm.tripTemp)
    let s := s.report 0x1404 0x01 seconds.toNat
    .next ((s.modBoot fun b => { b with lastReset := 3 }).coldBoot e)

end Sys2Proof.Machine
end

