-- ==== Sys2Proof/Machine/Buffers.lean ====
section
/-! DEFINITION. Buffer memory and buffer instructions, and the two events that return memory (R220-R225, R257-R259, R318). -/

namespace Sys2Proof.Machine

/-! ### LDH and STH (R257) -/

/-- The access size of FN[1:0] in bytes. -/
def IWord.accSize (w : IWord) : Nat := 2 ^ (w.fn.toNat % 4)

/-- The checks of an access of `LDH` or `STH` at an offset, after those of the handle: alignment, then the end. -/
def accessOk (b : Buf) (off n : Nat) : Except Refused Unit := do
  need (off % n == 0) 0x21
  b.within off n

/-- `LDH`. -/
def execLdh (t : Tid) (w : IWord) (s : State) : Answer :=
  .next (s.issue t 1 fun s => s.orFault t do
    let th := s.thread t
    let h := handleOf (th.reg w.ra)
    let off := (th.reg w.rb + w.simm).toNat
    let n := IWord.accSize w
    let b ← s.checkOpen t h
    accessOk b off n
    return s.startUnit t (.ldh t w) { handles := [h], reads := [.ofBytes h off n] } fun s =>
      let (s, r) := s.readBuf b off n
      match r with
      | some d => s.toUnit t w (some { val := BitVec.ofNat 64 (leNat d), isResult := false })
      | none => s.toUnit t w (some { wrRd := false, isResult := false, flt := some (.memUe, 0) }))

/-- `STH`. -/
def execSth (t : Tid) (w : IWord) (s : State) : Answer :=
  .next (s.issue t 1 fun s => s.orFault t do
    let th := s.thread t
    let h := handleOf (th.reg w.ra)
    let off := (th.reg w.rb + w.simm).toNat
    let n := IWord.accSize w
    let b ← s.checkOpen t h
    accessOk b off n
    need (!s.locked h) 0x07
    return s.startUnit t (.sth t w) { handles := [h], writes := [.ofBytes h off n] } fun s =>
      (s.writeBuf h off (leBytes n (th.reg w.rc).toNat)).toUnit t w (some { wrRd := false, isResult := false }))

/-! ### Allocation (R221, R225) -/

/-- Allocate a buffer: its handle, or the result code of what is missing. -/
def State.allocate (s : State) (owner : Tid) (len : Nat) (isSealed shared : Bool) : State × Except Nat Nat :=
  if len = 0 then (s, .error 0x15)
  else
    match s.bufs.freeHandle with
    | none => (s, .error 0x13)
    | some h =>
      match s.place isSealed len with
      | none => (s, .error 0x14)
      | some p =>
        let b := s.bufs.takeHandle
        let e : Buf := { base := p, len := len, owner := some owner, isSealed := isSealed, shared := shared }
        ({ s with bufs := { b with table := tabPut b.table h e } }, .ok h)

/-- `BALLOC`. -/
def execBalloc (t : Tid) (w : IWord) (s : State) : Answer :=
  .next (s.issue t 1 fun s =>
    s.startUnit t (.balloc t w) {} fun s =>
      match s.allocate t ((s.thread t).reg w.ra).toNat (w.fn.getLsbD 0) (w.fn.getLsbD 1) with
      | (s, .ok h) => s.toUnit t w (some (.codeRc 0 h))
      | (s, .error r) => s.toUnit t w (some (.codeRc r 0)))

/-- `BFREE`: handle checks 1 to 5 with its own outcomes, then the release or the mark DYING (R225, R250). -/
def execBfree (t : Tid) (w : IWord) (s : State) : Answer :=
  .next (s.issue t 1 fun s => s.orFault t do
    let h := handleOf ((s.thread t).reg w.ra)
    let found ← s.findHandle h
    match found with
    | none => return s.startUnit t (.bfree t w) {} fun s => s.toUnit t w (some (.code 0x11))
    | some b =>
      need (b.owner == some t) 0x04
      return s.startUnit t (.bfree t w) {} fun s =>
        if b.dying then s.toUnit t w (some (.code 0x12))
        else if s.refs h = 0 then (s.release h).toUnit t w (some (.code 0))
        else
          ({ s with bufs := { s.bufs with table := tabPut s.bufs.table h { b with dying := true } } } : State).toUnit t w
            (some (.code 0x10)))

/-- The last reference of a dying buffer retires: its memory returns (R225). -/
def execBufferRelease (h : Handle) (s : State) : Answer :=
  match s.buf? h.toNat with
  | some b => if b.dying && s.refs h.toNat == 0 then .next (s.release h.toNat) else .next s
  | none => .next s

/-- The zeroing engine finishes a freed granule once every subchannel has written its runs: every burst is zero under the next epoch. The
granule stays retired instead at epoch 0xFFFF, or with an epoch entry that is lost (R318, R319). -/
def execGranuleZeroingDone (g : BitVec 18) (ue : Bool) (s : State) : Answer :=
  let g := g.toNat
  let e := tabGet 0 s.dram.epochs g
  let j := granuleJob g
  if j ∉ s.bufs.zeroing then .next s
  else if ue then .next (s.loseEpoch g)
  else if e = 65535 then
    .next (({ s with
      bufs := { s.bufs with zeroing := s.bufs.zeroing.erase j }
      dram := { s.dram with retired := g :: s.dram.retired, epochRetired := s.dram.epochRetired.bump } } : State).report 0x0D08 0x23 g)
  else if s.zeroTarget ≠ some j ∨ !s.zeroedAll j then .next s
  else .next ((s.endZeroing j).modDram fun d => { d with epochs := tabSet 0 d.epochs g (e + 1) })

/-! ### Information and sealing (R223, R259) -/

/-- The buffer entry of 32 bytes (Table 10-13). -/
def State.bufEntry (s : State) (h : Nat) (b : Buf) : List Byte :=
  let fl := b.isSealed.toNat + 2 * b.shared.toNat + 4 * b.dying.toNat + 8 * (s.locked h).toNat + 16 * b.mapChecked.toNat
  leBytes 8 (if b.isSealed then 0 else b.base) ++ leBytes 8 b.len ++ leBytes 1 (match b.owner with | some t => t.val | none => 0)
    ++ leBytes 1 fl ++ leBytes 2 (s.refs h) ++ leBytes 2 h ++ leBytes 10 0

/-- The lowest-numbered stream whose clip buffer this is. -/
def State.streamOf (s : State) (h : Nat) : Option (Fin 16) :=
  (List.finRange 16).find? fun i => s.streams[i].st != .detached && s.streams[i].buf.toNat == h

/-- The queue whose storage this is. -/
def State.queueOf (s : State) (h : Nat) : Option (Fin 64) :=
  (List.finRange 64).find? fun q => s.queues[q].kind == .large && s.queues[q].store.toNat == h && h != 0

/-- The blocks that `BINFO` copies, and the state after CLR; none for a STREAM of a buffer that is no clip buffer. -/
def State.infoBlocks (s : State) (h : Nat) (b : Buf) (blk : Nat) (clr : Bool) : Option (List Byte × State) :=
  let entry := s.bufEntry h b
  if blk = 1 then
    match s.streamOf h with
    | none => none
    | some i =>
      let s' := if clr then s.modStream i fun x => { x with wm := { x.wm with lowEvt := false, highEvt := false } } else s
      some (entry ++ s.streamStatus i, s')
  else if blk = 2 then
    match s.queueOf h with
    | none => some (entry, s)
    | some q =>
      let s' := if clr then
          { s with queues := vmod s.queues q fun x => { x with wm := { x.wm with lowEvt := false, highEvt := false } } }
        else s
      some (entry ++ s.queueStatus q, s')
  else some (entry, s)

/-- `BINFO`. -/
def execBinfo (t : Tid) (w : IWord) (s : State) : Answer :=
  .next (s.issue t 1 fun s => s.orFault t do
    let th := s.thread t
    let h := handleOf (th.reg w.ra)
    let dst := handleOf (th.reg w.rb)
    let blk := w.fn.toNat % 4
    let found ← s.findHandle h
    match found with
    | none => return s.startUnit t (.binfo t w) {} fun s => s.toUnit t w (some (.code 0x11))
    | some b =>
      if dst ≠ 0 then
        let _ ← s.checkOpen t dst
      need (blk != 3) 0x20
      let n := 32 + if blk = 1 then 200 else if blk = 2 && (s.queueOf h).isSome then 64 else 0
      let off := w.imm.toNat
      if dst ≠ 0 then
        let _ ← s.checkStore t dst off n
      let u : Use := { handles := if dst = 0 then [] else [dst], writes := if dst = 0 then [] else [.ofBytes dst off n] }
      return s.startUnit t (.binfo t w) u fun s =>
        match s.infoBlocks h b blk (w.fn.getLsbD 4) with
        | none => s.toUnit t w (some (.code 0x25))
        | some (d, s') =>
          let s' := if dst = 0 then s'.modThread t (·.scratchWrite (off % 4096) d) else s'.writeBuf dst off d
          s'.toUnit t w (some (.code 0)))

/-- Other unsealed buffers share a granule with this one. -/
def State.sharesGranule (s : State) (h : Nat) (b : Buf) : Bool :=
  let lo := b.base / 1048576 * 1048576
  let hi := ceilDiv (b.base + b.len) 1048576 * 1048576
  s.bufs.table.any fun e => e.1 != h && lo < e.2.span.2 && e.2.span.1 < hi

/-- Move a buffer to whole granules of its own, sealed: none when no run is free; an uncorrectable source word stops it. -/
def State.moveSealed (s : State) (h : Nat) (b : Buf) : State × Option Done :=
  match s.place true b.len with
  | none => (s, some (.code 0x14))
  | some p =>
    match s.readBuf b 0 b.len 14 with
    | (s, none) => (s, some { wrRd := false, isResult := false, flt := some (.memUe, 0) })
    | (s, some d) =>
      let s := s.writeDram p d 14
      let s := { s with bufs := { s.bufs with table := tabPut s.bufs.table h { b with base := p, isSealed := true } } }
      (s.freeRange b, none)

/-- `BSEAL`. -/
def execBseal (t : Tid) (w : IWord) (s : State) : Answer :=
  .next (s.issue t 1 fun s => s.orFault t do
    let h := handleOf ((s.thread t).reg w.ra)
    let b ← s.checkHandle t h true
    need (!b.isSealed) 0x16
    return s.startUnit t (.bseal t w) { handles := [h], writes := [.ofBytes h 0 b.len] } fun s =>
      if s.sharesGranule h b then
        match s.moveSealed h b with
        | (s, some d) => s.toUnit t w (some d)
        | (s, none) => s.toUnit t w (some (.code 0))
      else
        ({ s with bufs := { s.bufs with table := tabPut s.bufs.table h { b with isSealed := true } } } : State).toUnit t w
          (some (.code 0)))

end Sys2Proof.Machine
end

