-- ==== Sys2Proof/Machine/Dram.lean ====
section
/-! DEFINITION. The DRAM controller: arbitration of the ports, rows and activations, refresh, zeroing, replay, and self-refresh
(R307, R318-R337). The data of a request has moved when it is issued; a grant decides rows and counts (DESIGN CHOICE, log 12). -/

namespace Sys2Proof.Machine

/-- Change one bank. -/
def State.modBank (s : State) (n b : Nat) (f : Bank → Bank) : State := s.modSub n fun c => { c with banks := vmodN c.banks b f }

/-- The controller runs: trained, out of self-refresh, not tripped. -/
def State.dramRuns (s : State) : Bool := s.dram.rate != 0 && s.dram.sr != .inSr && !s.therm.tripped

/-! ### Ports (R322, R323, R325) -/

/-- Rank of a port's class: RT, ISO, BULK (Table 13-4). -/
def portRank (p : Nat) : Nat := if p = 14 then 2 else if 6 ≤ p && p ≤ 13 || [15, 16, 17, 19].contains p then 1 else 0

/-- The page hint of a port is CLOSE (Table 13-4). -/
def portCloses (p : Nat) : Bool := [14, 15, 16, 17, 19].contains p

/-- The budget of a port in bytes per frame period: P14 to P19 while a plan is in force (R325). -/
def State.budget (s : State) (p : Nat) : Option Nat :=
  if 14 ≤ p ∧ p ≤ 19 then s.plan.cur.map fun g => s.portShare g.plan p / 8 else none

/-- The budget of a port is spent (R325). -/
def State.portSpent (s : State) (p : Nat) : Bool :=
  match s.budget p with
  | some b => decide (b ≤ vget s.dram.spent (p - 14))
  | none => false

/-- `URGENCY_RISE`: a waiting request rises by one level; a port whose budget is spent stays at level 0 (R323, R325). -/
def execUrgencyRise (req : Nat) (s : State) : Answer :=
  match s.dram.reqs.find? (·.id == req) with
  | none => .next s
  | some r =>
    if s.portSpent r.port ∨ r.urg = 3 then .next s
    else
      let up : Fin 4 := r.urg + 1
      let s := s.modDram fun d => { d with reqs := d.reqs.map fun x => if x.id = req then { x with urg := up } else x }
      .next (if up = 3 then s.modDram fun d => { d with urgent3 := vmodN d.urgent3 r.port (·.bump) } else s)

/-! ### Rows and activations (R327-R329) -/

/-- The open row of the bank that a request needs is its own. -/
def State.rowHit (s : State) (r : DramReq) : Bool :=
  (vget (vget s.dram.subs (paSub r.pa)).banks (paBank r.pa)).row == some (paRow r.pa)

/-- A refresh or RFM of the banks that `p` names: their rows close, RAA falls by RAADEC (R327, R328). -/
def SubCh.refreshBanks (c : SubCh) (dec imt : Nat) (p : Nat → Bool) : SubCh :=
  let banks := Vector.ofFn fun i : Fin 32 => if p i.val then { c.banks[i] with row := none, raa := c.banks[i].raa - dec } else c.banks[i]
  { c with banks := banks, rfm := c.rfm.filter fun i => decide (imt ≤ banks[i].raa) }

/-- The count of a port in a list of counts, one more. -/
def countUp (l : List (Nat × Nat)) (p : Nat) : List (Nat × Nat) :=
  tabPut l p ((tabFind l p).getD 0 + 1)

/-- The throttle of a port on a bank (R329). -/
def State.throttleOf (s : State) (p n b : Nat) : Option Throttle := s.dram.throttled.find? fun e => e.port == p && e.sub == n && e.bank == b

/-- An ACT for a request: RAA, an RFM that becomes due, the count of the port in this interval, and the throttle, which begins above 32
ACTs and lasts for the 64 intervals that follow this one (R328, R329). -/
def State.activate (s : State) (r : DramReq) : State :=
  let n := paSub r.pa
  let b := paBank r.pa
  let s := s.modBank n b fun x => { x with row := some (paRow r.pa), raa := x.raa + 1, acts := countUp x.acts r.port }
  let x := vget (vget s.dram.subs n).banks b
  let bi : Fin 32 := Fin.ofNat 32 b
  let s := if s.dram.raaimt ≤ x.raa then s.modSub n fun c => { c with rfm := c.rfm.filter (· != bi) ++ [bi] } else s
  if portRank r.port = 0 then s
  else if (s.throttleOf r.port n b).isSome then
    s.modDram fun d => { d with throttled := d.throttled.map fun e => if e.port = r.port ∧ e.sub = n ∧ e.bank = b then { e with last := s.now } else e }
  else if (tabFind x.acts r.port).getD 0 ≤ 32 then s
  else
    let s := s.modDram fun d =>
      { d with throttled := ⟨r.port, n, b, 65, s.now⟩ :: d.throttled, throttle := vmodN d.throttle r.port (·.bump) }
    s.report 0x0D06 0x21 (r.port * 2 ^ 32 + n / 2 * 2 ^ 9 + n % 2 * 2 ^ 8 + b)

/-! ### The command slot (R324) -/

/-- Two requests touch one burst (R18). -/
def DramReq.sameBurst (r q : DramReq) : Bool := decide (r.pa / 64 * 64 < q.pa + q.len) && decide (q.pa / 64 * 64 < r.pa + r.len)

/-- A request may be granted: not one of P22 or P23; after every older request for one of its bursts, since its data moved in that order
(R18, R326; DESIGN CHOICE, log 12); an ACT of a throttled port 250 ns after the one before (R329). -/
def State.grantable (s : State) (r : DramReq) : Bool :=
  decide (r.port < 22) && !(s.dram.reqs.any fun q => decide (q.id < r.id) && r.sameBurst q)
    && (s.rowHit r || (s.throttleOf r.port (paSub r.pa) (paBank r.pa)).all fun e => decide (e.last + 250 ≤ s.now))

/-- The order of R324 among requests: a port within its budget, urgency, class, row hit, age. -/
def State.reqKey (s : State) (r : DramReq) : List Nat :=
  let spent := s.portSpent r.port
  [spent.toNat, if spent then 3 else 3 - r.urg.val, portRank r.port, if s.rowHit r then 0 else 1, r.id]

/-- Lexicographic order of two keys. -/
def keyLt : List Nat → List Nat → Bool
  | a :: x, b :: y => decide (a < b) || (a == b && keyLt x y)
  | _, _ => false

/-- The request that the slot grants. -/
def State.pickReq (s : State) (n : Nat) : Option DramReq :=
  (s.dram.reqs.filter fun r => paSub r.pa == n && s.grantable r).foldl (fun best r =>
    match best with
    | none => some r
    | some b => if keyLt (s.reqKey r) (s.reqKey b) then some r else some b) none

/-- A command that was issued enters the retry buffer (R331). -/
def State.remember (s : State) (n : Nat) (c : RetryCmd) : State :=
  if s.dram.capar then s.modSub n fun x => { x with retry := (x.retry ++ [c]).drop (x.retry.length + 1 - 64) } else s

/-- Issue a refresh: all banks on a subchannel with no request waiting, else the banks of the next bank index (R330). -/
def State.issueRefresh (s : State) (n : Nat) (idle : Bool) : State :=
  let k := (vget s.dram.subs n).nextRef.val % 4
  let s := s.modSub n fun c =>
    let c := c.refreshBanks s.dram.raadec s.dram.raaimt fun b => idle || b % 4 == k
    if c.owed = 0 then { c with ahead := c.ahead + 1, nextRef := c.nextRef + 1 } else { c with owed := c.owed - 1, nextRef := c.nextRef + 1 }
  s.remember n (.refresh (if idle then none else some k))

/-- Issue an RFM for a bank: RFMab on a subchannel with no request waiting, else RFMsb, which covers the same bank of every group. It
stays due for a bank that is still at RAAIMT (R307, R328; DESIGN CHOICE, log 12). -/
def State.issueRfm (s : State) (n b : Nat) (idle : Bool) : State :=
  let s := s.modSub n fun c => c.refreshBanks s.dram.raadec s.dram.raaimt fun i => idle || i % 4 == b % 4
  s.remember n (.rfm (if idle then none else some (b % 4)))

/-- Grant a request: its row opens, its bytes are charged, it enters the retry buffer, a CLOSE access closes the row (R325, R327, R331). -/
def State.grant (s : State) (n : Nat) (r : DramReq) : State :=
  let hit := s.rowHit r
  let s := s.modDram fun d => { d with reqs := d.reqs.filter (·.id != r.id) }
  let s := if hit then s else s.activate r
  let s := if portCloses r.port then s.modBank n (paBank r.pa) fun x => { x with row := none } else s
  let s := if 14 ≤ r.port ∧ r.port ≤ 19 then s.modDram fun d => { d with spent := vmodN d.spent (r.port - 14) (· + r.len) } else s
  s.remember n (.req r)

/-! ### Zeroing after a free (R318, R320) -/

/-- The next run of a subchannel in the memory being zeroed, written through P18; none when it has written its runs. -/
def State.zeroRun (s : State) (n : Nat) : Option DramReq :=
  match s.zeroTarget with
  | none => none
  | some j =>
    let i := vget s.dram.zeroed n
    if i < (j.hi - j.lo) / 8192 then
      some { id := s.nextOp, port := 18, pa := j.lo + i * 8192 + n % 2 * 4096 + n / 2 * 512, len := 512, write := true, data := List.replicate 512 0 }
    else none

/-- Write a run of zeros. The last one ends the job of an unsealed range; a granule waits for `GRANULE_ZEROING_DONE`. -/
def State.writeZeros (s : State) (n : Nat) (r : DramReq) : State :=
  let s := ({ s with nextOp := s.nextOp + 1, dram := { s.dram with zeroed := vmodN s.dram.zeroed n (· + 1) } } : State).grant n r
  match s.zeroTarget with
  | some j => if !j.isSealed && s.zeroedAll j then s.endZeroing j else s
  | none => s

/-! ### What a slot finds (R312, R319) -/

/-- Symbol errors come upon stored bursts of a subchannel. A burst that a waiting request writes is still to be stored (DESIGN CHOICE, log 12). -/
def State.strike (s : State) (n : Nat) (errs : List (Nat × SymErr)) : State :=
  errs.foldl (fun (s : State) e =>
    let a := e.1 / 64 * 64
    if paSub a ≠ n ∨ s.dram.capacity ≤ a ∨ (s.dram.burstBad a).isSome
        ∨ s.dram.reqs.any (fun q => q.write && decide (q.pa < a + 64) && decide (a < q.pa + q.len)) then s
    else s.modDram fun d => { d with faults := tabPut d.faults a ((tabFind d.faults a).getD [] ++ [e.2]) }) s

/-- A slot in which no request is picked: a refresh or RFM that is due; with no request waiting, a refresh pulled in ahead, at most 4,
then a run of zeros; nothing otherwise (R320, R324, R328, R330; the order of the last two DESIGN CHOICE, log 12). -/
def State.idleSlot (s : State) (n : Nat) (idle : Bool) : State :=
  let c := vget s.dram.subs n
  if c.owed ≠ 0 then s.issueRefresh n idle
  else
    match c.rfm with
    | b :: _ => s.issueRfm n b.val idle
    | [] =>
      if !idle then s
      else if c.ahead < 4 then s.issueRefresh n true
      else
        match s.zeroRun n with
        | some r => s.writeZeros n r
        | none => s

/-- `DRAM_COMMAND_SLOT`: by the first rule that separates the candidates, one refresh, RFM or request (R324, R328, R330). -/
def execDramCommandSlot (sub : Fin 16) (errs : SlotErrs) (s : State) : Answer :=
  let n := sub.val
  if !s.dramRuns || s.dram.subs[sub].failed then .next s
  else
    let s := errs.lost.foldl (fun (s : State) g => s.loseEpoch g.toNat) (s.strike n errs.errs)
    let c := s.dram.subs[sub]
    let s := s.modSub n fun c => { c with replaying := false }
    let waiting := s.dram.reqs.filter fun r => paSub r.pa == n
    let urgent := waiting.any fun r => decide (2 ≤ r.urg.val) && !s.portSpent r.port
    if 4 < c.owed then .next (s.issueRefresh n waiting.isEmpty)
    else
      match s.pickReq n with
      | none => .next (s.idleSlot n waiting.isEmpty)
      | some r =>
        let x := vget c.banks (paBank r.pa)
        if !s.rowHit r && decide (s.dram.raammt < x.raa + 1) then .next (s.issueRfm n (paBank r.pa) false)
        else if !urgent && c.owed != 0 then .next (s.issueRefresh n false)
        else
          match urgent, c.rfm with
          | false, b :: _ => .next (s.issueRfm n b.val false)
          | _, _ => .next (s.grant n r)

/-- `ROW_IDLE_CLOSE`: 256 ns without a hit (R327). -/
def execRowIdleClose (sub : Fin 16) (bank : Fin 32) (s : State) : Answer :=
  .next (s.modBank sub.val bank.val fun x => { x with row := none })

/-! ### Refresh, calibration, tracking (R329, R330) -/

/-- A new interval counts ACTs afresh (R329). -/
def SubCh.nextInterval (c : SubCh) : SubCh := { c with banks := c.banks.map fun x => { x with acts := [] } }

/-- `REFRESH_DUE`: a tREFI interval expires; the interval's ACT counts and throttles move on (R329, R330). -/
def execRefreshDue (sub : Fin 16) (s : State) : Answer :=
  if !s.dramRuns then .next s
  else
    let s := s.modSub sub.val fun c =>
      let c := c.nextInterval
      if c.ahead = 0 then { c with owed := c.owed + 1 } else { c with ahead := c.ahead - 1 }
    .next (s.modDram fun d =>
      { d with throttled := d.throttled.filterMap fun e =>
          if e.sub ≠ sub.val then some e else if e.left ≤ 1 then none else some { e with left := e.left - 1 } })

/-- `ZQ_CALIBRATION`: every 128 ms (R330). -/
def execZqCalibration (s : State) : Answer :=
  .next (if s.dramRuns then s.modDram fun d => { d with zqDone := d.zqDone + 1 } else s)

/-- `DQS_OSCILLATOR_TRACKING`: every 1 ms (R330). -/
def execDqsOscillatorTracking (s : State) : Answer :=
  .next (if s.dramRuns then s.modDram fun d => { d with dqsDone := d.dqsDone + 1 } else s)

/-! ### Replay (R331, R332) -/

/-- Every bank precharged. -/
def SubCh.precharge (c : SubCh) : SubCh := { c with banks := c.banks.map fun x => { x with row := none } }

/-- An RFM of a bank before its ACT, as often as RAAMMT asks for it (R328). -/
def State.rfmBefore (s : State) (n b : Nat) : Nat → State
  | 0 => s
  | k + 1 =>
    if (vget (vget s.dram.subs n).banks b).raa + 1 ≤ s.dram.raammt || s.dram.raadec == 0 then s
    else (s.modSub n fun c => c.refreshBanks s.dram.raadec s.dram.raaimt fun i => i % 4 == b % 4).rfmBefore n b k

/-- Reissue one buffered command. An ACT counts, and never takes RAA past RAAMMT; a refresh or RFM that comes again closes its rows and
counts no decrement of RAA (R328, R331; DEDUCED, log 12). -/
def State.reissue (s : State) (n : Nat) (c : RetryCmd) : State :=
  let closing := fun (k : Option Nat) => s.modSub n fun x =>
    { x with banks := Vector.ofFn fun i : Fin 32 => if k.all (· == i.val % 4) then { x.banks[i] with row := none } else x.banks[i] }
  match c with
  | .refresh k => closing k
  | .rfm k => closing k
  | .req r =>
    let b := paBank r.pa
    let s := if s.rowHit r then s else (s.rfmBefore n b (vget (vget s.dram.subs n).banks b).raa).activate r
    if portCloses r.port then s.modBank n b fun x => { x with row := none } else s

/-- Precharge every bank and reissue the buffered commands in order (R331). -/
def State.replay (s : State) (n : Nat) : State :=
  (vget s.dram.subs n).retry.foldl (fun (s : State) c => s.reissue n c) (s.modSub n SubCh.precharge)

/-- Information that names a subchannel (Table 13-8). -/
def subInfo (n : Nat) : Nat := n / 2 * 2 ^ 40 + n % 2 * 2 ^ 39

/-! ### Self-refresh (R334, R335) -/

/-- A subchannel in self-refresh, unless it has failed. -/
def SubCh.sleep (c : SubCh) : SubCh :=
  if c.failed then c else { c.precharge with retry := [], replaying := false }

/-- Grant a request that is drained, after the RFM that RAAMMT asks for (R328, R335). -/
def State.drain (s : State) (r : DramReq) : State :=
  let n := paSub r.pa
  let b := paBank r.pa
  (if s.rowHit r then s else s.rfmBefore n b (vget (vget s.dram.subs n).banks b).raa).grant n r

/-- Every subchannel that has not failed drains its commands, oldest first, and issues what refresh is due; its banks are precharged, and
DRAM is in self-refresh (R335). -/
def State.sleepDram (s : State) : State :=
  let up := fun (s : State) (n : Nat) => !(vget s.dram.subs n).failed
  let s := s.dram.reqs.reverse.foldl (fun (s : State) r => if up s (paSub r.pa) then s.drain r else s) s
  let s := (List.range 16).foldl (fun (s : State) n =>
    if up s n then (List.range (vget s.dram.subs n).owed).foldl (fun (s : State) _ => s.issueRefresh n true) s else s) s
  s.modDram fun d => { d with sr := .inSr, reqs := [], srEntries := d.srEntries.bump, subs := d.subs.map SubCh.sleep }

/-- `DRAM_SELF_REFRESH_ENTRY`: with IDLE_SR, 100 µs without a request begin the entry; the next such event is SRE on the last
subchannel, which completes it. A request in between abandons the entry (R334, R335; DEDUCED, log 26). -/
def execDramSelfRefreshEntry (s : State) : Answer :=
  if !s.dramRuns || !s.dram.idleSr || s.dram.reqs != [] || s.zeroTarget.isSome then .next s
  else
    match s.dram.sr with
    | .out => .next (s.modDram fun d => { d with sr := .entering })
    | .entering => .next s.sleepDram
    | .inSr => .next s

/-- `DRAM_SELF_REFRESH_EXIT`: for a request that waits; after a trip, and in the chip safe state, there is none (R334, R335, R532). -/
def execDramSelfRefreshExit (s : State) : Answer :=
  if s.dram.sr = .inSr ∧ !s.therm.tripped ∧ !s.safe then .next (s.modDram fun d => { d with sr := .out }) else .next s

end Sys2Proof.Machine
end

