-- ==== Sys2Proof/Machine/FrameCache.lean ====
section
/-! DEFINITION. The frame-cache codec: a tile row of a capture job, the end of a captured frame, and playback (R177-R187). -/

namespace Sys2Proof.Machine

/-! ### Records of a container -/

/-- Bytes `off` to `off + n` of a buffer: none beyond its end or where a burst is uncorrectable. -/
def State.cacheBytes (s : State) (h off n : Nat) : State × Option (List Byte) :=
  match s.buf? h with
  | some b => if off + n ≤ b.len then s.readBuf b off n 20 else (s, none)
  | none => (s, none)

/-- The tile that a directory entry names, decoded in the lossless profile from its record alone (R99, R179, R180). -/
def State.cacheTile (s : State) (h w ht t off : Nat) : State × Option (List Nat) :=
  let (s, hd) := s.cacheBytes h off 4
  match hd with
  | none => (s, none)
  | some hd =>
    let (s, b) := s.cacheBytes h off (4 + bitsOf (leNat hd) 31 16)
    match b with
    | none => (s, none)
    | some b =>
      match decodeRecord true true w ht (tileRect w ht t) (fun _ _ => 0) b with
      | .ok r => (s, some r.samples)
      | .error _ => (s, none)

/-! ### Capture (R182-R184) -/

/-- The samples of a tile in the lines of its row, three codes each. -/
def lineTile (lines : List (List Nat)) (r : TileRect) : List Nat :=
  (List.range (r.tw * r.th)).map fun i =>
    let l := lines.getD (i / r.tw) []
    packComps ((List.range 3).map fun c => l.getD (3 * (r.x0 + i % r.tw) + c) 0)

/-- What coding the tiles of a row has come to: the job, its next free byte, a failure. -/
structure CapRun where
  s : State
  used : Nat
  dir : List Nat
  fail : Option Nat := none

/-- Code tile `t`: SKIP where it equals the tile of the frame before, read through its directory entry from the container. -/
def CapRun.tile (len : Nat) (c : Capture) (lines : List (List Nat)) (a : CapRun) (t : Nat) : CapRun :=
  if a.fail.isSome then a
  else
    let h := c.buf.toNat
    let r := tileRect c.w c.h t
    let x := lineTile lines r
    let (s, old) := if c.frames = 0 then (a.s, some none) else
      let (s, o) := a.s.cacheTile h c.w c.h t (c.prevDir.getD t 0)
      (s, o.map some)
    match old with
    | none => { a with s := s, fail := some 6 }
    | some o =>
      let same := o == some x
      let b := encodeTile r.tw same x
      if len < a.used + b.length then { a with s := s, fail := some 2 }
      else { a with
        s := s.writeBuf h a.used b 20
        used := a.used + b.length
        dir := a.dir ++ [if same then c.prevDir.getD t 0 else a.used] }

/-- The last tile row of a frame has been coded: its directory, its index entry with the CRC-32C of its bytes; the last frame ends the
job COMPLETE (R179, R184). -/
def State.endCapFrame (s : State) (c : Capture) : State :=
  let h := c.buf.toNat
  let s := s.writeBuf h c.frameStart (c.dir.flatMap (leBytes 8)) 20
  let len := c.used - c.frameStart
  let (s, b) := s.cacheBytes h c.frameStart len
  match b with
  | none => ({ s with cap := some c } : State).endCapture 3 6
  | some b =>
    let s := s.writeBuf h (4096 + 16 * c.frames) (leBytes 8 c.frameStart ++ leBytes 4 len ++ leBytes 4 (crc32c b)) 20
    let c := { c with frames := c.frames + 1, maxFrame := max c.maxFrame len, prevDir := c.dir, dir := [], rows := 0 }
    let s := { s with cap := some c }
    if c.count ≤ c.frames then s.endCapture 2 0
    else { s with cap := some { c with frameStart := ceilDiv c.used 64 * 64, used := ceilDiv c.used 64 * 64 } }

/-- Code one tile row of the job from its 32 lines, or the last lines of the frame. -/
def State.captureRow (s : State) (c : Capture) (th : Nat) (differs : Bool) : State :=
  let len := match s.buf? c.buf.toNat with | some b => b.len | none => 0
  let lines := c.lines.take th
  let tiles := tilesX c.w * tilesY c.h
  let start := if c.rows = 0 then c.frameStart + 8 * tiles else c.used
  if len < start then ({ s with cap := some { c with lines := c.lines.drop th } } : State).endCapture 3 2
  else
    let ts := (List.range (tilesX c.w)).map fun x => c.rows * tilesX c.w + x
    let a := ts.foldl (CapRun.tile len c lines) { s := s, used := start, dir := c.dir }
    let c := { c with lines := c.lines.drop th, rows := c.rows + 1, used := a.used, dir := a.dir }
    let s := { a.s with cap := some c }
    match a.fail with
    | some r => s.endCapture 3 r
    | none =>
      if differs then s.endCapture 3 1
      else if c.rows = tilesY c.h then s.endCapFrame c
      else s

/-- `CAPTURE_TILE_ROW`: the encoder codes and verifies a tile row once its lines have arrived. `differs` fails the job, and so does `behind`
when two tile rows of lines wait, so that the next line would be too many (R183). -/
def execCaptureTileRow (differs behind : Bool) (s : State) : Answer :=
  .next (
    match s.cap with
    | none => s
    | some c =>
      if c.state ≠ 1 || s.stopped then s
      else if behind ∧ 64 ≤ c.lines.length then s.endCapture 3 3
      else
        let th := min 32 (c.h - 32 * c.rows)
        if c.lines.length < th ∨ th = 0 then s else s.captureRow c th differs)

/-! ### Playback (R177, R186, R187) -/

/-- The frame of the container that wall frame `f` plays (R186). -/
def Plan.cacheFrame (p : Plan) (w0 f : Nat) : Nat :=
  p.cpFirst + if p.cpLoop then (f - w0) % p.cpCount else min (f - w0) (p.cpCount - 1)

/-- Decode the tiles `ts` of frame `f`: per tile its samples; a tile that cannot be decoded is codes 0, CACHE_UE and record 0x0703. -/
def State.cacheTiles (s : State) (p : Plan) (f row : Nat) (ts : List Nat) : State × List (List Nat) :=
  let (s, ix) := s.cacheBytes p.cpBuf (4096 + 16 * f) 16
  ts.foldl (fun (a : State × List (List Nat)) t =>
    let (s, e) := match ix with
      | some b => a.1.cacheBytes p.cpBuf (bitsOf (leNat b) 39 0 + 8 * t) 8
      | none => (a.1, none)
    let (s, x) := match e with
      | some e => s.cacheTile p.cpBuf p.width p.height t (bitsOf (leNat e) 39 0)
      | none => (s, none)
    match x with
    | some x => (s, a.2 ++ [x])
    | none =>
      let s := (s.report 0x0703 0x1D (f % 2 ^ 18 * 2 ^ 14 + row)).modStatus fun c => { c with cacheUe := c.cacheUe.bump }
      let r := tileRect p.width p.height t
      (s, a.2 ++ [List.replicate (r.tw * r.th) 0])) (s, [])

/-- The codes of line `y` of a tile row. -/
def rowLine (p : Plan) (row : Nat) (tiles : List (List Nat)) (y : Nat) : List Nat :=
  (List.range p.width).flatMap fun x =>
    let r := tileRect p.width p.height (row * tilesX p.width + x / 32)
    let v := (tiles.getD (x / 32) []).getD (y * r.tw + x % 32) 0
    (List.range 3).map (comp v)

/-- `CACHE_TILE_ROW_DECODE`: the next tile row of the frame that plays; at most two tile rows are held. -/
def execCacheTileRowDecode (s : State) : Answer :=
  .next (
    match (if s.tgRuns 0 then s.plan.cur else none) with
    | none => s
    | some g =>
      let p := g.plan
      let row := s.out.cacheRow
      let low := match s.out.lines with | l :: _ => l.1 / 32 | [] => row
      if p.outMode ≠ 2 ∨ tilesY p.height ≤ row ∨ low + 1 < row then s
      else
        let f := p.cacheFrame (s.plan.w0.getD s.wallFrame) s.wallFrame
        let (s, tiles) := s.cacheTiles p f row ((List.range (tilesX p.width)).map fun x => row * tilesX p.width + x)
        let ys := List.range (min 32 (p.height - 32 * row))
        let ys := ys.filter fun y => decide (s.tg0.line < p.vbl + (32 * row + y))
        s.modOut fun o => { o with
          cacheRow := row + 1
          lines := ys.foldl (fun l y => tabPut l (32 * row + y) (rowLine p row tiles y)) o.lines })

end Sys2Proof.Machine
end

