-- ==== Sys2Proof/Machine/Routing.lean ====
section
/-! DEFINITION. Fabric frames: transmit order and slots, receive checks, delivery, transit, reassembly, and `FSEND`
(R54, R267, R435-R448, R455, R459-R460). -/

namespace Sys2Proof

/-- The 16 header bytes (Table 18-4). -/
def FabHdr.bytes (h : FabHdr) : List Byte :=
  Machine.leBytes 16 (h.dst.toNat + h.src.toNat * 2 ^ 12 + h.fidx.toNat * 2 ^ 24 + h.rsvd.toNat * 2 ^ 32 + h.first.toNat * 2 ^ 33
    + h.last.toNat * 2 ^ 34 + h.auth.toNat * 2 ^ 35 + h.detour.toNat * 2 ^ 36 + h.bcast.toNat * 2 ^ 37 + h.tc.toNat * 2 ^ 38
    + h.ftype.toNat * 2 ^ 40 + h.len.toNat * 2 ^ 44 + h.ttl.toNat * 2 ^ 56 + h.lseq.toNat * 2 ^ 64)

/-- A header that check 6 of Table 18-5 refuses. -/
def FabHdr.bad (h : FabHdr) : Bool :=
  h.rsvd || decide (2048 < h.len.toNat) ||
    match h.ftype.toNat with
    | 0 => h.tc != 0
    | 2 => !(h.tc == 1 || h.tc == 3)
    | 3 => h.tc == 0
    | 1 | 4 | 5 => h.tc != 1
    | _ => true

end Sys2Proof

namespace Sys2Proof.Machine

/-! ### Transmit (R443-R447) -/

/-- The IV of a direction: its salt and the LSEQ (R437). -/
def linkIv (salt : BitVec 32) (lseq : BitVec 64) : List Byte := leBytes 4 salt.toNat ++ leBytes 8 lseq.toNat

/-- Items of a roster answer enter Q32 + p as it has space for them. -/
def State.refill (s : State) (p : Fin 8) : Nat → State
  | 0 => s
  | n + 1 =>
    match s.fab.ports[p].waiting with
    | x :: r => if s.txRoom p x.bytes then State.refill ((s.modPort p fun y => { y with waiting := r }).sendOwn p x) p n else s
    | [] => s

/-- The port whose item of a class is being sent, while that port still brings its frames. -/
def State.openSource (s : State) (y : Port) (tc : Nat) : Option (Option (Fin 8)) :=
  match vget y.openTx tc with
  | some (some q) => if s.fab.ports[q].st == .up && !s.fab.ports[q].retrain then some (some q) else none
  | x => x

/-- Index of the oldest transit or control frame that may go: the frames of one item follow one another (R443). -/
def State.pickFrame (s : State) (y : Port) (tc : Nat) (l : List TxFrame) : Option Nat :=
  match s.openSource y tc with
  | none => if l.isEmpty then none else some 0
  | some src => l.findIdx? fun f => f.source == src

/-- The next frame of an item of Q32 + p. -/
def TxItem.frame (x : TxItem) : TxFrame :=
  let c := (x.bytes.drop x.sentBytes).take 2048
  { hdr := { lseq := 0, ttl := x.ttl, len := BitVec.ofNat 12 c.length, ftype := x.ftype, tc := x.tc, bcast := x.bcast, detour := x.detour
             auth := x.auth, last := decide (x.bytes.length ≤ x.sentBytes + 2048), first := x.sentBytes == 0, rsvd := false
             fidx := x.fidx, src := x.src, dst := x.dst }
    payload := c
    source := none }

/-- A frame leaves on a port. A comet is filled in as it leaves; a frame on a link with keys takes the next LSEQ; the LSEQ of an
AUTH frame before that is a free value (DESIGN CHOICE, log 10). -/
def State.emit (s : State) (p : Fin 8) (f : TxFrame) : State :=
  let body := if f.hdr.ftype = 0 then s.cometBytes p else f.payload
  let y := s.fab.ports[p]
  if y.st = .up then
    s.modPort p fun y => { y with
      sent := some ({ f.hdr with lseq := y.lseqTx }, body), lseqTx := y.lseqTx + 1
      openTx := vmodN y.openTx f.hdr.tc.toNat fun _ => if f.hdr.last then none else some f.source }
  else
    let (s, v) := s.freshValue
    s.modPort p fun y => { y with sent := some ({ f.hdr with lseq := v }, body) }

/-- Send the next frame of the item at the head of Q32 + p; the item leaves its queue with its last frame. -/
def State.emitOwn (s : State) (p : Fin 8) (x : TxItem) : State :=
  let f := x.frame
  let s := s.emit p f
  if f.hdr.last then
    let s := s.modPort p fun y => { y with own := y.own.tail }
    match s.takeItem (txQueue p) 17 with
    | some (_, s, _) => s
    | none => s
  else
    s.modPort p fun y =>
      { y with own := { x with sentBytes := x.sentBytes + 2048, fidx := x.fidx + 1 } :: y.own.tail }

/-- `FABRIC_TRANSMIT_OPPORTUNITY`: the first of the five sources of R444 that is ready. In the chip safe state only
forwarded frames of classes 0 and 1 leave (R533). In a marked slot class 2 needs room, classes 0 and 1 stop at their 10 percent, and class 3 waits (R446). A port that authenticates sends its AUTH frames. -/
def execFabricTransmitOpportunity (p : Fin 8) (room used : Bool) (s : State) : Answer :=
  .next (
    let y := s.fab.ports[p]
    if y.st = .authenticating then
      match y.tx1 with
      | f :: r => (s.modPort p fun y => { y with tx1 := r }).emit p f
      | [] => s
    else if y.st ≠ .up ∨ y.retrain then s
    else
      let s := s.refill p y.waiting.length
      let y := s.fab.ports[p]
      let marked := y.mask.getLsbD y.slot
      let may : Nat → Bool := fun tc => if s.safe && decide (2 ≤ tc) then false else if tc ≤ 1 then !(marked && used) else if tc = 2 then marked && room else !marked
      let pick := fun tc l => if may tc then s.pickFrame y tc l else none
      let head := match y.own with
        | x :: _ => if !s.safe && may x.tc.toNat && (match s.openSource y x.tc.toNat with | some (some _) => false | _ => true) then some x else none
        | [] => none
      match pick 0 y.tx0, pick 1 y.tx1, pick 2 y.tx2, head, pick 3 y.tx3 with
      | some i, _, _, _, _ => (s.modPort p fun y => { y with tx0 := y.tx0.eraseIdx i }).emit p (y.tx0.getD i default)
      | none, some i, _, _, _ => (s.modPort p fun y => { y with tx1 := y.tx1.eraseIdx i }).emit p (y.tx1.getD i default)
      | none, none, some i, _, _ => (s.modPort p fun y => { y with tx2 := y.tx2.eraseIdx i }).emit p (y.tx2.getD i default)
      | none, none, none, some x, _ => s.emitOwn p x
      | none, none, none, none, some i => (s.modPort p fun y => { y with tx3 := y.tx3.eraseIdx i }).emit p (y.tx3.getD i default)
      | none, none, none, none, none => s)

/-- Class-2 frames that wait on a port. -/
def Port.isoWaiting (y : Port) : Nat :=
  y.tx2.length + ((y.own.filter (·.tc == 2)).map fun x => ceilDiv (x.bytes.length - x.sentBytes) 2048).sum

/-- Count `n` in a port counter of Table 18-5. -/
def State.countPort (s : State) (p : Fin 8) (c : Nat) (n : Nat := 1) : State :=
  s.modPort p fun y => { y with ctr := vmodN y.ctr c fun x => x.bump n }

/-- `FABRIC_SLOT_START`: slot 0 begins a superframe: late class-2 frames count, a new mask comes into force at SLOT_EPOCH, and
a new link outcome takes effect (R414, R446, R447). -/
def execFabricSlotStart (p : Fin 8) (slot : Fin 256) (s : State) : Answer :=
  .next (
    let s := if slot = 0 then
        let s := s.countPort p 11 s.fab.ports[p].isoWaiting
        s.modPort p fun y =>
          let y := match y.maskNext with
            | some (m, epoch) => if epoch ≤ s.fab.ft then { y with mask := m, maskNext := none } else y
            | none => y
          match y.linkNext with
          | some k => { y with link := k, linkNext := none }
          | none => y
      else s
    s.modPort p fun y => { y with slot := slot.val })

/-! ### Group commands on arrival (R455, R457) -/

/-- PLEN of an opcode, and whether the payload fields are in range (Table 18-7). -/
def groupOk (gop plen : Nat) (b : List Byte) : Bool :=
  let f := fun o n => fieldAt b o n
  match gop with
  | 1 => plen == 16 && decide (f 0 1 ≤ 7)
  | 2 => plen == 24 && decide (f 0 1 ≤ 15)
  | 3 => plen == 16 && decide (f 0 1 ≤ 15)
  | 4 => plen == 1 && decide (f 0 1 ≤ 15)
  | 5 | 6 => plen == 1 && decide (f 0 1 ≤ 1)
  | 7 => plen == 4
  | 8 =>
    let n := f 2 2
    decide (1 ≤ n ∧ n ≤ 104 ∧ f 0 2 + n ≤ 4096) && plen == 4 + ceilDiv n 2
      && (List.range n).all fun i => let e := f (4 + i / 2) 1 / 16 ^ (i % 2) % 16; decide (e < 8) || e == 15
  | 9 => plen == 0
  | _ => false

/-- The rectangle of TARGET holds this device. -/
def State.targeted (s : State) (target : Nat) : Bool :=
  match s.fab.coord with
  | some (r, c) =>
    decide (bitsOf target 5 0 ≤ r ∧ r ≤ bitsOf target 11 6 ∧ bitsOf target 17 12 ≤ c ∧ c ≤ bitsOf target 23 18)
  | none => false

/-- A group command arrives, by a port or from this device: block and execution time. One that breaks
Table 18-7 is discarded (DEDUCED, log 18). One that is late, or finds 64 pending,
is not executed (record 0x1208). -/
def State.takeGroup (s : State) (p : Option (Fin 8)) (src : BitVec 12) (auth : Bool) (b : List Byte) : State :=
  if !s.targeted (fieldAt b 4 4) || !groupOk (fieldAt b 0 2) (fieldAt b 2 2) (bytesAt b 8 56) then s
  else if !auth || !s.enrolled || s.safe then
    match p with
    | some p => s.modPort p fun y => { y with groupDrop := y.groupDrop.bump }
    | none => s
  else
    let gop := fieldAt b 0 2
    let time := fieldAt b 64 8
    if time < s.fab.ft then s.report 0x1208 0x09 (1 * 2 ^ 32 + gop * 65536 + src.toNat)
    else if 64 ≤ s.fab.group.length then s.report 0x1208 0x09 (2 * 2 ^ 32 + gop * 65536 + src.toNat)
    else s.modFab fun f => { f with group := f.group ++ [⟨time, BitVec.ofNat 16 gop, src, bytesAt b 8 56⟩] }

/-! ### Receive (R438-R442, R445, R460) -/

/-- The receive queue of a port, Q24 + p. -/
def rxQueue (p : Fin 8) : Fin 64 := ⟨24 + p.val, by omega⟩

/-- A whole item goes into Q24 + p; a full queue drops it (check 11). -/
def State.toRx (s : State) (p : Fin 8) (cls : Bool) (item : List Byte) : State :=
  let fits := decide (itemSpace item ≤ s.queues[rxQueue p].space)
  let s := s.pushItem (rxQueue p) item 17 cls
  if fits then s else s.countPort p 10

/-- The checks of R55 that a NOTICE or KEY_GRANT takes over the fabric (R460), and the address (R56). -/
def State.secOk (s : State) (h : Cls) (n : Nat) : Bool := h.first4.isNone && (s.clsMid h n).isNone && s.addressed h

/-- A complete CLS item at its destination (R460). -/
def State.clsArrives (s : State) (p : Fin 8) (item : List Byte) : State :=
  let h := clsOf item
  if 64 ≤ item.length ∧ h.forSec then (if s.secOk h item.length then s.toSecurity (s.fabStream h.clip) item else s)
  else s.toRx p true item

/-- The packet that carries a fragment of the stored roster to a neighbour (R43, R400); what the spec leaves open in it, CLIP_ID
and SEQ, is a free value. -/
def noticePacket (node : Nat) (free : Nat) (payload : List Byte) : List Byte :=
  let v := 0xC15A + 1 * 2 ^ 16 + 7 * 2 ^ 24 + node * 2 ^ 48 + free % 65536 * 2 ^ 64 + 255 * 2 ^ 120
    + payload.length * 2 ^ 128 + free / 65536 % 2 ^ 32 * 2 ^ 256
  let h := leBytes 44 v
  let b := h ++ leBytes 4 (crc32c h) ++ payload
  b ++ leBytes 16 (crc32c b)

/-- The stored roster as fragments, for a neighbour that asked (R400, R450). -/
def State.answerRoster (s : State) (p : Fin 8) (node : Nat) : State :=
  match s.sec.roster with
  | none => s
  | some r =>
    let (s, v) := s.freshValue
    let n := ceilDiv r.doc.length 65520
    let items := (List.range n).map fun i =>
      let frag := leBytes 16 (3 + v.toNat % 65536 * 2 ^ 16 + i * 2 ^ 32 + n * 2 ^ 40 + r.doc.length * 2 ^ 64)
        ++ (r.doc.drop (i * 65520)).take 65520
      s.newItem 1 3 false node (noticePacket node (v.toNat / 65536) frag)
    (s.modPort p fun y => { y with waiting := y.waiting ++ items }).refill p n

/-- A complete item for this node. -/
def State.itemArrives (s : State) (p : Fin 8) (r : Reasm) : State :=
  match r.ftype.toNat with
  | 2 => s.toRx p false r.bytes
  | 3 => s.clsArrives p r.bytes
  | 4 => if r.bytes.length = 72 then s.takeGroup (some p) r.src r.auth r.bytes else s
  | _ => s

/-- Reassembly of the items of a class (R445, check 10). -/
def State.reassemble (s : State) (p : Fin 8) (h : FabHdr) (auth : Bool) (body : List Byte) : State :=
  let tc := h.tc.toNat
  let setCtx := fun (s : State) (x : Option Reasm) => s.modPort p fun y => { y with ctx := vmodN y.ctx tc fun _ => x }
  let step := fun (s : State) (r : Reasm) => if h.last then (setCtx s none).itemArrives p r else setCtx s (some r)
  match vget s.fab.ports[p].ctx tc, h.first with
  | some _, true => step (s.countPort p 9) ⟨h.fidx, h.ftype, h.src, h.dst, h.bcast, auth, body⟩
  | none, true => step s ⟨h.fidx, h.ftype, h.src, h.dst, h.bcast, auth, body⟩
  | some r, false =>
    if h.fidx = r.fidx + 1 ∧ h.ftype = r.ftype ∧ h.src = r.src ∧ h.dst = r.dst ∧ h.bcast = r.bcast then
      step s { r with fidx := h.fidx, auth := r.auth && auth, bytes := r.bytes ++ body }
    else setCtx (s.countPort p 9) none
  | none, false => s

/-- Put a frame in transit on a port. -/
def State.transit (s : State) (p : Fin 8) (f : TxFrame) : State :=
  s.modPort p fun y =>
    match f.hdr.tc.toNat with
    | 1 => { y with tx1 := y.tx1 ++ [f] }
    | 2 => { y with tx2 := y.tx2 ++ [f] }
    | _ => { y with tx3 := y.tx3 ++ [f] }

/-- The ports that forward a broadcast that arrived on a port (R442). -/
def bcastNext (p : Fin 8) : List (Fin 8) :=
  match p.val with
  | 0 => [1, 2, 3]
  | 1 => [0, 2, 3]
  | 2 => [3]
  | 3 => [2]
  | _ => []

/-- A frame that passed checks 1 to 7. -/
def State.route (s : State) (p : Fin 8) (h : FabHdr) (auth : Bool) (body : List Byte) (rx : Nat) : State :=
  let fwd : TxFrame := ⟨{ h with ttl := h.ttl - 1, auth := auth }, body, some p⟩
  -- in the chip safe state class-2 and class-3 frames are dropped, and requests of the partner are not answered (R533)
  if s.safe && decide (2 ≤ h.tc.toNat) then s.countPort p 10
  else match h.ftype.toNat with
  | 0 => if body.length = 64 then s.comet p body rx else s
  | 1 => s
  | 5 => if s.safe then s else s.answerRoster p h.src.toNat
  | _ =>
    if h.bcast then
      let s := if h.ttl.toNat ≤ 1 then s.countPort p 7
        else ((bcastNext p).filter fun q => s.fab.ports[q].carries h.tc.toNat).foldl (fun s q => s.transit q fwd) s
      s.reassemble p h auth body
    else if s.node? = some h.dst.toNat then s.reassemble p h auth body
    else if h.ttl.toNat ≤ 1 then s.countPort p 7
    else
      match s.nextHop h.dst.toNat h.tc.toNat h.detour with
      | some (q, d) => s.transit q { fwd with hdr := { fwd.hdr with detour := d } }
      | none => s.countPort p 8

/-- `FABRIC_FRAME_RECEIVE`: the checks of Table 18-5 in order. A port that authenticates has no keys, so every frame but an AUTH frame
fails its tag; what an AUTH frame says is `AUTH_FRAME`. -/
def execFabricFrameReceive (p : Fin 8) (f : FabFrame) (s : State) : Answer :=
  .next (
    let y := s.fab.ports[p]
    let h := f.hdr
    if (y.st ≠ .up ∧ y.st ≠ .authenticating) ∨ y.retrain then s
    else if f.symErr then s.countPort p 0
    else if f.ue then s.countPort p 1
    else if f.crcErr then s.countPort p 2
    else if y.st = .authenticating then (if h.ftype = 1 then s else s.countPort p 3)
    else if Config.gcmTag y.rxKey (linkIv y.rxSalt h.lseq) h.bytes f.payload ≠ f.tag then s.countPort p 3
    else if h.lseq ≤ y.lseqRx then s.countPort p 4
    else
      let s := s.modPort p fun y => { y with lseqRx := h.lseq }
      if h.bad then s.countPort p 5
      else if 2 ≤ h.tc.toNat ∧ y.link = .restricted then s.countPort p 6
      else s.route p h (h.auth && y.link == .authenticated) (Config.gcmPlain y.rxKey (linkIv y.rxSalt h.lseq) f.payload) f.rxTime)

/-! ### Moves to ingest (R53, R54, R61) -/

/-- `FABRIC_CLS_MOVE`: the CLS item at the head of Q24 + p goes to the ingest queue of the lowest-numbered stream with its CLIP_ID,
or is discarded; one whose words are uncorrectable is dropped (R11; DESIGN CHOICE, log 45). -/
def execFabricClsMove (p : Fin 8) (s : State) : Answer :=
  .next (
    match s.takeItem (rxQueue p) 17 with
    | some (item, u, ok) =>
      if s.stopped || !s.queues[rxQueue p].tag then s else
      let s := u
      let drop := fun (s : State) => s.modPort p fun y => { y with clsDrop := y.clsDrop.bump }
      let h := clsOf item
      if !ok then s
      else if item.length < 64 ∨ h.first4.isSome then drop s
      else
        match (List.finRange 16).find? fun i => s.streams[i].st != .detached && s.streams[i].clipId.toNat == h.clip with
        | none => drop s
        | some i =>
          let g := s.queues[ingestQueue i]
          if itemSpace item ≤ g.space then s.pushItem (ingestQueue i) item 17 true else s.countStream i 16
    | none => s)

/-! ### FSEND (R267, R440, R444) -/

/-- `FSEND`: one MSG frame of class FN[1:0] to node RA[11:0]; one to this node goes to Q24. The spec gives the payload of a MSG no format, so
no payload is taken to break one, and the sender's result is the one it has for every payload (R239 case 7; DESIGN CHOICE, log 10). -/
def execFsend (t : Tid) (w : IWord) (s : State) : Answer :=
  .next (s.issue t 1 fun s =>
    let th := s.thread t
    let h := handleOf (th.reg w.rb)
    let off := (th.reg w.rc).toNat
    let n := w.imm.toNat % 4096
    let tc := w.fn.toNat % 4
    let dst := (th.reg w.ra).toNat % 4096
    s.orFault t do
      let b ← s.checkOpen t h
      need ((tc = 1 ∨ tc = 3) ∧ 1 ≤ n ∧ n ≤ 2048) 0x20
      b.within off n
      return s.startUnit t (.fsend t w) { handles := [h], reads := [.ofBytes h off n] } fun s =>
        match s.readBuf b off n with
        | (s, none) => s.fault t .memUe 0
        | (s, some bytes) =>
          if s.node? = some dst then
            let q := s.queues[rxQueue 0]
            if itemSpace bytes ≤ q.space then (s.toRx 0 false bytes).toUnit t w (some (.code 0)) else s.toUnit t w (some (.code 0x50))
          else
            match s.nextHop dst tc false with
            | none => s.toUnit t w (some (.code 0x60))
            | some (p, d) =>
              if s.txRoom p bytes then
                (s.sendOwn p { s.newItem tc 2 false dst bytes with detour := d }).toUnit t w (some (.code 0))
              else s.toUnit t w (some (.code 0x50)))

end Sys2Proof.Machine
end

