-- ==== Sys2Proof/Machine/Groups.lean ====
section
/-! DEFINITION. `FGROUP`, `FTIME` and the execution of group commands (R236, R267, R268, R455-R458). -/

namespace Sys2Proof.Machine

/-! ### FGROUP and FTIME -/

/-- `FGROUP`: the command goes as a broadcast GROUP frame, and this device takes it too when TARGET holds it (R268, R455,
R458). -/
def execFgroup (t : Tid) (w : IWord) (s : State) : Answer :=
  .next (s.issueBlock t w fun s =>
    let th := s.thread t
    let b := w.block th 64
    let time := (th.reg w.rb).toNat
    s.startUnit t (.fgroup t w) {} fun s =>
      if !s.ftLocked || time < s.fab.ft + 1000000 then s.fault t .state 0x17
      else
        let target := fieldAt b 4 4
        if !groupOk (fieldAt b 0 2) (fieldAt b 2 2) (bytesAt b 8 56) || bitsOf target 11 6 < bitsOf target 5 0
            || bitsOf target 23 18 < bitsOf target 17 12 || s.fab.ft + 10000000000 < time then
          s.toUnit t w (some (.code 0x61))
        else
          let ps := if s.node?.isSome then s.bcastPorts 1 else []
          if ps.isEmpty && !s.targeted target then s.toUnit t w (some (.code 0x60))
          else
            let msg := b ++ leBytes 8 time
            let s := ps.foldl (fun (s : State) p => s.sendControl p (s.framesOf 1 4 true 0 msg)) s
            (s.takeGroup none (BitVec.ofNat 12 (s.node?.getD 0)) s.enrolled msg).toUnit t w (some (.code 0)))

/-- `FTIME`: fabric time, or the wall frame number with FRAME; UNLOCKED when fabric time is not locked. -/
def execFtime (t : Tid) (w : IWord) (s : State) : Answer :=
  .next (s.issue t 1 fun s =>
    let v := BitVec.ofNat 64 (if w.fn.getLsbD 0 then s.wallFrame else s.fab.ft)
    let r := if s.ftLocked then 0 else 0x62
    s.modThread t fun th =>
      let th := (th.setReg w.rc v).setReg w.rd (BitVec.ofNat 64 r)
      { th with fl := th.fl.ofResult (BitVec.ofNat 64 r) }.next)

/-! ### Execution (R236, R237, R457) -/

/-- The pending command that goes first: the earliest time, then the lower node address (R237). -/
def firstGroup : List GroupCmd → Option GroupCmd
  | [] => none
  | c :: r =>
    match firstGroup r with
    | some d => if d.time < c.time ∨ (d.time = c.time ∧ d.src.toNat < c.src.toNat) then some d else some c
    | none => some c

/-- Execute the pending command that goes first, if its time has come and it has the opcode. -/
def State.groupExec (s : State) (gop : Nat) (k : GroupCmd → State → State) : State :=
  match firstGroup s.fab.group with
  | some c =>
    if c.time ≤ s.fab.ft ∧ c.gop.toNat = gop ∧ s.sequencing then k c (s.modFab fun f => { f with group := f.group.erase c }) else s
  | none => s

/-- Who is told the result of a command. -/
def GroupCmd.who (c : GroupCmd) : Deliver := .group c.gop c.src

/-- The result of a command whose guard of R234 fails: it does nothing, and the code is a free value (DESIGN CHOICE, log 10). -/
def State.groupGuard (s : State) (c : GroupCmd) : State :=
  let (s, v) := s.freshValue
  s.groupResult c.gop c.src (v.toNat % 256)

/-- A command that holds its resource at group level. -/
def State.groupHold (s : State) (gop : Nat) (r : Resource) (k : GroupCmd → State → State) : State :=
  s.groupExec gop fun c s => s.groupOrder r gop fun s => k c (s.holdAt r .group gop)

/-- `GROUP_COMMIT`: as `PLANCOMMIT.AT`. -/
def execGroupCommit (s : State) : Answer :=
  .next (s.groupHold 1 .planSlots fun c s =>
    let slot := Fin.ofNat 8 (fieldAt c.payload 0 1)
    if s.plan.slots[slot].st ≠ .loaded then s.groupGuard c
    else
      let (s, code) := s.commit slot (some (fieldAt c.payload 8 8)) .group 1
      s.groupResult c.gop c.src code)

/-- `GROUP_PLAY`: as `SPLAY`. -/
def execGroupPlay (s : State) : Answer :=
  .next (s.groupHold 2 .stream fun c s =>
    let (s, code) := s.playStream (Fin.ofNat 16 (fieldAt c.payload 0 1)) (fieldAt c.payload 8 8) (fieldAt c.payload 16 8)
    s.groupResult c.gop c.src code)

/-- `GROUP_SEEK`: as `SSEEK`. -/
def execGroupSeek (s : State) : Answer :=
  .next (s.groupHold 3 .stream fun c s =>
    match s.seekStream (Fin.ofNat 16 (fieldAt c.payload 0 1)) (fieldAt c.payload 8 8) c.who .group 3 with
    | (s, some d) => s.deliver c.who d
    | (s, none) => s)

/-- `GROUP_PAUSE`: as `SPAUSE`. -/
def execGroupPause (s : State) : Answer :=
  .next (s.groupHold 4 .stream fun c s =>
    match s.pauseStream (Fin.ofNat 16 (fieldAt c.payload 0 1)) c.who with
    | (s, some d) => s.deliver c.who d
    | (s, none) => s)

/-- `GROUP_LIGHT`: as `PLIGHT`. -/
def execGroupLight (s : State) : Answer :=
  .next (s.groupHold 5 .light fun c s =>
    let on := fieldAt c.payload 0 1 == 1
    if on && !s.lightGuard then s.groupGuard c
    else (s.modPwr fun p => { p with lightReq := on }).groupResult c.gop c.src 0)

/-- `GROUP_SELF`: as `PSELF`. -/
def execGroupSelf (s : State) : Answer :=
  .next (s.groupHold 6 .selfRefresh fun c s =>
    if fieldAt c.payload 0 1 = 1 then (if !s.selfGuard then s.groupGuard c else s.enterSelf c.who) else s.exitSelf c.who)

/-- `GROUP_SIGNAL`: as `SIGNAL`. -/
def execGroupSignal (s : State) : Answer :=
  .next (s.groupExec 7 fun c s =>
    let v := fieldAt c.payload 0 4
    (s.eventFor (fun t => v.testBit t.val) (BitVec.ofNat 32 (v / 65536 * 65536))).groupResult c.gop c.src 0)

/-- Write route table entries from `first` on. -/
def writeRoute (b : List Byte) (first : Nat) : Nat → List (Nat × Nat) → List (Nat × Nat)
  | 0, r => r
  | n + 1, r => tabSet 15 (writeRoute b first n r) (first + n) (fieldAt b (4 + n / 2) 1 / 16 ^ (n % 2) % 16)

/-- `GROUP_ROUTE`: entries of the route table. -/
def execGroupRoute (s : State) : Answer :=
  .next (s.groupExec 8 fun c s =>
    let s := s.modFab fun f => { f with route := writeRoute c.payload (fieldAt c.payload 0 2) (fieldAt c.payload 2 2) f.route }
    s.groupResult c.gop c.src 0)

/-- `GROUP_RELEASE`: every group hold ends. -/
def execGroupRelease (s : State) : Answer :=
  .next (s.groupExec 9 fun c s => (s.releaseLevel .group).groupResult c.gop c.src 0)

end Sys2Proof.Machine
end

