-- ==== Sys2Proof/Machine/HostBus.lean ====
section
/-! DEFINITION. The PCIe function: interrupt causes, the registers that a host write changes, the DRAM window, resets of the
endpoint and the link (R321, R504-R513). -/

namespace Sys2Proof.Machine

/-- Change the host interface. -/
def State.withHost (s : State) (f : HostIf → HostIf) : State := { s with host := f s.host }

/-! ### BAR0 -/

/-- `INT_CAUSE_CLEAR`: a write of 1 clears a CAUSE bit (R512, R513). -/
def execIntCauseClear (v : BitVec 64) (s : State) : Answer :=
  .next (if s.bar0Open then s.withHost fun h => { h with cause := h.cause &&& ~~~v } else s)

/-- A byte write to the MSI-X table as PCIe defines its entries: the low two address bits and all of vector control but the mask bit
are reserved (R510, R512; PRESUMED, log 27). -/
def HostIf.msixWrite (h : HostIf) (o : Nat) (b : Byte) : HostIf :=
  let b := match o % 16 with
    | 0 => b &&& 0xFC
    | 12 => b &&& 1
    | 13 | 14 | 15 => 0
    | _ => b
  { h with msix := tabSet 0 h.msix o b }

/-- A vector that is unmasked while its pending bit is set sends its message and clears the bit (R513; PRESUMED, log 27). -/
def HostIf.drain (h : HostIf) (v : Nat) : HostIf :=
  if h.pba.getLsbD v && !h.masked v then
    { h with pba := h.pba &&& ~~~BitVec.ofNat 64 (2 ^ v), sentMsg := some (Fin.ofNat 64 v) }
  else h

/-- A byte written to FLASH_ADDR (Table 22-5). -/
def HostIf.addrWrite (h : HostIf) (i : Nat) (b : Byte) : HostIf :=
  let x := h.flashAddr.toNat
  { h with flashAddr := BitVec.ofNat 27 (x - bitsOf x (8 * i + 7) (8 * i) * 2 ^ (8 * i) + b.toNat * 2 ^ (8 * i)) }

/-- One byte of a host write to BAR0: FLASH_ADDR and FLASH_BUF in PROGRAM mode, the MSI-X table; every other byte is of a read-only
or reserved field, or of a register whose write is a command of its own (R512, Table 22-4). -/
def State.regByte (s : State) (o : Nat) (b : Byte) : State :=
  if s.boot.mode = 2 ∧ 0x4000 ≤ o ∧ o < 0x4004 then s.withHost fun h => h.addrWrite (o - 0x4000) b
  else if s.boot.mode = 2 ∧ 0x5000 ≤ o ∧ o < 0x6000 then s.withHost fun h => { h with flashBuf := tabSet 0 h.flashBuf (o - 0x5000) b }
  else if 0x8000 ≤ o ∧ o < 0x8400 then s.withHost fun h => (h.msixWrite (o - 0x8000) b).drain ((o - 0x8000) / 16)
  else s

/-- The bytes of a write, from offset `o` upward. -/
def State.regBytes (s : State) : Nat → List Byte → State
  | _, [] => s
  | o, b :: r => (s.regByte o b).regBytes (o + 1) r

/-- `REGISTER_WRITE`. -/
def execRegisterWrite (off : BitVec 16) (data : List Byte) (s : State) : Answer :=
  .next (if s.bar0Open then s.regBytes off.toNat data else s)

/-! ### BAR4 (R321) -/

/-- BAR4 is open: HOSTED, READY, no trip, no chip safe state (R480, R504, R508, R532). -/
def State.bar4Open (s : State) : Bool :=
  s.boot.mode == 0 && s.boot.stage == 8 && !s.boot.stopped && !s.therm.tripped && !s.safe

/-- The granule map: the granule holds allocated, unsealed memory (R321). -/
def State.inMap (s : State) (g : Nat) : Bool :=
  s.bufs.table.any fun e =>
    !e.2.isSealed && decide (e.2.base < bar4Top) && decide (e.2.base < (g + 1) * 1048576) && decide (g * 1048576 < e.2.base + e.2.len)

/-- The granules of an access. -/
def granules (pa n : Nat) : List Nat :=
  if n = 0 then [] else (List.range ((pa + n - 1) / 1048576 + 1 - pa / 1048576)).map (pa / 1048576 + ·)

/-- An access leaves the map: BAR4_DISCARD (R321). -/
def State.countDiscard (s : State) (pa n : Nat) : State :=
  if (granules pa n).all s.inMap then s else { s with dram := { s.dram with bar4Discard := s.dram.bar4Discard.bump } }

/-- The bytes of a read, granule by granule: zeros outside the map, and in place of an uncorrectable burst, which poisons the completion
(R321). -/
def State.bar4Bytes (s : State) (pa n : Nat) : State × List Byte × Bool :=
  (granules pa n).foldl (fun (x : State × List Byte × Bool) g =>
    let lo := max pa (g * 1048576)
    let k := min (pa + n) ((g + 1) * 1048576) - lo
    if !x.1.inMap g then (x.1, x.2.1 ++ List.replicate k 0, x.2.2)
    else
      let (s, d, bad) := x.1.readMarks lo k 16
      let d := d.mapIdx fun i b => if bad.any fun a => decide (a ≤ lo + i) && decide (lo + i < a + 64) then 0 else b
      (s, x.2.1 ++ d, x.2.2 || !bad.isEmpty)) (s, [], false)

/-- `BAR4_READ`: the completion is left in the host interface; a poisoned one is reported through AER. While BAR4 is closed a read returns
zeros (R321, R508). -/
def execBar4Read (addr : BitVec 36) (len : Nat) (s : State) : Answer :=
  if !s.bar4Open then .next (s.withHost fun h => { h with rdata := List.replicate len 0, poisoned := false })
  else
    let (s, data, bad) := (s.countDiscard addr.toNat len).bar4Bytes addr.toNat len
    .next (s.withHost fun h => { h with rdata := data, poisoned := bad, aer := if bad then h.aer.bump else h.aer })

/-- A registered operation reads or writes bytes of the burst at `a` (R227, R229). -/
def State.inUse (s : State) (a : Nat) : Bool :=
  s.sboard.any fun o => (o.reads ++ o.writes).any fun r => match r with
    | .bytes h lo hi => (s.buf? h).any fun b => decide (b.base + lo < a + 64) && decide (a < b.base + hi)
    | .rows .. => false

/-- Write the bytes of `data`, which starts at `pa`, from `lo` up to `up`. A burst that an operation is using is the host mistake of R239:
it holds its old or the new data, as a free value says (log 10). -/
def State.hostWrite (s : State) (pa : Nat) (data : List Byte) (lo up : Nat) : State :=
  let part := fun (lo up : Nat) => (data.drop (lo - pa)).take (up - lo)
  let bursts := (List.range ((up + 63) / 64 - lo / 64)).map fun i => lo / 64 * 64 + 64 * i
  if !bursts.any s.inUse then s.writeDram lo (part lo up) 16
  else bursts.foldl (fun (s : State) a =>
    let lo := max lo a
    let up := min up (a + 64)
    if !s.inUse a then s.writeDram lo (part lo up) 16
    else
      let (s, v) := s.freshValue
      if v.getLsbD 0 then s.writeDram lo (part lo up) 16 else s) s

/-- Write the part of `data` at `pa` that lies in a granule, buffer by buffer; a locked buffer takes nothing, and a write clears
MAP_CHECKED (R170, R171, R321, R551). -/
def State.bar4Put (s : State) (pa : Nat) (data : List Byte) : State :=
  let hi := pa + data.length
  let hit := s.bufs.table.filter fun e => !e.2.isSealed && decide (e.2.base < hi) && decide (pa < e.2.base + e.2.len)
  let put := fun (s : State) (lo up : Nat) => s.hostWrite pa data lo up
  let locked := hit.filter fun e => s.locked e.1
  let s := if locked = [] then s else s.modStatus fun c => { c with mapLockedWr := c.mapLockedWr.bump }
  -- the write without the ranges of locked buffers, from the left
  let (s, at') := (locked.foldl (fun l e => tabPut l e.2.base e.2.len) []).foldl (fun (a : State × Nat) r =>
    let lo := max pa r.1
    (if a.2 < lo then put a.1 a.2 lo else a.1, max a.2 (r.1 + r.2))) (s, pa)
  let s := if at' < hi then put s at' hi else s
  let free := hit.filter fun e => !s.locked e.1
  { s with bufs := { s.bufs with table := free.foldl (fun t e => tabPut t e.1 { e.2 with mapChecked := false }) s.bufs.table } }

/-- `BAR4_WRITE`: what lies outside the map is discarded (R321, R508). -/
def execBar4Write (addr : BitVec 36) (data : List Byte) (s : State) : Answer :=
  if !s.bar4Open then .next s
  else
    let pa := addr.toNat
    let s := s.countDiscard pa data.length
    .next ((granules pa data.length).foldl (fun (s : State) g =>
      if s.inMap g then
        let lo := max pa (g * 1048576)
        let up := min (pa + data.length) ((g + 1) * 1048576)
        s.bar4Put lo ((data.drop (lo - pa)).take (up - lo))
      else s) s)

/-! ### Resets of the endpoint (R506, R507) -/

/-- A host item is part-written in a window (R507). -/
def Queue.hostMid (q : Queue) : Bool := q.hostW && (q.part != [] || q.past || q.discard)

/-- Discard the host's part-written item of one window: the next word starts a new item (R507). -/
def State.dropPart (s : State) (q : Fin 64) : State :=
  let x := s.queues[q]
  let s := if x.rdMid then s.countAbort q else s
  let x := s.queues[q]
  { s with
    queues := s.queues.set q
      { x with part := [], past := false, discard := false, rdMid := false
               partialDrop := if x.part = [] then x.partialDrop else x.partialDrop.bump } }

/-- The endpoint resets: MSI-X state, part-written items, and record 0x1604 with the items discarded (R506, R507, R518). -/
def State.endpointReset (s : State) : State :=
  let fresh : HostIf := {}
  let n := ((List.finRange 64).filter fun q => s.queues[q].hostW && s.queues[q].part != []).length
  let s := ((List.finRange 64).filter fun q => s.queues[q].hostMid).foldl State.dropPart s
  let s := s.withHost fun h => { h with msix := fresh.msix, pba := 0 }
  s.report 0x1604 0x08 (n % 2 ^ 32)

/-- The endpoint runs: HOSTED or PROGRAM, past stage 0x01, no trip (R480, R504, R508). -/
def State.endpointOn (s : State) : Bool := s.bar0Open

/-- `PERST_N`. In STANDALONE mode it is ignored (Table 22-1). -/
def execPerstN (s : State) : Answer :=
  if s.endpointOn then .next { s.endpointReset with boot := { s.boot with link := false } } else .next s

/-- `FUNCTION_LEVEL_RESET`. -/
def execFunctionLevelReset (s : State) : Answer := .next (if s.endpointOn then s.endpointReset else s)

/-- `PCIE_LINK_CHANGE` (R510, Table 22-5). -/
def execPcieLinkChange (up : Bool) (s : State) : Answer :=
  .next (if s.endpointOn then { s with boot := { s.boot with link := up } } else s)

end Sys2Proof.Machine
end

