-- ==== Sys2Proof/Machine/Pixels.lean ====
section
/-! DEFINITION. Galleries at work and the weave buffer: the rays of a band, what stays uncorrectable there, and the release of a hogel
row (R26, R28, R37-R40, R101, R110, R118-R122, R134-R148, R157, R164, R166, R172-R175, R529). -/

namespace Sys2Proof.Machine

/-! ### One ray (R101, R134) -/

/-- A tap of depth layer `k` (R36, R102, R117, R129). -/
def State.tapAt (s : State) (p : Plan) (k : Nat) (a b : Int) : Nat :=
  let e := p.layer k
  let inside := decide (0 ≤ a ∧ a < (e.w : Int) ∧ 0 ≤ b ∧ b < (e.h : Int))
  if !e.edge && !inside then 0
  else
    let x := clampLine a e.w
    let y := clampLine b e.h
    match (vget s.synth.rings k).find? fun l => l.line == y with
    | none => 0
    | some l => if l.zeroed.contains (x / 32) || l.culled.contains (x / 32) then 0 else fieldAt l.data (6 * x) 6

/-- The filtered sample of layer `k` for the ray of hogel (hx, h) and view `n` (R32, R101, R102). -/
def State.layerSample (s : State) (p : Plan) (hx h n k : Nat) : Sample :=
  let e := p.layer k
  let rt := vget s.layers k
  if rt.clear then {}
  else
    let v := p.views.getD n (0, 0)
    let (tx, px) := tapOf (layerPos rt.geo.s rt.geo.ox rt.geo.d v.1 hx)
    let (ty, py) := tapOf (layerPos rt.geo.s rt.geo.oy rt.geo.d v.2 h)
    filterSample ((vget s.synth.banks e.bankX).phase px) ((vget s.synth.banks e.bankY).phase py)
      fun t r => s.tapAt p k (tx + t) (ty + r)

/-- The bank, if any, whose replica word was uncorrectable for a sample of layer `k` (R110). -/
def replicaLost (ue : PixelUe) (p : Plan) (hx n k : Nat) : Option Nat :=
  let e := p.layer k
  (ue.replica.find? fun x => x.1 == hx && x.2.1 == n && x.2.2.1 == k && (x.2.2.2 == e.bankX || x.2.2.2 == e.bankY)).map (·.2.2.2)

/-- The depth stack and background of a ray over the layers `ls`: its colour, and the (layer, bank) pairs whose sample was zeroed. -/
def State.rayStack (s : State) (p : Plan) (ue : PixelUe) (ls : List Nat) (hx h n : Nat) : Rgb × List (Nat × Nat) :=
  let lost := fun k => if (vget s.layers k).clear then none else replicaLost ue p hx n k
  let (acc, c, taken) := depthStack (fun k => if (lost k).isSome then {} else s.layerSample p hx h n k) ls 0 {}
  (background p acc c, taken.filterMap fun k => (lost k).map fun b => (k, b))

/-- Graphic layer `g` at a hogel: its sample and whether it was clamped; none where the layer is skipped for every view (R143,
R146). -/
def State.gfxSample (s : State) (gv : Gov) (ue : PixelUe) (hx h g : Nat) : Option (Cover × Bool) :=
  let e := gv.plan.gfxLayer g
  let x : Int := (hx : Int) - e.x0
  if x < 0 ∨ (e.w : Int) ≤ x then none
  else
    match s.comp.gfxLine.find? fun l => l.1 == g && l.2.1 == h with
    | none => none
    | some (_, _, data, bad) =>
      let n := gfxBytes e.fmt
      let o := x.toNat * n
      if marked bad o n || ue.gfx.any (fun u => u.1 == g && u.2 * n / 32 == o / 32) then none
      else
        match e.fmt with
        | 0 => some (coverOf (fieldAt data o 4))
        | 1 => some (coverOf ((((tabFind gv.copies.pals g).getD []).getD (fieldAt data o 1) 0).toNat))
        | _ => some (coverA8 (fieldAt data o 1) e.col, false)

/-- The view mask of layer `g` admits view `n` (R143). -/
def Gov.admits (gv : Gov) (g n : Nat) : Bool :=
  (((tabFind gv.copies.masks g).getD []).getD (n / 8) 0).getLsbD (n % 8)

/-! ### One hogel -/

/-- What the rays of a band add up to. -/
structure Band where
  weave : List (Nat × Nat × List Nat) := []
  psum : Nat := 0
  /-- (layer, bank) of the samples that R110 zeroed -/
  coef : List (Nat × Nat) := []
  clamps : Nat := 0
deriving DecidableEq, Repr, Inhabited

/-- A line of the map as a band reads it: line, first subpixel column, bytes, byte ranges that stayed uncorrectable. -/
abbrev MapLine := Nat × Nat × List Byte × List (Nat × Nat)

/-- Uniformity correction of the code of subpixel column `j` on line `py` (R168, R172). -/
def mapped (p : Plan) (maps : List MapLine) (py j x : Nat) : Nat :=
  match maps.find? fun m => m.1 == py with
  | none => x
  | some (_, j0, data, bad) =>
    let n := mapWordLen p.umapFmt
    let o := (j - j0) * n
    if marked bad o n then x else correct p.umapFmt (fieldAt data o n) x

/-- The three codes of a pixel in subpixel order (R26, R166, R168). -/
def pixelCodes (gv : Gov) (maps : List MapLine) (f px py : Nat) (c : Rgb) : List Nat :=
  let p := gv.plan
  (List.range 3).map fun i =>
    mapped p maps py (3 * px + i) (outCode p gv.copies.tt c px py f (if p.subpix then 2 - i else i))

/-- The rays of hogel (hx, h) over the depth layers `ls`, under the page word of the hogel. -/
def State.hogel (s : State) (gv : Gov) (ue : PixelUe) (maps : List MapLine) (ls : List Nat) (words : Nat → Nat) (h : Nat) (acc : Band)
    (hx : Nat) : Band :=
  let p := gv.plan
  let views := p.hh * p.hv
  let word := words hx
  let gfx : List (Nat × Cover × Bool) := p.gfxOn.filterMap fun g => (s.gfxSample gv ue hx h g).map fun x => (g, x)
  let rays := (List.range views).map fun n =>
    let (c, zeroed) := s.rayStack p ue ls hx h n
    let c := gfx.foldl (fun (c : Rgb) (g : Nat × Cover × Bool) => if gv.admits g.1 n then g.2.1.over c else c) c
    let c := if s.comp.page == Page.none then c else (coverOf word).1.over c
    let (px, py) := pixelOf p hx h n
    ((py, px, pixelCodes gv maps s.wallFrame px py c), zeroed)
  { weave := acc.weave ++ rays.map (·.1)
    psum := acc.psum + views * (word ^^^ (h * p.nhx + hx))
    coef := acc.coef ++ rays.flatMap (·.2)
    clamps := acc.clamps + (gfx.filter fun g => g.2.2 && (List.range views).any (gv.admits g.1)).length }

/-! ### One band (R119) -/

/-- The columns of place `i` of `n` bands, from and up to but without. -/
def bandOf (p : Plan) (i n : Nat) : Nat × Nat := if n = 0 then (0, p.nhx) else (i * p.nhx / n, (i + 1) * p.nhx / n)

/-- Read the map words of hogel columns `lo` to `hi` − 1 on one line, with MAP_UE and record 0x0701 for each word that stays
uncorrectable; a burst is counted in the band that holds its first word of the line (R172). -/
def State.readMapLine (s : State) (p : Plan) (b : Buf) (ue : List (Nat × Nat)) (lo hi py : Nat) : State × MapLine :=
  let j0 := 3 * lo * p.hh
  let j1 := 3 * hi * p.hh
  let off := mapWordAt p py j0
  let pa := b.base + off
  let (s, data, bad) := s.readMarked b off ((j1 - j0) * mapWordLen p.umapFmt) 21
  let mine := bad.filter fun r => lo == 0 || r.1 != 0 || pa % 64 == 0
  let words := ((ue.filter fun u => u.1 == py && decide (j0 ≤ u.2 ∧ u.2 < j1)).map fun u => (b.base + mapWordAt p py u.2) / 32 * 32).eraseDups
  let more := words.map fun a => (a - pa, a + 32 - pa)
  let s := (mine ++ more).foldl (fun (s : State) _ =>
    (s.report 0x0701 0x1C py).modStatus fun c => { c with mapUe := c.mapUe.bump }) s
  (s, py, j0, data, bad ++ more)

/-- The map words of a band of hogel row `h`. -/
def State.readMap (s : State) (p : Plan) (ue : List (Nat × Nat)) (lo hi h : Nat) : State × List MapLine :=
  if p.umapFmt = 0 then (s, [])
  else
    match s.buf? p.umapBuf with
    | none => (s, [])
    | some b => (List.range p.hv).foldl (fun (a : State × List MapLine) v =>
        let (s, m) := a.1.readMapLine p b ue lo hi (h * p.hv + v)
        (s, a.2 ++ [m])) (s, [])

/-- The words of hogel columns `lo` to `hi` − 1 on row `h` of the page shown, read through P18, and the columns whose word stays
uncorrectable; a page without a buffer has no readable word (R147, R148, R157). -/
def State.readPage (s : State) (p : Plan) (ue : List Nat) (lo hi h : Nat) : State × List Byte × List Nat :=
  match s.comp.page with
  | .page _ =>
    let n := 4 * (hi - lo)
    let (s, data, bad) := match s.shownPage with
      | some b => s.readMarked b (4 * (h * p.nhx + lo)) n 18
      | none => (s, [], [(0, n)])
    let cols := (List.range (hi - lo)).map (lo + ·)
    (s, data, cols.filter fun x => ue.contains x || marked bad (4 * (x - lo)) 4)
  | _ => (s, [], [])

/-- The page word that a hogel takes: 0 where no page is shown, the built-in word where its own is lost. -/
def State.wordOf (s : State) (data : List Byte) (lost : List Nat) (lo hx : Nat) : Nat :=
  match s.comp.page with
  | .page _ => if lost.contains hx then 0xFF808080 else fieldAt data (4 * (hx - lo)) 4
  | .builtIn => 0xFF808080
  | .none => 0

/-- Words of the page and of the graphic line store that stay uncorrectable in a band: their counts and records (R146, R157). -/
def State.bandLosses (s : State) (p : Plan) (ue : PixelUe) (page : List Nat) (lo hi h : Nat) : State :=
  let s := page.foldl (fun (s : State) _ =>
    { s.report 0x0606 0x1B (s.comp.page.num * 2 ^ 32 + h) with comp := { s.comp with pageUe := true } }) s
  let words := (ue.gfx.filter fun u =>
    let e := p.gfxLayer u.1
    let x : Int := (u.2 : Int) + e.x0
    p.gfxOn.contains u.1 && decide (u.2 < e.w ∧ (lo : Int) ≤ x ∧ x < (hi : Int)) && (e.row h).isSome).map fun u =>
      (u.1, u.2 * gfxBytes (p.gfxLayer u.1).fmt / 32)
  words.eraseDups.foldl (fun (s : State) w =>
    (s.report 0x0605 0x1B (w.1 * 2 ^ 24 + h)).modStatus fun c => { c with gfxUe := c.gfxUe.bump }) s

/-- Compose hogel columns `lo` to `hi` − 1 of row `h` over the depth layers `ls`, and place their codes in the weave buffer. -/
def State.composeBand (s : State) (gv : Gov) (ue : PixelUe) (ls : List Nat) (gal lo hi h : Nat) : State :=
  let p := gv.plan
  let (s, maps) := s.readMap p ue.umap lo hi h
  let (s, page, lost) := s.readPage p ue.page lo hi h
  let s := s.bandLosses p ue lost lo hi h
  let b := ((List.range (hi - lo)).map (lo + ·)).foldl (s.hogel gv ue maps ls (s.wordOf page lost lo) h) {}
  let s := b.coef.foldl (fun (s : State) e =>
    (s.report 0x0502 0x18 (gal * 2 ^ 40 + e.2 * 2 ^ 32 + e.1 * 2 ^ 24)).modStatus fun c => { c with coefUe := c.coefUe.bump }) s
  let s := s.modStatus fun c => { c with gfxClamp := c.gfxClamp.bump b.clamps }
  let s := if b.coef = [] then s else s.modSynth fun z => { z with replicaBad := gal :: z.replicaBad }
  { s with
    comp := { s.comp with psum := s.comp.psum + BitVec.ofNat 64 b.psum }
    out := { s.out with weave := s.out.weave ++ b.weave } }

/-! ### `GALLERY_ROW_START` (R120) -/

/-- Lowest hogel row still in the weave buffer or leaving it (R38, R40). -/
def State.weaveLow (s : State) (p : Plan) : Nat :=
  if p.outMode = 0 then
    match s.out.lines with
    | l :: _ => min s.out.nextRow (l.1 / p.hv)
    | [] => s.out.nextRow
  else s.out.nextRow

/-- The rings hold every line that hogel row `h` needs, and the graphic rows are in the store. -/
def State.rowReady (s : State) (p : Plan) (h : Nat) : Bool :=
  (p.enabled.all fun k =>
    let rt := vget s.layers k
    rt.clear || decide (clampLine (p.window rt.geo h).2 (p.layer k).h < vget s.synth.nextLine k))
  && (p.gfxOn.all fun g => s.gfxHeld p g h)

/-- `GALLERY_ROW_START`: the gallery computes its band of its next hogel row. -/
def execGalleryRowStart (gallery : Fin 16) (ue : PixelUe) (s : State) : Answer :=
  .next (
    match s.composing with
    | none => s
    | some gv =>
      let p := gv.plan
      match s.synth.places.findIdx? (· == some gallery.val) with
      | none => s
      | some i =>
        let h := s.synth.done.getD i 0
        if p.nhy ≤ h then s
        else
          let s := s.readGfxRow p h
          if !s.rowReady p h || s.weaveLow p + 1 < h then s
          else
            let first := s.synth.done.all fun d => decide (d ≤ h)
            let s := if first then s.readGfxRow p (h + 1) else s
            let s := s.modSynth fun z => { z with replicaBad := z.replicaBad.filter fun x => x != gallery.val }
            let s := ue.ring.eraseDups.foldl (fun (s : State) u => if p.enabled.contains u.1 then s.ringLost p u.1 u.2.1 u.2.2 else s) s
            let (lo, hi) := bandOf p i p.gReq
            let s := s.composeBand gv ue p.enabled gallery.val lo hi h
            s.modSynth fun z => { z with done := z.done.set i (h + 1) })

/-! ### `WEAVE_ROW_RELEASE` (R40, R173-R175, R529) -/

/-- The bands of hogel row `r` that no gallery computes: those of places whose gallery is lost and had not finished the row, or the whole
row of a plan without galleries (R124, R529). -/
def State.emptyBands (s : State) (p : Plan) (r : Nat) : List (Nat × Nat) :=
  if p.gReq = 0 then [(0, p.nhx)]
  else ((List.range p.gReq).filter fun i => (s.synth.places.getD i none).isNone && decide (s.synth.done.getD i 0 ≤ r)).map fun i =>
    bandOf p i p.gReq

/-- The codes of a line of the weave buffer, in ascending subpixel column. -/
def OutPath.line (o : OutPath) (w py : Nat) : List Nat :=
  (List.range w).flatMap fun px => match o.weave.find? fun e => e.1 == py && e.2.1 == px with | some e => e.2.2 | none => [0, 0, 0]

/-- The bytes of FS_BUF that a frame takes (R174). -/
def FsFrame.span (e : FsFrame) : Nat × Nat := (e.slot * fsPitch e.w * e.h, (e.slot + 1) * fsPitch e.w * e.h)

/-- Two frames share bytes of one frame store. -/
def FsFrame.meets (a b : FsFrame) : Bool := a.buf == b.buf && decide (a.span.1 < b.span.2 ∧ b.span.1 < a.span.2)

/-- The first line of a frame enters its slot: the frames that it overwrites are gone (R175, R176). -/
def State.openSlot (s : State) (p : Plan) : State :=
  let e : FsFrame := { slot := s.wallFrame % p.fsCount, buf := p.fsBuf, w := p.width, h := p.height, frame := s.wallFrame
                       alive := s.comp.alive, page := s.comp.page }
  s.modOut fun o => { o with slots := o.slots.filter (fun x => !x.meets e) ++ [e] }

/-- One released line goes to the lane packer, unless its send line has passed, or to its frame-store slot (R173-R175, R345). -/
def State.releaseLine (s : State) (p : Plan) (py : Nat) : State :=
  let codes := s.out.line p.width py
  if p.outMode = 1 then
    let k := s.wallFrame % p.fsCount
    (if py = 0 then s.openSlot p else s).writeBuf p.fsBuf ((k * p.height + py) * fsPitch p.width) (bytesAt (packCodes codes) 0 (fsPitch p.width)) 1
  else if s.tg0.line < p.vbl + py then s.modOut fun o => { o with lines := tabPut o.lines py codes }
  else s

/-- `WEAVE_ROW_RELEASE`: the next hogel row leaves once all of its rays are present. -/
def execWeaveRowRelease (s : State) : Answer :=
  .next (
    match s.composing with
    | none => s
    | some gv =>
      let p := gv.plan
      let r := s.out.nextRow
      let busy := (s.synth.places.zip s.synth.done).any fun x => x.1.isSome && decide (x.2 ≤ r)
      if p.nhy ≤ r || busy then s
      else
        let bands := s.emptyBands p r
        let s := if bands = [] then s else s.readGfxRow p r
        if bands ≠ [] ∧ (s.weaveLow p + 1 < r ∨ !(p.gfxOn.all fun g => s.gfxHeld p g r)) then s
        else
          let s := bands.foldl (fun (s : State) b => s.composeBand gv { replica := [], gfx := [], page := [], umap := [] } [] 0 b.1 b.2 r) s
          let s := (List.range p.hv).foldl (fun (s : State) v => s.releaseLine p (r * p.hv + v)) s
          s.modOut fun o => { o with
            weave := o.weave.filter fun e => e.1 / p.hv != r
            nextRow := r + 1
            slots := if p.outMode = 1 ∧ p.nhy ≤ r + 1 then o.slots.map fun e => if e.frame = s.wallFrame then { e with full := true } else e else o.slots })

end Sys2Proof.Machine
end

