-- ==== Sys2Proof/Machine/Service.lean ====
section
/-! DEFINITION. `SVC` REMOVE, RETURN and STATE, `BIST`, and the completion of unit instructions, which ends a self-test
(R218, R233, R249, R273, R274, R499-R501, R526-R528). -/

namespace Sys2Proof.Machine

/-! ### Removal and return -/

/-- Guard 0x1B: the unit is IN_SERVICE; unforced, neither the plan in force nor its fall-back needs it; forced, the plan in force has a
fall-back that does not need it (R208, R528). -/
def State.removable (s : State) (u : UnitName) (force : Bool) : Bool :=
  (s.unit u).st == .inService &&
    if force then
      match s.plan.prim with
      | some i =>
        let p := s.plan.slots[i].plan
        p.hasFb && !((s.fbSlot p).any fun f => s.needsUnit f.plan u)
      | none => true
    else !(s.plansNow.any fun p => s.needsUnit p u)

/-- `SVC` REMOVE: DRAINING; a forced one is a trigger where the plan needs the unit (R123, R527). -/
def execSvcRemove (t : Tid) (w : IWord) (s : State) : Answer :=
  .next (s.issue t 1 fun s =>
    let force := ((s.thread t).reg w.rb).getLsbD 0
    match unitOf ((s.thread t).reg w.ra) with
    | none => s.startUnit t (.svcRemove t w) {} fun s => s.toUnit t w (some (.code 0x31))
    | some u =>
      s.startUnit t (.svcRemove t w) {} fun s =>
        if !s.removable u force then s.fault t .state 0x1B
        else s.hostOrder t .service 0x78 fun s =>
          let s := if force then s.loseUnit u else s
          let s := (s.toUnit t w none).setUnit u .draining false
          (s.modUnit u fun x => { x with removeTo := some (.thread t) }).settleNow u)

/-- Guard 0x1C: OUT_OF_SERVICE with the passes that the kind of unit asks for (R500). -/
def State.returnable (s : State) (u : UnitName) : Bool :=
  let x := s.unit u
  x.st == .outOfService && x.logicPass && (u.1 == 0x2A || x.memPass)

/-- What RETURNING starts: the replica of a gallery is rewritten, the pairs of a quad train while the panel is up, a port starts a
full bring-up (R433, R501). -/
def State.startReturn (s : State) (u : UnitName) : State :=
  if u.1 = 0x18 then { s with synth := { s.synth with replicaBad := s.synth.replicaBad.filter (· != u.2) } }
  else if u.1 = 0x2A then
    [2 * u.2, 2 * u.2 + 1].foldl (fun (s : State) n =>
      if s.pwr.st == .up && s.usedPairs.contains n then s.modPair n fun p => { p with st := .training, trained := false, tries := 0 } else s) s
  else
    let p := Fin.ofNat 8 u.2
    (s.modPort p fun y => { y with fails := 0 }).setPort p .down

/-- `SVC` RETURN: it completes as the unit enters RETURNING (R527). -/
def execSvcReturn (t : Tid) (w : IWord) (s : State) : Answer :=
  .next (s.issue t 1 fun s =>
    match unitOf ((s.thread t).reg w.ra) with
    | none => s.startUnit t (.svcReturn t w) {} fun s => s.toUnit t w (some (.code 0x31))
    | some u =>
      s.startUnit t (.svcReturn t w) {} fun s =>
        if !s.returnable u then s.fault t .state 0x1C
        else s.hostOrder t .service 0x78 fun s =>
          ((s.toUnit t w (some (.code 0))).setUnit u .returning false).startReturn u |>.settleNow u)

/-- `SVC` STATE. -/
def execSvcState (t : Tid) (w : IWord) (s : State) : Answer :=
  .next (s.issue t 1 fun s =>
    match unitOf ((s.thread t).reg w.ra) with
    | none => s.startUnit t (.svcState t w) {} fun s => s.toUnit t w (some (.code 0x31))
    | some u =>
      s.startUnit t (.svcState t w) {} fun s => s.toUnit t w (some (.codeRc 0 (s.unit u).st.num)))

/-! ### Self-test (R499, R500) -/

/-- Start a test of a unit, or answer at once: a unit without service states, a memory test of a lane quad, a unit that is not
OUT_OF_SERVICE any more (guard 0x1A). -/
def State.bistJob (s : State) (u : Option UnitName) (mem : Bool) (run : BistRun) (who : Deliver) : State × Option Done :=
  match u with
  | none => (s, some (.code 0x31))
  | some u =>
    if (s.unit u).st ≠ .outOfService then (s, some { flt := some (.state, 0x1A), wrRd := false })
    else if mem ∧ u.1 = 0x2A then (s.modUnit u fun x => { x with memPass := true }, some (.code 0))
    else ((s.setUnit u .testing false).modUnit u fun x => { x with test := some (mem, run, who) }, none)

/-- `BIST`. -/
def execBist (t : Tid) (w : IWord) (run : BistRun) (s : State) : Answer :=
  .next (s.issue t 1 fun s =>
    let r := (s.thread t).reg w.ra
    let unit := unitOf r
    let mem := w.fn.getLsbD 0
    let u : Use := { units := match unit with | some u => [u.ctrl] | none => [] }
    let legal := fun (s : State) => match unit with
      | some u => (s.unit u).st == .outOfService || (s.unit u).st == .testing
      | none => true
    if w.isAsync then
      if s.full t then s.hold t (.bist t w run)
      else if !legal s then s.fault t .state 0x1A
      else s.hostOrder t .service 0x79 fun s =>
        s.startAsync t w u (.bist (r.toNat / 256) (r.toNat % 256) mem run) fun op s => s.bistJob unit mem run (.async t op)
    else
      s.startUnit t (.bist t w run) u fun s =>
        if !legal s then s.fault t .state 0x1A
        else s.hostOrder t .service 0x79 fun s =>
          match s.bistJob unit mem run (.thread t) with
          | (s, some d) => s.toUnit t w (some d)
          | (s, none) => s.toUnit t w none)

/-- The test that an instruction waits for ends: a pass is noted, a failure clears both notes and writes record 0x1503. -/
def State.endTest (s : State) (u : UnitName) : State :=
  match (s.unit u).test with
  | none => s
  | some (mem, run, who) =>
    let s := (s.modUnit u fun x => { x with test := none }).setUnit u .outOfService false
    match run with
    | .pass =>
      (s.modUnit u fun x => if mem then { x with memPass := true } else { x with logicPass := true }).deliver who (.code 0)
    | .fail word =>
      let s := s.modUnit u fun x => { x with logicPass := false, memPass := false }
      (s.report 0x1503 0x04 (u.2 * 2 ^ 40 + u.1 * 2 ^ 32 + mem.toNat * 65536 + (if mem then word.toNat else 0))).deliver who (.code 0x83)

/-- The tests that `who` waits for. -/
def State.endTestsFor (s : State) (who : Deliver) : State :=
  allUnits.foldl (fun (s : State) u =>
    match (s.unit u).test with
    | some (_, _, w) => if w = who then s.endTest u else s
    | none => s) s

/-! ### Completion (R218, R233, R249) -/

/-- A synchronous unit instruction completes: RD and, where there is one, the second destination RC; Z follows the result
code; a fault found at the unit is taken at the instruction (R218, R249). A self-test ends with it (R500). A blit completes after the
blits that its thread issued before it (R226). -/
def execUnitInstructionCompletion (t : Tid) (s : State) : Answer :=
  let s := if s.sequencing then s.endTestsFor (.thread t) else s
  let th := s.thread t
  match th.done with
  | some d =>
    if th.st = .waiting ∧ th.wait = .unit ∧ s.sequencing ∧ !(d.blt && th.async.any (·.blt)) then
      match d.flt with
      | some (f, sub) => .next (s.faultAt t f sub.toNat th.wAddr)
      | none =>
        let s := { s with sboard := s.sboard.filter fun o => !(o.thread == t && o.sync) }
        .next (s.modThread t fun th =>
          let th := match d.scratch with | some (a, b) => th.scratchWrite a b | none => th
          let th := match d.rc with | some v => th.setReg th.wRc v | none => th
          let th := if d.wrRd then th.setReg th.wRd d.val else th
          { th with st := .running, wait := .none, done := none
                    fl := if d.isResult then th.fl.ofResult d.val else th.fl })
    else .next s
  | none => .next s

/-- The blits of a thread that it issued before operation `op`: they complete first (R226). -/
def Thread.bltBefore (th : Thread) (op : Nat) : Bool := (th.async.takeWhile (·.op != op)).any (·.blt)

/-- An asynchronous operation completes: its result word, ASYNC, and the fault that it found at its unit (R233). -/
def execAsyncOperationCompletion (t : Tid) (op : Nat) (s : State) : Answer :=
  let s := if s.sequencing then s.endTestsFor (.async t op) else s
  match (s.thread t).async.find? (·.op == op) with
  | none => .next s
  | some a =>
    match a.res with
    | none => .next s
    | some d =>
      if !s.sequencing || (a.blt && (s.thread t).bltBefore op) then .next s
      else
        let s := { s with sboard := s.sboard.filter fun o => o.op != op }
        let s := s.modThread t fun th =>
          { (if d.wrRd then th.setWord a.word d.val else th) with
            async := th.async.filter fun x => x.op != op, evt := th.evt ||| 0x800 }
        match d.flt with
        | some (f, sub) => .next (if (s.thread t).st = .faulted then s else s.faultAt t f sub.toNat a.addr)
        | none => .next s

end Sys2Proof.Machine
end

