-- ==== Sys2Proof/Machine/Release.lean ====
section
/-! DEFINITION. `SCOREBOARD_RELEASE`: an instruction or an asynchronous operation that waited for earlier operations proceeds (R226,
R227, R230, R252, R277). -/

namespace Sys2Proof.Machine

/-- Run a held instruction again at its thread. The instructions named are those that can be held; no other is ever held. -/
def State.rerun (s : State) (i : Instr) : Answer :=
  match i with
  | .aset t w => execAset t w s
  | .balloc t w => execBalloc t w s
  | .bfree t w => execBfree t w s
  | .binfo t w => execBinfo t w s
  | .bist t w run => execBist t w run s
  | .blt t w => execBlt t w s
  | .bseal t w => execBseal t w s
  | .crcget t w => execCrcget t w s
  | .crcput t w => execCrcput t w s
  | .crcrun t w => execCrcrun t w s
  | .crcset t w => execCrcset t w s
  | .fgroup t w => execFgroup t w s
  | .fsend t w => execFsend t w s
  | .ldh t w => execLdh t w s
  | .pclear t w => execPclear t w s
  | .planchk t w => execPlanchk t w s
  | .plancommit t w => execPlancommit t w s
  | .planslotFree t w => execPlanslotFree t w s
  | .planslotLoad t w => execPlanslotLoad t w s
  | .planslotState t w => execPlanslotState t w s
  | .planslotStatus t w => execPlanslotStatus t w s
  | .plightOff t w => execPlightOff t w s
  | .plightOn t w => execPlightOn t w s
  | .pmbx t w tries => execPmbx t w tries s
  | .ppowerDown t w => execPpowerDown t w s
  | .ppowerUp t w crack crack2 drv => execPpowerUp t w crack crack2 drv s
  | .pselfEnter t w => execPselfEnter t w s
  | .pselfExit t w => execPselfExit t w s
  | .pupdate t w => execPupdate t w s
  | .qflush t w => execQflush t w s
  | .sattach t w => execSattach t w s
  | .sattachDetach t w => execSattachDetach t w s
  | .spause t w => execSpause t w s
  | .splay t w => execSplay t w s
  | .sseek t w => execSseek t w s
  | .sth t w => execSth t w s
  | .svcLaunch t w => execSvcLaunch t w s
  | .svcQpost t w upset => execSvcQpost t w upset s
  | .svcQtake t w upset => execSvcQtake t w upset s
  | .svcRemove t w => execSvcRemove t w s
  | .svcRestart t w => execSvcRestart t w s
  | .svcReturn t w => execSvcReturn t w s
  | .svcState t w => execSvcState t w s
  | .tgaddr t w => execTgaddr t w s
  | .tgset t w => execTgset t w s
  | .tread t w => execTread t w s
  | .trimapply t w => execTrimapply t w s
  | .trimstage t w readBack => execTrimstage t w readBack s
  | _ => .next s

/-- The job of an asynchronous operation of thread `t`, once nothing before it holds it up. -/
def State.runJob (s : State) (t : Tid) (a : Async) (j : Job) : State :=
  let s := s.modThread t fun th => { th with async := th.async.map fun x => if x.op = a.op then { x with todo := none } else x }
  let (s, res) : State × Option Done := match j with
    | .crcRun c h off n => (s.crcJob c h off n).map id some
    | .commit slot wallFrame f => (s.commitJob slot wallFrame f).map id some
    | .bist block inst mem run =>
      s.bistJob (unitOf (BitVec.ofNat 64 (block * 256 + inst))) mem run (.async t a.op)
  match res with
  | some d => s.deliver (.async t a.op) d
  | none => s

/-- `SCOREBOARD_RELEASE`: the instruction at which thread `t` is held, else its first asynchronous operation that need wait no
longer. -/
def execScoreboardRelease (t : Tid) (s : State) : Answer :=
  if !s.sequencing then .next s
  else
    let th := s.thread t
    match th.st, th.wait with
    | .waiting, .held i =>
      (s.modThread t fun th => { th with st := .running, wait := .none, pc := th.wAddr }).rerun i
    | .waiting, .entry op =>
      .next (if s.bltWaits op then s else s.modThread t fun th => { th with st := .running, wait := .none })
    | _, _ =>
      match th.async.find? fun a => a.todo.isSome && !sbBlocked s.sboard a.op && s.dram.sr != .inSr with
      | some a => .next (match a.todo with | some j => s.runJob t a j | none => s)
      | none => .next s

end Sys2Proof.Machine
end

