-- ==== Sys2Proof/Machine/SafeState.lean ====
section
/-! DEFINITION. The chip safe state and what enters it, and the test access port (R331, R332, R421, R522, R531-R533, R535). -/

namespace Sys2Proof.Machine

/-- A generator's output at its inactive level (R355). -/
def Tg.quiet (g : Tg) : Tg := { g with out := g.set.inactive }

/-- Enter the chip safe state: the cause record, then record 0x1704; the response of Table 16-4; frames, streams, blits and capture stop;
subchannels that have not failed enter self-refresh (R531, R532, Table 23-6). A further cause writes its record alone. -/
def State.enterSafe (s : State) (code block info : Nat) : State :=
  let s := s.report code block info
  if s.safe then s
  else
    let s := s.report 0x1704 0x00 code
    let s := { s with safe := true }.respond tripOp
    { s.sleepDram with
      engs := Vector.replicate 8 []
      streams := s.streams.map fun x => { x with dec := none }
      tg1 := s.tg1.quiet, tg2 := s.tg2.quiet
      aud := { s.aud with outRun := 0 } }

/-- `ALERT_N`: a replay, or a failed subchannel when it is the fourth within 1 ms or comes during a replay; nothing without CAPAR
(R331, R332). -/
def execAlertN (sub : Fin 16) (s : State) : Answer :=
  let n := sub.val
  let c := s.dram.subs[sub]
  if !s.dramRuns || !s.dram.capar || c.failed then .next s
  else
    let alerts := s.now :: c.alerts.filter fun t => decide (s.now < t + 1000000)
    let s := s.modSub n fun c => { c with alerts := alerts }
    if c.replaying || 4 ≤ alerts.length then
      .next ((s.modSub n fun c => { c with failed := true }).enterSafe 0x0D05 0x20 (subInfo n))
    else
      let s := (s.replay n).modSub n fun c => { c with replaying := true, replay := c.replay.bump }
      .next (s.report 0x0D04 0x20 (subInfo n + c.retry.length % 64))

/-- `WATCHDOG_EXPIRY`: of the management or the security processor, which run from the verified image on (R522, R531). -/
def execWatchdogExpiry (security : Bool) (s : State) : Answer :=
  .next (if s.therm.tripped || s.boot.stage.toNat < 4 then s else s.enterSafe 0x1702 0x00 security.toNat)

/-- `INTERCONNECT_UE`: an uncorrectable word on a link of the hall interconnect (R531). -/
def execInterconnectUe (link : Fin 5) (s : State) : Answer :=
  .next (if s.therm.tripped || s.boot.stage.toNat < 2 then s else s.enterSafe 0x1701 0x05 (link.val * 2 ^ 32))

/-- `KEY_WORD_UE`: an uncorrectable word of the key store or of an engine's key state (R531). -/
def execKeyWordUe (block : BitVec 6) (inst : BitVec 8) (s : State) : Answer :=
  .next (if s.therm.tripped || s.boot.stage.toNat < 5 then s else s.enterSafe 0x1703 0x0B (block.toNat * 2 ^ 32 + inst.toNat))

/-- `TAP_INSTRUCTION`: BYPASS, IDCODE and SAMPLE/PRELOAD always respond and change no state of the device; EXTEST responds in debug mode
alone and drives pins through the boundary register; a private instruction does not respond outside debug mode, and no rule gives
its effect within (R421). -/
def execTapInstruction (i : TapInstr) (s : State) : Answer :=
  match i with
  | .bypass => .next s
  | .idcode => .next s
  | .samplePreload => .next s
  | .extest => .next s
  | .privateInstr _ => if s.sec.debug then .refused .privateTap else .next s

end Sys2Proof.Machine
end

