-- ==== Sys2Proof/Machine/Thermal.lean ====
section
/-! DEFINITION. Temperatures: samples, crossings and their actions, the MR4 reports, the charge window and the hardware trip
(R330, R387, R473-R482). -/

namespace Sys2Proof.Machine

/-- Change the temperature block. -/
def State.modTherm (s : State) (f : Therm → Therm) : State := { s with therm := f s.therm }

/-! ### Samples (R474) -/

/-- The reading of a sensor is in its range. -/
def sensorInRange (k : Nat) (t : Int) : Bool := decide (-880 ≤ t ∧ t ≤ if k < 24 then 2800 else 2400)

/-- One sensor's sample: the reading, or the sensor is invalid until POR_N, with record 0x1405. -/
def State.sampleSensor (s : State) (k : Nat) (r : Option Int) : State :=
  let x := vget s.therm.sensors k
  if x.bad || !s.fitted k then s
  else
    let bad := fun (s : State) (why : Nat) =>
      let s := s.modTherm fun t => { t with sensors := vmodN t.sensors k fun x => { x with bad := true } }
      if s.therm.tripped then s else s.report 0x1405 0x01 (k * 2 ^ 32 + why)
    match r with
    | none => bad s 2
    | some v =>
      if sensorInRange k v then s.modTherm fun t => { t with sensors := vmodN t.sensors k fun x => { x with temp := some v } }
      else bad s 1

/-- The hottest valid reading of a class: 0 JUNCTION, 1 DRAM, 2 PANEL (Table 20-1). -/
def State.classMax (s : State) (c : Nat) : Option (Nat × Int) :=
  s.hottest ((match c with | 0 => List.range 24 | 1 => [26] | _ => [27]).filter s.fitted)

/-! ### Confirmation (R477) -/

/-- One sample against a threshold: the state after it, and true for a crossing confirmed, false for one cleared. -/
def Thr.sample (x : Thr) (limit t : Int) : Thr × Option Bool :=
  if x.conf then
    if t ≤ limit - 64 then
      if x.downRun = 2 then ({}, some false) else ({ x with downRun := x.downRun + 1, upRun := 0 }, none)
    else ({ x with downRun := 0, upRun := 0 }, none)
  else if limit ≤ t then
    if x.upRun = 2 then ({ conf := true }, some true) else ({ x with upRun := x.upRun + 1, downRun := 0 }, none)
  else ({ x with upRun := 0, downRun := 0 }, none)

/-- The run has just begun (R475). -/
def Thr.began (x : Thr) : Bool := x.upRun == 1 || x.downRun == 1

/-- Threshold `i` of the thermal set is enabled (Table 20-2). -/
def State.thrEnabled (s : State) (i : Nat) : Bool := i < 2 || !(vget s.trim.words 46).getLsbD (i - 2)

/-- The limit of threshold `i`. -/
def State.thrLimit (s : State) (i : Nat) : Int := s16 (vget s.trim.words (40 + i))

/-- A crossing is confirmed or cleared: THERM, the item, the record, and the counter of a confirmation (R477, R484, R487). -/
def State.crossing (s : State) (i sensor : Nat) (t : Nat) (up : Bool) : State :=
  let s := s.event 8
  let s := s.post41 (leBytes 16 (0x40 + sensor * 256 + i % 2 * 65536 + up.toNat * 2 ^ 18 + t * 2 ^ 32))
  let s := s.report (if i % 2 = 0 then 0x1401 else 0x1402) 0x01 (sensor * 2 ^ 32 + up.toNat * 65536 + t)
  if !up then s
  else
    let l := s.life
    { s with life := match i with
        | 0 => { l with warnX := l.warnX.bump }
        | 1 => { l with throtX := l.throtX.bump }
        | _ => { l with remoteX := l.remoteX.bump } }

/-- One threshold meets the sample. -/
def State.sampleThr (s : State) (i : Nat) : State :=
  if !s.thrEnabled i then s
  else
    match s.classMax (i / 2) with
    | none => s
    | some (k, t) =>
      let (x, hit) := (vget s.therm.thr i).sample (s.thrLimit i) t
      let s := s.modTherm fun m => { m with thr := vmodN m.thr i fun _ => x, fastLeft := if x.began then 3 else m.fastLeft }
      match hit with
      | none => s
      | some up => s.crossing i k (wrapInt 16 t) up

/-- The levels that THERM_STATUS shows. -/
def State.levels (s : State) : List Nat := [s.level 0, s.level 1, s.level 2]

/-- A change of a level raises vector 57 (R513). -/
def State.levelVector (s : State) (old : List Nat) : State := if s.levels = old then s else s.raise 57

/-! ### The charge window (R387) -/

/-- The window of `TREM1` meets the sample: the first reading decides, then three consecutive samples beyond the limits close it and
three within them by 4 °C open it. -/
def State.sampleCharge (s : State) (first : Bool) : State :=
  let x := vget s.therm.sensors 25
  if x.bad || !s.fitted 25 then s.modPwr fun p => { p with chgWin := false, winIn := 0, winOut := 0 }
  else
    match x.temp with
    | none => s
    | some t =>
      let inside := decide (0 ≤ t ∧ t ≤ 1120)
      let well := decide (64 ≤ t ∧ t ≤ 1056)
      if first then s.modPwr fun p => { p with chgWin := inside, winIn := 0, winOut := 0 }
      else if s.pwr.chgWin then
        if inside then s.modPwr fun p => { p with winOut := 0 }
        else if s.pwr.winOut < 2 then s.modPwr fun p => { p with winOut := p.winOut + 1 }
        else
          let was := s.pwr.chgEn
          let s := s.modPwr fun p => { p with chgWin := false, winIn := 0, winOut := 0 }
          if was then s.report 0x1009 0x2D (wrapInt 16 t) else s
      else if !well then s.modPwr fun p => { p with winIn := 0 }
      else if s.pwr.winIn < 2 then s.modPwr fun p => { p with winIn := p.winIn + 1 }
      else s.modPwr fun p => { p with chgWin := true, winIn := 0, winOut := 0 }

/-! ### The trip (R480) -/

/-- The trip acts: the response of Table 16-4, self-refresh, and every domain but the always-on one stops and is lost (R334, R385,
R480). -/
def State.trip (s : State) (sensor : Nat) (t : Int) : State :=
  let out1 := s.tg1.set.inactive
  let out2 := s.tg2.set.inactive
  let s := ((s.respond tripOp).endCapture 3 7).bare
  { s with
    tg1 := { s.tg1 with out := out1 }, tg2 := { s.tg2 with out := out2 }
    therm := { s.therm with tripped := true, tripSensor := sensor, tripTemp := t, fast := false, fastLeft := 0 }
    dram := { s.dram with sr := .inSr, srEntries := s.dram.srEntries.bump }
    boot := { s.boot with fresh := false } }

/-- The trip meets the sample; it is confirmed at once when no junction sensor remains valid (R474, R477, R480). -/
def State.sampleTrip (s : State) : State :=
  match s.classMax 0 with
  | none => if (List.range 24).all fun k => (vget s.therm.sensors k).bad then s.trip 0 0 else s
  | some (k, t) =>
    let (x, hit) := s.therm.trip.sample 2480 t
    let s := s.modTherm fun m => { m with trip := x, fastLeft := if x.began then 3 else m.fastLeft }
    if hit = some true then s.trip k t else s

/-- Some valid sensor lies within 8 °C of a threshold of its class, the trip included (R475). -/
def State.nearThreshold (s : State) : Bool :=
  let near := fun (c : Nat) (limit : Int) =>
    ((match c with | 0 => List.range 24 | 1 => [26] | _ => [27]).filter s.fitted).any fun k =>
      let x := vget s.therm.sensors k
      match x.bad, x.temp with
      | false, some t => decide (limit - 128 ≤ t ∧ t ≤ limit + 128)
      | _, _ => false
  near 0 2480 || (List.range 6).any fun i => s.thrEnabled i && near (i / 2) (s.thrLimit i)

/-- `SENSOR_SAMPLE`: every sensor at once; crossings of the sample count even when it trips (R474-R482). -/
def execSensorSample (r : List (Option Int)) (s : State) : Answer :=
  let first := (vget s.therm.sensors 25).temp.isNone
  let old := s.levels
  let s := (List.range 28).foldl (fun s k => s.sampleSensor k ((r[k]?).join)) s
  if s.therm.tripped then .next s
  else
    let s := s.modTherm fun m => { m with fastLeft := m.fastLeft - 1 }
    let s := (List.range 6).foldl State.sampleThr s
    let s := (s.levelVector old).sampleCharge first
    let s := s.settleCharge
    let s := s.sampleTrip
    if s.therm.tripped then .next s
    else
      let fast := s.nearThreshold || s.therm.fastLeft != 0
      .next (s.modTherm fun m => { m with fast := fast })

/-! ### MR4 (R330, R478) -/

/-- The MR4 confirmation meets a read: three reads above the doubled-rate range confirm, three within it clear. The item and the record
carry a free value for the reading, which MR4 does not give (DESIGN CHOICE, log 10). -/
def State.sampleMr4 (s : State) (above : Bool) : State :=
  let m := s.therm
  let up := if above then m.mr4Up + 1 else 0
  let down := if above then 0 else m.mr4Down + 1
  let s := s.modTherm fun m => { m with mr4Up := up, mr4Down := down }
  if !m.mr4Conf && 3 ≤ up then
    let (s, v) := (s.modTherm fun m => { m with mr4Conf := true, mr4Up := 0 }).freshValue
    s.crossing 3 0xFF (v.toNat % 65536) true
  else if m.mr4Conf && 3 ≤ down then
    let (s, v) := (s.modTherm fun m => { m with mr4Conf := false, mr4Down := 0 }).freshValue
    s.crossing 3 0xFF (v.toNat % 65536) false
  else s

/-- `MR4_READ`: once per millisecond on every subchannel; THERM follows the confirmation of reports above the doubled-rate range (R330, R477,
R478). -/
def execMr4Read (reports : List Mr4) (s : State) : Answer :=
  if !s.dramRuns then .next s
  else
    let old := s.levels
    let s := (List.range 16).foldl (fun (s : State) n =>
      s.modSub n fun c => { c with doubled := reports.getD n .normal != .normal }) s
    let above := (reports.take 16).contains .above
    .next ((s.sampleMr4 above).levelVector old)

end Sys2Proof.Machine
end

