-- ==== Sys2Proof/Machine/Tick.lean ====
section
/-! DEFINITION. What a microsecond does when no command waits: the clocks that run without being asked (DESIGN CHOICE, log 3). -/

namespace Sys2Proof.Machine

/-- The retry buffer of a subchannel after a microsecond: entries are past the alert latency, a replay of 2 µs ago is over (R331). -/
def SubCh.age (c : SubCh) (now : Nat) : SubCh :=
  { c with retry := [], replaying := c.replaying && (match c.alerts with | a :: _ => decide (now < a + 2000) | [] => false) }

/-- The end of a wait for `PGD` whose time is up (R380, R381). -/
def State.pgdDue (s : State) : State :=
  match s.pwr.seq with
  | some q => if s.pgdLate then s.pgdTimeout q else s
  | none => s

/-- The word at the pc of a RUNNING thread, when it stands for no instruction: the thread faults at its fetch. A word outside the program
buffer does so too; any other waits for its command (R219, R244, R245, R274; DESIGN CHOICE, log 3). -/
def State.fetch (s : State) (t : Tid) : State :=
  let th := s.thread t
  if !s.sequencing || th.st != .running then s
  else
    match s.buf? th.prog.toNat with
    | none => s.fault t .state 0x03
    | some b =>
      if b.len < th.pc + 8 then s.fault t .state 0x03
      else
        match wordFault (BitVec.ofNat 64 (leNat (Memory.readN s.mem (b.base + th.pc) 8))) with
        | some sub => s.fault t .state sub
        | none => s

/-- One microsecond passes: the steps of a response, and while no trip holds the rail sequence, fabric time, the retry buffers; TG1
and TG2 count while they run; RUNNING threads fetch. -/
def State.tick (s : State) : State :=
  let s := ({ s with now := s.now + 1000 } : State).respSteps
  if s.therm.tripped then s
  else
    let s := s.pgdDue
    let s := { s with
      fab := s.fab.run 1000
      dram := { s.dram with subs := s.dram.subs.map fun c => c.age s.now } }
    if s.safe then s else (List.finRange 8).foldl State.fetch ((s.tgCount false 1600).tgCount true 1600)

end Sys2Proof.Machine
end

