-- ==== Sys2Proof/Machine/Dispatch.lean ====
section
/-! DEFINITION. One arm for each command: a direct call of its meaning. -/

namespace Sys2Proof.Machine

/-- The effect of a command on everything but the queue of waiting commands. -/
def exec (i : Instr) (s : State) : Host.Outcome State Fault Refusal :=
  match i with
  | .add t w => Sys2Proof.Machine.execAdd t w s
  | .sub t w => Sys2Proof.Machine.execSub t w s
  | .and t w => Sys2Proof.Machine.execAnd t w s
  | .or t w => Sys2Proof.Machine.execOr t w s
  | .xor t w => Sys2Proof.Machine.execXor t w s
  | .shl t w => Sys2Proof.Machine.execShl t w s
  | .shr t w => Sys2Proof.Machine.execShr t w s
  | .movi t w => Sys2Proof.Machine.execMovi t w s
  | .cmp t w => Sys2Proof.Machine.execCmp t w s
  | .br t w => Sys2Proof.Machine.execBr t w s
  | .brc t w => Sys2Proof.Machine.execBrc t w s
  | .call t w => Sys2Proof.Machine.execCall t w s
  | .ret t w => Sys2Proof.Machine.execRet t w s
  | .loop t w => Sys2Proof.Machine.execLoop t w s
  | .halt t w => Sys2Proof.Machine.execHalt t w s
  | .haltCompletion t => Sys2Proof.Machine.execHaltCompletion t s
  | .waitline t w => Sys2Proof.Machine.execWaitline t w s
  | .waittime t w => Sys2Proof.Machine.execWaittime t w s
  | .waitevt t w => Sys2Proof.Machine.execWaitevt t w s
  | .waitq t w => Sys2Proof.Machine.execWaitq t w s
  | .waitSatisfied t => Sys2Proof.Machine.execWaitSatisfied t s
  | .waitTimeout t => Sys2Proof.Machine.execWaitTimeout t s
  | .ld t w ue => Sys2Proof.Machine.execLd t w ue s
  | .st t w => Sys2Proof.Machine.execSt t w s
  | .ldh t w => Sys2Proof.Machine.execLdh t w s
  | .sth t w => Sys2Proof.Machine.execSth t w s
  | .unitInstructionCompletion t => Sys2Proof.Machine.execUnitInstructionCompletion t s
  | .asyncOperationCompletion t op => Sys2Proof.Machine.execAsyncOperationCompletion t op s
  | .balloc t w => Sys2Proof.Machine.execBalloc t w s
  | .bfree t w => Sys2Proof.Machine.execBfree t w s
  | .bufferRelease h => Sys2Proof.Machine.execBufferRelease h s
  | .granuleZeroingDone g ue => Sys2Proof.Machine.execGranuleZeroingDone g ue s
  | .binfo t w => Sys2Proof.Machine.execBinfo t w s
  | .bseal t w => Sys2Proof.Machine.execBseal t w s
  | .planchk t w => Sys2Proof.Machine.execPlanchk t w s
  | .plancommit t w => Sys2Proof.Machine.execPlancommit t w s
  | .planslotLoad t w => Sys2Proof.Machine.execPlanslotLoad t w s
  | .planslotFree t w => Sys2Proof.Machine.execPlanslotFree t w s
  | .planslotState t w => Sys2Proof.Machine.execPlanslotState t w s
  | .planslotStatus t w => Sys2Proof.Machine.execPlanslotStatus t w s
  | .sattach t w => Sys2Proof.Machine.execSattach t w s
  | .sattachDetach t w => Sys2Proof.Machine.execSattachDetach t w s
  | .sseek t w => Sys2Proof.Machine.execSseek t w s
  | .splay t w => Sys2Proof.Machine.execSplay t w s
  | .spause t w => Sys2Proof.Machine.execSpause t w s
  | .blt t w => Sys2Proof.Machine.execBlt t w s
  | .crcset t w => Sys2Proof.Machine.execCrcset t w s
  | .crcrun t w => Sys2Proof.Machine.execCrcrun t w s
  | .crcget t w => Sys2Proof.Machine.execCrcget t w s
  | .crcput t w => Sys2Proof.Machine.execCrcput t w s
  | .fsend t w => Sys2Proof.Machine.execFsend t w s
  | .fgroup t w => Sys2Proof.Machine.execFgroup t w s
  | .ftime t w => Sys2Proof.Machine.execFtime t w s
  | .ppowerUp t w crack crack2 drv => Sys2Proof.Machine.execPpowerUp t w crack crack2 drv s
  | .ppowerDown t w => Sys2Proof.Machine.execPpowerDown t w s
  | .pclear t w => Sys2Proof.Machine.execPclear t w s
  | .plightOn t w => Sys2Proof.Machine.execPlightOn t w s
  | .plightOff t w => Sys2Proof.Machine.execPlightOff t w s
  | .pselfEnter t w => Sys2Proof.Machine.execPselfEnter t w s
  | .pselfExit t w => Sys2Proof.Machine.execPselfExit t w s
  | .pupdate t w => Sys2Proof.Machine.execPupdate t w s
  | .pmbx t w tries => Sys2Proof.Machine.execPmbx t w tries s
  | .qmark t w => Sys2Proof.Machine.execQmark t w s
  | .qrewind t w => Sys2Proof.Machine.execQrewind t w s
  | .qrelease t w => Sys2Proof.Machine.execQrelease t w s
  | .qflush t w => Sys2Proof.Machine.execQflush t w s
  | .tgset t w => Sys2Proof.Machine.execTgset t w s
  | .tgaddr t w => Sys2Proof.Machine.execTgaddr t w s
  | .aset t w => Sys2Proof.Machine.execAset t w s
  | .trimstage t w readBack => Sys2Proof.Machine.execTrimstage t w readBack s
  | .trimapply t w => Sys2Proof.Machine.execTrimapply t w s
  | .tread t w => Sys2Proof.Machine.execTread t w s
  | .svcRemove t w => Sys2Proof.Machine.execSvcRemove t w s
  | .svcReturn t w => Sys2Proof.Machine.execSvcReturn t w s
  | .svcState t w => Sys2Proof.Machine.execSvcState t w s
  | .svcRestart t w => Sys2Proof.Machine.execSvcRestart t w s
  | .svcLaunch t w => Sys2Proof.Machine.execSvcLaunch t w s
  | .svcQpost t w upset => Sys2Proof.Machine.execSvcQpost t w upset s
  | .svcQtake t w upset => Sys2Proof.Machine.execSvcQtake t w upset s
  | .svcQsub t w => Sys2Proof.Machine.execSvcQsub t w s
  | .bist t w run => Sys2Proof.Machine.execBist t w run s
  | .signal t w => Sys2Proof.Machine.execSignal t w s
  | .int t w => Sys2Proof.Machine.execInt t w s
  | .threadLaunch t => Sys2Proof.Machine.execThreadLaunch t s
  | .dbRestart v => Sys2Proof.Machine.execDbRestart v s
  | .dbSignal v => Sys2Proof.Machine.execDbSignal v s
  | .intCauseClear v => Sys2Proof.Machine.execIntCauseClear v s
  | .flashRead v => Sys2Proof.Machine.execFlashRead v s
  | .flashErase v => Sys2Proof.Machine.execFlashErase v s
  | .flashProgram v => Sys2Proof.Machine.execFlashProgram v s
  | .flashOperationDone verified => Sys2Proof.Machine.execFlashOperationDone verified s
  | .registerWrite off data => Sys2Proof.Machine.execRegisterWrite off data s
  | .queueDataWrite q data => Sys2Proof.Machine.execQueueDataWrite q data s
  | .queueEndWrite q data upset => Sys2Proof.Machine.execQueueEndWrite q data upset s
  | .queuePop q => Sys2Proof.Machine.execQueuePop q s
  | .itemBaseWrite q v => Sys2Proof.Machine.execItemBaseWrite q v s
  | .queueStatusClear q v => Sys2Proof.Machine.execQueueStatusClear q v s
  | .bar4Read addr len => Sys2Proof.Machine.execBar4Read addr len s
  | .bar4Write addr data => Sys2Proof.Machine.execBar4Write addr data s
  | .porN straps => Sys2Proof.Machine.execPorN straps s
  | .sysRstN straps => Sys2Proof.Machine.execSysRstN straps s
  | .coldBoot env => Sys2Proof.Machine.execColdBoot env s
  | .perstN => Sys2Proof.Machine.execPerstN s
  | .functionLevelReset => Sys2Proof.Machine.execFunctionLevelReset s
  | .vddAoUndervoltage straps => Sys2Proof.Machine.execVddAoUndervoltage straps s
  | .pfailResponse => Sys2Proof.Machine.execPfailResponse s
  | .pfailNRelease => Sys2Proof.Machine.execPfailNRelease s
  | .pgdLoss rail => Sys2Proof.Machine.execPgdLoss rail s
  | .crackCheck run run2 => Sys2Proof.Machine.execCrackCheck run run2 s
  | .driverReadback pair poll => Sys2Proof.Machine.execDriverReadback pair poll s
  | .laneStatPoll pair stat => Sys2Proof.Machine.execLaneStatPoll pair stat s
  | .huReady => Sys2Proof.Machine.execHuReady s
  | .huReadyClear => Sys2Proof.Machine.execHuReadyClear s
  | .noticeInSample pins => Sys2Proof.Machine.execNoticeInSample pins s
  | .noticeInAsserted pin => Sys2Proof.Machine.execNoticeInAsserted pin s
  | .noticeInDeasserted pin => Sys2Proof.Machine.execNoticeInDeasserted pin s
  | .refInEdge interval => Sys2Proof.Machine.execRefInEdge interval s
  | .refInLoss interval => Sys2Proof.Machine.execRefInLoss interval s
  | .framePeriodStart err => Sys2Proof.Machine.execFramePeriodStart err s
  | .tg0LineStart corrupt => Sys2Proof.Machine.execTg0LineStart corrupt s
  | .tgFrameStart tg => Sys2Proof.Machine.execTgFrameStart tg s
  | .selfRefreshEntryPoint => Sys2Proof.Machine.execSelfRefreshEntryPoint s
  | .scanoutLineFetch => Sys2Proof.Machine.execScanoutLineFetch s
  | .frameEndChecks => Sys2Proof.Machine.execFrameEndChecks s
  | .packageExpansionDone => Sys2Proof.Machine.execPackageExpansionDone s
  | .ingestItem stream => Sys2Proof.Machine.execIngestItem stream s
  | .ingestResume stream => Sys2Proof.Machine.execIngestResume stream s
  | .fabricClsMove port => Sys2Proof.Machine.execFabricClsMove port s
  | .documentFragment vddFuse => Sys2Proof.Machine.execDocumentFragment vddFuse s
  | .documentReassemblyTimeout docId => Sys2Proof.Machine.execDocumentReassemblyTimeout docId s
  | .keyGrant => Sys2Proof.Machine.execKeyGrant s
  | .decodeStart stream => Sys2Proof.Machine.execDecodeStart stream s
  | .decoderDispatch stream => Sys2Proof.Machine.execDecoderDispatch stream s
  | .groupRegistration eng => Sys2Proof.Machine.execGroupRegistration eng s
  | .decodePacketDone eng => Sys2Proof.Machine.execDecodePacketDone eng s
  | .cullPassStart => Sys2Proof.Machine.execCullPassStart s
  | .ringFillLine layer ue => Sys2Proof.Machine.execRingFillLine layer ue s
  | .galleryRowStart gallery ue => Sys2Proof.Machine.execGalleryRowStart gallery ue s
  | .weaveRowRelease => Sys2Proof.Machine.execWeaveRowRelease s
  | .cellFault gallery cell => Sys2Proof.Machine.execCellFault gallery cell s
  | .captureTileRow differs behind => Sys2Proof.Machine.execCaptureTileRow differs behind s
  | .cacheTileRowDecode => Sys2Proof.Machine.execCacheTileRowDecode s
  | .scoreboardRelease t => Sys2Proof.Machine.execScoreboardRelease t s
  | .pipelineReadTorn r => Sys2Proof.Machine.execPipelineReadTorn r s
  | .blitDescriptorStart => Sys2Proof.Machine.execBlitDescriptorStart s
  | .blitGateOpen => Sys2Proof.Machine.execBlitGateOpen s
  | .blitRowComplete => Sys2Proof.Machine.execBlitRowComplete s
  | .blitComplete => Sys2Proof.Machine.execBlitComplete s
  | .dramCommandSlot sub errs => Sys2Proof.Machine.execDramCommandSlot sub errs s
  | .urgencyRise req => Sys2Proof.Machine.execUrgencyRise req s
  | .refreshDue sub => Sys2Proof.Machine.execRefreshDue sub s
  | .mr4Read reports => Sys2Proof.Machine.execMr4Read reports s
  | .zqCalibration => Sys2Proof.Machine.execZqCalibration s
  | .rowIdleClose sub bank => Sys2Proof.Machine.execRowIdleClose sub bank s
  | .alertN sub => Sys2Proof.Machine.execAlertN sub s
  | .dramSelfRefreshEntry => Sys2Proof.Machine.execDramSelfRefreshEntry s
  | .dramSelfRefreshExit => Sys2Proof.Machine.execDramSelfRefreshExit s
  | .fabricTrainingAttempt port => Sys2Proof.Machine.execFabricTrainingAttempt port s
  | .fabricTrained port own partner partnerP => Sys2Proof.Machine.execFabricTrained port own partner partnerP s
  | .fabricTrainingTimeout port seen => Sys2Proof.Machine.execFabricTrainingTimeout port seen s
  | .backoffExpiry port => Sys2Proof.Machine.execBackoffExpiry port s
  | .fabricBeacon port => Sys2Proof.Machine.execFabricBeacon port s
  | .partnerDetected port => Sys2Proof.Machine.execPartnerDetected port s
  | .authFrame port msg => Sys2Proof.Machine.execAuthFrame port msg s
  | .authTimeout port => Sys2Proof.Machine.execAuthTimeout port s
  | .fabricLaneLoss port lost => Sys2Proof.Machine.execFabricLaneLoss port lost s
  | .fabricRetrainDone port own partner => Sys2Proof.Machine.execFabricRetrainDone port own partner s
  | .fabricFrameReceive port f => Sys2Proof.Machine.execFabricFrameReceive port f s
  | .fabricTransmitOpportunity port room used => Sys2Proof.Machine.execFabricTransmitOpportunity port room used s
  | .fabricSlotStart port slot => Sys2Proof.Machine.execFabricSlotStart port slot s
  | .cometTimer => Sys2Proof.Machine.execCometTimer s
  | .planetTimeout => Sys2Proof.Machine.execPlanetTimeout s
  | .groupCommit => Sys2Proof.Machine.execGroupCommit s
  | .groupPlay => Sys2Proof.Machine.execGroupPlay s
  | .groupSeek => Sys2Proof.Machine.execGroupSeek s
  | .groupPause => Sys2Proof.Machine.execGroupPause s
  | .groupLight => Sys2Proof.Machine.execGroupLight s
  | .groupSelf => Sys2Proof.Machine.execGroupSelf s
  | .groupSignal => Sys2Proof.Machine.execGroupSignal s
  | .groupRoute => Sys2Proof.Machine.execGroupRoute s
  | .groupRelease => Sys2Proof.Machine.execGroupRelease s
  | .audioSampleFrame ue => Sys2Proof.Machine.execAudioSampleFrame ue s
  | .audioRefEdge interval => Sys2Proof.Machine.execAudioRefEdge interval s
  | .audioRefLoss interval => Sys2Proof.Machine.execAudioRefLoss interval s
  | .aes3InputFrame input f => Sys2Proof.Machine.execAes3InputFrame input f s
  | .sensorSample r => Sys2Proof.Machine.execSensorSample r s
  | .tripRestart env seconds => Sys2Proof.Machine.execTripRestart env seconds s
  | .lifetimeTick => Sys2Proof.Machine.execLifetimeTick s
  | .lifetimeStore => Sys2Proof.Machine.execLifetimeStore s
  | .flashWindowOpen => Sys2Proof.Machine.execFlashWindowOpen s
  | .watchdogExpiry security => Sys2Proof.Machine.execWatchdogExpiry security s
  | .interconnectUe link => Sys2Proof.Machine.execInterconnectUe link s
  | .keyWordUe block inst => Sys2Proof.Machine.execKeyWordUe block inst s
  | .pgdChange rail level => Sys2Proof.Machine.execPgdChange rail level s
  | .dqsOscillatorTracking => Sys2Proof.Machine.execDqsOscillatorTracking s
  | .refusedPortLockLoss port => Sys2Proof.Machine.execRefusedPortLockLoss port s
  | .pcieLinkChange up => Sys2Proof.Machine.execPcieLinkChange up s
  | .tapInstruction k => Sys2Proof.Machine.execTapInstruction k s
  | .flashRecordWriteDone ok => Sys2Proof.Machine.execFlashRecordWriteDone ok s

end Sys2Proof.Machine
end

