-- ==== Sys2Proof/Safety.lean ====
section
/-! DEFINITION. What the claims call a sound state and a safe run, and the conditions on a state under which an instruction
issues and reaches its unit at once. -/

namespace Sys2Proof.Machine

/-- Memory, every scratch, the flash, the flash buffer and the MSI-X table are in their canonical form, and the buffer table is in the order
of its handles. -/
def State.canonical (s : State) : Prop :=
  Memory.wf s.mem = true ∧ (∀ t, tabWf 0 (s.thread t).scratch = true) ∧ tabWf 0xFF s.flash.bytes = true ∧
    tabWf 0 s.host.flashBuf = true ∧ tabWf 0 s.host.msix = true ∧ s.bufs.table.Pairwise fun a b => a.1 < b.1

/-- A step that goes on: it answers a next state. -/
def State.goesOn (s : State) : Prop := ∃ s', step s = .next s'

/-- Thread `t` issues an instruction of `words` words: the sequencer issues (R480, R508, R532), the thread is RUNNING (R215, R217),
and the words lie within its program buffer (R219). -/
def State.canIssue (s : State) (t : Tid) (words : Nat) : Prop :=
  s.sequencing = true ∧ (s.thread t).st = .running ∧ (s.thread t).pc + 8 * words ≤ s.progLen t

/-- What the scoreboard registers for a synchronous operation of thread `t` (R227). -/
def State.newOp (s : State) (t : Tid) (u : Use) : SbOp :=
  { op := s.nextOp, thread := t, sync := true, units := u.units, handles := u.handles, reads := u.reads, writes := u.writes }

/-- An operation of thread `t` starts at once: the thread has none under way, the scoreboard takes it, no earlier operation holds
it back, and DRAM is awake when the operation touches it (R227, R230, R252). -/
def State.unitFree (s : State) (t : Tid) (u : Use) : Prop :=
  s.syncOp t = none ∧ s.full t = false ∧ (∀ e ∈ s.sboard, e.op < s.nextOp ∧ (s.newOp t u).waitsFor e = false)
    ∧ ((u.handles = [] ∧ u.dram = false) ∨ s.dram.sr = .out)

/-- The state once the scoreboard has registered the operation. -/
def State.registered (s : State) (t : Tid) (u : Use) : State :=
  { s with sboard := s.sboard ++ [s.newOp t u], nextOp := s.nextOp + 1 }

/-- From `s` to `u` thread `t` goes to `x` and every other thread stays as it was. -/
def ThreadTo (s u : State) (t : Tid) (x : Thread) : Prop := u.thread t = x ∧ ∀ v, v ≠ t → u.thread v = s.thread v

/-- The state with thread `t` replaced by `x` and nothing else changed. -/
def State.setThread (s : State) (t : Tid) (x : Thread) : State := { s with threads := s.threads.set t.val x t.isLt }

/-- A thread that waits at its unit after instruction `w`, with what the unit will write back (R249). -/
def Thread.atUnit (th : Thread) (w : IWord) (d : Option Done) : Thread :=
  { th with
    st := .waiting, wait := .unit, wRd := w.rd, wRc := w.rc, wAddr := th.pc, pc := th.pc + 8, done := d, snap := none }

end Sys2Proof.Machine
end

