-- ==== Sys2Proof/Certificates/Slice0/Obligations.lean ====
section
/-! DEFINITION. The statements for the provers. Each says which rule of the spec it formalises. -/

open Sys2Proof Sys2Proof.Machine

/-! ### The step -/

/-- A step takes the command at the front of the queue and runs it on the state with the rest of the queue.
Where the rules leave a corner open, what it says is the model's choice: log 2. -/
def Obligations.StepRunsFrontCommand : Prop :=
  ∀ (c : Instr) (r : List Instr) (s : State), s.pending = c :: r → step s = exec c { s with pending := r }

/-- Every command answers a next state, but for a private TAP instruction in debug mode, which R421 lets respond without an effect
that any rule gives: that one is refused by its name.
Where the rules leave a corner open, what it says is the model's choice: log 42. -/
def Obligations.EveryCommandCompletes : Prop :=
  ∀ (c : Instr) (s : State),
    (∀ k, c = .tapInstruction (.privateInstr k) → s.sec.debug = true → exec c s = .refused .privateTap) ∧
    ((s.sec.debug = false ∨ ∀ k, c ≠ .tapInstruction (.privateInstr k)) → ∃ u, exec c s = .next u)

/-- The state after reset has every sparse table in canonical form, and every DRAM byte and every scratch word reads as zero. -/
def Obligations.ResetIsCanonical : Prop :=
  State.reset.canonical ∧ (∀ a, Memory.read State.reset.mem a = 0) ∧ ∀ t i, (State.reset.thread t).word i = 0

/-- Every step keeps memory, every scratch, the flash, the flash buffer and the MSI-X table in canonical form, and the buffer table in order: keys strictly rising and no entry equal to what an unlisted one reads as.
Equal memories are therefore equal data, and a byte reads what was written to it last. -/
def Obligations.StepKeepsCanonicalForm : Prop :=
  ∀ s s' : State, s.canonical → step s = .next s' → s'.canonical

/-! ### Threads and their instructions -/

/-- R218: g0 reads 0 and a write to it is discarded; any other register reads what was written to it last, and keeps its value when
another is written.
R218: a scratch word reads what `ST` wrote, other words keep their value, and a byte of scratch is the byte of its word in little-endian
order with the address modulo 4,096.
R218, R257: `LD` and `ST` move the scratch word at (RA + IMM) mod 4,096 with bits [2:0] ignored, without touching a flag; an
uncorrectable word, of an operand block too, faults the thread with FLT_MEM_UE. -/
def Obligations.RegistersAndScratch : Prop :=
  (
  ∀ (th : Thread) (r q : BitVec 4) (v : Reg),
    th.reg 0 = 0 ∧ th.setReg 0 v = th ∧ (r ≠ 0 → (th.setReg r v).reg r = v) ∧ (q ≠ r → (th.setReg r v).reg q = th.reg q)) ∧
  (
  ∀ (th : Thread) (i j a : Nat) (v : Reg), tabWf 0 th.scratch = true →
    (th.setWord i v).word i = v ∧ (i % 512 ≠ j % 512 → (th.setWord i v).word j = th.word j) ∧
    ((th.scratchByte a).toNat = (th.word (a % 4096 / 8)).toNat / 2 ^ (8 * (a % 8)) % 256) ∧
    th.scratchByte (a + 4096) = th.scratchByte a) ∧
  (
  ∀ (s : State) (t : Tid) (w : IWord), s.canIssue t 1 →
    let th := s.thread t
    let i := (th.reg w.ra + w.imm.signExtend 64).toNat % 4096 / 8
    exec (.ld t w false) s = .next (s.setThread t { th.setReg w.rd (th.word i) with pc := th.pc + 8 }) ∧
    exec (.ld t w true) s = .next (s.faultAt t .memUe 0 th.pc) ∧
    exec (.st t w) s = .next (s.setThread t { th.setWord i (th.reg w.rb) with pc := th.pc + 8 }) ∧
    (w.ue = true → ∀ (tries : List PmbTry) (rb : Bool), ∀ c ∈ [Instr.aset t w, .blt t w, .crcset t w, .fgroup t w, .pmbx t w tries, .svcLaunch t w, .tgset t w, .sattach t w,
      .sattachDetach t w, .trimstage t w rb], exec c s = .next (s.faultAt t .memUe 0 th.pc)))

/-- R235: a fault stops its thread at the instruction, sets FAULT in every other thread's event word and raises the thread's vector; its
record counts in ERR_TOTAL; nothing else changes but Q40, Q41, the scoreboard and the host's cause bits.
R235, R523: the record of a thread fault in Q40: block 0x11, kind FAULT, the code of Table 09-4, and in the information field the
thread, the subcode and the address, when nothing suppresses it and Q40 has room.
R219, R244: a fetch beyond the program buffer, and one of the second word of a two-word form, faults at the address fetched with
FLT_STATE, subcode 0x03; a thread that is not RUNNING issues nothing.
R245, R274: a fetched word whose opcode Table 10-2 does not list faults with subcode 0x03, and an `SVC` function outside Table 10-27 with 0x20. -/
def Obligations.ThreadFaults : Prop :=
  (
  ∀ (s : State) (t : Tid) (f : Flt) (sub addr : Nat),
    let u := s.faultAt t f sub addr
    (u.thread t).st = .faulted ∧ (u.thread t).pc = addr ∧ (u.thread t).g = (s.thread t).g ∧
    (∀ v, v ≠ t → (u.thread v).st = (s.thread v).st ∧ (u.thread v).g = (s.thread v).g ∧ (u.thread v).pc = (s.thread v).pc ∧
      (u.thread v).evt.getLsbD 9 = true) ∧
    u.host.cause.getLsbD t.val = true ∧ u.err.total = s.err.total + 1 ∧
    (∀ q, q ≠ 40 → q ≠ 41 → u.queues[q]? = s.queues[q]?) ∧
    u = { s with
      threads := u.threads, sboard := s.sboard.filter fun o => !(o.thread == t && o.sync), queues := u.queues, host := u.host
      err := u.err }) ∧
  (
  ([Flt.state, .seal, .queue, .memUe, .admission, .timeout].map Flt.code = [0x0901, 0x0902, 0x0903, 0x0904, 0x0905, 0x0906]) ∧
  ∀ (s : State) (t : Tid) (f : Flt) (sub addr : Nat), sub < 256 → addr < 2 ^ 32 → s.fab.ft < 2 ^ 48 →
    s.err.keys = [] → 1024 ≤ s.queues[40].space → s.queues[40].wmark = false → s.err.total.toNat + 1 < 2 ^ 64 →
    (s.faultAt t f sub addr).queues[40].ready = s.queues[40].ready ++
      [leBytes 32 (2 ^ 126 + 0x11 * 2 ^ 120 + 4 * 2 ^ 117 + f.code * 2 ^ 96 + s.fab.ft * 2 ^ 48 + t.val * 2 ^ 40 + sub * 2 ^ 32 + addr
        + (s.err.total.toNat + 1) * 2 ^ 128)]) ∧
  (
  ∀ (s : State) (t : Tid) (w : IWord),
    ((s.thread t).st ≠ .running → exec (.add t w) s = .next s ∧ exec (.qmark t w) s = .next s) ∧
    (s.sequencing = true → (s.thread t).st = .running →
      (s.progLen t < (s.thread t).pc + 8 →
        exec (.add t w) s = .next (s.faultAt t .state 0x03 (s.thread t).pc) ∧
        exec (.halt t w) s = .next (s.faultAt t .state 0x03 (s.thread t).pc)) ∧
      (w.fn.getLsbD 2 = true → (s.thread t).pc + 8 ≤ s.progLen t → s.progLen t < (s.thread t).pc + 16 →
        exec (.movi t w) s = .next (s.faultAt t .state 0x03 ((s.thread t).pc + 8))) ∧
      (∀ b, s.buf? (s.thread t).prog.toNat = some b → (s.thread t).pc + 8 ≤ b.len →
        let v := leNat (Memory.readN s.mem (b.base + (s.thread t).pc) 8)
        let op := v / 2 ^ 56
        let fn := v / 2 ^ 32 % 256
        let listed := ∃ r ∈ [(0x01, 0x09), (0x10, 0x15), (0x18, 0x1B), (0x20, 0x23), (0x28, 0x2B), (0x30, 0x32), (0x38, 0x3B), (0x40, 0x40),
          (0x48, 0x4B), (0x50, 0x52), (0x58, 0x5D), (0x60, 0x63), (0x68, 0x69), (0x6C, 0x6C), (0x70, 0x72), (0x78, 0x79), (0x7C, 0x7D)],
          r.1 ≤ op ∧ op ≤ r.2
        (¬listed → s.fetch t = s.faultAt t .state 0x03 (s.thread t).pc) ∧
        (op = 0x78 → 8 ≤ fn → s.fetch t = s.faultAt t .state 0x20 (s.thread t).pc) ∧
        (listed → op ≠ 0x78 ∨ fn < 8 → s.fetch t = s))))

/-- R246, R253: results and flags of the arithmetic instructions. B is EXT with FN bit 2, else IMM sign-extended with FN bit 0, else RB;
the flags C and V are stated over the integers.
R246, R253: shifts are by B mod 64, arithmetic right with FN bit 1; C is the last bit shifted out, 0 for a shift of 0. `MOVI` loads IMM
sign-extended or EXT and leaves C and V. -/
def Obligations.ArithmeticAndShifts : Prop :=
  (
  ∀ (s : State) (t : Tid) (w : IWord), s.canIssue t w.words →
    let th := s.thread t
    let a := th.reg w.ra
    let b := if w.fn.getLsbD 2 then w.ext else if w.fn.getLsbD 0 then w.imm.signExtend 64 else th.reg w.rb
    let gives := fun (c : Instr) (r : Reg) (cy ov : Bool) =>
      exec c s = .next (s.setThread t
        { th.setReg w.rd r with pc := th.pc + 8 * w.words, fl := { z := r == 0, n := r.getLsbD 63, c := cy, v := ov } })
    gives (.add t w) (a + b) (decide (2 ^ 64 ≤ a.toNat + b.toNat)) (decide (a.toInt + b.toInt ≠ (a + b).toInt)) ∧
    gives (.sub t w) (a - b) (decide (b.toNat ≤ a.toNat)) (decide (a.toInt - b.toInt ≠ (a - b).toInt)) ∧
    gives (.and t w) (a &&& b) false false ∧ gives (.or t w) (a ||| b) false false ∧ gives (.xor t w) (a ^^^ b) false false ∧
    exec (.cmp t w) s = .next (s.setThread t
      { th with
        pc := th.pc + 8 * w.words
        fl := { z := a - b == 0, n := (a - b).getLsbD 63, c := decide (b.toNat ≤ a.toNat)
                v := decide (a.toInt - b.toInt ≠ (a - b).toInt) } })) ∧
  (
  ∀ (s : State) (t : Tid) (w : IWord), s.canIssue t w.words →
    let th := s.thread t
    let a := th.reg w.ra
    let b := if w.fn.getLsbD 2 then w.ext else if w.fn.getLsbD 0 then w.imm.signExtend 64 else th.reg w.rb
    let k := b.toNat % 64
    let l := BitVec.ofNat 64 (a.toNat * 2 ^ k)
    let r := if w.fn.getLsbD 1 then BitVec.ofInt 64 (a.toInt / 2 ^ k) else BitVec.ofNat 64 (a.toNat / 2 ^ k)
    let m := if w.fn.getLsbD 2 then w.ext else w.imm.signExtend 64
    exec (.shl t w) s = .next (s.setThread t
      { th.setReg w.rd l with
        pc := th.pc + 8 * w.words
        fl := { z := l == 0, n := l.getLsbD 63, c := decide (k ≠ 0 ∧ a.toNat / 2 ^ (64 - k) % 2 = 1), v := false } }) ∧
    exec (.shr t w) s = .next (s.setThread t
      { th.setReg w.rd r with
        pc := th.pc + 8 * w.words
        fl := { z := r == 0, n := r.getLsbD 63, c := decide (k ≠ 0 ∧ a.toNat / 2 ^ (k - 1) % 2 = 1), v := false } }) ∧
    exec (.movi t w) s = .next (s.setThread t
      { th.setReg w.rd m with pc := th.pc + 8 * w.words, fl := { th.fl with z := m == 0, n := m.getLsbD 63 } }))

/-- R244, R247, R254: branches. The target is the address plus 8 × IMM, IMM signed; `BRC` takes it when the condition FN[3:0] of Table
10-4 holds on the flags and faults on the codes 0xE and 0xF; `LOOP` decrements RD and branches while it is not 0, always on g0. No flag
changes.
R219, R254: `CALL` pushes its address + 8 and branches, up to 16 deep; a 17th nested call faults with subcode 0x02. `RET` pops and
branches; with an empty stack it acts as `HALT`, which waits for the thread's asynchronous operations.
R215, R254: `HALT` completes only when no asynchronous operation of the thread is outstanding. The thread enters IDLE; REC_DONE posts
the 16-byte completion record to Q41, INT_DONE raises the thread's vector; registers, scratch and every other thread keep their values. -/
def Obligations.ControlFlow : Prop :=
  (
  ∀ (s : State) (t : Tid) (w : IWord), s.canIssue t 1 →
    let th := s.thread t
    let target := ((th.pc + 8 * w.imm.toInt) % 2 ^ 64).toNat
    let cond := fun (n : Nat) (c : Bool) =>
      w.fn.toNat % 16 = n →
        exec (.brc t w) s = .next (s.setThread t { th with pc := if c then target else th.pc + 8 }) 
    let v := th.reg w.rd - 1
    exec (.br t w) s = .next (s.setThread t { th with pc := target }) ∧
    cond 0 th.fl.z ∧ cond 1 (!th.fl.z) ∧ cond 2 (th.fl.n ^^ th.fl.v) ∧ cond 3 (!(th.fl.n ^^ th.fl.v)) ∧ cond 4 (!th.fl.c) ∧
    cond 5 th.fl.c ∧ cond 6 th.fl.n ∧ cond 7 (!th.fl.n) ∧ cond 8 th.fl.v ∧ cond 9 (!th.fl.v) ∧
    cond 10 (!th.fl.z && !(th.fl.n ^^ th.fl.v)) ∧ cond 11 (th.fl.z || (th.fl.n ^^ th.fl.v)) ∧ cond 12 (th.fl.c && !th.fl.z) ∧
    cond 13 (!th.fl.c || th.fl.z) ∧
    (14 ≤ w.fn.toNat % 16 → exec (.brc t w) s = .next (s.faultAt t .state 0x03 th.pc)) ∧
    exec (.loop t w) s = .next (s.setThread t { th.setReg w.rd v with pc := if v = 0 then th.pc + 8 else target }) ∧
    (w.rd = 0 → exec (.loop t w) s = .next (s.setThread t { th with pc := target }))) ∧
  (
  ∀ (s : State) (t : Tid) (w : IWord), s.canIssue t 1 →
    let th := s.thread t
    (th.stack.length < 16 → exec (.call t w) s =
      .next (s.setThread t { th with pc := ((th.pc + 8 * w.imm.toInt) % 2 ^ 64).toNat, stack := (th.pc + 8) :: th.stack })) ∧
    (16 ≤ th.stack.length → exec (.call t w) s = .next (s.faultAt t .state 0x02 th.pc)) ∧
    (∀ a r, th.stack = a :: r → exec (.ret t w) s = .next (s.setThread t { th with pc := a, stack := r })) ∧
    (th.stack = [] → exec (.ret t w) s = exec (.halt t w) s) ∧
    exec (.halt t w) s = .next (s.setThread t { th with st := .waiting, wait := .halt, wAddr := th.pc })) ∧
  (
  ∀ (s : State) (t : Tid), s.sequencing = true →
    let th := s.thread t
    (th.st = .waiting → th.wait = .halt → th.async = [] →
      ∃ u, exec (.haltCompletion t) s = .next u ∧
        (u.thread t).st = .idle ∧ (u.thread t).g = th.g ∧ (u.thread t).scratch = th.scratch ∧
        (th.intDone = true → u.host.cause.getLsbD t.val = true) ∧
        (th.recDone = false → th.intDone = false → u = { s with threads := u.threads }) ∧
        (th.recDone = true → s.queues[41].wmark = false → 32 ≤ s.queues[41].space → s.queues[41].level + 16 < s.queues[41].high →
          u.queues[41].ready = s.queues[41].ready ++
            [leBytes 16 (t.val + 0x01 * 2 ^ 8 + th.entry.toNat * 2 ^ 16 + (th.reg 1).toNat * 2 ^ 64)]) ∧
        (∀ q, q ≠ 41 → u.queues[q]? = s.queues[q]?) ∧
        u = { s with threads := u.threads, queues := u.queues, host := u.host }) ∧
    (th.async ≠ [] → exec (.haltCompletion t) s = .next s))

/-- R214, R216: an IDLE thread takes the oldest descriptor of its queue. A good one starts it at ENTRY with g1 to g3 from ARG0 to ARG2, the
other registers and the flags clear, scratch kept; a bad one is discarded with record 0x0901 and the thread stays IDLE.
R215, R274, R512: a restart returns a FAULTED thread to IDLE and touches no other; `SVC` RESTART of a thread that is not FAULTED
returns NOT_FAULTED, and the restart doorbell skips it.
Where the rules leave a corner open, what it says is the model's choice: log 33. -/
def Obligations.LaunchAndRestart : Prop :=
  (
  ∀ (s : State) (t : Tid) (d : List Byte) (rest : List (List Byte)),
    s.sequencing = true → (s.thread t).st = .idle → s.queues[t.val].ready = d :: rest → s.queues[t.val].upset = none → d.length = 32 →
    ∃ u, exec (.threadLaunch t) s = .next u ∧ u.queues[t.val].ready = rest ∧ (u.thread t).scratch = (s.thread t).scratch ∧
      (let v := leNat d
       let h := v / 2 ^ 16 % 2 ^ 12
       (v / 2 ^ 28 % 16 = 0 → v / 4 % 2 ^ 14 = 0 → v / 2 ^ 32 % 8 = 0 → s.launchable t h = true →
         (u.thread t).st = .running ∧ (u.thread t).pc = v / 2 ^ 32 % 2 ^ 32 ∧ (u.thread t).prog.toNat = h ∧ (u.thread t).fl = {} ∧
         (u.thread t).stack = [] ∧ (u.thread t).recDone = v.testBit 0 ∧ (u.thread t).intDone = v.testBit 1 ∧
         (u.thread t).g.toList = [0, BitVec.ofNat 64 (v / 2 ^ 64), BitVec.ofNat 64 (v / 2 ^ 128), BitVec.ofNat 64 (v / 2 ^ 192)]
           ++ List.replicate 12 0 ∧
         u.err = s.err) ∧
       ((v / 2 ^ 28 % 16 ≠ 0 ∨ v / 4 % 2 ^ 14 ≠ 0 ∨ s.launchable t h = false) →
         (u.thread t).st = .idle ∧ u.err.total = s.err.total + 1))) ∧
  (
  (∀ (s : State) (t n : Tid) (w : IWord), s.canIssue t 1 → s.unitFree t {} → (s.thread t).reg w.ra = BitVec.ofNat 64 n.val →
    ((s.thread n).st = .faulted → ∃ u, exec (.svcRestart t w) s = .next u ∧ (u.thread n).st = .idle ∧
      (u.thread n).scratch = (s.thread n).scratch ∧ u.thread t = (s.thread t).atUnit w (some (.code 0)) ∧
      (∀ v, v ≠ t → v ≠ n → u.thread v = s.thread v) ∧ u = { s.registered t {} with threads := u.threads }) ∧
    ((s.thread n).st ≠ .faulted → ∃ u, exec (.svcRestart t w) s = .next u ∧
      ThreadTo s u t ((s.thread t).atUnit w (some (.code 0x30))) ∧ u = { s.registered t {} with threads := u.threads })) ∧
  (∀ (s : State) (v : BitVec 32), s.bar0Open = true → ∃ u, exec (.dbRestart v) s = .next u ∧ u = { s with threads := u.threads } ∧
    ∀ t : Tid, (u.thread t).st = (if v.getLsbD t.val ∧ (s.thread t).st = .faulted then .idle else (s.thread t).st) ∧
      (u.thread t).g = (s.thread t).g ∧ (u.thread t).scratch = (s.thread t).scratch))

/-- R232, R273, R512: `SIGNAL` and the signal doorbell set bits 31:16 in the event words of the threads named and no other; `INT` raises
the thread's vector.
R231, R255, R256: a wait whose condition does not hold enters WAITING with its address, timeout and form; a time, event or queue wait
whose condition already holds continues at once with Z = 1 and RD as Table 10-10 states; `WAITLINE` without NOW always waits.
R231, R232, Table 10-10: the end of a wait. Satisfied, the thread goes on with Z = 1, RD as the table states and the bits of an event
mask cleared; on expiry it goes on with Z = 0 in the NOFAULT form and faults with FLT_TIMEOUT at the wait's address otherwise; a wait
whose condition does not hold goes on waiting, and one whose timeout is still to come, or that has none, does not expire. -/
def Obligations.EventsAndWaits : Prop :=
  (
  (∀ (s : State) (t : Tid) (w : IWord), s.canIssue t 1 →
    (∃ u, exec (.signal t w) s = .next u ∧ u = { s with threads := u.threads } ∧ (u.thread t).pc = (s.thread t).pc + 8 ∧
      ∀ v : Tid, (u.thread v).evt = (if w.imm.getLsbD v.val then (s.thread v).evt ||| (w.imm &&& 0xFFFF0000) else (s.thread v).evt) ∧
        (u.thread v).st = (s.thread v).st ∧ (u.thread v).g = (s.thread v).g) ∧
    (∃ u, exec (.int t w) s = .next u ∧ ThreadTo s u t { s.thread t with pc := (s.thread t).pc + 8 } ∧
      u.host.cause = s.host.cause ||| BitVec.ofNat 64 (2 ^ t.val) ∧ u = { s with threads := u.threads, host := u.host })) ∧
  (∀ (s : State) (v : BitVec 32), s.bar0Open = true → ∃ u, exec (.dbSignal v) s = .next u ∧ u = { s with threads := u.threads } ∧
    ∀ t : Tid, u.thread t = { s.thread t with
      evt := if v.getLsbD t.val then (s.thread t).evt ||| (v &&& 0xFFFF0000) else (s.thread t).evt })) ∧
  (
  ∀ (s : State) (t : Tid) (w : IWord), s.canIssue t 1 →
    let th := s.thread t
    let q : Fin 64 := Fin.ofNat 64 w.imm.toNat
    let level := if w.fn.getLsbD 1 then s.queues[q].ready.length else (s.queues[q].ready.map List.length).sum
    let met := if w.fn.getLsbD 0 then decide (level ≤ (th.reg w.ra).toNat) else decide ((th.reg w.ra).toNat ≤ level)
    let sits := fun (c : Instr) (wt : Wait) =>
      exec c s = .next (s.setThread t
        { th with
          st := .waiting, wait := wt, wRd := w.rd, wEnd := if th.reg w.rc = 0 then none else some (s.now + 1000 * (th.reg w.rc).toNat), wNoFault := w.fn.getLsbD 7, wHit := false
          wAddr := th.pc, pc := th.pc + 8 })
    let passes := fun (c : Instr) (v : Reg) (evt : BitVec 32) =>
      ∃ u, exec c s = .next u ∧ u = { s with threads := u.threads } ∧ (∀ x, x ≠ t → u.thread x = s.thread x) ∧
        (u.thread t).st = .running ∧ (u.thread t).pc = th.pc + 8 ∧ (u.thread t).g = (th.setReg w.rd v).g ∧
        (u.thread t).fl = { th.fl with z := true } ∧ (u.thread t).evt = evt ∧ (u.thread t).scratch = th.scratch
    (s.fab.ft < (th.reg w.ra).toNat → sits (.waittime t w) (.time (th.reg w.ra))) ∧
    ((th.reg w.ra).toNat ≤ s.fab.ft → passes (.waittime t w) (BitVec.ofNat 64 s.fab.ft) th.evt) ∧
    (th.evt &&& w.imm = 0 → sits (.waitevt t w) (.evt w.imm)) ∧
    (th.evt &&& w.imm ≠ 0 → passes (.waitevt t w) ((th.evt &&& w.imm).setWidth 64) (th.evt &&& ~~~w.imm)) ∧
    (met = false → sits (.waitq t w) (.queue q (w.fn.getLsbD 0) (w.fn.getLsbD 1) (th.reg w.ra))) ∧
    (met = true → passes (.waitq t w) (BitVec.ofNat 64 level) th.evt) ∧
    (∀ g : Fin 3, w.fn.toNat % 4 = g.val →
      (w.imm.toNat % 65536 < s.tgLines g.val ∨ s.tgLines g.val = 0 →
        (w.fn.getLsbD 2 = false → sits (.waitline t w) (.line g (w.imm.toNat % 65536))) ∧
        (w.fn.getLsbD 2 = true → s.tgRuns g.val = true → w.imm.toNat % 65536 ≤ s.tgLine g.val →
          passes (.waitline t w) (BitVec.ofNat 64 (s.tgLine g.val)) th.evt)) ∧
      (s.tgLines g.val ≠ 0 → s.tgLines g.val ≤ w.imm.toNat % 65536 → exec (.waitline t w) s = .next (s.faultAt t .state 0x20 th.pc))) ∧
    (w.fn.toNat % 4 = 3 → exec (.waitline t w) s = .next (s.faultAt t .state 0x20 th.pc))) ∧
  (
  ∀ (s : State) (t : Tid) (wt : Wait), s.sequencing = true → (s.thread t).st = .waiting → (s.thread t).wait = wt → wt.isWait = true →
    let th := s.thread t
    let level := fun (q : Fin 64) (items : Bool) => if items then s.queues[q].ready.length else (s.queues[q].ready.map List.length).sum
    let met := match wt with
      | .line _ _ => th.wHit
      | .time ns => decide (ns.toNat ≤ s.fab.ft)
      | .evt m => th.evt &&& m != 0
      | .queue q le items n => if le then decide (level q items ≤ n.toNat) else decide (n.toNat ≤ level q items)
      | _ => false
    let val : Reg := match wt with
      | .line g _ => BitVec.ofNat 64 (s.tgLine g.val)
      | .time _ => BitVec.ofNat 64 s.fab.ft
      | .evt m => (th.evt &&& m).setWidth 64
      | .queue q _ items _ => BitVec.ofNat 64 (level q items)
      | _ => 0
    let goes := fun (c : Instr) (z : Bool) => exec c s = .next (s.setThread t
      { th.setReg th.wRd val with
        st := .running, wait := .none, fl := { th.fl with z := z }
        evt := match wt with | .evt m => th.evt &&& ~~~m | _ => th.evt })
    (met = true → goes (.waitSatisfied t) true) ∧ (met = false → exec (.waitSatisfied t) s = .next s) ∧
    (∀ e, th.wEnd = some e → e ≤ s.now → met = false →
      (th.wNoFault = true → goes (.waitTimeout t) false) ∧
      (th.wNoFault = false → exec (.waitTimeout t) s = .next (s.faultAt t .timeout 0 th.wAddr))) ∧
    (met = true ∨ th.wEnd = none ∨ (∃ e, th.wEnd = some e ∧ s.now < e) → exec (.waitTimeout t) s = .next s))

/-- R218, R233, R249: a unit instruction completes: RD takes the result, RC the second result, Z = 1 exactly for result 0, and its scoreboard
entry goes; blits of one thread complete in issue order (R226). An asynchronous operation writes its result word and sets ASYNC in its own thread's event word alone.
R227, R230, R252, R277: an instruction that was held runs again at its own address once the scoreboard releases it; a waiting asynchronous
operation that nothing before it holds back runs; a BLT that waited for a place among 64 goes on once it has one; otherwise nothing happens. -/
def Obligations.CompletionAndRelease : Prop :=
  (
  (∀ (s : State) (t : Tid) (d : Done), s.sequencing = true → (s.thread t).st = .waiting → (s.thread t).wait = .unit →
    (s.thread t).done = some d → (∀ u ∈ allUnits, (s.unit u).test = none) →
    let th := s.thread t
    (d.blt = true → (∃ a ∈ th.async, a.blt = true) → exec (.unitInstructionCompletion t) s = .next s) ∧
    ((d.blt = true → ∀ a ∈ th.async, a.blt = false) →
      (d.flt = none → exec (.unitInstructionCompletion t) s = .next { s.setThread t
        { (let th := match d.scratch with | some (a, b) => th.scratchWrite a b | none => th
           let th := match d.rc with | some v => th.setReg th.wRc v | none => th
           if d.wrRd then th.setReg th.wRd d.val else th) with
          st := .running, wait := .none, done := none, fl := if d.isResult then { th.fl with z := d.val == 0 } else th.fl } with
        sboard := s.sboard.filter fun o => !(o.thread == t && o.sync) }) ∧
      (∀ f sub, d.flt = some (f, sub) → exec (.unitInstructionCompletion t) s = .next (s.faultAt t f sub.toNat th.wAddr)))) ∧
  (∀ (s : State) (t : Tid) (a : Async) (d : Done), s.sequencing = true → (s.thread t).async.find? (·.op == a.op) = some a →
    a.res = some d → (∀ u ∈ allUnits, (s.unit u).test = none) →
    (a.blt = true → ∀ b ∈ (s.thread t).async.takeWhile (·.op != a.op), b.blt = false) →
    let u : State := { s.setThread t
      { (if d.wrRd then (s.thread t).setWord a.word d.val else s.thread t) with
        async := (s.thread t).async.filter fun x => x.op != a.op, evt := (s.thread t).evt ||| 0x800 } with
      sboard := s.sboard.filter fun o => o.op != a.op }
    (d.flt = none → exec (.asyncOperationCompletion t a.op) s = .next u) ∧
    (∀ f sub, d.flt = some (f, sub) → (s.thread t).st ≠ .faulted →
      exec (.asyncOperationCompletion t a.op) s = .next (u.faultAt t f sub.toNat a.addr)))) ∧
  (
  ∀ (s : State) (t : Tid), s.sequencing = true →
    let th := s.thread t
    (∀ (w : IWord) (x y : CrackRun) (d : List DriverAnswer) (l : List PmbTry) (run : BistRun) (ok : Bool) (up : Option (Fin 64 × PtrField)) (i : Instr),
      th.st = .waiting → th.wait = .held i →
      i ∈ [.aset t w, .balloc t w, .bfree t w, .binfo t w, .bist t w run, .blt t w, .bseal t w, .crcget t w, .crcput t w, .crcrun t w,
        .crcset t w, .fgroup t w, .fsend t w, .ldh t w, .pclear t w, .planchk t w, .plancommit t w, .planslotFree t w, .planslotLoad t w,
        .planslotState t w, .planslotStatus t w, .plightOff t w, .plightOn t w, .pmbx t w l, .ppowerDown t w, .ppowerUp t w x y d,
        .pselfEnter t w, .pselfExit t w, .pupdate t w, .qflush t w, .sattach t w, .sattachDetach t w, .spause t w, .splay t w, .sseek t w,
        .sth t w, .svcLaunch t w, .svcQpost t w up, .svcQtake t w up, .svcRemove t w, .svcRestart t w, .svcReturn t w, .svcState t w,
        .tgaddr t w, .tgset t w, .tread t w, .trimapply t w, .trimstage t w ok] →
      exec (.scoreboardRelease t) s = exec i (s.setThread t { th with st := .running, wait := .none, pc := th.wAddr })) ∧
    (∀ op, th.st = .waiting → th.wait = .entry op →
      (s.bltWaits op = true → exec (.scoreboardRelease t) s = .next s) ∧
      (s.bltWaits op = false → exec (.scoreboardRelease t) s = .next (s.setThread t { th with st := .running, wait := .none }))) ∧
    (th.st = .running → (∀ a ∈ th.async, a.todo = none) → exec (.scoreboardRelease t) s = .next s) ∧
    (∀ a (c : Fin 7) (h off n : Nat) (b : Buf), th.st = .running → th.async = [a] → a.todo = some (.crcRun c h off n) → s.dram.sr = .out →
      s.sboard.find? (·.op == a.op) = none ∨ (∀ o ∈ s.sboard, o.op = a.op) → tabFind s.bufs.table h = some b → b.isSealed = false →
      s.dram.suspects (b.base + off) n = [] → ∃ u, exec (.scoreboardRelease t) s = .next u ∧
        (u.thread t).async = [{ a with todo := none, res := some (.code 0) }] ∧ u.mem = s.mem ∧ (u.thread t).g = th.g ∧
        ∀ k, k ≠ c → u.cus[k] = s.cus[k]))

/-! ### Buffers and queues -/

/-- R250: the handle checks in their order, for an instruction that needs a buffer's contents (`STH`): handle 0, a device handle, a handle
that is not live, a buffer of another thread, a dying buffer, a sealed buffer; then alignment, the end, the lock (R251, R257).
Where the rules leave a corner open, what it says is the model's choice: log 33. -/
def Obligations.HandleChecksOfSth : Prop :=
  ∀ (s : State) (t : Tid) (w : IWord), s.canIssue t 1 → s.syncOp t = none →
    let th := s.thread t
    let h := (th.reg w.ra).toNat % 4096
    let off := (th.reg w.rb + w.imm.signExtend 64).toNat
    let n := 2 ^ (w.fn.toNat % 4)
    let faults := fun (f : Flt) (sub : Nat) => exec (.sth t w) s = .next (s.faultAt t f sub th.pc)
    (h = 0 → faults .state 0x20) ∧ (4032 ≤ h → faults .seal 0) ∧
    (0 < h → h < 4032 → tabFind s.bufs.table h = none → faults .state 0x05) ∧
    (∀ b, 0 < h → h < 4032 → tabFind s.bufs.table h = some b →
      let mine := b.owner = some t ∨ (b.isSealed = false ∧ b.shared = true ∧ b.owner ≠ none)
      (¬mine → faults .state 0x04) ∧
      (mine → b.dying = true → faults .state 0x05) ∧
      (mine → b.dying = false → b.isSealed = true → faults .seal 0) ∧
      (mine → b.dying = false → b.isSealed = false → off % n ≠ 0 → faults .state 0x21) ∧
      (mine → b.dying = false → b.isSealed = false → off % n = 0 → b.len < off + n → faults .state 0x22) ∧
      (mine → b.dying = false → b.isSealed = false → off % n = 0 → off + n ≤ b.len → s.locked h = true → faults .state 0x07))

/-- R257: `LDH` reads FN's number of bytes, little-endian and zero-extended, at offset RB + IMM of buffer RA, and stores nothing; an
uncorrectable burst makes it fault with FLT_MEM_UE at completion (R11, R235).
R257: `STH` stores the low FN bytes of RC, little-endian, at offset RB + IMM of buffer RA, and leaves every other byte of DRAM as it
was; the buffer loses MAP_CHECKED (R170).
R316, R551: a write that covers a burst makes an uncorrectable burst good again; a partial write into one is not performed, and counts, and the
burst stays uncorrectable: one found so before, and one whose symbol errors its own read finds uncorrectable. -/
def Obligations.BufferLoadsAndStores : Prop :=
  (
  ∀ (s : State) (t : Tid) (w : IWord) (b : Buf), s.canIssue t 1 →
    let th := s.thread t
    let h := (th.reg w.ra).toNat % 4096
    let off := (th.reg w.rb + w.imm.signExtend 64).toNat
    let n := 2 ^ (w.fn.toNat % 4)
    let use : Use := { handles := [h], reads := [.ofBytes h off n] }
    s.checkOpen t h = .ok b → off % n = 0 → off + n ≤ b.len → s.unitFree t use →
    ∃ u, exec (.ldh t w) s = .next u ∧ u.mem = s.mem ∧
      (s.dram.suspects (b.base + off) n = [] →
        ThreadTo s u t (th.atUnit w (some { val := BitVec.ofNat 64 (leNat (Memory.readN s.mem (b.base + off) n)), isResult := false })) ∧
        u = { s with threads := u.threads, sboard := s.sboard ++ [s.newOp t use], nextOp := u.nextOp, dram := u.dram }) ∧
      ((b.base + off) / 64 = (b.base + off + n - 1) / 64 → s.dram.readsBad (b.base + off) ≠ none →
        (u.thread t).done = some { wrRd := false, isResult := false, flt := some (.memUe, 0) } ∧ (u.thread t).st = .waiting ∧
        (u.thread t).g = th.g ∧ u.err.total = s.err.total + 1 ∧ u.dram.burstBad (b.base + off) = s.dram.readsBad (b.base + off))) ∧
  (
  ∀ (s : State) (t : Tid) (w : IWord) (b : Buf), s.canIssue t 1 →
    let th := s.thread t
    let h := (th.reg w.ra).toNat % 4096
    let off := (th.reg w.rb + w.imm.signExtend 64).toNat
    let n := 2 ^ (w.fn.toNat % 4)
    let use : Use := { handles := [h], writes := [.ofBytes h off n] }
    s.checkOpen t h = .ok b → off % n = 0 → off + n ≤ b.len → s.locked h = false → s.unitFree t use →
    s.dram.suspects (b.base + off) n = [] → s.canonical →
    ∃ u, exec (.sth t w) s = .next u ∧
      (∀ i < n, (Memory.read u.mem (b.base + off + i)).toNat = (th.reg w.rc).toNat / 256 ^ i % 256) ∧
      (∀ a, a < b.base + off ∨ b.base + off + n ≤ a → Memory.read u.mem a = Memory.read s.mem a) ∧
      ThreadTo s u t (th.atUnit w (some { wrRd := false, isResult := false })) ∧
      tabFind u.bufs.table h = some { b with mapChecked := false } ∧
      u = { s with
        threads := u.threads, sboard := s.sboard ++ [s.newOp t use], nextOp := u.nextOp, dram := u.dram, mem := u.mem, bufs := u.bufs }) ∧
  (
  ∀ (s : State) (pa : Nat) (data : List Byte) (r : BurstBad), pa % 64 = 0 → s.dram.readsBad pa = some r → s.dram.epochUe = [] → s.canonical →
    (data.length = 64 → (s.writeDram pa data).dram.burstBad pa = none ∧ Memory.readN (s.writeDram pa data).mem pa 64 = data) ∧
    (0 < data.length → data.length < 64 → (s.writeDram pa data).mem = s.mem ∧ (s.writeDram pa data).dram.burstBad pa = some r ∧
      (s.writeDram pa data).err.total = s.err.total + 1))

/-- R221, R258: `BALLOC`. Length 0 gives LENGTH, no handle NO_HANDLE, no free run NO_SPACE, each with handle 0 and nothing allocated;
otherwise RC takes the handle of a new buffer of the thread with the flags asked for, in one run that touches no other buffer.
R221, R321: where a new buffer lies: in the DRAM that the device has, an unsealed one below 64 GiB, a sealed one either wholly above or
wholly below it, and overlapping no other buffer, no memory that waits for zeroing and no retired granule.
Where the rules leave a corner open, what it says is the model's choice: log 11. -/
def Obligations.BufferAllocation : Prop :=
  (
  ∀ (s : State) (t : Tid) (w : IWord), s.canIssue t 1 → s.unitFree t {} →
    let th := s.thread t
    let len := (th.reg w.ra).toNat
    ∃ u, exec (.balloc t w) s = .next u ∧ u.mem = s.mem ∧
      (len = 0 → ThreadTo s u t (th.atUnit w (some (.codeRc 0x15 0))) ∧ u.bufs = s.bufs) ∧
      (len ≠ 0 → s.bufs.freeHandle = none → ThreadTo s u t (th.atUnit w (some (.codeRc 0x13 0))) ∧ u.bufs = s.bufs) ∧
      (∀ h, len ≠ 0 → s.bufs.freeHandle = some h →
        (s.place (w.fn.getLsbD 0) len = none → ThreadTo s u t (th.atUnit w (some (.codeRc 0x14 0))) ∧ u.bufs = s.bufs) ∧
        (∀ p, s.place (w.fn.getLsbD 0) len = some p →
          ThreadTo s u t (th.atUnit w (some (.codeRc 0 h))) ∧
          tabFind u.bufs.table h =
            some { base := p, len := len, owner := some t, isSealed := w.fn.getLsbD 0, shared := w.fn.getLsbD 1 } ∧
          (∀ k, k ≠ h → tabFind u.bufs.table k = tabFind s.bufs.table k))) ∧
      u = { s.registered t {} with threads := u.threads, bufs := u.bufs }) ∧
  (
  ∀ (s : State) (z : Bool) (len p : Nat), 0 < len → s.place z len = some p →
    p + len ≤ s.dram.capacity ∧ (z = false → p + len ≤ 2 ^ 36) ∧ (z = true → 2 ^ 36 ≤ p ∨ p + len ≤ 2 ^ 36) ∧
    (∀ k b, (k, b) ∈ s.bufs.table → p + len ≤ b.base ∨ b.base + b.len ≤ p ∨ b.len = 0) ∧
    (∀ j ∈ s.bufs.zeroing, p + len ≤ j.lo ∨ j.hi ≤ p) ∧
    (∀ g, g ∈ s.dram.retired ∨ g ∈ s.dram.epochUe → p + len ≤ g * 2 ^ 20 ∨ (g + 1) * 2 ^ 20 ≤ p))

/-- R225, R250, R258: `BFREE` by the owner: NOT_LIVE, ALREADY_DYING, DYING with references, or the buffer freed at once; another thread's
buffer faults with subcode 0x04, a dying one too.
R225, R318, R319: freed memory. A dying buffer is released once it has no reference: its memory goes to the zeroing engine, whole units of
64 KiB of an unsealed one, the granules of a sealed one. A granule whose bursts are all rewritten reads zero under the next epoch and no
other byte changes; it stays retired at epoch 0xFFFF, and lost with its epoch entry.
R222, R223, R258, R259: `BINFO` ENTRY writes the 32-byte buffer entry to scratch when RB holds 0, for any live handle, and changes nothing
else; `BSEAL` by the owner seals a buffer in place when no other buffer shares its granules, keeping its contents; another thread's buffer
faults with 0x04 and a sealed one with 0x16.
Where the rules leave a corner open, what it says is the model's choice: log 35. -/
def Obligations.BufferFreeAndSeal : Prop :=
  (
  ∀ (s : State) (t : Tid) (w : IWord), s.canIssue t 1 → s.unitFree t {} →
    let th := s.thread t
    let h := (th.reg w.ra).toNat % 4096
    (h = 0 → exec (.bfree t w) s = .next (s.faultAt t .state 0x20 th.pc)) ∧
    (4032 ≤ h → exec (.bfree t w) s = .next (s.faultAt t .seal 0 th.pc)) ∧
    (0 < h → h < 4032 → tabFind s.bufs.table h = none → ∃ u, exec (.bfree t w) s = .next u ∧
      ThreadTo s u t (th.atUnit w (some (.code 0x11))) ∧ u = { s.registered t {} with threads := u.threads }) ∧
    (∀ b, 0 < h → h < 4032 → tabFind s.bufs.table h = some b →
      (b.owner ≠ some t → exec (.bfree t w) s = .next (s.faultAt t .state 0x04 th.pc)) ∧
      (b.owner = some t → ∃ u, exec (.bfree t w) s = .next u ∧
        (b.dying = true → ThreadTo s u t (th.atUnit w (some (.code 0x12))) ∧ u.bufs = s.bufs) ∧
        (b.dying = false → s.refs h ≠ 0 → ThreadTo s u t (th.atUnit w (some (.code 0x10))) ∧
          tabFind u.bufs.table h = some { b with dying := true } ∧ u.mem = s.mem) ∧
        (b.dying = false → s.refs h = 0 → ThreadTo s u t (th.atUnit w (some (.code 0))) ∧
          (∀ e ∈ u.bufs.table, e.1 ≠ h) ∧ u.bufs.freed = s.bufs.freed ++ [h]) ∧
        u = { s.registered t {} with threads := u.threads, bufs := u.bufs }))) ∧
  (
  (∀ (s : State) (h : Handle) (b : Buf), tabFind s.bufs.table h.toNat = some b →
    (b.dying = true → s.refs h.toNat = 0 → ∃ u, exec (.bufferRelease h) s = .next u ∧
      u.bufs.freed = s.bufs.freed ++ [h.toNat] ∧ (∀ e ∈ u.bufs.table, e.1 ≠ h.toNat) ∧
      (b.isSealed = false →
        u.bufs.zeroing = s.bufs.zeroing ++ [⟨b.base / 65536 * 65536, (b.base + b.len + 65535) / 65536 * 65536, false⟩]) ∧
      (b.isSealed = true → ∀ g, b.base / 2 ^ 20 ≤ g → g * 2 ^ 20 < b.base + b.len → (⟨g * 2 ^ 20, (g + 1) * 2 ^ 20, true⟩ : ZeroJob) ∈ u.bufs.zeroing) ∧
      u = { s with bufs := u.bufs }) ∧
    (b.dying = false ∨ s.refs h.toNat ≠ 0 → exec (.bufferRelease h) s = .next s)) ∧
  (∀ (s : State) (g : BitVec 18),
    let j : ZeroJob := ⟨g.toNat * 2 ^ 20, (g.toNat + 1) * 2 ^ 20, true⟩
    (j ∉ s.bufs.zeroing → ∀ ue, exec (.granuleZeroingDone g ue) s = .next s) ∧
    (tabGet 0 s.dram.epochs g.toNat ≠ 65535 → s.zeroTarget ≠ some j ∨ s.zeroedAll j = false → exec (.granuleZeroingDone g false) s = .next s) ∧
    (tabGet 0 s.dram.epochs g.toNat < 65535 → s.zeroTarget = some j → s.zeroedAll j = true → ∃ u, exec (.granuleZeroingDone g false) s = .next u ∧
      (∀ a, g.toNat * 2 ^ 20 ≤ a → a < (g.toNat + 1) * 2 ^ 20 → Memory.read u.mem a = 0) ∧
      (∀ a, a < g.toNat * 2 ^ 20 ∨ (g.toNat + 1) * 2 ^ 20 ≤ a → Memory.read u.mem a = Memory.read s.mem a) ∧
      u.bufs.zeroing = s.bufs.zeroing.erase j ∧ (∀ a, g.toNat * 2 ^ 20 ≤ a → a < (g.toNat + 1) * 2 ^ 20 → g.toNat ∉ s.dram.epochUe → u.dram.readsBad a = none) ∧
      u.dram.epochs = tabSet 0 s.dram.epochs g.toNat (tabGet 0 s.dram.epochs g.toNat + 1) ∧
      u = { s with bufs := u.bufs, mem := u.mem, dram := u.dram }) ∧
    (j ∈ s.bufs.zeroing → tabGet 0 s.dram.epochs g.toNat = 65535 → ∃ u, exec (.granuleZeroingDone g false) s = .next u ∧ g.toNat ∈ u.dram.retired ∧
      u.mem = s.mem ∧ u.err.total = s.err.total + 1) ∧
    (j ∈ s.bufs.zeroing → g.toNat ∉ s.dram.epochUe → g.toNat * 2 ^ 20 < s.dram.capacity → ∃ u, exec (.granuleZeroingDone g true) s = .next u ∧ g.toNat ∈ u.dram.epochUe ∧ u.mem = s.mem ∧ u.err.total = s.err.total + 1))) ∧
  (
  ∀ (s : State) (t : Tid) (w : IWord) (b : Buf), s.canIssue t 1 → s.canonical →
    let th := s.thread t
    let h := (th.reg w.ra).toNat % 4096
    let use : Use := { handles := [h], writes := [.ofBytes h 0 b.len] }
    0 < h → h < 4032 → tabFind s.bufs.table h = some b →
    (w.fn.toNat % 4 = 0 → (th.reg w.rb).toNat % 4096 = 0 → s.unitFree t {} → ∃ u, exec (.binfo t w) s = .next u ∧
      (u.thread t).scratchRead (w.imm.toNat % 4096) 32 =
        leBytes 8 (if b.isSealed then 0 else b.base) ++ leBytes 8 b.len ++ leBytes 1 ((b.owner.map (·.val)).getD 0)
          ++ leBytes 1 (b.isSealed.toNat + 2 * b.shared.toNat + 4 * b.dying.toNat + 8 * (s.locked h).toNat + 16 * b.mapChecked.toNat)
          ++ leBytes 2 (s.refs h) ++ leBytes 2 h ++ leBytes 10 0 ∧
      (u.thread t).done = some (.code 0) ∧ (u.thread t).g = th.g ∧ (∀ v, v ≠ t → u.thread v = s.thread v) ∧
      u = { s.registered t {} with threads := u.threads }) ∧
    (b.owner ≠ some t → exec (.bseal t w) s = .next (s.faultAt t .state 0x04 th.pc)) ∧
    (b.owner = some t → b.dying = false → b.isSealed = true → exec (.bseal t w) s = .next (s.faultAt t .state 0x16 th.pc)) ∧
    (b.owner = some t → b.dying = false → b.isSealed = false → s.sharesGranule h b = false → s.unitFree t use →
      ∃ u, exec (.bseal t w) s = .next u ∧ ThreadTo s u t (th.atUnit w (some (.code 0))) ∧
        tabFind u.bufs.table h = some { b with isSealed := true } ∧ (∀ k, k ≠ h → tabFind u.bufs.table k = tabFind s.bufs.table k) ∧
        u = { s.registered t use with threads := u.threads, bufs := u.bufs }))

/-- R297, R305: marks on a queue whose side belongs to threads. `QMARK` sets a mark, `QREWIND` discards the writer's words after it or
gives the reader its items again in order, `QRELEASE` publishes or frees them; the wrong side, an UNCONFIGURED queue, a second mark and a
missing mark fault with FLT_QUEUE and the subcodes of Table 12-6. An update that shows the two copies of a pointer to differ resets the queue (R302).
R297, R300: the level of a queue is the bytes of its published items, its free space the capacity less every stored word; a change of
the level up to HIGH or down to LOW sets the sticky bit, counts, sets QWM in the subscribers alone and posts an item of type 0x12 to Q41. -/
def Obligations.QueueMarksAndLevels : Prop :=
  (
  ∀ (s : State) (t : Tid) (w : IWord), s.canIssue t 1 →
    let th := s.thread t
    let q : Fin 64 := Fin.ofNat 64 w.imm.toNat
    let x := s.queues[q]
    let wr := w.fn.getLsbD 0
    let use : Use := { units := [.queue q.val] }
    let sides := if q.val < 24 then wr else if q.val < 32 then !wr else if q.val < 40 then false else if q.val < 42 then !wr else true
    s.unitFree t use →
    let r := s.registered t use
    let faults := fun (c : Instr) (sub : Nat) => ∃ u, exec c s = .next u ∧ u = r.faultAt t .queue sub th.pc
    let does := fun (c : Instr) (y : Queue) =>
      let r := if x.rdMid = true ∧ y.rdMid = false then r.countAbort q else r
      let z := match x.upset with | none => r.putQueue q y | some f => (r.putQueue q y).pointerReset q f
      ∃ u, exec c s = .next u ∧ (u.thread t).done = some (.code 0) ∧ (u.thread t).st = .waiting ∧ (u.thread t).g = th.g ∧
        (∀ v, v ≠ t → u.thread v = z.thread v) ∧ u = { z with threads := u.threads }
    (sides = false → faults (.qmark t w) 0x02 ∧ faults (.qrewind t w) 0x02 ∧ faults (.qrelease t w) 0x02) ∧
    (sides = true → x.kind = .unconfigured → faults (.qmark t w) 0x01 ∧ faults (.qrewind t w) 0x01 ∧ faults (.qrelease t w) 0x01) ∧
    (sides = true → x.kind ≠ .unconfigured → wr = true →
      (x.wmark = true → faults (.qmark t w) 0x03 ∧
        does (.qrewind t w) { x with
          unpub := [], part := [], past := false, wmark := false, rdMid := false, tags := x.tags.take (x.kept.length + x.ready.length)
          wpos := (x.wpos + (x.cap - (x.unpub.map itemSpace).sum)) % x.cap } ∧
        does (.qrelease t w) { x with ready := x.ready ++ x.unpub, unpub := [], wmark := false }) ∧
      (x.wmark = false → faults (.qrewind t w) 0x04 ∧ faults (.qrelease t w) 0x04 ∧ does (.qmark t w) { x with wmark := true })) ∧
    (sides = true → x.kind ≠ .unconfigured → wr = false →
      (x.rmark = true → faults (.qmark t w) 0x03 ∧
        does (.qrewind t w) { x with
          ready := x.kept ++ x.ready, kept := [], itemBase := 0, rpos := (x.rpos + (x.cap - (x.kept.map itemSpace).sum)) % x.cap } ∧
        does (.qrelease t w) { x with kept := [], rmark := false, tags := x.tags.drop x.kept.length }) ∧
      (x.rmark = false → faults (.qrewind t w) 0x04 ∧ faults (.qrelease t w) 0x04 ∧ does (.qmark t w) { x with rmark := true }))) ∧
  (
  ∀ (s : State) (i : Fin 64) (y : Queue), i ≠ 41 → s.queues[41].wmark = false → 64 ≤ s.queues[41].space →
    s.queues[41].level + 32 < s.queues[41].high → y.wm = s.queues[i].wm →
    let x := s.queues[i]
    let u := s.putQueue i y
    let up := x.level < y.high ∧ y.high ≤ y.level
    let down := y.low < x.level ∧ y.level ≤ y.low
    (¬up → ¬down → u = { s with queues := s.queues.set i y }) ∧
    (up → u.queues[i].wm = { y.wm with highCross := y.wm.highCross + 1, highEvt := true }) ∧
    (¬up → down → u.queues[i].wm = { y.wm with lowCross := y.wm.lowCross + 1, lowEvt := true }) ∧
    (up ∨ down →
      (∀ t : Tid, (u.thread t).evt = if y.subs.getLsbD t.val then (s.thread t).evt ||| 0x10 else (s.thread t).evt) ∧
      let m := u.queues[i].wm
      u.queues[41].ready = s.queues[41].ready ++ [leBytes 16 (0x12 + 256 * i.val + 65536 *
        (m.lowCross.toNat * 65536 + m.highCross.toNat * 256 + (if y.level ≤ y.low then 8 else 0) + (if y.high ≤ y.level then 4 else 0)
          + 2 * m.lowEvt.toNat + m.highEvt.toNat))]))

/-- R274, R294, R299: `SVC` QPOST of a configured queue publishes the bytes of scratch as one item, QUEUE_FULL leaves it as it was, an item
beyond the capacity faults with 0x05; QTAKE takes the oldest whole item to scratch, RC its length, QUEUE_EMPTY and ITEM_LONG leave it.
Where the rules leave a corner open, what it says is the model's choice: log 34. -/
def Obligations.QueuePostAndTake : Prop :=
  ∀ (s : State) (t : Tid) (w : IWord) (q : Fin 64), s.canIssue t 1 → s.canonical → (s.thread t).reg w.ra = BitVec.ofNat 64 q.val →
    ((s.thread t).reg w.rb).toNat % 4096 = 0 →
    let th := s.thread t
    let x := s.queues[q]
    let use : Use := { units := [.queue q.val], dram := x.kind == .large }
    let clean := x.kind = .large → s.dram.bad = [] ∧ s.dram.faults = [] ∧ s.dram.epochUe = []
    let item := th.scratchRead (th.reg w.rc).toNat w.imm.toNat
    x.kind ≠ .unconfigured → x.upset = none → w.ue = false → s.unitFree t use →
    (threadSide q.val true = true → w.imm.toNat = 0 → exec (.svcQpost t w none) s = .next (s.faultAt t .state 0x20 th.pc)) ∧
    (threadSide q.val true = true → 0 < w.imm.toNat → x.cap < w.imm.toNat →
      exec (.svcQpost t w none) s = .next ((s.registered t use).faultAt t .queue 0x05 th.pc)) ∧
    (threadSide q.val true = true → 0 < w.imm.toNat → w.imm.toNat ≤ x.cap → x.space < (w.imm.toNat + 31) / 32 * 32 →
      ∃ u, exec (.svcQpost t w none) s = .next u ∧ ThreadTo s u t (th.atUnit w (some (.code 0x50))) ∧
        u = { s.registered t use with threads := u.threads }) ∧
    (threadSide q.val true = true → 0 < w.imm.toNat → w.imm.toNat ≤ x.cap → (w.imm.toNat + 31) / 32 * 32 ≤ x.space →
      x.wmark = false → q ≠ 41 → clean → ∃ u, exec (.svcQpost t w none) s = .next u ∧ (u.thread t).done = some (.code 0) ∧
        u.queues[q].ready = x.ready ++ [item] ∧ (∀ k, k ≠ q.val → k ≠ 41 → u.queues[k]? = s.queues[k]?) ∧
        (x.kind = .small → u.mem = s.mem ∧ u.dram = s.dram) ∧
        u = { s.registered t use with
          threads := u.threads, queues := u.queues, host := u.host, mem := u.mem, dram := u.dram, nextOp := u.nextOp }) ∧
    (threadSide q.val false = true → clean → ∃ u, exec (.svcQtake t w none) s = .next u ∧
      (x.ready = [] → ThreadTo s u t (th.atUnit w (some (.codeRc 0x51 0))) ∧ u = { s.registered t use with threads := u.threads }) ∧
      (∀ i r, x.ready = i :: r →
        (4096 < i.length → ThreadTo s u t (th.atUnit w (some (.codeRc 0x52 i.length))) ∧
          u = { s.registered t use with threads := u.threads }) ∧
        (i.length ≤ 4096 → (q = 41 → x.low + i.length < x.level ∨ x.level ≤ x.low) → (u.thread t).done = some (.codeRc 0 i.length) ∧ u.queues[q].ready = r ∧
          (u.thread t).scratchRead w.imm.toNat i.length = i ∧ (x.kind = .small → u.dram = s.dram) ∧
          u = { s.registered t use with threads := u.threads, queues := u.queues, host := u.host, dram := u.dram, nextOp := u.nextOp })))

/-- R298: `QFLUSH` empties a queue and drops both marks; the writer side of a general queue also unconfigures it. R274: `SVC` LAUNCH posts
the block's 32 bytes to the thread's command queue or returns QUEUE_FULL; `SVC` QSUB sets or clears the thread's subscription.
R302: a mismatch of a queue's two pointer copies empties the queue, counts in RESETS, writes record 0x0C01 with the queue and the field,
and keeps the configuration and the subscriptions.
Where the rules leave a corner open, what it says is the model's choice: log 34. -/
def Obligations.QueueControl : Prop :=
  (
  ∀ (s : State) (t : Tid) (w : IWord), s.canIssue t 1 →
    (let q : Fin 64 := Fin.ofNat 64 w.imm.toNat
     let use : Use := { units := [.queue q.val] }
     s.unitFree t use → q ≠ 41 → (q.val < 32 ∨ 40 ≤ q.val) → s.queues[q].kind ≠ .unconfigured → s.queues[q].upset = none →
      ∃ u, exec (.qflush t w) s = .next u ∧ u.queues[q].ready = [] ∧ u.queues[q].unpub = [] ∧ u.queues[q].kept = [] ∧
        u.queues[q].part = [] ∧ u.queues[q].wmark = false ∧ u.queues[q].rmark = false ∧ (u.thread t).done = some (.code 0) ∧
        (42 ≤ q.val → w.fn.getLsbD 0 = true → u.queues[q].kind = .unconfigured ∧ u.queues[q].store = 0) ∧
        (q.val < 42 ∨ w.fn.getLsbD 0 = false → u.queues[q].kind = s.queues[q].kind ∧ u.queues[q].cap = s.queues[q].cap) ∧
        u = { s.registered t use with threads := u.threads, queues := u.queues, host := u.host, streams := u.streams }) ∧
    (∀ n : Tid, (s.thread t).reg w.ra = BitVec.ofNat 64 n.val →
      let x := s.queues[n.val]
      let use : Use := { units := [.queue n.val] }
      s.unitFree t use → x.wmark = false → x.upset = none → w.ue = false → ∃ u, exec (.svcLaunch t w) s = .next u ∧
        (32 ≤ x.space → (u.thread t).done = some (.code 0) ∧ u.queues[n.val].ready = x.ready ++ [w.block (s.thread t) 32]) ∧
        (x.space < 32 → ThreadTo s u t ((s.thread t).atUnit w (some (.code 0x50))) ∧
          u = { s.registered t use with threads := u.threads })) ∧
    (∀ q : Fin 64, (s.thread t).reg w.ra = BitVec.ofNat 64 q.val → ∃ u, exec (.svcQsub t w) s = .next u ∧
      ThreadTo s u t { (s.thread t).setReg w.rd 0 with pc := (s.thread t).pc + 8, fl := { (s.thread t).fl with z := true } } ∧
      (∀ v : Tid, u.queues[q].subs.getLsbD v.val = if v = t then w.imm.getLsbD 0 else s.queues[q].subs.getLsbD v.val) ∧
      u = { s with threads := u.threads, queues := s.queues.set q { s.queues[q] with subs := u.queues[q].subs } })) ∧
  (
  ∀ (s : State) (q : Fin 64) (f : PtrField), q ≠ 40 → q ≠ 41 →
    let u := s.pointerReset q f
    u.queues[q].ready = [] ∧ u.queues[q].kept = [] ∧ u.queues[q].unpub = [] ∧ u.queues[q].part = [] ∧
    u.queues[q].wpos = 0 ∧ u.queues[q].rpos = 0 ∧ u.queues[q].resets = s.queues[q].resets.bump ∧ u.err.total = s.err.total + 1 ∧ u.queues[q].cap = s.queues[q].cap ∧
    u.queues[q].high = s.queues[q].high ∧ u.queues[q].low = s.queues[q].low ∧ u.queues[q].kind = s.queues[q].kind ∧
    u.queues[q].subs = s.queues[q].subs)

/-- R304: the host's window. DATA appends its bytes to the item being written, END closes and publishes it (before the others when the device has begun to read it, R296), POP removes the oldest item,
ITEM_BASE takes multiples of 1 MiB below its length, and writing 1 to the sticky watermark bits clears them; on a queue that the host may
not use every write is discarded. -/
def Obligations.HostQueueWindow : Prop :=
  ∀ (s : State) (q : Fin 64) (d : List Byte) (v : BitVec 64) (c : BitVec 32), s.boot.mode = 0 → s.boot.stage = 8 →
    s.boot.stopped = false → s.therm.tripped = false → s.safe = false →
    let x := s.queues[q]
    let clean := x.kind = .large → s.dram.bad = [] ∧ s.dram.faults = [] ∧ s.dram.epochUe = []
    let frame := fun (u : State) => (x.kind ≠ .large → u.mem = s.mem ∧ u.dram = s.dram) ∧ u = { s with
      threads := u.threads, queues := u.queues, host := u.host, mem := u.mem, dram := u.dram, nextOp := u.nextOp }
    (x.hostW = false ∨ x.kind = .unconfigured → exec (.queueDataWrite q d) s = .next s) ∧
    (x.hostW = false → x.kind ≠ .unconfigured → exec (.queueEndWrite q d none) s = .next s) ∧
    (x.kind = .unconfigured → exec (.queueEndWrite q d none) s = .next { s with queues := s.queues.set q { x with discard := false } }) ∧
    (x.upset = none → clean → x.hostW = true → x.kind ≠ .unconfigured → x.discard = false → x.past = false → x.wmark = false → q ≠ 41 → d ≠ [] →
      ((x.kept ++ x.ready ++ x.unpub).map itemSpace).sum + ((x.part ++ d).length + 31) / 32 * 32 ≤ x.cap →
      exec (.queueDataWrite q d) s = .next { s with queues := s.queues.set q { x with part := x.part ++ d } } ∧
      ∃ u, exec (.queueEndWrite q d none) s = .next u ∧ u.queues[q].ready = (if x.rdMid then (x.part ++ d) :: x.ready else x.ready ++ [x.part ++ d]) ∧ u.queues[q].part = [] ∧ u.queues[q].rdMid = false ∧
        (∀ k, k ≠ q.val → k ≠ 41 → u.queues[k]? = s.queues[k]?) ∧ frame u) ∧
    (x.hostR = false → exec (.queuePop q) s = .next s ∧ exec (.itemBaseWrite q v) s = .next s) ∧
    (x.hostR = true → ∀ i r, x.ready = i :: r →
      (x.upset = none → clean → (q = 41 → x.low + i.length < x.level ∨ x.level ≤ x.low) → ∃ u, exec (.queuePop q) s = .next u ∧ u.queues[q].ready = r ∧ u.queues[q].itemBase = 0 ∧ frame u) ∧
      (v.toNat % 2 ^ 20 = 0 → v.toNat < i.length →
        exec (.itemBaseWrite q v) s = .next { s with queues := s.queues.set q { x with itemBase := v.toNat } }) ∧
      (v.toNat % 2 ^ 20 ≠ 0 ∨ i.length ≤ v.toNat → exec (.itemBaseWrite q v) s = .next s)) ∧
    (x.hostR = true ∨ x.hostW = true → exec (.queueStatusClear q c) s = .next { s with
      queues := s.queues.set q
        { x with wm := { x.wm with lowEvt := x.wm.lowEvt && !c.getLsbD 1, highEvt := x.wm.highEvt && !c.getLsbD 0 } } })

/-! ### Plans -/

/-- R194, R261: `PLANSLOT`. LOAD copies a good image into an EMPTY or LOADED slot, returns ADM_GEOM and leaves the slot EMPTY for a bad one,
and faults with 0x1D on any other slot; FREE empties such a slot; STATE returns the number of the state; STATUS copies the 1,024 bytes of
the plan status to the buffer. -/
def Obligations.PlanSlots : Prop :=
  ∀ (s : State) (t : Tid) (w : IWord) (i : Fin 8), s.canIssue t 1 → (s.thread t).reg w.ra = BitVec.ofNat 64 i.val →
    s.higher .planSlots .host = none →
    let th := s.thread t
    let use : Use := { units := [.slot i.val] }
    let st := s.plan.slots[i].st
    let n := match st with | .empty => 0 | .loaded => 1 | .armed => 2 | .inForce => 3 | .standby => 4 | .fbInForce => 5
    (s.unitFree t use →
      (st = .empty ∨ st = .loaded → ∃ u, exec (.planslotFree t w) s = .next u ∧ u.plan.slots[i].st = .empty ∧
        ThreadTo s u t (th.atUnit w (some (.code 0))) ∧
        u = { s.registered t use with threads := u.threads, plan := { s.plan with slots := s.plan.slots.set i {} } }) ∧
      (st ≠ .empty → st ≠ .loaded → exec (.planslotFree t w) s = .next ((s.registered t use).faultAt t .state 0x1D th.pc)) ∧
      (∃ u, exec (.planslotState t w) s = .next u ∧ ThreadTo s u t (th.atUnit w (some (.codeRc 0 n))) ∧
        u = { s.registered t use with threads := u.threads })) ∧
    (∀ b, let h := (th.reg w.rb).toNat % 4096
      let off := w.imm.toNat
      let rd : Use := { units := [.slot i.val], handles := [h], reads := [.ofBytes h off (min 16384 (b.len - off))] }
      s.checkHandle t h = .ok b →
      (b.len < off + 64 → exec (.planslotLoad t w) s = .next (s.faultAt t .state 0x22 th.pc)) ∧
      (off + 64 ≤ b.len → s.unitFree t rd →
        (st ≠ .empty → st ≠ .loaded → exec (.planslotLoad t w) s = .next ((s.registered t rd).faultAt t .state 0x1D th.pc)) ∧
        (st = .empty ∨ st = .loaded → s.dram.bad = [] → s.dram.faults = [] → s.dram.epochUe = [] →
          let x := Memory.readN s.mem (b.base + off) (fieldAt (Memory.readN s.mem (b.base + off) 64) 4 2)
          let good := fieldAt x 0 4 = 0x4E414C50 ∧ fieldAt x 6 1 = 1 ∧ off + x.length ≤ b.len ∧ x.length ≤ 16384 ∧
            x.length = (0x0C00 + 4 * fieldAt x 0x40 1 * fieldAt x 0x41 1 + 63) / 64 * 64 ∧
            fieldAt x 0x3C 4 = crc32c (x.take 0x3C ++ [0, 0, 0, 0] ++ x.drop 0x40)
          ∃ u, exec (.planslotLoad t w) s = .next u ∧ u.mem = s.mem ∧ (∀ j, j ≠ i → u.plan.slots[j] = s.plan.slots[j]) ∧
            (good → u.plan.slots[i].st = .loaded ∧ u.plan.slots[i].plan = planOfBytes x ∧
              ThreadTo s u t (th.atUnit w (some (.code 0)))) ∧
            (¬good → u.plan.slots[i].st = .empty ∧ ThreadTo s u t (th.atUnit w (some (.code 0x08))))))) ∧
    (∀ b, let h := (th.reg w.rb).toNat % 4096
      let off := w.imm.toNat
      let wr : Use := { handles := [h], writes := [.ofBytes h off 1024] }
      s.checkStore t h off 1024 = .ok b → s.unitFree t wr → s.canonical → s.dram.suspects (b.base + off) 1024 = [] →
      ∃ u, exec (.planslotStatus t w) s = .next u ∧ ThreadTo s u t (th.atUnit w (some (.code 0))) ∧
        leNat (Memory.readN u.mem (b.base + off) 4) = s.plan.status.frames.toNat ∧
        leNat (Memory.readN u.mem (b.base + off + 0x38) 4) = s.plan.status.fallbacks.toNat ∧
        (∀ k : Fin 64, leNat (Memory.readN u.mem (b.base + off + 0x100 + 4 * k.val) 4) = s.plan.status.late[k].toNat) ∧
        (∀ k : Fin 64, leNat (Memory.readN u.mem (b.base + off + 0x200 + 4 * k.val) 4) = s.plan.status.paramLate[k].toNat) ∧
        (∀ a, a < b.base + off ∨ b.base + off + 1024 ≤ a → Memory.read u.mem a = Memory.read s.mem a))

/-- R195, R196, R261: `PLANCHK` and `PLANCOMMIT` act on a LOADED slot and fault with 0x26 on any other. The check returns the code of the
first failing check and changes no plan; a commit that is refused changes no plan either, and faults with FLT_ADMIT in the .F form; one
that passes while a plan is in force arms its slot, and the fall-back becomes STANDBY.
R202: the result of admission is the code of the first check that fails, each check seeing what the ones before it left; 0 when all
pass. The codes are those of Table 08-9 in the order of Table 08-6.
Where the rules leave a corner open, what it says is the model's choice: log 37. -/
def Obligations.PlanCheckAndCommit : Prop :=
  (
  ∀ (s : State) (t : Tid) (w : IWord) (i : Fin 8), s.canIssue t 1 → (s.thread t).reg w.ra = BitVec.ofNat 64 i.val →
    s.higher .planSlots .host = none → w.fn.getLsbD 7 = false →
    let th := s.thread t
    let p := s.plan.slots[i].plan
    let chk := s.slotUse i [.slot i.val]
    let cmt := s.slotUse i ([.slot i.val] ++ if p.hasFb then [.slot p.fbSlot] else [])
    let frame := if w.fn.getLsbD 0 then some (th.reg w.rb).toNat else none
    let code := ((s.registered t cmt).commit i frame .host 0x31).2
    (s.unitFree t chk → (th.reg w.rb).toNat % 4096 = 0 →
      (s.plan.slots[i].st ≠ .loaded → exec (.planchk t w) s = .next ((s.registered t chk).faultAt t .state 0x26 th.pc)) ∧
      (s.plan.slots[i].st = .loaded → ∃ u, exec (.planchk t w) s = .next u ∧
        (u.thread t).done = some (.code ((s.registered t chk).admission p).2.1) ∧ (u.thread t).st = .waiting ∧ (u.thread t).g = th.g ∧
        u.plan = s.plan ∧ u.mem = s.mem ∧ u.bufs = s.bufs)) ∧
    (s.unitFree t cmt →
      (s.plan.slots[i].st ≠ .loaded → exec (.plancommit t w) s = .next ((s.registered t cmt).faultAt t .state 0x26 th.pc)) ∧
      (s.plan.slots[i].st = .loaded → ∃ u, exec (.plancommit t w) s = .next u ∧
        (code ≠ 0 → u.plan = s.plan ∧
          (u.thread t).done = some (if w.fn.getLsbD 6 then { wrRd := false, flt := some (.admission, 0) } else .code code)) ∧
        (code = 0 → ∀ r, s.plan.prim = some r → r ≠ i → (s.plan.slots[r].plan.hasFb = true → s.plan.slots[r].plan.fbSlot ≠ i.val) →
          u.plan.armed = some i ∧ u.plan.prim = s.plan.prim ∧ u.plan.slots[i].st = .armed ∧ (u.thread t).done = some (.code 0) ∧
          (∀ j : Fin 8, p.hasFb = true → p.fbSlot = j.val → r ≠ j → j ≠ i → s.plan.slots[j].st = .loaded →
            (s.plan.slots[r].plan.hasFb = true → s.plan.slots[r].plan.fbSlot ≠ j.val) → u.plan.slots[j].st = .standby))))) ∧
  (
  (∀ (pre post : List (Nat × Check)) (c d : Nat) (f : Check) (s x y : State),
    runChecks pre s = (x, 0, 0xFFFF) → (∀ e ∈ pre, e.1 ≠ 0) → f x = (y, some d) → runChecks (pre ++ (c, f) :: post) s = (y, c, d)) ∧
  (∀ (a b c : Bool) (p : Plan), ((allChecks a b c p).map Prod.fst).dedup =
    [0x08, 0x0D, 0x0B, 0x09, 0x0A, 0x0E, 0x05, 0x01, 0x02, 0x06, 0x03, 0x04, 0x07, 0x0C]))

/-- R200, R207, R530: the choice at an arming point without an armed plan. Without a trigger the plan in force stays; under a trigger its
fall-back is used when it passes recheck(), else the minimal plan, with the events of Table 09-2 and record 0x0803 or 0x1707.
R200: an armed plan whose frame is due comes into force when it passes recheck() and no trigger is active; one that fails goes back to
LOADED with record 0x0801 and PLAN_REFUSED in every thread's event word, and the plan in force stays selected.
R530: what the minimal plan keeps of the selected plan and what it drops.
Where the rules leave a corner open, what it says is the model's choice: log 20. -/
def Obligations.ArmingPoints : Prop :=
  (
  ∀ (s : State) (i : Fin 8) (g : Gov) (n : Nat), s.plan.armed = none → s.plan.prim = some i → s.plan.next = some g → g.kind = .primary →
    let p := s.plan.slots[i].plan
    let u := s.armingPoint n
    u.plan.prim = some i ∧
    (s.trigger p = none → u.plan.next = some (s.govOf .primary i i false) ∧ u.err = s.err) ∧
    (∀ tr (j : Fin 8), s.trigger p = some tr → p.hasFb = true → p.fbSlot = j.val →
      (s.recheck true s.plan.slots[j].plan = 0 → ∃ x, u.plan.next = some x ∧ x.kind = .fallback ∧ x.slot = j ∧
        x.plan = s.plan.slots[j].plan ∧ u.err.total = s.err.total + 1) ∧
      (s.recheck true s.plan.slots[j].plan ≠ 0 → ∃ x, u.plan.next = some x ∧ x.kind = .minimal ∧ x.plan = p.minimal ∧
        u.err.total = s.err.total + 1 ∧ ∀ t : Tid, (u.thread t).evt.getLsbD 3 = true)) ∧
    (∀ tr, s.trigger p = some tr → p.hasFb = false →
      (s.recheck false p = 0 → ∃ x, u.plan.next = some x ∧ x.kind = .primary ∧ x.plan = p) ∧
      (s.recheck false p ≠ 0 → ∃ x, u.plan.next = some x ∧ x.kind = .minimal ∧ x.plan = p.minimal))) ∧
  (
  ∀ (s : State) (a : Fin 8) (n : Nat), s.plan.armed = some a → (∀ f, s.plan.armedAt = some f → f ≤ n) →
    s.plan.slots[a].st ≠ .empty → s.plan.prim ≠ some a →
    let x := s.plan.slots[a].plan
    let u := s.armingPoint n
    u.plan.armed = none ∧
    (s.recheckArmed x = 0 → s.clearLost.trigger x = none →
      u.plan.prim = some a ∧ u.plan.slots[a].st = .inForce ∧ ∃ g, u.plan.next = some g ∧ g.kind = .primary ∧ g.plan = x ∧
        g.copies = s.plan.slots[a].copies) ∧
    (s.recheckArmed x ≠ 0 → u.plan.prim = s.plan.prim ∧ ∀ t : Tid, (u.thread t).evt.getLsbD 3 = true)) ∧
  (
  ∀ p : Plan, let q := p.minimal
    q.gReq = 0 ∧ q.enabled = [] ∧ q.gfxOn = [] ∧ q.bgR = 0 ∧ q.bgG = 0 ∧ q.bgB = 0 ∧ q.umapFmt = 0 ∧ q.outMode = 0 ∧ q.capEn = false ∧
    q.hasFb = false ∧ q.hh = p.hh ∧ q.hv = p.hv ∧ q.nhx = p.nhx ∧ q.nhy = p.nhy ∧ q.views = p.views ∧ q.lineSym = p.lineSym ∧
    q.vbl = p.vbl ∧ q.rateNum = p.rateNum ∧ q.rateDen = p.rateDen ∧ q.tg0Src = p.tg0Src ∧ q.m = p.m ∧ q.ttBuf = p.ttBuf ∧
    q.dither = p.dither ∧ q.res = p.res ∧ q.streamMb = p.streamMb ∧ q.slotEpoch = p.slotEpoch ∧ q.isoTx = p.isoTx ∧
    q.isoRx = p.isoRx ∧ q.masks = p.masks ∧ q.planId = p.planId)

/-! ### Streams and decoding -/

/-- R55, R74: ingest checks the header in the order of the rule, and the first check that fails discards the item and counts in its own
counter of Table 03-6; the clip buffer, the stored packets and every other counter stay.
R57, R59: a CLIP_START that passes the checks is stored at the next 64-byte boundary of a HOLD buffer, restarts both series at its SEQ and
leaves them without an ingest frame.
R57, R64: the order checks of a packet that is for this device and its clip: duplicate SEQ, stale and orphan frames are discarded, a
forward gap is accepted with its size.
Where the rules leave a corner open, what it says is the model's choice: log 25. -/
def Obligations.IngestChecks : Prop :=
  (
  ∀ (s : State) (i : Fin 16) (item : List Byte) (rest : List (List Byte)), s.sequencing = true → s.streams[i].st ≠ .detached →
    s.streams[i].stalled = false → s.queues[8 + i.val].ready = item :: rest → s.queues[8 + i.val].rdMid = false →
    s.queues[8 + i.val].upset = none → s.dram.bad = [] → s.dram.faults = [] → s.dram.epochUe = [] →
    let h := clsOf item
    let drop := fun (c : Fin 33) => ∃ u, exec (.ingestItem i) s = .next u ∧ u.queues[8 + i.val].ready = rest ∧ u.mem = s.mem ∧
      u.streams[i].pkts = s.streams[i].pkts ∧ u.streams[i].ctr = s.streams[i].ctr.set c.val s.streams[i].ctr[c].bump ∧
      ∀ j, j ≠ i → u.streams[j] = s.streams[j]
    (item.length < 64 → drop 5) ∧
    (64 ≤ item.length →
      (h.sync ≠ 0xC15A → drop 0) ∧
      (h.sync = 0xC15A → h.crcOk = false → drop 1) ∧
      (h.sync = 0xC15A → h.crcOk = true → h.ver ≠ 1 → drop 2) ∧
      (h.sync = 0xC15A → h.crcOk = true → h.ver = 1 → h.ty = 0 ∨ 10 < h.ty → drop 3) ∧
      (h.sync = 0xC15A → h.crcOk = true → h.ver = 1 → 1 ≤ h.ty → h.ty ≤ 10 →
        (h.rsvd = true ∨ (h.landing = true ∧ h.ty ≠ 2) → drop 4) ∧
        (h.rsvd = false → (h.landing = true → h.ty = 2) →
          (item.length ≠ 64 + h.len ∨ lenOk h.ty h.len = false → drop 5) ∧
          (item.length = 64 + h.len → lenOk h.ty h.len = true →
            (h.ty = 3 → 63 < h.layer → drop 6) ∧ (h.ty ≠ 3 → h.layer ≠ 0xFF → drop 6) ∧
            ((h.ty = 3 → h.layer ≤ 63) → (h.ty ≠ 3 → h.layer = 0xFF) →
              (63 < h.slot → drop 7) ∧ (h.ty = 7 ∨ h.ty = 8 → h.slot ≠ 0 → drop 7) ∧
              (h.slot = 0 → h.ty ≠ 7 → h.ty ≠ 8 → h.ty ≠ 10 → s.clearOk = false → drop 8) ∧
              (h.slot ≤ 63 → (h.slot = 0 → s.clearOk = true) → h.ty ≠ 7 → h.ty ≠ 8 → h.ty ≠ 10 →
                (h.bcast = false → s.node? ≠ some h.node → s.forwards = false → drop 9) ∧
                (h.bcast = true ∨ s.node? = some h.node →
                  (h.clip ≠ s.streams[i].clipId.toNat ∨ (h.ty ≠ 1 ∧ s.streams[i].started = false) → drop 10))))))))) ∧
  (
  ∀ (s : State) (i : Fin 16) (item : List Byte) (rest : List (List Byte)) (b : Buf), s.sequencing = true → s.streams[i].st ≠ .detached →
    s.streams[i].stalled = false → s.streams[i].ring = false → s.queues[8 + i.val].ready = item :: rest → s.canonical →
    s.queues[8 + i.val].rdMid = false → s.queues[8 + i.val].upset = none → s.dram.bad = [] → s.dram.faults = [] → s.dram.epochUe = [] →
    tabFind s.bufs.table s.streams[i].buf.toNat = some b → s.forwards = false →
    s.judge i item = .store 0 → (clsOf item).ty = 1 → 2 ^ 20 ≤ s.streams[i].wpos →
    (s.streams[i].wpos + (item.length + 63) / 64 * 64 ≤ b.len → ∃ u, exec (.ingestItem i) s = .next u ∧
      Memory.readN u.mem (b.base + s.streams[i].wpos) item.length = item ∧
      (∀ a, a < b.base + s.streams[i].wpos ∨ b.base + s.streams[i].wpos + item.length ≤ a → Memory.read u.mem a = Memory.read s.mem a) ∧
      u.streams[i].wpos = s.streams[i].wpos + (item.length + 63) / 64 * 64 ∧ u.streams[i].started = true ∧
      u.streams[i].serN = { lastSeq := some (BitVec.ofNat 32 (clsOf item).seq) } ∧
      u.streams[i].serB = { lastSeq := some (BitVec.ofNat 32 (clsOf item).seq) } ∧
      u.streams[i].pkts.length = s.streams[i].pkts.length + 1 ∧ u.queues[8 + i.val].ready = rest) ∧
    (b.len < s.streams[i].wpos + (item.length + 63) / 64 * 64 → ∃ u, exec (.ingestItem i) s = .next u ∧
      u.streams[i].stalled = true ∧ u.queues = s.queues ∧ u.mem = s.mem) ∧
    (∀ (v : State) (c : Buf), v.streams[i].stalled = true → v.streams[i].ring = false →
      tabFind v.bufs.table v.streams[i].buf.toNat = some c → (∃ r, v.queues[8 + i.val].ready = item :: r) →
      (v.streams[i].wpos + (item.length + 63) / 64 * 64 ≤ c.len → exec (.ingestResume i) v = .next
        { v with streams := v.streams.set i { v.streams[i] with stalled := false } }) ∧
      (c.len < v.streams[i].wpos + (item.length + 63) / 64 * 64 → exec (.ingestResume i) v = .next v))) ∧
  (
  ∀ (x : Stream) (h : Cls) (l : BitVec 32), h.clip = x.clipId.toNat → x.started = true → h.ty ≠ 1 → h.seq < 2 ^ 32 →
    let r := if h.bcast then x.serB else x.serN
    r.lastSeq = some l →
    let d := (h.seq + 2 ^ 32 - l.toNat) % 2 ^ 32
    (d = 0 ∨ 2 ^ 31 ≤ d → x.order h = .discard 11) ∧
    (0 < d → d < 2 ^ 31 →
      (∀ f, r.ingest = some f →
        (h.ty = 2 → h.frame ≤ f → x.order h = .discard 13) ∧
        (h.ty = 2 → f < h.frame → x.order h = .store (d - 1)) ∧
        (3 ≤ h.ty → h.ty ≤ 6 → h.frame < f → x.order h = .discard 13) ∧
        (3 ≤ h.ty → h.ty ≤ 6 → f < h.frame → x.order h = .discard 14) ∧
        (3 ≤ h.ty → h.ty ≤ 6 → h.frame = f → x.order h = .store (d - 1))) ∧
      (r.ingest = none → (3 ≤ h.ty → h.ty ≤ 6 → x.order h = .discard 14) ∧ (h.ty = 2 ∨ h.ty = 9 → x.order h = .store (d - 1)))))

/-- R53, R59, R262, R264: `SATTACH` binds a detached stream to its buffer: PAUSED, no POSITION, nothing stored, counters 0; its results are
STREAM_BUSY, LENGTH and CLIP_LIMIT in this order, with nothing changed.
R262, R263: pausing and detaching. A playing stream waits for the frame boundary, a paused or stopped one answers at once; a stream that
is not attached gives NOT_ATTACHED.
Where the rules leave a corner open, what it says is the model's choice: log 25. -/
def Obligations.StreamAttachment : Prop :=
  (
  ∀ (s : State) (t : Tid) (w : IWord) (i : Fin 16) (b : Buf), s.canIssue t 1 →
    let th := s.thread t
    let blk := w.block th 32
    let hd := fieldAt blk 4 2
    let use : Use := { units := [.stream i.val], handles := [hd] }
    fieldAt blk 0 1 = i.val → hd < 4032 → s.checkHandle t hd = .ok b → w.ue = false →
    (1 < fieldAt blk 1 1 ∨ fieldAt blk 8 8 ≤ fieldAt blk 16 8 → exec (.sattach t w) s = .next (s.faultAt t .state 0x20 th.pc)) ∧
    (fieldAt blk 1 1 ≤ 1 → fieldAt blk 16 8 < fieldAt blk 8 8 → s.unitFree t use →
      (s.streams[i].st ≠ .detached → ∃ u, exec (.sattach t w) s = .next u ∧ ThreadTo s u t (th.atUnit w (some (.code 0x24))) ∧
        u = { s.registered t use with threads := u.threads }) ∧
      (s.streams[i].st = .detached → b.len < 2097152 → ∃ u, exec (.sattach t w) s = .next u ∧
        ThreadTo s u t (th.atUnit w (some (.code 0x15))) ∧ u = { s.registered t use with threads := u.threads }) ∧
      (s.streams[i].st = .detached → 2097152 ≤ b.len → 107374182400 < s.clipTotal + b.len → ∃ u, exec (.sattach t w) s = .next u ∧
        ThreadTo s u t (th.atUnit w (some (.code 0x28))) ∧ u = { s.registered t use with threads := u.threads }) ∧
      (s.streams[i].st = .detached → 2097152 ≤ b.len → s.clipTotal + b.len ≤ 107374182400 → ∃ u, exec (.sattach t w) s = .next u ∧
        (u.thread t).done = some (.code 0) ∧ u.streams[i] =
          { st := .paused, clipId := BitVec.ofNat 16 (fieldAt blk 2 2), buf := BitVec.ofNat 12 hd, ring := fieldAt blk 1 1 == 1
            high := fieldAt blk 8 8, low := fieldAt blk 16 8 } ∧
        ∀ j, j ≠ i → u.streams[j] = s.streams[j]))) ∧
  (
  ∀ (s : State) (t : Tid) (w : IWord) (i : Fin 16), s.canIssue t 1 → s.higher .stream .host = none →
    let th := s.thread t
    let use : Use := { units := [.stream i.val] }
    s.unitFree t use →
    let r := s.registered t use
    ((th.reg w.ra) = BitVec.ofNat 64 i.val →
      (s.streams[i].st = .detached → ∃ u, exec (.spause t w) s = .next u ∧ ThreadTo s u t (th.atUnit w (some (.code 0x25))) ∧
        u = { r with threads := u.threads }) ∧
      (s.streams[i].st = .paused ∨ s.streams[i].st = .stopped → ∃ u, exec (.spause t w) s = .next u ∧
        ThreadTo s u t (th.atUnit w (some (.code 0))) ∧ u = { r with threads := u.threads }) ∧
      (s.streams[i].st = .playing → ∃ u, exec (.spause t w) s = .next u ∧ ThreadTo s u t (th.atUnit w none) ∧
        u = { r with
          threads := u.threads
          streams := s.streams.set i { s.streams[i] with pauses := s.streams[i].pauses ++ [.thread t] } })) ∧
    (fieldAt (w.block th 32) 0 1 = i.val → w.ue = false →
      (s.streams[i].st = .detached → ∃ u, exec (.sattachDetach t w) s = .next u ∧ ThreadTo s u t (th.atUnit w (some (.code 0x25))) ∧
        u = { r with threads := u.threads }) ∧
      (s.streams[i].st = .paused ∨ s.streams[i].st = .stopped → ∃ u, exec (.sattachDetach t w) s = .next u ∧
        ThreadTo s u t (th.atUnit w (some (.code 0))) ∧ u.streams[i].st = .detached ∧ u.streams[i].pkts = [] ∧
        (∀ j, j ≠ i → u.streams[j] = s.streams[j]) ∧ u = { r with threads := u.threads, streams := u.streams, engs := u.engs }) ∧
      (s.streams[i].st = .playing → ∃ u, exec (.sattachDetach t w) s = .next u ∧ ThreadTo s u t (th.atUnit w none) ∧
        u = { r with threads := u.threads, streams := s.streams.set i { s.streams[i] with detach := some (.thread t) } })))

/-- R69, R263: `SSEEK`. Beyond the last stored FRAME_START it gives NOT_YET, without an indexed landing at or before the frame NO_LANDING, and
the stream stays; otherwise L is the latest indexed landing: a paused stream takes it as POSITION and returns at once, a playing one waits
for the end of the wall frame. STREAM is set before an instruction returns.
R65, R263, R550: `SPLAY`. Its results in order: NOT_ATTACHED, STREAM_BUSY, POSITION, PLAY_LATE, STREAM_RATE; otherwise the stream plays
from wall frame RB with clip frame RC. A refused play changes nothing.
Where the rules leave a corner open, what it says is the model's choice: log 25. -/
def Obligations.SeekAndPlay : Prop :=
  (
  ∀ (s : State) (t : Tid) (w : IWord) (i : Fin 16), s.canIssue t 1 → s.higher .stream .host = none →
    (s.thread t).reg w.ra = BitVec.ofNat 64 i.val → s.streams[i].clip ≠ none → s.streams[i].seek = none →
    let th := s.thread t
    let f := (th.reg w.rb).toNat
    let use : Use := { units := [.stream i.val] }
    let x := s.streams[i]
    let last := (x.pkts.filter fun p => p.ty == 2).getLast?
    s.unitFree t use → ∃ u, exec (.sseek t w) s = .next u ∧ (u.thread t).st = .waiting ∧ u.mem = s.mem ∧
      (∀ j, j ≠ i → u.streams[j] = s.streams[j]) ∧
      (x.st = .detached → (u.thread t).done = some (.code 0x25) ∧ u.streams[i] = x) ∧
      (x.st ≠ .detached → (∀ p, last = some p → p.frame < f) →
        (u.thread t).done = some (.code 0x22) ∧ u.streams[i] = x ∧ (u.thread t).evt.getLsbD 6 = true) ∧
      (x.st ≠ .detached → (∃ p, last = some p ∧ f ≤ p.frame) → (∀ p ∈ x.pkts, p.entry ≠ none → f < p.frame) →
        (u.thread t).done = some (.code 0x21) ∧ u.streams[i] = x ∧ (u.thread t).evt.getLsbD 6 = true) ∧
      (∀ p ∈ x.pkts, p.entry ≠ none → p.frame ≤ f → (∀ q ∈ x.pkts, q.entry ≠ none → q.frame ≤ f → q.frame ≤ p.frame) →
        (∃ p, last = some p ∧ f ≤ p.frame) →
        (x.st = .paused ∨ x.st = .stopped → (u.thread t).done = some (.codeRc 0 p.frame) ∧ u.streams[i].position = some p.frame ∧
          (u.thread t).evt.getLsbD 6 = true) ∧
        (x.st = .playing → (u.thread t).done = none ∧ u.streams[i] = { x with seek := some ⟨p.frame, f, .thread t⟩ }))) ∧
  (
  ∀ (s : State) (t : Tid) (w : IWord) (i : Fin 16) (c : Clip), s.canIssue t 1 → s.higher .stream .host = none →
    (s.thread t).reg w.ra = BitVec.ofNat 64 i.val → s.streams[i].clip = some c →
    let th := s.thread t
    let wa := (th.reg w.rb).toNat
    let n0 := (th.reg w.rc).toNat
    let use : Use := { units := [.stream i.val] }
    let x := s.streams[i]
    s.unitFree t use →
    let gives := fun (code : Nat) => ∃ u, exec (.splay t w) s = .next u ∧ ThreadTo s u t (th.atUnit w (some (.code code))) ∧
      u = { s.registered t use with threads := u.threads }
    (x.st = .detached → gives 0x25) ∧ (x.st = .playing → gives 0x24) ∧
    (x.st = .paused ∨ x.st = .stopped →
      (x.position ≠ some n0 → gives 0x27) ∧
      (x.position = some n0 → wa < s.out.frame + 2 → gives 0x26) ∧
      (x.position = some n0 → s.out.frame + 2 ≤ wa →
        (s.plan? = none → gives 0x20) ∧
        (∀ p, s.plan? = some p → c.rateNum * p.rateDen ≠ p.rateNum * c.rateDen → gives 0x20) ∧
        (∀ p, s.plan? = some p → c.rateDen ≠ 0 → c.rateNum * p.rateDen = p.rateNum * c.rateDen →
          ∃ u, exec (.splay t w) s = .next u ∧ ThreadTo s u t (th.atUnit w (some (.code 0))) ∧
            u = { s.registered t use with
              threads := u.threads
              streams := s.streams.set i { x with st := .playing, wA := wa, n0 := n0, shown := none, last := none, dec := none } }))))

/-- R66, R91, R93, R352: decoding while TG0 runs. It begins once the first FRAME_END of the frame is stored; each packet goes to the engine with
the fewest tiles queued and the lowest number; the range of a group enters its layer's coverage unless it overlaps one there; a packet that
ends leaves its engine, and what it says enters the frame's counts once its check has passed.
R94, R95: a TILE_GROUP that finds no key makes every layer that takes it incomplete and counts KEY_ABSENT with record 0x0303; it
leaves no trace in the flag, reference and landing counters.
R548, R99: the syntax checks of a tile record, in their order, for the layer profile: the mode, the header bits, the extent, the length
of a fixed-size mode; then SKIP takes the reference and EMPTY the transparent sample.
Where the rules leave a corner open, what it says is the model's choice: log 25. -/
def Obligations.GroupDecoding : Prop :=
  (
  (∀ (s : State) (i : Fin 16) (c : Nat), let x := s.streams[i]
    x.st = .playing → x.position = some c → x.wA ≤ s.out.frame + 1 → s.tgRuns 0 = true → (∀ d, x.dec = some d → d.frame ≠ c) →
    (∀ f b, x.finalFrame = some (f, b) → c ≤ f) →
    ((∃ p ∈ x.framePkts c, p.ty = 6) → exec (.decodeStart i) s = .next { s with
      streams := s.streams.set i { x with dec := some { frame := c, follows := x.shown.any fun n => n + 1 == c } } }) ∧
    ((∀ p ∈ x.framePkts c, p.ty ≠ 6) → exec (.decodeStart i) s = .next s)) ∧
  (∀ (s : State) (i : Fin 16) (d : SDec) (p : Pkt), s.tgRuns 0 = true → s.streams[i].dec = some d →
    ((s.streams[i].framePkts d.frame).find? fun p => !d.sent.contains p.off) = some p →
    let handed := s.streams.set i { s.streams[i] with dec := some { d with sent := d.sent ++ [p.off] } }
    let ks := s.takers i p.layer
    (p.ty = 3 → ks = [] → exec (.decoderDispatch i) s = .next { s with streams := handed }) ∧
    (p.ty ≠ 3 ∨ ks ≠ [] → ∃ (e : Fin 8) (n : Nat),
      exec (.decoderDispatch i) s = .next { s with streams := handed, engs := s.engs.set e (s.engs[e] ++ [⟨i, p, n, false, false⟩]) } ∧
      (∀ f : Fin 8, engTiles s.engs[e] ≤ engTiles s.engs[f]) ∧ (∀ f : Fin 8, f < e → engTiles s.engs[e] < engTiles s.engs[f]) ∧
      (p.ty ≠ 3 → n = 0) ∧ (∀ b, p.ty = 3 → s.peek (s.clearOnly ks) (s.rawPkt i p) = some b → n = fieldAt b 4 2))) ∧
  (∀ (s : State) (e : Fin 8) (g : EngPkt) (r : List EngPkt) (d : SDec), s.tgRuns 0 = true → s.engs[e] = g :: r →
    s.streams[g.stream].dec = some d → g.pkt.ty = 3 → g.registered = false → s.regWaits g = false →
    let ks := s.takers g.stream g.pkt.layer
    let body := s.peek (s.clearOnly ks) (s.rawPkt g.stream g.pkt)
    let mark := s.engs.set e ({ g with registered := true } :: r)
    (∀ b, body = some b → (∃ k ∈ ks, s.headerOk b k = true) →
      let first := fieldAt b 0 4
      let n := fieldAt b 4 2
      ((∀ c ∈ d.cov, c.1 = g.pkt.layer → first + n ≤ c.2.1 ∨ c.2.1 + c.2.2 ≤ first) →
        exec (.groupRegistration e) s = .next { s with
          engs := mark
          streams := s.streams.set g.stream { s.streams[g.stream] with dec := some { d with cov := d.cov ++ [(g.pkt.layer, first, n)] } } }) ∧
      ((∃ c ∈ d.cov, c.1 = g.pkt.layer ∧ c.2.1 < first + n ∧ first < c.2.1 + c.2.2) → exec (.groupRegistration e) s =
        .next { s with engs := s.engs.set e ({ g with registered := true, overlap := true } :: r) })) ∧
    ((∀ b, body = some b → ∀ k ∈ ks, s.headerOk b k = false) → exec (.groupRegistration e) s = .next { s with engs := mark })) ∧
  (∀ (s : State) (e : Fin 8) (g : EngPkt) (r : List EngPkt), s.engs[e] = g :: r →
    (s.streams[g.stream].dec = none → exec (.decodePacketDone e) s = .next { s with engs := s.engs.set e r }) ∧
    (∀ d, s.streams[g.stream].dec = some d → s.tgRuns 0 = true → (g.pkt.ty = 3 → g.registered = true) →
      ∃ u, exec (.decodePacketDone e) s = .next u ∧ u.engs[e] = r ∧ (∀ f : Fin 8, f ≠ e → u.engs[f] = s.engs[f]) ∧
        ∀ item, (s.readPkt g.stream g.pkt (6 + e.val)).2 = some item → (clsOf item).slot = 0 → g.pkt.ty = 2 ∨ g.pkt.ty = 6 →
          ∃ x, u.streams[g.stream].dec = some x ∧ x.frame = d.frame ∧ x.cov = d.cov ∧ x.bad = d.bad ∧ x.sent = d.sent ∧
            (clearOkTrailer item = true → x.ok = d.ok ++ [g.pkt.off] ∧ x.fsFail = d.fsFail ∧
              let c := if g.pkt.bcast then x.bc else x.node
              let b := payloadOf item
              (g.pkt.ty = 2 → x.mask = d.mask ||| BitVec.ofNat 64 (fieldAt b 0 8) ∧ c.saidTg = some (fieldAt b 8 4) ∧
                c.saidPm = some (fieldAt b 12 4)) ∧
              (g.pkt.ty = 6 → x.mask = d.mask ∧ c.saidPkt = some (fieldAt b 0 4))) ∧
            (clearOkTrailer item = false → x.ok = d.ok ∧ x.mask = d.mask ∧ x.fsFail = (d.fsFail || g.pkt.ty == 2) ∧
              u.streams[g.stream].ctr[19] = s.streams[g.stream].ctr[19].bump)))) ∧
  (
  ∀ (s : State) (e : Fin 8) (g : EngPkt) (r : List EngPkt) (d : SDec) (item : List Byte), s.engs[e] = g :: r →
    s.streams[g.stream].dec = some d → g.pkt.ty = 3 → g.registered = true → (s.readPkt g.stream g.pkt (6 + e.val)).2 = some item →
    s.tgRuns 0 = true → s.dram.bad = [] → s.dram.faults = [] → s.dram.epochUe = [] →
    (clsOf item).slot ≠ 0 → s.keyFor (clsOf item).slot (clsOf item).frame = none →
    s.clearOnly (s.takers g.stream g.pkt.layer) = false →
    ∃ u, exec (.decodePacketDone e) s = .next u ∧ (∃ x, u.streams[g.stream].dec = some x ∧
      ∀ k ∈ s.takers g.stream g.pkt.layer, k ∈ x.bad) ∧
      u.streams[g.stream].ctr[18] = s.streams[g.stream].ctr[18].bump ∧ u.streams[g.stream].ctr[26] = s.streams[g.stream].ctr[26] ∧
      u.streams[g.stream].ctr[30] = s.streams[g.stream].ctr[30] ∧ u.err.total = s.err.total + 1) ∧
  (
  ∀ (w h i : Nat) (ref : Nat → Nat → Nat) (b : List Byte), 0 < w → 0 < h → i < tilesX w * tilesY h →
    let r := tileRect w h i
    let hd := fieldAt b 0 4
    let dec := decodeRecord false false w h r ref b
    let plain := hd / 8 % 2 = 0 ∧ hd / 64 % 1024 = 0 ∧ (hd % 8 < 2 → hd / 16 % 4 = 0)
    (b.length < 4 → dec = .error 0x04) ∧
    (4 ≤ b.length →
      (6 ≤ hd % 8 → dec = .error 0x01) ∧
      (hd % 8 < 6 → ¬plain → dec = .error 0x02) ∧
      (hd % 8 < 6 → plain → b.length < 4 + hd / 65536 → dec = .error 0x04) ∧
      (plain → 4 + hd / 65536 ≤ b.length →
        (hd % 8 = 0 ∨ hd % 8 = 3 → hd / 65536 ≠ 0 → dec = .error 0x03) ∧
        (hd % 8 = 1 → hd / 65536 ≠ 4 → dec = .error 0x03) ∧ (hd % 8 = 2 → hd / 65536 ≠ 6 → dec = .error 0x03) ∧
        (hd % 8 = 0 → hd / 65536 = 0 → ∃ out, dec = .ok out ∧
          out.samples = (List.range (r.tw * r.th)).map fun j => ref (r.x0 + j % r.tw) (r.y0 + j / r.tw)) ∧
        (hd % 8 = 3 → hd / 65536 = 0 → ∃ out, dec = .ok out ∧ out.samples = List.replicate (r.tw * r.th) 0))))

/-- R99, R100: the lossless profile loses nothing. The record that the frame-cache encoder makes of any tile decodes, against the same
reference, to the same samples, with no syntax error. -/
def Obligations.LosslessTileRoundTrip : Prop :=
  ∀ (w h i : Nat) (l : List Nat) (ref : Nat → Nat → Nat), 0 < w → 0 < h → w ≤ 16384 → h ≤ 16384 → i < tilesX w * tilesY h →
    let r := tileRect w h i
    l.length = r.tw * r.th → (∀ v ∈ l, v < 2 ^ 36) →
    let same := (List.range l.length).all fun j => l.getD j 0 == ref (r.x0 + j % r.tw) (r.y0 + j / r.tw)
    ∃ out, decodeRecord true false w h r ref (encodeTile r.tw same l) = .ok out ∧ out.samples = l ∧
      out.len = (encodeTile r.tw same l).length

/-! ### Check values and blits -/

/-- R265, R266, R497, R498: the CRC units. `CRCSET` loads a configuration and the initial value, or faults with subcode 0x20 on a width
or polynomial out of range; `CRCGET` returns the running value, or with FN bit 3 the final one, and leaves both; `CRCPUT` resumes a value
that `CRCGET` took under the same configuration; CU7 faults with 0x23. Units that the instruction does not name keep their value.
R265, R497: `CRCRUN` feeds RC bytes from offset RB of buffer RA in order, stores nothing, and an uncorrectable burst ends the run
with FLT_MEM_UE after the bytes before it. The asynchronous form goes on at once with RD = 0 and Z = 1 (R233, R250). Feeding a range in
two parts gives what feeding it whole gives.
Where the rules leave a corner open, what it says is the model's choice: logs 10 and 36. -/
def Obligations.CrcUnitsAndRuns : Prop :=
  (
  ∀ (s : State) (t : Tid) (w : IWord) (c : Fin 7), s.canIssue t 1 → w.ue = false →
    let th := s.thread t
    let use : Use := { units := [.cu c.val] }
    let cu := vget s.cus c.val
    let b := w.block th 32
    let wid := fieldAt b 0 1
    let fl := fieldAt b 1 1
    let goes := fun (i : Instr) (d : Done) (x : Cu) => ∃ u, exec i s = .next u ∧ ThreadTo s u t (th.atUnit w (some d)) ∧
      (vget u.cus c.val).cfg = x.cfg ∧ (vget u.cus c.val).run = x.run ∧ (∀ k, k < 8 → k ≠ c.val → vget u.cus k = vget s.cus k) ∧
      u = { s.registered t use with threads := u.threads, cus := u.cus }
    (w.fn.toNat % 8 = 7 → exec (.crcset t w) s = .next (s.faultAt t .state 0x23 th.pc) ∧
      exec (.crcget t w) s = .next (s.faultAt t .state 0x23 th.pc) ∧ exec (.crcput t w) s = .next (s.faultAt t .state 0x23 th.pc)) ∧
    (w.fn.toNat % 8 = c.val →
      (wid = 0 ∨ 64 < wid ∨ 2 ^ wid ≤ fieldAt b 8 8 → exec (.crcset t w) s = .next (s.faultAt t .state 0x20 th.pc)) ∧
      (s.unitFree t use →
        (1 ≤ wid → wid ≤ 64 → fieldAt b 8 8 < 2 ^ wid → goes (.crcset t w) (.code 0)
          { cu with
            cfg := { width := wid, refin := fl.testBit 0, refout := fl.testBit 1, alive := fl.testBit 2, poly := fieldAt b 8 8
                     xorout := fieldAt b 0x18 8 % 2 ^ wid }
            run := BitVec.ofNat 64 (if fl.testBit 2 then fieldAt b 0x10 8 % 2 ^ 9 + fieldAt b 0x10 8 / 2 ^ 16 % 2 ^ 32 * 2 ^ 16
              else fieldAt b 0x10 8 % 2 ^ wid) }) ∧
        goes (.crcget t w) (.codeRc 0 (if w.fn.getLsbD 3 then cu.cfg.final cu.run.toNat else cu.run.toNat)) cu ∧
        ((∃ k, k < 8 ∧ (cu.cfg, th.reg w.rb) ∈ (vget s.cus k).taken) →
          goes (.crcput t w) (.code 0) { cu with run := th.reg w.rb })))) ∧
  (
  (∀ (s : State) (t : Tid) (w : IWord) (c : Fin 7) (b : Buf), s.canIssue t 1 → w.fn.toNat % 8 = c.val →
    let th := s.thread t
    let h := (th.reg w.ra).toNat % 4096
    let off := (th.reg w.rb).toNat
    let n := (th.reg w.rc).toNat
    let use : Use := { units := [.cu c.val], handles := [h], reads := [.ofBytes h off n] }
    let fed := fun (k : Nat) => BitVec.ofNat 64 ((vget s.cus c.val).cfg.feed (vget s.cus c.val).run.toNat (Memory.readN s.mem (b.base + off) k))
    s.checkOpen t h = .ok b → off + n ≤ b.len → s.unitFree t use →
    ∃ u, exec (.crcrun t w) s = .next u ∧ u.mem = s.mem ∧ u.bufs = s.bufs ∧ (∀ k, k < 8 → k ≠ c.val → vget u.cus k = vget s.cus k) ∧
      (s.dram.suspects (b.base + off) n = [] → (vget u.cus c.val).run = fed n ∧
        u = { s with threads := u.threads, sboard := u.sboard, nextOp := u.nextOp, dram := u.dram, cus := u.cus } ∧
        (w.fn.getLsbD 7 = false → ThreadTo s u t (th.atUnit w (some (.code 0))))) ∧
      (∀ a, s.dram.faults = [] → (s.dram.suspects (b.base + off) n).find? s.dram.unreadable = some a → (vget u.cus c.val).run = fed (a - (b.base + off)) ∧
        u.err.total = s.err.total + 1 ∧
        (w.fn.getLsbD 7 = false → (u.thread t).done = some { wrRd := false, flt := some (.memUe, 0) })) ∧
      (w.fn.getLsbD 7 = true → (u.thread t).st = .running ∧ (u.thread t).pc = th.pc + 8 ∧ (u.thread t).g = (th.setReg w.rd 0).g ∧
        (u.thread t).fl = { th.fl with z := true } ∧ (u.thread t).scratch = th.scratch ∧
        (u.thread t).async.map (·.op) = th.async.map (·.op) ++ [s.nextOp])) ∧
  (∀ (c : CuCfg) (r : Nat) (x y : List Byte), c.feed r (x ++ y) = c.feed (c.feed r x) y))

/-- R277, R280, R282: `BLT` faults as its checks say, in their order; a good descriptor joins the end of the engine's queue and the
scoreboard, and the thread waits for it, or goes on in the asynchronous form; a full scoreboard holds it, and with 64 descriptors queued it waits for an entry. Result bit i is bit
4p + 2s + d of ROP.
R277, R285, R287, R289, R291: the engine takes the first descriptor of its queue when it is free and no earlier operation holds it up;
with RES[0] = 0 in force the descriptor gets NO_BUDGET, two passes without room in TMP get NEED_TEMP; a gate waits while its generator
runs, opens at its line, and opens UNGATED when the generator has stopped; the end delivers the result to the waiting thread, or the fault of
a buffer that was sealed in the meantime (R223, R240).
R280, R281, R283, R284, R286, R288, R289: a row of the last pass writes each element's bytes by the ROP from the pattern, source and
destination as they stood, and leaves every other byte of DRAM; its bursts are charged, the row counts, the watermark acts when the count is
WM_ROW. A budget that ends inside the row stops the engine at a burst boundary, and one that reaches none writes nothing.
Where the rules leave a corner open, what it says is the model's choice: log 22. -/
def Obligations.Blits : Prop :=
  (
  (∀ (s : State) (t : Tid) (w : IWord), s.canIssue t 1 → w.ue = false → s.dram.sr = .out →
    let th := s.thread t
    let d := bltOf (w.block th 64)
    (∀ f sub, s.bltCheck t d = .error (f, sub) → exec (.blt t w) s = .next (s.faultAt t f sub th.pc)) ∧
    (s.bltCheck t d = .ok () → s.full t = true → exec (.blt t w) s = .next (s.hold t (.blt t w))) ∧
    (s.bltCheck t d = .ok () → s.full t = false → ∃ u, exec (.blt t w) s = .next u ∧
      u = { s with threads := u.threads, sboard := u.sboard, nextOp := s.nextOp + 1, blt := u.blt } ∧
      u.sboard.map (·.op) = s.sboard.map (·.op) ++ [s.nextOp] ∧ u.blt.cur = s.blt.cur ∧
      (w.fn.getLsbD 7 = false → ThreadTo s u t (th.atUnit w none) ∧
        u.blt.queue = s.blt.queue ++ [{ op := s.nextOp, thread := t, who := .thread t, d := d }]) ∧
      (w.fn.getLsbD 7 = true → u.blt.queue = s.blt.queue ++ [{ op := s.nextOp, thread := t, who := .async t s.nextOp, d := d }] ∧
        (u.thread t).pc = th.pc + 8 ∧ (u.thread t).g = (th.setReg w.rd 0).g ∧
        (s.blt.queue.length < 64 → (u.thread t).st = .running) ∧
        (64 ≤ s.blt.queue.length → (u.thread t).st = .waiting ∧ (u.thread t).wait = .entry s.nextOp)))) ∧
  (∀ (s : State) (t : Tid) (d : BltDesc) (b : Buf), s.syncOp t = none → d.readsS = false → d.tmp = 0 → 0 < d.dst → d.dst < 4032 →
    tabFind s.bufs.table d.dst = some b → b.owner = some t → b.dying = false →
    (s.bltFields d = false → s.bltCheck t d = .error (.state, 0x20)) ∧
    (s.bltFields d = true → b.len < d.dstOff + ((d.height - 1) * d.dstPitch + d.width * d.size) → s.bltCheck t d = .error (.state, 0x22)) ∧
    (s.bltFields d = true → d.dstOff + ((d.height - 1) * d.dstPitch + d.width * d.size) ≤ b.len →
      s.bltCheck t d = if s.lockedBlt d.dst then .error (.state, 0x07) else .ok ())) ∧
  (∀ (rop p x d : Byte) (i : Fin 8),
    (ropByte rop p x d).getLsbD i.val = rop.getLsbD (4 * (p.getLsbD i.val).toNat + 2 * (x.getLsbD i.val).toNat + (d.getLsbD i.val).toNat))) ∧
  (
  ∀ (s : State) (o : BltOp) (rest : List BltOp), s.stopped = false → s.dram.sr = .out →
    let runs := s.tgRuns o.d.gateTg = true ∧ s.tgLines o.d.gateTg ≠ 0
    let limit := s.plan?.map fun p => 1000000 * p.res.getD 0 0
    let room := match tabFind s.bufs.table o.d.tmp with
      | some b => o.d.tmp ≠ 0 ∧ o.d.width * o.d.size * o.d.height ≤ b.len
      | none => False
    (s.blt.cur = none → s.blt.queue = o :: rest → sbBlocked s.sboard o.op = false →
      ∃ (u : State) (x : BltOp), exec .blitDescriptorStart s = .next u ∧ u = { s with blt := { s.blt with cur := some x, queue := rest } } ∧
        x.op = o.op ∧ x.d = o.d ∧ x.who = o.who ∧ x.rows = 0 ∧ x.done = 0 ∧ x.firstPass = o.d.twoPass ∧
        x.flt = (match s.bltRecheck o.thread o.d with | .error (f, sub) => some (f, BitVec.ofNat 8 sub) | .ok _ => none) ∧
        (limit = some 0 → x.res = some 0xC1) ∧
        (limit ≠ some 0 → o.d.twoPass = true → ¬room → x.res = some 0xC0) ∧
        (limit ≠ some 0 → (o.d.twoPass = false ∨ room) → x.res = none ∧
          (o.d.gate = true → runs → x.gateWait = true) ∧ (o.d.gate = true → ¬runs → x.gateWait = false ∧ x.ungated = true) ∧
          (o.d.gate = false → x.gateWait = false ∧ x.ungated = false))) ∧
    (s.blt.cur = some o → o.gateWait = true →
      (o.gateHit = true → exec .blitGateOpen s = .next { s with blt := { s.blt with cur := some { o with gateWait := false } } }) ∧
      (o.gateHit = false → runs → exec .blitGateOpen s = .next s) ∧
      (o.gateHit = false → ¬runs →
        exec .blitGateOpen s = .next { s with blt := { s.blt with cur := some { o with gateWait := false, ungated := true } } })) ∧
    (∀ t, s.blt.cur = some o → o.gateWait = false → o.who = .thread t → (s.thread t).wait = .unit →
      (o.flt.isSome = true ∨ o.res.isSome = true ∨ (o.rows = o.d.height ∧ o.firstPass = false)) →
      let r : Done := match o.flt, o.res with
        | some f, _ => { wrRd := false, flt := some f, blt := true }
        | none, some r => { val := BitVec.ofNat 64 r.toNat, blt := true }
        | none, none => { val := if o.ungated then 0xC3 else 0, blt := true }
      exec .blitComplete s = .next { s.setThread t { s.thread t with done := some r } with
        sboard := s.sboard.filter fun e => e.op != o.op, blt := { s.blt with cur := none } })) ∧
  (
  ∀ (s : State) (o : BltOp) (b : Buf), s.stopped = false → s.canonical → s.blt.cur = some o → o.gateWait = false → o.res = none → o.flt = none →
    o.firstPass = false → o.rows < o.d.height → 0 < o.d.size → o.done < o.d.width → tabFind s.bufs.table o.d.dst = some b →
    s.dram.bad = [] → s.dram.faults = [] → s.dram.epochUe = [] →
    let d := o.d
    let r := s.bltRow o
    let cost := fun (k : Nat) => r.cost d k d.readsD - r.cost d o.done d.readsD
    let limit := s.plan?.map fun p => 1000000 * p.res.getD 0 0
    let todo := fun (x : Nat) => o.done ≤ if d.down then d.width - 1 - x else x
    ((∀ m, limit = some m → cost d.width ≤ m - s.blt.spent) → ∃ u, exec .blitRowComplete s = .next u ∧
      (∀ x j, x < d.width → todo x → j < d.size → Memory.read u.mem (r.pa + (x * d.size + j)) =
        ropByte d.rop (BitVec.ofNat 8 (d.pattern x r.y / 256 ^ j))
          (match r.src with | some (_, a) => Memory.read s.mem (a + (x * d.size + j)) | none => 0)
          (Memory.read s.mem (r.pa + (x * d.size + j)))) ∧
      (∀ a, (∀ x j, x < d.width → todo x → j < d.size → a ≠ r.pa + (x * d.size + j)) → Memory.read u.mem a = Memory.read s.mem a) ∧
      (∃ x : BltOp, u.blt.cur = some x ∧ x.rows = o.rows + 1 ∧ x.done = 0 ∧ x.op = o.op ∧ x.res = none) ∧
      u.blt.spent = s.blt.spent + cost d.width ∧ (∀ v, v ≠ o.thread → u.thread v = s.thread v) ∧
      (u.thread o.thread).evt = (if d.wmSig ∧ o.rows + 1 = d.wmRow then (s.thread o.thread).evt ||| BitVec.ofNat 32 (2 ^ (16 + d.wmBit))
        else (s.thread o.thread).evt) ∧
      (d.wmInt = true → o.rows + 1 = d.wmRow → u.host.cause.getLsbD o.thread.val = true) ∧
      (d.wmInt = false ∨ o.rows + 1 ≠ d.wmRow → u.host = s.host) ∧
      u = { s with
        mem := u.mem, dram := u.dram, nextOp := u.nextOp, bufs := u.bufs, blt := u.blt, sboard := u.sboard, threads := u.threads
        host := u.host }) ∧
    (∀ m, limit = some m →
      (∀ k, o.done < k → k ≤ d.width → r.cutAt d k = true → m - s.blt.spent + r.cost d o.done d.readsD < r.cost d k d.readsD) →
      exec .blitRowComplete s = .next s) ∧
    (∀ k, s.bltReach o = k → o.done < k → k < d.width → ∃ u, exec .blitRowComplete s = .next u ∧
      u.blt.cur = some { o with done := k } ∧ u.threads = s.threads ∧ u.host = s.host))

/-! ### The fabric and its documents -/

/-- R427-R430, R432: bring-up of a port. An attempt fails on a partner that may not be met, on an empty set of common lanes, and at its
timeouts; a failed attempt leads to BACKOFF, the 8th in a row to ABSENT. The lanes chosen are the first set of R430 within the common ones.
BACKOFF ends in a new attempt, and so does a partner that appears, with the failure count at 0. Other ports keep their state.
R412, R413, R431, R433: link authentication and lane loss. A HELLO is answered with the signed transcript; a PROOF that verifies makes the
port UP, RESTRICTED unless this device is ENROLLED, with LSEQ starting at 1, and one that does not makes it REFUSED with record 0x1102. Lane
loss stops the port without taking it down; the retrained width never exceeds the one before, and no lane left makes the port DOWN.
Where the rules leave a corner open, what it says is the model's choice: logs 8 and 18. -/
def Obligations.PortBringUpAndLinks : Prop :=
  (
  ∀ (s : State) (p : Fin 8) (own other : BitVec 8) (q : BitVec 3),
    let y := s.fab.ports[p]
    let goes := fun (c : Instr) (st : PortState) (fails lanes : Nat) (recs : BitVec 64) => ∃ u, exec c s = .next u ∧
      u.fab.ports[p].st = st ∧ u.fab.ports[p].fails = fails ∧ u.fab.ports[p].lanes = lanes ∧
      (∀ j, j ≠ p → u.fab.ports[j] = s.fab.ports[j]) ∧ u.err.total = s.err.total + recs ∧
      u = { s with fab := u.fab, err := u.err, queues := u.queues, host := u.host, threads := u.threads }
    let fails := fun (c : Instr) => if y.fails < 7 then goes c .backoff (y.fails + 1) 0 1 else goes c .absent (y.fails + 1) 0 2
    let meets := (p.val < 4 → q.toNat < 4 ∧ q.toNat / 2 = p.val / 2 ∧ q.toNat ≠ p.val) ∧ (4 ≤ p.val → 4 ≤ q.toNat)
    let common := (own &&& other).toNat
    let width := if common = 255 then 8 else if common % 16 = 15 ∨ common / 16 = 15 then 4
      else if common % 4 = 3 ∨ common / 4 % 4 = 3 ∨ common / 16 % 4 = 3 ∨ common / 64 = 3 then 2 else 1
    (y.st = .down → 6 ≤ s.boot.stage.toNat → s.boot.stopped = false → goes (.fabricTrainingAttempt p) .training y.fails 0 0) ∧
    (y.st = .training → (¬meets → fails (.fabricTrained p own other q)) ∧
      (meets → common = 0 → fails (.fabricTrained p own other q)) ∧
      (meets → common ≠ 0 → goes (.fabricTrained p own other q) .authenticating y.fails width 0 ∧
        ∃ u, exec (.fabricTrained p own other q) s = .next u ∧ u.fab.ports[p].seen = own ∧
          ∃ fs, u.fab.ports[p].tx1 = y.tx1 ++ fs ∧ (fs.map TxFrame.payload).flatten = u.fab.ports[p].hello ∧
            ∀ f ∈ fs, f.hdr.ftype = 1 ∧ f.hdr.tc = 1 ∧ f.hdr.bcast = false) ∧
      fails (.fabricTrainingTimeout p own)) ∧
    (y.st = .backoff → goes (.backoffExpiry p) .training y.fails 0 0) ∧
    (y.st = .backoff ∨ y.st = .absent → goes (.partnerDetected p) .training 0 0 0) ∧
    (y.st = .absent → exec (.fabricBeacon p) s = .next s) ∧
    (y.st = .authenticating → fails (.authTimeout p)) ∧
    (y.st = .refused → goes (.refusedPortLockLoss p) .down y.fails 0 0)) ∧
  (
  (∀ (s : State) (p : Fin 8) (nonce : BitVec 384) (serial : BitVec 64) (node : BitVec 16) (dik dek sig : List Byte),
    s.fab.ports[p].st = .authenticating →
    let y := s.fab.ports[p]
    let hello := helloBytes nonce serial node.toNat dik dek
    let msg := leBytes 48 (Config.sha384 (if Config.serial.toNat ≤ serial.toNat then y.hello ++ hello else hello ++ y.hello)).toNat
    (∃ u fs, exec (.authFrame p (.hello nonce serial node dik dek)) s = .next u ∧
      u = { s with fab := { s.fab with
        ports := s.fab.ports.set p.val { y with partner := some ⟨serial, node, nonce, dik, dek, false⟩, tx1 := y.tx1 ++ fs } } } ∧
      (fs.map TxFrame.payload).flatten = Config.dikSign msg ∧ ∀ f ∈ fs, f.hdr.ftype = 1 ∧ f.hdr.tc = 1) ∧
    (y.partner = some ⟨serial, node, nonce, dik, dek, false⟩ → ∃ u, exec (.authFrame p (.proof sig)) s = .next u ∧
      (∀ j, j ≠ p → u.fab.ports[j] = s.fab.ports[j]) ∧ u.fab.ports[p].fails = 0 ∧
      (Config.certsChain dik dek = true ∧ Config.ecdsaOk (Config.dikKey dik) msg sig = true →
        u.fab.ports[p].st = .up ∧ u.fab.ports[p].lseqTx = 1 ∧ u.fab.ports[p].lseqRx = 0 ∧ u.fab.ports[p].link ≠ .none ∧
        (s.enrolled = false → u.fab.ports[p].link = .restricted) ∧ ∀ t : Tid, (u.thread t).evt.getLsbD 10 = true) ∧
      (Config.certsChain dik dek = false ∨ Config.ecdsaOk (Config.dikKey dik) msg sig = false →
        u.fab.ports[p].st = .refused ∧ u.err.total = s.err.total + 1))) ∧
  (∀ (s : State) (p : Fin 8) (lost own other : BitVec 8), s.fab.ports[p].st = .up →
    let y := s.fab.ports[p]
    exec (.fabricLaneLoss p lost) s = .next { s with fab := { s.fab with
      ports := s.fab.ports.set p.val { y with retrain := true, seen := y.seen &&& ~~~lost } } } ∧
    (y.retrain = true → ∃ u, exec (.fabricRetrainDone p own other) s = .next u ∧ (∀ j, j ≠ p → u.fab.ports[j] = s.fab.ports[j]) ∧
      (y.seen &&& own &&& other = 0 → u.fab.ports[p].st = .down ∧ u.fab.ports[p].fails = 0) ∧
      (y.seen &&& own &&& other ≠ 0 → 0 < y.lanes → u.fab.ports[p].st = .up ∧ u.fab.ports[p].retrain = false ∧
        u.fab.ports[p].lanes ≤ y.lanes ∧ 0 < u.fab.ports[p].lanes ∧ u.fab.ports[p].link = y.link ∧ u.fab.ports[p].lseqTx = y.lseqTx ∧
        u.err.total = s.err.total + 1 ∧ ∀ t : Tid, (u.thread t).evt.getLsbD 10 = true))))

/-- R438-R440, R444, R445: the checks of a received frame in the order of Table 18-5, the first that fails dropping it in its counter; then a
one-frame MSG for this node goes to Q24 + p whole, or counts in RX_DROP, and one for another node leaves by the next hop with TTL − 1.
R53, R54, R295: a CLS item at the head of Q24 + p goes to the ingest queue of the lowest-numbered attached stream with its CLIP_ID, marked as
one that came over the fabric, or counts in its OVERRUN when it does not fit; one for no stream, or with a bad header, counts in CLS_DROP. Other
queues keep their items.
Where the rules leave a corner open, what it says is the model's choice: log 18. -/
def Obligations.FabricReceive : Prop :=
  (
  ∀ (s : State) (p : Fin 8) (f : FabFrame), s.fab.ports[p].st = .up → s.fab.ports[p].retrain = false →
    let y := s.fab.ports[p]
    let h := f.hdr
    let iv := leBytes 4 y.rxSalt.toNat ++ leBytes 8 h.lseq.toNat
    let body := Config.gcmPlain y.rxKey iv f.payload
    let drop := fun (c : Fin 12) (lseq : BitVec 64) => exec (.fabricFrameReceive p f) s = .next { s with fab := { s.fab with
      ports := s.fab.ports.set p.val { y with lseqRx := lseq, ctr := y.ctr.set c.val y.ctr[c].bump } } }
    let allowed := (h.ftype = 0 ∧ h.tc = 0) ∨ (h.ftype = 2 ∧ (h.tc = 1 ∨ h.tc = 3)) ∨ (h.ftype = 3 ∧ h.tc ≠ 0) ∨
      ((h.ftype = 1 ∨ h.ftype = 4 ∨ h.ftype = 5) ∧ h.tc = 1)
    let clean := h.rsvd = false ∧ h.len.toNat ≤ 2048 ∧ allowed
    (f.symErr = true → drop 0 y.lseqRx) ∧
    (f.symErr = false → f.ue = true → drop 1 y.lseqRx) ∧
    (f.symErr = false → f.ue = false → f.crcErr = true → drop 2 y.lseqRx) ∧
    (f.symErr = false → f.ue = false → f.crcErr = false →
      (Config.gcmTag y.rxKey iv h.bytes f.payload ≠ f.tag → drop 3 y.lseqRx) ∧
      (Config.gcmTag y.rxKey iv h.bytes f.payload = f.tag →
        (h.lseq.toNat ≤ y.lseqRx.toNat → drop 4 y.lseqRx) ∧
        (y.lseqRx.toNat < h.lseq.toNat →
          (¬clean → drop 5 h.lseq) ∧
          (clean → 2 ≤ h.tc.toNat → y.link = .restricted → drop 6 h.lseq) ∧
          (clean → h.tc.toNat < 2 ∨ y.link ≠ .restricted → s.safe = false → h.ftype = 2 → h.bcast = false → h.first = true → h.last = true →
            vget y.ctx h.tc.toNat = none →
            (s.node? = some h.dst.toNat → s.queues[24 + p.val].wmark = false → s.queues[24 + p.val].upset = none → ∃ u, exec (.fabricFrameReceive p f) s = .next u ∧
              u.fab.ports[p].lseqRx = h.lseq ∧
              (itemSpace body ≤ s.queues[24 + p.val].space → u.queues[24 + p.val].ready = s.queues[24 + p.val].ready ++ [body]) ∧
              (s.queues[24 + p.val].space < itemSpace body → u.queues[24 + p.val].ready = s.queues[24 + p.val].ready ∧
                u.fab.ports[p].ctr[10] = y.ctr[10].bump)) ∧
            (s.node? ≠ some h.dst.toNat →
              (h.ttl.toNat ≤ 1 → drop 7 h.lseq) ∧
              (2 ≤ h.ttl.toNat → s.nextHop h.dst.toNat h.tc.toNat h.detour = none → drop 8 h.lseq) ∧
              (∀ q d, 2 ≤ h.ttl.toNat → s.nextHop h.dst.toNat h.tc.toNat h.detour = some (q, d) →
                ∃ u x, exec (.fabricFrameReceive p f) s = .next u ∧ u = { s with fab := { s.fab with ports := u.fab.ports } } ∧
                  (h.tc = 1 → u.fab.ports[q].tx1 = s.fab.ports[q].tx1 ++ [x]) ∧ (h.tc = 3 → u.fab.ports[q].tx3 = s.fab.ports[q].tx3 ++ [x]) ∧
                  x.payload = body ∧ x.source = some p ∧ x.hdr.ttl = h.ttl - 1 ∧ x.hdr.dst = h.dst ∧ x.hdr.detour = d))))))) ∧
  (
  ∀ (s : State) (p : Fin 8),
    let q : Fin 64 := ⟨24 + p.val, by omega⟩
    let y := s.fab.ports[p]
    (s.stopped = true ∨ s.queues[q].ready = [] ∨ s.queues[q].tag = false → exec (.fabricClsMove p) s = .next s) ∧
    (∀ (item : List Byte) (q' : Queue), s.stopped = false → s.queues[q].take = some (item, q') → s.queues[q].tag = true → s.queues[q].upset = none →
      s.dram.bad = [] → s.dram.faults = [] → s.dram.epochUe = [] →
      let h := clsOf item
      ∃ u, exec (.fabricClsMove p) s = .next u ∧ u.queues[q].ready = q'.ready ∧ u.queues[q].tags = q'.tags ∧ u.queues[q].rpos = q'.rpos ∧
        (item.length < 64 ∨ h.first4 ≠ none ∨ (∀ i : Fin 16, s.streams[i].st = .detached ∨ s.streams[i].clipId.toNat ≠ h.clip) →
          u.fab.ports[p].clsDrop = y.clsDrop.bump ∧ u.mem = s.mem ∧ u.streams = s.streams ∧ ∀ k : Fin 64, k ≠ q → k ≠ 41 → u.queues[k] = s.queues[k]) ∧
        (∀ i : Fin 16, 64 ≤ item.length → h.first4 = none → s.streams[i].st ≠ .detached → s.streams[i].clipId.toNat = h.clip →
          (∀ j, j < i → s.streams[j].st = .detached ∨ s.streams[j].clipId.toNat ≠ h.clip) →
          let g : Fin 64 := ⟨8 + i.val, by omega⟩
          u.fab.ports[p].clsDrop = y.clsDrop ∧ (∀ k : Fin 64, k ≠ q → k ≠ g → k ≠ 41 → u.queues[k] = s.queues[k]) ∧
          (itemSpace item ≤ s.queues[g].space → s.queues[g].wmark = false → s.queues[g].upset = none →
            u.queues[g].ready = s.queues[g].ready ++ [item] ∧ u.queues[g].tags = s.queues[g].tags ++ [true] ∧ u.streams = s.streams) ∧
          (s.queues[g].space < itemSpace item → u.queues[g] = s.queues[g] ∧ u.mem = s.mem ∧ u.streams[i].ctr[16] = s.streams[i].ctr[16].bump ∧
            ∀ j : Fin 16, j ≠ i → u.streams[j] = s.streams[j]))))

/-- R414, R443, R444, R446, R447: what a port sends next: class 0, then class 1, then class 2 in a marked slot with room, then its own oldest
item when its class may go, then transit class 3, which waits in a marked slot. A slot start counts late class-2 frames in ISO_LATE and takes
a new mask at SLOT_EPOCH and a new link outcome at the superframe.
Where the rules leave a corner open, what it says is the model's choice: log 18. -/
def Obligations.FabricTransmitOrder : Prop :=
  (∀ (s : State) (p : Fin 8) (room used : Bool), s.fab.ports[p].st = .up → s.fab.ports[p].retrain = false →
    s.fab.ports[p].waiting = [] → s.safe = false → (∀ tc, tc < 4 → vget s.fab.ports[p].openTx tc = none) →
    let y := s.fab.ports[p]
    let marked := y.mask.getLsbD y.slot
    let sends := fun (f : TxFrame) (a0 a1 a2 a3 : List TxFrame) => ∃ u, exec (.fabricTransmitOpportunity p room used) s = .next u ∧
      (∃ b, u.fab.ports[p].sent = some ({ f.hdr with lseq := y.lseqTx }, b) ∧ (f.hdr.ftype ≠ 0 → b = f.payload)) ∧
      u.fab.ports[p].lseqTx = y.lseqTx + 1 ∧ u.fab.ports[p].tx0 = a0 ∧ u.fab.ports[p].tx1 = a1 ∧ u.fab.ports[p].tx2 = a2 ∧
      u.fab.ports[p].tx3 = a3 ∧ (∀ j, j ≠ p → u.fab.ports[j] = s.fab.ports[j]) ∧ u = { s with fab := { s.fab with ports := u.fab.ports } }
    ((marked = true → used = false) →
      (∀ f r, y.tx0 = f :: r → sends f r y.tx1 y.tx2 y.tx3) ∧
      (∀ f r, y.tx0 = [] → y.tx1 = f :: r → sends f y.tx0 r y.tx2 y.tx3)) ∧
    (y.tx0 = [] → y.tx1 = [] →
      (∀ f r, y.tx2 = f :: r → marked = true → room = true → sends f [] [] r y.tx3) ∧
      (y.own = [] → (marked = false ∨ room = false) → y.tx3 = [] → exec (.fabricTransmitOpportunity p room used) s = .next s) ∧
      (∀ f r, y.own = [] → y.tx3 = f :: r → marked = false → sends f [] [] y.tx2 r) ∧
      (∀ x r, y.own = x :: r → y.tx2 = [] → x.tc = 3 → (marked = true → exec (.fabricTransmitOpportunity p room used) s = .next s) ∧
        (marked = false → x.sentBytes + 2048 < x.bytes.length → sends x.frame [] [] [] y.tx3 ∧
          x.frame.payload = (x.bytes.drop x.sentBytes).take 2048)))) ∧
  (∀ (s : State) (p : Fin 8) (k : Fin 256), let y := s.fab.ports[p]
    (k ≠ 0 → exec (.fabricSlotStart p k) s = .next { s with fab := { s.fab with ports := s.fab.ports.set p.val { y with slot := k.val } } }) ∧
    (k = 0 → ∃ u, exec (.fabricSlotStart p k) s = .next u ∧ u.fab.ports[p].slot = 0 ∧
      (y.own = [] → u.fab.ports[p].ctr[11] = y.ctr[11].bump y.tx2.length) ∧ u.fab.ports[p].link = y.linkNext.getD y.link ∧
      (∀ m e, y.maskNext = some (m, e) → u.fab.ports[p].mask = (if e ≤ s.fab.ft then m else y.mask)) ∧
      (y.maskNext = none → u.fab.ports[p].mask = y.mask) ∧ (∀ j, j ≠ p → u.fab.ports[j] = s.fab.ports[j]) ∧
      u = { s with fab := { s.fab with ports := u.fab.ports } }))

/-- R267, R449, R450, R452, R453: `FTIME` returns fabric time or the wall frame, and UNLOCKED outside LOCKED and PLANET. The comet timer
queues one comet on every UP port; a device with coordinates that hears no planet becomes PLANET, with WALL_ORIGIN at the next whole second plus
1 s when it had never been locked; a planet that falls silent is dropped into HOLDOVER, and fabric time does not step.
Where the rules leave a corner open, what it says is the model's choice: log 18. -/
def Obligations.FabricTime : Prop :=
  (∀ (s : State) (t : Tid) (w : IWord), s.canIssue t 1 →
    let th := s.thread t
    let v : Reg := BitVec.ofNat 64 (if w.fn.getLsbD 0 then s.wallFrame else s.fab.ft)
    let r : Reg := if s.fab.tstate = .locked ∨ s.fab.tstate = .planet then 0 else 0x62
    exec (.ftime t w) s = .next (s.setThread t
      { (th.setReg w.rc v).setReg w.rd r with pc := th.pc + 8, fl := { th.fl with z := r == 0 } })) ∧
  (∀ s : State, ∃ u, exec .cometTimer s = .next u ∧ u.fab.ft = s.fab.ft ∧
    u.fab.planetSeqOut = (if u.fab.tstate = .planet then s.fab.planetSeqOut + 1 else s.fab.planetSeqOut) ∧
    (∀ p : Fin 8, (s.fab.ports[p].st = .up → s.fab.ports[p].retrain = false → ∃ f : TxFrame,
        u.fab.ports[p] = { s.fab.ports[p] with tx0 := s.fab.ports[p].tx0 ++ [f] } ∧ f.hdr.ftype = 0 ∧ f.hdr.tc = 0 ∧ f.payload.length = 64) ∧
      (s.fab.ports[p].st ≠ .up → u.fab.ports[p] = s.fab.ports[p])) ∧
    (∀ a, s.node? = some a → (∀ p : Fin 8, s.fab.ports[p].st ≠ .up) → s.fab.parent = none → s.fab.tstate ≠ .planet →
      u.fab.tstate = .planet ∧ u.fab.planet = some a ∧ u.fab.hops = 0 ∧
      u.fab.wallOrigin = (if s.fab.everLocked then s.fab.wallOrigin else ((s.fab.ft + 999999999) / 1000000000 + 1) * 1000000000))) ∧
  (∀ (s : State) (p : Fin 8) (a : Nat), s.fab.parent = some p → s.fab.planet = some a → ∃ u, exec .planetTimeout s = .next u ∧
    u.fab.tstate = .holdover ∧ u.fab.planet = none ∧ u.fab.parent = none ∧ u.fab.hops = 255 ∧ u.fab.ft = s.fab.ft ∧
    u.fab.ports = s.fab.ports ∧ (s.tg0.src ≠ 0 → u.err.total = s.err.total + 1))

/-- R234, R267, R268, R440, R455, R458: `FSEND` sends one MSG item by the next hop, or returns NO_ROUTE or TX_FULL with nothing sent;
`FGROUP` faults with 0x17 unless fabric time is locked and the time at least 1 ms ahead, returns FAB_REFUSED for a block that breaks Table
18-7, and otherwise sends its 72 bytes as a class-1 broadcast on every UP cardinal port.
Where the rules leave a corner open, what it says is the model's choice: log 18. -/
def Obligations.FsendAndFgroup : Prop :=
  (∀ (s : State) (t : Tid) (w : IWord) (b : Buf), s.canIssue t 1 →
    let th := s.thread t
    let h := (th.reg w.rb).toNat % 4096
    let off := (th.reg w.rc).toNat
    let n := w.imm.toNat % 4096
    let tc := w.fn.toNat % 4
    let dst := (th.reg w.ra).toNat % 4096
    let use : Use := { handles := [h], reads := [.ofBytes h off n] }
    let bytes := Memory.readN s.mem (b.base + off) n
    s.checkOpen t h = .ok b →
    ((tc ≠ 1 ∧ tc ≠ 3) ∨ n = 0 ∨ 2048 < n → exec (.fsend t w) s = .next (s.faultAt t .state 0x20 th.pc)) ∧
    (tc = 1 ∨ tc = 3 → 1 ≤ n → n ≤ 2048 → off + n ≤ b.len → s.unitFree t use → s.dram.suspects (b.base + off) n = [] →
      s.node? ≠ some dst → ∃ u, exec (.fsend t w) s = .next u ∧ u.mem = s.mem ∧ (u.thread t).st = .waiting ∧ (u.thread t).g = th.g ∧
        (s.nextHop dst tc false = none → (u.thread t).done = some (.code 0x60) ∧ u.fab = s.fab ∧ u.queues = s.queues) ∧
        (∀ p d, s.nextHop dst tc false = some (p, d) →
          (s.txRoom p bytes = false → (u.thread t).done = some (.code 0x50) ∧ u.fab = s.fab ∧ u.queues = s.queues) ∧
          (s.txRoom p bytes = true → s.queues[32 + p.val].wmark = false → s.queues[32 + p.val].upset = none → (u.thread t).done = some (.code 0) ∧
            u.queues[32 + p.val].ready = s.queues[32 + p.val].ready ++ [bytes] ∧ ∃ x : TxItem,
            u.fab = { s.fab with ports := s.fab.ports.set p.val { s.fab.ports[p] with own := s.fab.ports[p].own ++ [x] } } ∧
            x.bytes = bytes ∧ x.tc.toNat = tc ∧ x.ftype = 2 ∧ x.bcast = false ∧ x.dst.toNat = dst ∧ x.ttl = 255 ∧ x.detour = d)))) ∧
  (∀ (s : State) (t : Tid) (w : IWord), s.canIssue t 1 → s.unitFree t {} → w.ue = false →
    let th := s.thread t
    let b := w.block th 64
    let time := (th.reg w.rb).toNat
    let target := fieldAt b 4 4
    let legal := groupOk (fieldAt b 0 2) (fieldAt b 2 2) (bytesAt b 8 56) = true ∧ target % 64 ≤ target / 64 % 64 ∧
      target / 4096 % 64 ≤ target / 262144 % 64 ∧ time ≤ s.fab.ft + 10000000000
    (s.ftLocked = false ∨ time < s.fab.ft + 1000000 →
      exec (.fgroup t w) s = .next ((s.registered t {}).faultAt t .state 0x17 th.pc)) ∧
    (s.ftLocked = true → s.fab.ft + 1000000 ≤ time →
      (¬legal → ∃ u, exec (.fgroup t w) s = .next u ∧ ThreadTo s u t (th.atUnit w (some (.code 0x61))) ∧
        u = { s.registered t {} with threads := u.threads }) ∧
      (legal → s.node? ≠ none → (∃ p : Fin 8, p.val < 4 ∧ s.fab.ports[p].st = .up) → ∃ u, exec (.fgroup t w) s = .next u ∧
        (u.thread t).done = some (.code 0) ∧ (u.thread t).st = .waiting ∧
        (∀ p : Fin 8, (p.val < 4 ∧ s.fab.ports[p].st = .up → ∃ f : TxFrame,
            u.fab.ports[p] = { s.fab.ports[p] with tx1 := s.fab.ports[p].tx1 ++ [f] } ∧ f.payload = b ++ leBytes 8 time ∧
            f.hdr.bcast = true ∧ f.hdr.tc = 1 ∧ f.hdr.ftype = 4) ∧
          (4 ≤ p.val ∨ s.fab.ports[p].st ≠ .up → u.fab.ports[p] = s.fab.ports[p])) ∧
        (s.targeted target = true → s.enrolled = true → s.safe = false → s.fab.group.length < 64 →
          u.fab.group.length = s.fab.group.length + 1) ∧
        (s.targeted target = false → u.fab.group = s.fab.group))))

/-- R236, R237, R457: group commands. The one with the earliest time goes first, then the lower node; none runs before its time; one below the
level that holds its resource is dropped with record 0x0907; otherwise it takes effect as the instruction it stands for, holds its resource at
group level, leaves the pending list and sets FABRIC in every thread. RELEASE ends every group hold.
Where the rules leave a corner open, what it says is the model's choice: logs 16 and 18. -/
def Obligations.GroupCommands : Prop :=
  (∀ (l : List GroupCmd) (c : GroupCmd), firstGroup l = some c → c ∈ l ∧ ∀ d ∈ l, c.time < d.time ∨ (c.time = d.time ∧ c.src.toNat ≤ d.src.toNat)) ∧
  (∀ (s : State) (c : GroupCmd), firstGroup s.fab.group = some c → s.sequencing = true →
    let k := c.gop.toNat
    let f := fun o n => fieldAt c.payload o n
    let e : State := { s with fab := { s.fab with group := s.fab.group.erase c } }
    let held := fun (r : Resource) => e.holdAt r .group k
    let runs := fun (i : Instr) (r : Resource) (v : State) => ∃ u, exec i s = .next u ∧ u.fab.group = s.fab.group.erase c ∧
      (⟨r, .group, k⟩ : Hold) ∈ u.holds ∧ (∀ t : Tid, (u.thread t).evt.getLsbD 10 = true) ∧ u.plan = v.plan ∧ u.streams = v.streams ∧
      u.pwr = v.pwr ∧ u.mem = v.mem ∧ u.bufs = v.bufs
    (s.fab.ft < c.time → exec .groupSignal s = .next s ∧ exec .groupLight s = .next s) ∧
    (c.time ≤ s.fab.ft →
      (∀ x, k = 5 → e.higher .light .group = some x → ∃ u, exec .groupLight s = .next u ∧ u.pwr = s.pwr ∧ u.err.total = s.err.total + 1) ∧
      (k = 1 → e.higher .planSlots .group = none → s.plan.slots[Fin.ofNat 8 (f 0 1)].st = .loaded →
        runs .groupCommit .planSlots ((held .planSlots).commit (Fin.ofNat 8 (f 0 1)) (some (f 8 8)) .group 1).1) ∧
      (k = 2 → e.higher .stream .group = none →
        runs .groupPlay .stream ((held .stream).playStream (Fin.ofNat 16 (f 0 1)) (f 8 8) (f 16 8)).1) ∧
      (k = 3 → e.higher .stream .group = none → s.streams[Fin.ofNat 16 (f 0 1)].st ≠ .playing →
        runs .groupSeek .stream ((held .stream).seekStream (Fin.ofNat 16 (f 0 1)) (f 8 8) c.who .group 3).1) ∧
      (k = 4 → e.higher .stream .group = none → s.streams[Fin.ofNat 16 (f 0 1)].st ≠ .playing →
        runs .groupPause .stream (held .stream)) ∧
      (k = 5 → e.higher .light .group = none → s.lightGuard = true ∨ f 0 1 = 0 →
        runs .groupLight .light { e with pwr := { s.pwr with lightReq := f 0 1 == 1 } }) ∧
      (k = 6 → e.higher .selfRefresh .group = none → f 0 1 = 0 → s.scan.st = .scanning → ∃ u, exec .groupSelf s = .next u ∧
        (⟨.selfRefresh, .group, 6⟩ : Hold) ∈ u.holds ∧ u.scan.st = .scanning ∧ u.fab.group = s.fab.group.erase c) ∧
      (k = 7 → ∃ u, exec .groupSignal s = .next u ∧ u.fab.group = s.fab.group.erase c ∧ u.pwr = s.pwr ∧ u.holds = s.holds ∧
        ∀ (t : Tid) (i : Nat), 16 ≤ i → i < 32 → (u.thread t).evt.getLsbD i =
          ((s.thread t).evt.getLsbD i || ((f 0 4).testBit t.val && (f 0 4).testBit i))) ∧
      (k = 8 → f 0 2 + f 2 2 ≤ 4096 → ∃ u, exec .groupRoute s = .next u ∧ u.fab.group = s.fab.group.erase c ∧
        ((s.fab.route.Pairwise fun a b => a.1 < b.1) → ∀ d, tabGet 15 u.fab.route d =
          if f 0 2 ≤ d ∧ d < f 0 2 + f 2 2 then f (4 + (d - f 0 2) / 2) 1 / 16 ^ ((d - f 0 2) % 2) % 16 else tabGet 15 s.fab.route d)) ∧
      (k = 9 → ∃ u, exec .groupRelease s = .next u ∧ u.fab.group = s.fab.group.erase c ∧ u.holds = s.holds.filter fun h => h.level != .group)))

/-- R51, R400, R402, R410: the security processor. A fragment of a document that is not complete is kept and acts on nothing; a broken header,
a third document and the 10 s limit each refuse with record 0x1105 or 0x0304; a grant that passes every check becomes the current key of its
slot and the current one the previous, and one that fails changes no slot.
Where the rules leave a corner open, what it says is the model's choice: log 29. -/
def Obligations.DocumentsAndGrants : Prop :=
  (∀ (s : State) (x : SecItem) (r : List SecItem) (v : Bool), s.secRuns = true → s.sec.inbox = x :: r → x.isGrant = false →
    let b := x.payload
    let id : BitVec 16 := BitVec.ofNat 16 (fieldAt b 2 2)
    (fragOk b = false → ∃ u, exec (.documentFragment v) s = .next u ∧ u.sec.inbox = r ∧ u.err.total = s.err.total + 1 ∧
      u.sec.roster = s.sec.roster ∧ u.sec.seqs = s.sec.seqs ∧ ∀ a ∈ u.sec.docs, a.docId ≠ id) ∧
    (fragOk b = true → 2 ≤ fieldAt b 5 1 → (∀ a ∈ s.sec.docs, a.docId ≠ id) → s.sec.docs.length < 2 →
      exec (.documentFragment v) s = .next { s with sec := { s.sec with
        inbox := r, docs := s.sec.docs ++ [⟨id, fieldAt b 0 1, fieldAt b 5 1, fieldAt b 8 4, [(fieldAt b 4 1, b.drop 16)]⟩] } })) ∧
  (∀ (s : State) (a : DocAsm), s.sec.docs.find? (·.docId == a.docId) = some a → ∃ u, exec (.documentReassemblyTimeout a.docId) s = .next u ∧
    u.err.total = s.err.total + 1 ∧ u.sec = { s.sec with docs := s.sec.docs.filter fun y => y.docId != a.docId }) ∧
  (∀ (s : State) (x : SecItem) (r : List SecItem), s.secRuns = true → s.sec.inbox = x :: r → x.isGrant = true →
    let slot := fieldAt x.payload 5 1
    let s' : State := { s with sec := { s.sec with inbox := r } }
    (∀ sub, s'.grantCheck x.payload = .error sub → ∃ u, exec .keyGrant s = .next u ∧ u.sec = s'.sec ∧ u.err.total = s.err.total + 1) ∧
    (∀ k, s'.grantCheck x.payload = .ok k → ∃ u, exec .keyGrant s = .next u ∧ u.sec.inbox = r ∧
      ((s.sec.keys.Pairwise fun a b => a.1 < b.1) → ∀ n, tabFind u.sec.keys n =
        if n = slot then some { cur := some k, prev := ((tabFind s.sec.keys slot).getD {}).cur } else tabFind s.sec.keys n) ∧
      (∀ c, ((tabFind s.sec.keys slot).getD {}).cur = some c → c.fk < k.fk) ∧ 1 ≤ slot ∧ slot ≤ 63 ∧ s.enrolled = true ∧
      u = { s with sec := u.sec }))

/-! ### The panel and scan-out -/

/-- R234, R269, R380-R382, R389: the panel instructions. `PPOWER.UP` faults with 0x10 by its guard, gives RAIL_FAIL on a confirmed crack with
no rail touched, and otherwise drives the first used rail and waits for its `PGD`; `PPOWER.DOWN` faults with 0x11 while `EMIT_EN` is high and
otherwise lowers the last used rail; `PLIGHT` sets and clears LIGHT_REQ; `PMBX` sends its write bytes with at most two retries; what it
read reaches scratch at its completion.
Where the rules leave a corner open, what it says is the model's choice: log 13. -/
def Obligations.PanelInstructions : Prop :=
  (∀ s : State, s.emitEn = true ↔ s.pwr.lightReq = true ∧ s.pwr.st = .up ∧ s.comp.lightHeld = false ∧ s.pwr.resp = none ∧
    s.pwr.latched = false) ∧
  (∀ (s : State) (t : Tid) (w : IWord) (a b : CrackRun) (drv : List DriverAnswer), s.canIssue t 1 → s.unitFree t { units := [.panel] } →
    let th := s.thread t
    let r := s.registered t { units := [.panel] }
    let guard := s.pwr.st = .down ∧ s.pwr.pfailLow = false ∧ s.pwr.huReady = true ∧ s.pwr.resp = none
    let light := s.pwr.st = .up ∧ (∀ i : Fin 6, s.trim.boardUp.used.getLsbD i.val = true → s.pwr.pgd.getLsbD i.val = true) ∧
      s.pwr.cleared = true ∧ s.comp.lightHeld = false ∧ s.pwr.pfailLow = false
    (¬guard → exec (.ppowerUp t w a b drv) s = .next (r.faultAt t .state 0x10 th.pc)) ∧
    (guard → s.higher .rails .host = none →
      (s.trim.board.crackEn = true → (∃ i k, a = .fail i ∧ b = .fail k) → ∃ u, exec (.ppowerUp t w a b drv) s = .next u ∧
        (u.thread t).done = some (.code 0x70) ∧ u.pwr = { s.pwr with crackFail := true } ∧ u.err.total = s.err.total + 1) ∧
      (∀ i : Fin 6, s.trim.board.crackEn = false ∨ a = .pass ∨ b = .pass → s.trim.board.used.getLsbD i.val = true →
        (∀ j, j < i.val → s.trim.board.used.getLsbD j = false) → s.pwr.pgd.getLsbD i.val = false →
        ∃ u, exec (.ppowerUp t w a b drv) s = .next u ∧ ThreadTo s u t (th.atUnit w none) ∧ u.pwr.st = .rising ∧
          u.pwr.pen = s.pwr.pen ||| BitVec.ofNat 6 (2 ^ i.val) ∧ u.pwr.dsch = 0 ∧
          u.pwr.seq = some { up := true, rail := i.val, since := s.now, who := .thread t } ∧ u.trim.boardUp = s.trim.board)) ∧
    (s.emitEn = true → exec (.ppowerDown t w) s = .next (r.faultAt t .state 0x11 th.pc)) ∧
    (∀ i : Fin 6, s.emitEn = false → s.higher .rails .host = none → s.trim.boardUp.used.getLsbD i.val = true →
      (∀ j, i.val < j → s.trim.boardUp.used.getLsbD j = false) → s.pwr.pgd.getLsbD i.val = true →
      ∃ u, exec (.ppowerDown t w) s = .next u ∧ ThreadTo s u t (th.atUnit w none) ∧ u.pwr.st = .falling ∧
        u.pwr.pen = s.pwr.pen &&& ~~~BitVec.ofNat 6 (2 ^ i.val) ∧ u.scan.gsp = false ∧ u.scan.gck = 0 ∧ u.scan.goe = false ∧
        u.pwr.seq = some { up := false, rail := i.val, since := s.now, who := .thread t } ∧
        (s.pwr.st = .up → u.pwr.lightReq = false ∧ u.pwr.cleared = false)) ∧
    (¬light → exec (.plightOn t w) s = .next (r.faultAt t .state 0x12 th.pc)) ∧
    (light → s.higher .light .host = none → ∃ u, exec (.plightOn t w) s = .next u ∧ ThreadTo s u t (th.atUnit w (some (.code 0))) ∧
      u = { r with threads := u.threads, pwr := { s.pwr with lightReq := true } }) ∧
    (s.higher .light .host = none → ∃ u, exec (.plightOff t w) s = .next u ∧ ThreadTo s u t (th.atUnit w (some (.code 0))) ∧
      u = { r with threads := u.threads, pwr := { s.pwr with lightReq := false } })) ∧
  (∀ (s : State) (t : Tid) (w : IWord) (l : List PmbTry), s.canIssue t 1 → s.unitFree t {} → w.ue = false →
    let th := s.thread t
    let b := w.block th 112
    let r := s.registered t {}
    let sent : Pwr := { s.pwr with pmb := bytesAt b 8 (fieldAt b 1 1) }
    (64 ≤ fieldAt b 0 1 ∨ fieldAt b 1 1 = 0 ∨ 48 < fieldAt b 1 1 ∨ 48 < fieldAt b 2 1 →
      exec (.pmbx t w l) s = .next (s.faultAt t .state 0x20 th.pc)) ∧
    (fieldAt b 0 1 < 64 → 1 ≤ fieldAt b 1 1 → fieldAt b 1 1 ≤ 48 → fieldAt b 2 1 ≤ 48 →
      (s.pwr.st ≠ .up → exec (.pmbx t w l) s = .next (r.faultAt t .state 0x15 th.pc)) ∧
      (s.pwr.st = .up → ∀ x y z rest, l = x :: y :: z :: rest →
        (∀ d, x = .ok d ∨ (pmbOk x = none ∧ y = .ok d) ∨ (pmbOk x = none ∧ pmbOk y = none ∧ z = .ok d) →
          ∃ u, exec (.pmbx t w l) s = .next u ∧
            ThreadTo s u t (th.atUnit w (some { val := 0, scratch := some (w.blockAddr th + 0x40, bytesAt d 0 (fieldAt b 2 1)) })) ∧
            u = { r with threads := u.threads, pwr := sent }) ∧
        (pmbOk x = none → pmbOk y = none → pmbOk z = none → ∃ u, exec (.pmbx t w l) s = .next u ∧
          ThreadTo s u t (th.atUnit w (some (.code (if z = .noAnswer then 0x72 else 0x71)))) ∧
          u = { r with threads := u.threads, pwr := sent }))))

/-- R380, R381, R384-R387, R391, R392: what the always-on domain does. A `PGD` that rises lets the sequence drive the next used rail; a low
`PFAIL_N`, a lost rail and a confirmed crack lower the row outputs and `EMIT_EN` at once and start the response of Table 16-4, whose rails
are all down 1,100 µs after it began; each lower order in force on the light or the rails is recorded as overridden, and hardware safety keeps
both until the response and its cause have ended.
Where the rules leave a corner open, what it says is the model's choice: logs 3 and 39. -/
def Obligations.PanelResponses : Prop :=
  ∀ (s : State),
    let acts := fun (u : State) => u.pwr.st = .falling ∧ u.pwr.lightReq = false ∧ u.pwr.cleared = false ∧ u.pwr.chgEn = false ∧
      u.pwr.resp = some (s.pwr.resp.getD s.now) ∧ u.emitEn = false ∧ u.scan.gsp = false ∧ u.scan.gck = 0 ∧ u.scan.goe = false ∧
      u.pwr.pen = s.pwr.pen ∧ u.plan.prim = s.plan.prim
    let lower := BitVec.ofNat 64 (1 + (s.holds.filter fun h => (h.res == .rails || h.res == .light) && h.level != .hardware).length)
    (∀ (q : RailSeq) (i j : Fin 6), s.pwr.seq = some q → q.up = true → q.rail = i.val → i < j → s.trim.boardUp.used.getLsbD j.val = true →
      (∀ k, i.val < k → k < j.val → s.trim.boardUp.used.getLsbD k = false) → s.pwr.pgd.getLsbD j.val = false →
      exec (.pgdChange i true) s = .next { s with pwr := { s.pwr with
        pgd := s.pwr.pgd ||| BitVec.ofNat 6 (2 ^ i.val), pen := s.pwr.pen ||| BitVec.ofNat 6 (2 ^ j.val)
        seq := some { q with rail := j.val, since := s.now } } }) ∧
    (∀ (i : Fin 6) (l : Bool), s.pwr.seq = none → ∃ u, exec (.pgdChange i l) s = .next u ∧
      (∀ k : Fin 6, u.pwr.pgd.getLsbD k.val = if k = i then l else s.pwr.pgd.getLsbD k.val) ∧ u = { s with pwr := { s.pwr with pgd := u.pwr.pgd } }) ∧
    (s.pwr.pfailLow = false → ∃ u, exec .pfailResponse s = .next u ∧ acts u ∧ u.pwr.pfailLow = true ∧ u.pwr.pfailLatch = true ∧
      u.pwr.huReady = false ∧ u.life.pfails = s.life.pfails.bump ∧ (⟨.light, .hardware, 0xFF01⟩ : Hold) ∈ u.holds ∧
      (⟨.rails, .hardware, 0xFF01⟩ : Hold) ∈ u.holds) ∧
    (∃ u, exec .pfailNRelease s = .next u ∧ u.pwr.pfailLow = false ∧ u.pwr.chgEn = (s.pwr.chgWin && s.pwr.resp.isNone) ∧
      (s.pwr.resp = none → s.therm.tripped = false → s.safe = false →
        u.holds = s.holds.filter fun h => !(h.level == .hardware && (h.res == .rails || h.res == .light))) ∧
      (s.pwr.resp ≠ none → u.holds = s.holds) ∧ u = { s with pwr := u.pwr, holds := u.holds }) ∧
    (∀ i : Fin 6, s.pwr.st = .up → s.trim.boardUp.used.getLsbD i.val = true → s.pwr.seq = none → ∃ u, exec (.pgdLoss i) s = .next u ∧
      acts u ∧ u.pwr.pgd.getLsbD i.val = false ∧ u.err.total = s.err.total + lower) ∧
    (∀ i k, s.pwr.st = .up → s.trim.boardUp.crackEn = true → s.pwr.seq = none →
      (∃ u, exec (.crackCheck (.fail i) (.fail k)) s = .next u ∧ acts u ∧ u.pwr.crackFail = true ∧ u.err.total = s.err.total + lower) ∧
      exec (.crackCheck (.fail i) .pass) s = .next s ∧ exec (.crackCheck .pass .pass) s = .next s) ∧
    (s.pwr.chgEn = true → exec .huReady s = .next { s with pwr := { s.pwr with huReady := true } } ∧ exec .huReadyClear s = .next s) ∧
    (s.pwr.chgEn = false → exec .huReady s = .next s ∧ exec .huReadyClear s = .next { s with pwr := { s.pwr with huReady := false } }) ∧
    (∀ t0, s.pending = [] → s.pwr.resp = some t0 → t0 + 1100000 ≤ s.now + 1000 → s.pwr.seq = none → ∃ u, step s = .next u ∧
      u.pwr.pen = 0 ∧ u.pwr.dsch = 15 ∧ u.pwr.st = .down ∧ u.pwr.resp = none)

/-- R368-R370, R372, R392: the checks in service. A driver that no longer answers as identified fails its pair; one that was reset sends its
pair to REALIGN with LOSSES and record 0x1007; the third failed poll in a row writes record 0x1008; a lane pair that lost lock realigns and
one that locked again is ALIGNED; no check touches another pair, memory or the plan. A TRAINING pair of a RETURNING quad sends its 16 TEST
packets after step 4, is ALIGNED after step 6 and otherwise starts again.
Where the rules leave a corner open, what it says is the model's choice: logs 13 and 39. -/
def Obligations.LaneChecks : Prop :=
  (∀ (s : State) (n : Fin 48) (id : BitVec 32), s.pairs[n].drvId = some id → s.pwr.st = .up →
    let p := s.pairs[n]
    let put := fun (x : Pair) => s.pairs.set n.val x
    let lost := { p with st := .realign, trained := false, losses := BitVec.ofNat 8 (min 255 (p.losses.toNat + 1)), pollFails := 0 }
    exec (.driverReadback n (.ok id (BitVec.ofNat 6 n.val) 0)) s = .next { s with pairs := put { p with pollFails := 0 } } ∧
    (∀ d ix st, d ≠ id → ∃ u, exec (.driverReadback n (.ok d ix st)) s = .next u ∧ u.pairs[n].st = .failed ∧ u.pairs[n].drvId = none ∧
      ((vget s.svc.quad (n.val / 2)).st ≠ .returning → (vget s.svc.quad (n.val / 2)).st ≠ .testing →
        (vget u.svc.quad (n.val / 2)).st = .outOfService)) ∧
    (∀ (ix : BitVec 6) (st : BitVec 3), p.st = .aligned → ix.toNat ≠ n.val ∨ st.getLsbD 1 = true →
      ∃ u, exec (.driverReadback n (.ok id ix st)) s = .next u ∧ u.pairs = put lost ∧ u.err.total = s.err.total + 1 ∧
        u = { s with pairs := u.pairs, err := u.err, queues := u.queues, host := u.host, threads := u.threads }) ∧
    (∃ u, exec (.driverReadback n .timeout) s = .next u ∧ u.pairs = put { p with pollFails := p.pollFails + 1 } ∧
      (p.pollFails = 2 → u.err.total = s.err.total + 1) ∧ (p.pollFails ≠ 2 → u = { s with pairs := u.pairs }))) ∧
  (∀ (s : State) (n : Fin 48) (r : LaneRead), s.pwr.st = .up → s.scan.st = .scanning → n.val < s.trim.boardUp.drivers →
    let p := s.pairs[n]
    let v := r.stat
    let good := v.toNat % 4 = 3 ∧ v.toNat / 16 % 16 = 0
    let sum : Pair := { p with pollFails := 0, crcErr := BitVec.ofNat 16 (min 65535 (p.crcErr.toNat + v.toNat / 65536 % 256 + v.toNat / 2 ^ 24)) }
    (p.st = .aligned → (good → v.toNat / 65536 % 256 < 16 → v.toNat / 2 ^ 24 < 16 →
        exec (.laneStatPoll n (some r)) s = .next { s with pairs := s.pairs.set n.val sum }) ∧
      (¬good ∨ 16 ≤ v.toNat / 65536 % 256 ∨ 16 ≤ v.toNat / 2 ^ 24 → ∃ u, exec (.laneStatPoll n (some r)) s = .next u ∧
        u.pairs = s.pairs.set n.val { sum with st := .realign, trained := false, losses := BitVec.ofNat 8 (min 255 (p.losses.toNat + 1)) } ∧
        u.err.total = s.err.total + 1 ∧ u.plan = s.plan ∧ u.mem = s.mem)) ∧
    (p.st = .realign → p.trained = true → s.vbl ≤ s.tg0.line + 1 →
      (good → ∃ u, exec (.laneStatPoll n (some r)) s = .next u ∧ u.err.total = s.err.total + 1 ∧ u.plan = s.plan ∧
        u.pairs = s.pairs.set n.val { sum with st := .aligned, fails := 0, trained := false }) ∧
      (¬good → ∃ u, exec (.laneStatPoll n (some r)) s = .next u ∧ u.plan = s.plan ∧ u.mem = s.mem ∧
        u.pairs = s.pairs.set n.val { sum with fails := BitVec.ofNat 4 (min 15 (p.fails.toNat + 1)), trained := false } ∧
        (p.fails.toNat = 7 → u.err.total = s.err.total + 1) ∧ (p.fails.toNat ≠ 7 → u = { s with pairs := u.pairs })))) ∧
  (∀ (s : State) (n : Fin 48) (r : LaneRead), s.pwr.st = .up → s.pairs[n].st = .training → (vget s.svc.quad (n.val / 2)).st = .returning →
    let p := s.pairs[n]
    let four := r.stat.toNat % 4 = 3 ∧ r.stat.toNat / 64 % 4 = 0
    let six := r.lines = 0x00100010 ∧ r.stat.toNat / 65536 = 0
    (p.trained = false → four → ∃ u, exec (.laneStatPoll n (some r)) s = .next u ∧ u.pairs = s.pairs.set n.val { p with trained := true } ∧
      (∀ i : Fin 2, tabFind u.out.tests (2 * n.val + i.val) = some ((List.range 16).map fun k =>
        let l := 2 * n.val + i.val
        let b := leBytes 4 (16384 + l * 2 ^ 24 + k) ++ (List.range 768).map fun j => BitVec.ofNat 8 (j + 16 * k + l)
        b ++ leBytes 4 (crc32c b))) ∧ u = { s with pairs := u.pairs, out := { s.out with tests := u.out.tests } }) ∧
    (p.trained = true → six → s.plan? ≠ none → exec (.laneStatPoll n (some r)) s = .next { s with
      pairs := s.pairs.set n.val { p with st := .aligned, trained := false, tries := 0 } }) ∧
    ((p.trained = false ∧ ¬four) ∨ (p.trained = true ∧ ¬six) → p.tries < 3 → exec (.laneStatPoll n (some r)) s = .next { s with
      pairs := s.pairs.set n.val { p with tries := p.tries + 1, trained := false } }))

/-- R269, R350-R353, R383: self-refresh and row requests. `PSELF.ENTER` from blanking takes the entry point at once, and in the active lines waits
for it; the entry point leads to HOLDING, answers who waited and pauses playing streams; a request before it abandons entry; `PUPDATE` and
`PCLEAR` join the requests that the next period serves and fault on rows that are not there, `PUPDATE` also on a count of 0.
Where the rules leave a corner open, what it says is the model's choice: log 38. -/
def Obligations.SelfRefreshAndRows : Prop :=
  (∀ (s : State) (t : Tid) (w : IWord), s.canIssue t 1 →
    let th := s.thread t
    let use : Use := { units := [.panel] }
    let r := s.registered t use
    let ra := (th.reg w.ra).toNat
    let rb := (th.reg w.rb).toNat
    let rows : Use := { writes := [.rows ra (ra + rb)] }
    let last := if rb = 65535 then s.rowsH - 1 else rb
    let clr : Use := { units := [.panel], writes := [.rows ra (last + 1)] }
    (s.unitFree t use → s.selfGuard = false → exec (.pselfEnter t w) s = .next (r.faultAt t .state 0x14 th.pc)) ∧
    (s.unitFree t use → s.selfGuard = true → s.higher .selfRefresh .host = none → s.scan.st = .scanning → s.scan.activeBegun = true →
      ∃ u, exec (.pselfEnter t w) s = .next u ∧ ThreadTo s u t (th.atUnit w none) ∧ u = { r with
        threads := u.threads
        scan := { s.scan with st := .entering, pastEntry := false, wantExit := false, enterTo := s.scan.enterTo ++ [.thread t] } }) ∧
    (s.unitFree t use → s.higher .selfRefresh .host = none →
      (s.scan.st = .scanning → ∃ u, exec (.pselfExit t w) s = .next u ∧ ThreadTo s u t (th.atUnit w (some (.code 0))) ∧
        u = { r with threads := u.threads }) ∧
      (s.scan.st = .holding → ∃ u, exec (.pselfExit t w) s = .next u ∧ ThreadTo s u t (th.atUnit w none) ∧
        u = { r with threads := u.threads, scan := { s.scan with wantExit := true, exitTo := s.scan.exitTo ++ [.thread t] } })) ∧
    (s.unitFree t rows → (s.pwr.st ≠ .up ∨ (1 ≤ rb ∧ ∀ p, s.plan? = some p → p.height < ra + rb)) →
      exec (.pupdate t w) s = .next ((s.registered t rows).faultAt t .state 0x15 th.pc)) ∧
    (s.unitFree t rows → s.pwr.st = .up → rb = 0 → exec (.pupdate t w) s = .next ((s.registered t rows).faultAt t .state 0x20 th.pc)) ∧
    (∀ p, s.unitFree t rows → s.pwr.st = .up → 1 ≤ rb → s.plan? = some p → ra + rb ≤ p.height → s.scan.st = .scanning →
      ∃ u, exec (.pupdate t w) s = .next u ∧ ThreadTo s u t (th.atUnit w none) ∧ u = { s.registered t rows with
        threads := u.threads
        scan := { s.scan with reqs := s.scan.reqs ++ [{ lo := ra, hi := ra + rb - 1, clear := false, who := .thread t }] } }) ∧
    (s.unitFree t clr → s.pwr.st ≠ .up ∨ s.emitEn = true → exec (.pclear t w) s = .next ((s.registered t clr).faultAt t .state 0x13 th.pc)) ∧
    (s.unitFree t clr → s.pwr.st = .up → s.emitEn = false → s.rowsH ≤ last ∨ last < ra →
      exec (.pclear t w) s = .next ((s.registered t clr).faultAt t .state 0x20 th.pc)) ∧
    (∀ p, s.unitFree t clr → s.pwr.st = .up → s.emitEn = false → last < s.rowsH → ra ≤ last → s.plan? = some p → s.scan.st = .scanning →
      ∃ u, exec (.pclear t w) s = .next u ∧ ThreadTo s u t (th.atUnit w none) ∧ u = { s.registered t clr with
        threads := u.threads
        scan := { s.scan with reqs := s.scan.reqs ++ [{ lo := ra, hi := last, clear := true, who := .thread t }] } })) ∧
  (∀ s : State, s.scan.st = .entering → s.stopped = false → ∃ u, exec .selfRefreshEntryPoint s = .next u ∧ u.scan.st = .holding ∧
    u.scan.enterTo = [] ∧ u.scan.pastEntry = false ∧
    (s.scan.pastEntry = true → (∀ t ∈ s.scan.enterTo, ∀ n, t = .thread n → (s.thread n).wait = .unit → (u.thread n).done = some (.code 0)) ∧
      u.streams = s.streams) ∧
    (s.scan.pastEntry = false → ∀ i : Fin 16, s.streams[i].st = .playing → s.streams[i].detach = none → u.streams[i].st = .paused)) ∧
  (∀ s : State, s.scan.st = .entering → s.scan.pastEntry = false → (s.request true).scan.st = .scanning)

/-- R158, R228, R231, R345-R348, R361: lines. A TG0 line start counts the line; an active line that is sent gives both check units the packed
codes of its row (zeros where a `PCLEAR` covers it), sends a packet on each lane, drops the row from the line buffer and completes a `PUPDATE`
whose last row it is; `GCK` and `GOE` follow the row before, `GOE` only if it was sent. The fetch of a
stored line begins 32 lines before it is sent and reads the store that holds its frame, or the pinned offset, unless a write is pending there; `TGADDR` pins the address from the first line whose fetch
has not begun and faults on an offset that is not aligned or runs beyond the buffer.
Where the rules leave a corner open, what it says is the model's choice: logs 10 and 38. -/
def Obligations.ScanOutLines : Prop :=
  (∀ (s : State) (p : Plan) (x : Option (Nat × Byte)), s.plan? = some p → s.tgRuns 0 = true → s.scan.clearing = false →
    s.scan.st = .scanning → s.pwr.st = .up → s.tg0.noFrame = false → s.tg0.line + 1 < p.vbl + p.height →
    let l := s.tg0.line + 1
    ∃ u, exec (.tg0LineStart x) s = .next u ∧
      u.tg0 = { s.tg0 with line := l, sym := s.tg0.sym + if l = 1 then s.tg0.line0 else p.lineSym } ∧
      ((∀ c, s.cap = some c → c.state ≠ 1) → u.mem = s.mem) ∧ u.plan = s.plan ∧
      u.scan.gsp = decide (l = p.vbl + 1) ∧ u.scan.gckOld = s.scan.gck ∧
      (l ≤ p.vbl → u.scan.gck = 0 ∧ u.scan.goe = false) ∧
      (p.vbl < l → u.scan.gck = BitVec.ofNat 4 (2 ^ ((l - p.vbl - 1) % 4)) ∧ u.scan.goe = decide (s.scan.sentRow = some (l - p.vbl - 1))) ∧
      (l < p.vbl → u.comp = s.comp ∧ u.out = s.out) ∧
      (∀ codes, p.vbl ≤ l → tabFind s.out.lines (l - p.vbl) = some codes →
        (∀ q ∈ s.scan.reqs, q.active = true → q.clear = true → l - p.vbl < q.lo ∨ q.hi < l - p.vbl) →
        let bytes := bytesAt (packCodes codes) 0 (1536 * s.trim.boardUp.drivers)
        u.comp.crcMade = crc32cFeed s.comp.crcMade bytes ∧ u.comp.crcSeen = crc32cFeed s.comp.crcSeen (corruptByte bytes x) ∧
        u.out.sent = corruptByte bytes x ∧ u.out.sentRow = l - p.vbl ∧ u.scan.sentRow = some (l - p.vbl) ∧
        (∀ e ∈ u.out.lines, e.1 ≠ l - p.vbl) ∧
        (∀ (n : Fin 48) (k : Fin 2), n.val < s.trim.boardUp.drivers → s.pairs[n].st = .aligned → s.comp.sent = true →
          let lane := 2 * n.val + k.val
          let b := leBytes 4 ((l - p.vbl) % 16384 + s.comp.laneAlive.toNat * 2 ^ 16 + lane * 2 ^ 24) ++ ((corruptByte bytes x).drop (768 * lane)).take 768
          (lane, b ++ leBytes 4 (crc32c b)) ∈ u.out.packets) ∧
        (∀ q ∈ s.scan.reqs, q.active = true → q.clear = false → q.hi = l - p.vbl → q ∉ u.scan.reqs ∧
          ∀ t : Tid, q.who = .thread t → (s.thread t).wait = .unit → (u.thread t).done = some (.code 0))) ∧
      (∀ t : Tid, (s.thread t).wait = .line 0 l → (u.thread t).wHit = true)) ∧
  (∀ (s : State) (c : Gov) (b : Buf), s.plan.cur = some c → c.plan.outMode = 1 → s.tgRuns 0 = true → s.tg0.noFrame = false →
    s.out.fetchOf ≤ s.out.count → s.out.fetchAt = none → 0 < s.out.fetchLine → s.out.fetchLine < c.plan.height →
    (s.out.pin = none → s.out.fetchLine < s.out.scan.h) →
    let p := c.plan
    let py := s.out.fetchLine
    let wd := match s.out.pin with | some _ => p.width | none => s.out.scan.w
    let h := match s.out.pin with | some _ => p.fsBuf | none => s.out.scan.buf
    let pitch := fsPitch wd
    let off := match s.out.pin with | some a => a + py * pitch | none => (s.out.scan.slot * s.out.scan.h + py) * pitch
    tabFind s.bufs.table h = some b →
    (s.tg0.line + 32 < p.vbl + py → exec .scanoutLineFetch s = .next s) ∧
    (p.vbl + py ≤ s.tg0.line + 32 → (∃ o ∈ s.sboard, ∃ r ∈ o.writes, r.overlaps (.ofBytes h off pitch) = true) →
      (∀ o ∈ s.sboard, o.pipe ≠ some (8, py)) → exec .scanoutLineFetch s = .next { s with
        out := { s.out with fetchAt := some (h, off, wd) }, nextOp := s.nextOp + 1
        sboard := s.sboard ++ [{ op := s.nextOp, thread := 0, sync := false, reads := [.ofBytes h off pitch], pipe := some (8, py) }] }) ∧
    (p.vbl + py ≤ s.tg0.line + 32 → (∀ o ∈ s.sboard, ∀ r ∈ o.writes, r.overlaps (.ofBytes h off pitch) = false) →
      s.dram.suspects (b.base + off) pitch = [] → ∃ u, exec .scanoutLineFetch s = .next u ∧
        tabFind u.out.lines py = some ((unpackCodes (Memory.readN s.mem (b.base + off) pitch)).take (3 * wd)) ∧
        u.out.fetchLine = (if py + 1 < p.height then py + 1 else 0) ∧
        u = { s with dram := u.dram, nextOp := u.nextOp, out := u.out, sboard := s.sboard.filter fun o => o.pipe != some (8, py) })) ∧
  (∀ (s : State) (t : Tid) (w : IWord) (p : Plan) (b : Buf), s.canIssue t 1 →
    let th := s.thread t
    let h := (th.reg w.ra).toNat % 4096
    let o := (th.reg w.rb).toNat
    let use : Use := { units := [.tg 0], handles := [h] }
    let r := s.registered t use
    let size := fsPitch p.width * p.height
    let next := s.out.fetchLine + if s.out.fetchAt = none then 0 else 1
    let rc := if next = 0 ∨ p.height ≤ next then 65536 else next
    s.checkHandle t h = .ok b → s.unitFree t use → s.plan? = some p →
    (p.outMode ≠ 1 ∨ p.fsBuf ≠ h → exec (.tgaddr t w) s = .next (r.faultAt t .state 0x25 th.pc)) ∧
    (p.outMode = 1 → p.fsBuf = h →
      (th.reg w.rb = BitVec.allOnes 64 → s.out.pin = none ∨ rc = 65536 →
        ∃ u, exec (.tgaddr t w) s = .next u ∧ ThreadTo s u t (th.atUnit w (some (.codeRc 0 rc))) ∧
        u = { r with threads := u.threads, out := { s.out with pin := none } }) ∧
      (th.reg w.rb ≠ BitVec.allOnes 64 →
        (o % 64 ≠ 0 → exec (.tgaddr t w) s = .next (r.faultAt t .state 0x20 th.pc)) ∧
        (o % 64 = 0 → b.len < o + size → exec (.tgaddr t w) s = .next (r.faultAt t .state 0x22 th.pc)) ∧
        (o % 64 = 0 → o + size ≤ b.len → ∃ u, exec (.tgaddr t w) s = .next u ∧ ThreadTo s u t (th.atUnit w (some (.codeRc 0 rc))) ∧
          u = { r with threads := u.threads, out := { s.out with pin := some o } }))))

/-- R340, R342, R354, R355: `REF_IN` and the generators TG1 and TG2. An early edge is a glitch, one within T_ref / 256 is accepted, any other
and a missing one lose the reference: HOLDOVER for TG0 that follows it, with REF_LOSS; T_ref is held in sixteenths. `TGSET` faults on a field out
of range and ignores reserved ones, acts at once with MODE OFF, whose output is low, and otherwise at the generator's next frame start, which
answers the thread; in mode 1 each RN-th start that falls on a period of TG0 waits for the line that OFFSET lies in.
Where the rules leave a corner open, what it says is the model's choice: log 38. -/
def Obligations.TimingGenerators : Prop :=
  (∀ (s : State) (n : Nat), s.stopped = false → s.tg0.refValid = true →
    let g := s.tg0
    let near := 16 * n * 256 ≤ g.tRef * 257 ∧ g.tRef * 255 ≤ 16 * n * 256
    let lost := fun (c : Instr) => ∃ u, exec c s = .next u ∧ u.tg0.refValid = false ∧ u.tg0.refK = 0 ∧ u.tg0.refLoss = g.refLoss.bump ∧
      u.tg0.line = g.line ∧ (g.src = 1 → g.st = .locked → u.tg0.st = .holdover ∧ ∀ t : Tid, (u.thread t).evt.getLsbD 15 = true) ∧
      (g.src ≠ 1 → u.tg0.st = g.st) ∧ u.plan = s.plan ∧ u.mem = s.mem
    (128 * n < g.tRef → exec (.refInEdge n) s = .next { s with tg0 := { g with refGlitch := g.refGlitch.bump } }) ∧
    (g.tRef ≤ 128 * n → near → exec (.refInEdge n) s = .next { s with tg0 := { g with ivals := (n :: g.ivals).take 16 } }) ∧
    (g.tRef ≤ 128 * n → ¬near → lost (.refInEdge n)) ∧
    (g.tRef ≤ 8 * n → lost (.refInLoss n)) ∧ (8 * n < g.tRef → exec (.refInLoss n) s = .next s)) ∧
  (∀ (s : State) (t : Tid) (w : IWord), s.canIssue t 1 → w.ue = false →
    let th := s.thread t
    let n := w.fn.toNat % 4
    let b := w.block th 32
    let x := tgSetOf b
    let use : Use := { units := [.tg n] }
    let r := s.registered t use
    (n = 0 → exec (.tgset t w) s = .next (s.faultAt t .state 0x24 th.pc)) ∧
    (n = 3 → exec (.tgset t w) s = .next (s.faultAt t .state 0x20 th.pc)) ∧
    (n = 1 ∨ n = 2 → s.unitFree t use → s.higher .tgDiscipline .host = none →
      (3 < x.mode ∨ x.lines < 2 ∨ x.lsym < 64 ∨ x.lines ≤ x.pline ∨ x.plen = 0 ∨ x.lines ≤ x.plen →
        exec (.tgset t w) s = .next (r.faultAt t .state 0x20 th.pc)) ∧
      (s.tgSetOk b = true ∨ (x.mode = 3 ∧ 2 ≤ x.lines ∧ 64 ≤ x.lsym ∧ x.pline < x.lines ∧ 1 ≤ x.plen ∧ x.plen < x.lines ∧ x.offset < x.lines * x.lsym) →
        x.mode ≠ 0 → ∃ u, exec (.tgset t w) s = .next u ∧ ThreadTo s u t (th.atUnit w none) ∧
        u = { r.modTg (n == 2) fun g => { g with staged := some x, who := .thread t } with threads := u.threads }) ∧
      (s.tgSetOk b = true → x.mode = 0 → ∃ u, exec (.tgset t w) s = .next u ∧ ThreadTo s u t (th.atUnit w (some (.code 0))) ∧
        (u.tg (n == 2)).set = x ∧ (u.tg (n == 2)).out = false ∧ u = { r with threads := u.threads, tg1 := u.tg1, tg2 := u.tg2 }))) ∧
  (∀ (s : State) (g : Bool), let x := (s.tg g).set; let k := (s.tg g).starts + 1; (s.tg g).staged = none → x.mode = 1 → s.tgRuns 0 = true →
    k % x.rn = 0 → k * x.rn % x.rm = 0 →
    x.offset < s.tg0.sym ∨ s.tg0.sym + (if s.tg0.line = 0 then s.tg0.line0 else s.lineSym) ≤ x.offset → exec (.tgFrameStart g) s = .next s) ∧
  (∀ (s : State) (g : Bool), s.stopped = false →
    (match (s.tg g).staged with
      | some y => (s.tg g).set.mode ≠ 0 ∨ s.startsNow y 0 = true
      | none => (s.tg g).set.mode ≠ 0 ∧ s.startsNow (s.tg g).set ((s.tg g).starts + 1) = true) →
    ∃ u, exec (.tgFrameStart g) s = .next u ∧ (u.tg g).line = 0 ∧ (u.tg g).sym = 0 ∧ (u.tg g).staged = none ∧
      (u.tg g).set = (match (s.tg g).staged with | some y => y | none => (s.tg g).set) ∧
      (u.tg g).out = (u.tg g).set.level 0 ∧ u.tg (!g) = s.tg (!g) ∧ u.tg0 = s.tg0 ∧
      (∀ n y, (s.tg g).staged = some y → (s.tg g).who = .thread n → (s.thread n).wait = .unit → (u.thread n).done = some (.code 0)))

/-- R166, R198, R339, R341, R383: a period start makes the plan chosen at the arming point the plan in force; line 0 begins, with the remainder of
the schedule and the correction, the periods are
counted, and the wall frame number moves on by one unless fabric time names it. Without a plan a clearing period ends, and TG0 stops once no
rows are left to clear.
R157-R160, R175, R207: the three checks at the end of a frame, once. A failed check counts in its counter, clears VERIFIED and extends
FAIL_RUN; the second failing page frame in a row sets trigger 2 and the fourth turns the light off; 16 good frames in a row undo both. In STORED
mode the page check of the frame composed goes to its place in the store, and the frame at the lanes brings its own.
Where the rules leave a corner open, what it says is the model's choice: log 20. -/
def Obligations.FramePeriodsAndChecks : Prop :=
  (
  ∀ (s : State) (err : Int), s.tg0.running = true → s.therm.tripped = false → s.safe = false →
    (∀ g, s.plan.next = some g → ∃ u, exec (.framePeriodStart err) s = .next u ∧
      u.plan.cur = some g ∧ u.tg0.line = 0 ∧ u.tg0.running = true ∧ u.out.count = s.out.count + 1 ∧ u.scan.clearing = false ∧
      u.tg0.period = (if s.plan.cur = none then s.tg0.period else s.tg0.period + 1) ∧
      (let p := g.plan
       let begins := fun (k : Nat) => k * 1600000000 * p.rateDen / p.rateNum
       u.tg0.line0 = (((p.lineSym + begins (u.tg0.period + 1) - begins u.tg0.period : Nat) : Int) + s.tg0.corr
         - ((p.vbl + p.height) * p.lineSym : Nat)).toNat) ∧
      (s.plan.cur ≠ none → s.tg0.stepNext = false → u.out.frame = s.out.frame + 1) ∧
      (s.plan.cur = none → g.plan.tg0Src ≠ 0 ∨ s.ftLocked = false → u.out.frame = s.out.count) ∧
      u.blt.spent = 0 ∧ ∀ i : Fin 6, u.dram.spent[i] = 0) ∧
    (s.plan.next = none → s.scan.clearing = false → exec (.framePeriodStart err) s = .next s) ∧
    (s.plan.next = none → s.scan.clearing = true → s.tg0.noFrame = false → s.scan.st = .scanning → (∀ r ∈ s.scan.reqs, r.active = true) →
      ∃ u, exec (.framePeriodStart err) s = .next u ∧ u.tg0 = { s.tg0 with running := false } ∧ u.scan.reqs = [] ∧ u.scan.clearing = false ∧
        (∀ r n, r ∈ s.scan.reqs → r.who = .thread n → (s.thread n).wait = .unit → (u.thread n).done = some (.code 0)) ∧
        u.mem = s.mem ∧ u.plan = s.plan)) ∧
  (
  ∀ (s : State) (p : Plan), s.tgRuns 0 = true → s.comp.ended = false → s.plan? = some p →
    let c := s.comp
    let page := p.outMode = 2 ∨ (c.psum = s.expectSum p ∧ c.pageUe = false)
    let own := if p.outMode = 1 then s.out.lane.pageOk = true else page
    let shown := if p.outMode = 1 then s.out.lane.page else c.page
    let code := c.crcSeen = c.crcMade
    let alive := c.sent = false ∨ c.expectAlive = none ∨ c.expectAlive = some c.laneAlive
    (s.tg0.noFrame = true → p.outMode ≠ 1 → exec .frameEndChecks s = .next { s with comp := { c with ended := true } }) ∧
    (p.outMode = 1 ∨ s.tg0.noFrame = false → ∃ u, exec .frameEndChecks s = .next u ∧ u.comp.ended = true ∧
      (page → u.comp.pageFail = c.pageFail) ∧ (¬page → u.comp.pageFail = c.pageFail.bump) ∧
      (p.outMode = 1 → ∀ e ∈ u.out.slots, e.frame = s.out.frame → (e.pageOk = true ↔ page)) ∧
      (p.outMode = 1 → s.tg0.noFrame = true ∨ c.sent = false → u.plan = s.plan ∧ u.comp.failRun = c.failRun ∧ u.comp.verified = c.verified ∧
        u.comp.codeFail = c.codeFail ∧ u.comp.aliveFail = c.aliveFail ∧ u.comp.lightHeld = c.lightHeld) ∧
      ((p.outMode = 1 → c.sent = true) → s.tg0.noFrame = false →
        (code → u.comp.codeFail = c.codeFail) ∧ (¬code → u.comp.codeFail = c.codeFail.bump) ∧
        (alive → u.comp.aliveFail = c.aliveFail) ∧ (¬alive → u.comp.aliveFail = c.aliveFail.bump) ∧
        (own ∧ code ∧ alive → u.comp.failRun = 0 ∧ u.comp.verified = true ∧ (page → u.err.total = s.err.total) ∧
          (c.passRun < 15 → u.comp.lightHeld = c.lightHeld ∧ u.plan = s.plan) ∧
          (15 ≤ c.passRun → u.comp.lightHeld = false ∧ u.plan.trig = s.plan.trig &&& 0xB)) ∧
        (¬(own ∧ code ∧ alive) → u.comp.failRun.toNat = min 255 (c.failRun.toNat + 1) ∧ u.comp.verified = false ∧
          (shown ≠ .none → c.pageRun = 1 → u.plan.trig = s.plan.trig ||| 4) ∧
          (shown ≠ .none → c.pageRun = 3 → u.comp.lightHeld = true) ∧
          (shown = .none → u.comp.lightHeld = c.lightHeld ∧ u.plan.trig = s.plan.trig)) ∧
        u.comp.expectAlive = (if c.sent then some (c.laneAlive + 1) else c.expectAlive)) ∧
      exec .frameEndChecks u = .next u))

/-- R149-R151, R153, R418: a sample of `NOTICE_IN` extends the run of each pin; 16 in a row at 1 assert a pin and 100,000 at 0 deassert it, and a
rise that ends before counts as a glitch. A pin that asserts holds self-refresh for hardware safety, until the last one deasserts. The activation
verified last gives the page. An expanded package waits for the next frame, in place of a complete one that is not in force yet, or is in
force at once while there is no plan.
Where the rules leave a corner open, what it says is the model's choice: log 20. -/
def Obligations.NoticesAndPackages : Prop :=
  ∀ s : State,
    let c := s.comp
    let high := fun (i : Fin 4) (u : State) => (⟨.selfRefresh, .hardware, 0xFF02 + i.val⟩ : Hold) ∈ u.holds
    (∀ v : BitVec 4, ∃ u, exec (.noticeInSample v) s = .next u ∧ u.mem = s.mem ∧ u.plan = s.plan ∧ u.comp.page = c.page ∧
      (∀ i : Fin 4, u.comp.run1[i] = (if v.getLsbD i.val then c.run1[i] + 1 else 0) ∧
        u.comp.run0[i] = (if v.getLsbD i.val then 0 else c.run0[i] + 1) ∧
        u.comp.pins.getLsbD i.val = (if c.pins.getLsbD i.val then v.getLsbD i.val || decide (c.run0[i] + 1 < 100000)
          else v.getLsbD i.val && decide (16 ≤ c.run1[i] + 1)) ∧
        u.comp.rise.getLsbD i.val = (v.getLsbD i.val && !u.comp.pins.getLsbD i.val)) ∧
      ((c.rise &&& ~~~v &&& ~~~c.pins) = 0 → u.comp.noticeGlitch = c.noticeGlitch) ∧
      (∀ i : Fin 4, (c.rise &&& ~~~v &&& ~~~c.pins) = BitVec.ofNat 4 (2 ^ i.val) → u.comp.noticeGlitch = c.noticeGlitch.bump) ∧
      (∀ i : Fin 4, u.comp.pins.getLsbD i.val = true → c.pins.getLsbD i.val = false →
        (∀ j, j ≠ i → u.comp.pins.getLsbD j.val = true → c.pins.getLsbD j.val = true) → high i u) ∧
      ((∀ i : Fin 4, u.comp.pins.getLsbD i.val = true → c.pins.getLsbD i.val = true) → (u.comp.pins = 0 → c.pins = 0) →
        u = { s with comp := { c with
          run1 := u.comp.run1, run0 := u.comp.run0, rise := u.comp.rise, pins := u.comp.pins, noticeGlitch := u.comp.noticeGlitch } })) ∧
    (∀ i : Fin 4, ∃ u, exec (.noticeInAsserted i) s = .next u ∧ (∀ k : Fin 4, u.comp.pins.getLsbD k.val = (c.pins.getLsbD k.val || k == i)) ∧
      u.comp.noticeGlitch = c.noticeGlitch ∧ u.mem = s.mem ∧ u.plan = s.plan ∧ u.comp.page = c.page ∧
      (c.pins.getLsbD i.val = false → high i u) ∧ (c.pins.getLsbD i.val = true → u.holds = s.holds ∧ u.err = s.err)) ∧
    (∀ i : Fin 4, ∃ u, exec (.noticeInDeasserted i) s = .next u ∧
      (∀ k : Fin 4, u.comp.pins.getLsbD k.val = (c.pins.getLsbD k.val && k != i)) ∧
      (u.comp.pins = 0 → c.pins ≠ 0 → ∀ h ∈ u.holds, h.res = .selfRefresh → h.level ≠ .hardware) ∧
      (u.comp.pins ≠ 0 ∨ c.pins = 0 → u.holds = s.holds) ∧ u = { s with comp := u.comp, holds := u.holds } ∧ u.comp.page = c.page) ∧
    (∀ a, c.pins = 0 → c.acts.getLast? = some a → s.ftLocked = true → a.start ≤ s.fab.ft → s.fab.ft < a.stop → s.choosePage = (.page a.page, 3)) ∧
    (∀ k, c.pkgNext = some k → s.stopped = false → ∃ u k', exec .packageExpansionDone s = .next u ∧ u.comp.pkgNext = none ∧
      k' = { k with set := k'.set } ∧ u.plan = s.plan ∧
      (s.plan? ≠ none → u.comp.pkgDone = some k' ∧ u.comp.pkg = c.pkg ∧ u.comp.acts = c.acts) ∧
      (s.plan? = none → u.comp.pkgDone = none ∧ u.comp.acts = [] ∧ u.comp.pkg = if k.pageCount = 0 then none else some k') ∧
      (∀ h b, tabFind u.bufs.table h = some b → tabFind s.bufs.table h = some b ∨ (4064 ≤ h ∧ b.isSealed = true ∧ b.owner = none)))

/-! ### Audio, temperature, trims and service -/

/-- R464: `ASET` gives BAD_FIELD for a field out of range and STREAM_PLAYING for a rate, reference or stream that changes while the stream plays,
and changes nothing then; otherwise the setting waits for the next sample frame, which brings it into force and answers the thread.
R465-R467, R469: at a sample frame the index moves on by one; an output that follows the programme sends the samples of its pair, and
zeros with UNDERRUN for a missing sample frame; samples behind the index are dropped.
Where the rules leave a corner open, what it says is the model's choice: log 40. -/
def Obligations.ProgrammeAudio : Prop :=
  (
  (∀ (s : State) (t : Tid) (w : IWord), s.canIssue t 1 → s.unitFree t { units := [.audio] } → w.ue = false →
    let th := s.thread t
    let b := w.block th 64
    let r := s.registered t { units := [.audio] }
    let code := fun (n : Nat) => ∃ u, exec (.aset t w) s = .next u ∧ ThreadTo s u t (th.atUnit w (some (.code n))) ∧
      u = { r with threads := u.threads }
    (1 < fieldAt b 0 1 ∨ 4 < fieldAt b 1 1 ∨ fieldAt b 4 2 < 64 ∨ fieldAt b 6 2 < 64 ∨
      (15 < fieldAt b 0x0C 1 ∧ fieldAt b 0x0C 1 ≠ 255) ∨ (∃ k < 8, 64 ≤ fieldAt b (0x10 + k) 1) → code 0xE0) ∧
    (∀ c, audOfBlock b = some c →
      c.rate = fieldAt b 0 1 ∧ c.ref = fieldAt b 1 1 ∧ c.outEn.toNat = fieldAt b 2 1 ∧ c.idleOff.toNat = fieldAt b 3 1 ∧
      c.lead = fieldAt b 4 2 ∧ c.trail = fieldAt b 6 2 ∧ c.offset = signed 32 (fieldAt b 8 4) ∧ c.stream = fieldAt b 0x0C 1 ∧
      (s.audPlaying c.stream = true → c.rate ≠ s.aud.cfg.rate ∨ c.ref ≠ s.aud.cfg.ref ∨ c.stream ≠ s.aud.cfg.stream → code 0xE2) ∧
      (s.audPlaying c.stream = false ∨ (c.rate = s.aud.cfg.rate ∧ c.ref = s.aud.cfg.ref ∧ c.stream = s.aud.cfg.stream) →
        ∃ u, exec (.aset t w) s = .next u ∧ ThreadTo s u t (th.atUnit w none) ∧
          u = { r with threads := u.threads, aud := { s.aud with staged := some c, who := .thread t } }))) ∧
  (∀ (s : State) (c : AudCfg) (t : Tid) (ue : Bool), s.therm.tripped = false → s.safe = false → s.aud.staged = some c →
    s.aud.who = .thread t → (s.thread t).wait = .unit → ∃ u, exec (.audioSampleFrame ue) s = .next u ∧ u.aud.cfg = c ∧ u.aud.staged = none ∧
      (c.ref = 0 → u.aud.st = .free ∧ (u.thread t).done = some (.code 0)) ∧
      (c.ref ≠ 0 → c.ref ≠ 4 → c.ref ≠ s.aud.cfg.ref → u.aud.st = .acquiring ∧ (u.thread t).done = some (.code 0xE1)) ∧
      u.mem = s.mem ∧ u.plan = s.plan)) ∧
  (
  ∀ (s : State) (ue : Bool), s.therm.tripped = false → s.safe = false → s.aud.staged = none →
    let a := s.aud
    ∃ u, exec (.audioSampleFrame ue) s = .next u ∧ u = { s with aud := u.aud } ∧ u.aud.csPos = (a.csPos + 1) % 192 ∧
      u.aud.idx = a.idx.map (· + 1) ∧ u.aud.cfg = a.cfg ∧
      (∀ e ∈ u.aud.store, ∀ i, a.idx = some i → i ≤ (e.1 : Int)) ∧
      (∀ (i n : Nat) (v : List (BitVec 24)), a.idx = some (i : Int) → a.leadLeft = 0 →
        (ue = false → tabFind a.store i = some v → u.aud.underrun = a.underrun ∧ ∀ k, k < 8 → a.outRun.getLsbD k = true →
          a.cfg.outSrc.getD k 0 = 16 + n → n < 4 →
          ((u.aud.sent.getD k (0, 0, 0)).1, (u.aud.sent.getD k (0, 0, 0)).2.1) = (v.getD (2 * n) 0, v.getD (2 * n + 1) 0)) ∧
        (ue = true ∨ tabFind a.store i = none → u.aud.underrun = a.underrun.bump ∧ ∀ k, k < 8 → a.outRun.getLsbD k = true →
          a.cfg.outSrc.getD k 0 = 16 + n → n < 4 →
          ((u.aud.sent.getD k (0, 0, 0)).1, (u.aud.sent.getD k (0, 0, 0)).2.1) = (0, 0))) ∧
      (∀ k, k < 8 → a.outRun.getLsbD k = false → u.aud.sent.getD k (0, 0, 0) = (0, 0, 0)))

/-- R463, R470: the audio reference. An edge earlier than T / 8 is a glitch; one within T / 256 counts, and the 16th in a row locks the
clock with record 0x1302; any other edge, none within 2T, and two bad frames in a row of the `AES3_IN` that is the reference put the clock
into HOLDOVER with REF_LOSS and record 0x1301. -/
def Obligations.AudioReferences : Prop :=
  ∀ s : State, s.therm.tripped = false → s.safe = false →
    let a := s.aud
    let T := a.cfg.refT
    let loss := fun (c : Instr) => ∃ u, exec c s = .next u ∧ u.aud.st = .holdover ∧ u.aud.goodIvals = 0 ∧ u.mem = s.mem ∧ u.plan = s.plan ∧
      (a.st = .holdover → u.aud.refLoss = a.refLoss ∧ u.err.total = s.err.total) ∧
      (a.st ≠ .holdover → u.aud.refLoss = a.refLoss.bump ∧ u.err.total = s.err.total + 1 ∧ ∀ t : Tid, (u.thread t).evt.getLsbD 12 = true)
    T = (if a.cfg.rate = 1 then 256 else 512) ∧
    (∀ n, a.cfg.ref ≠ 0 → a.cfg.ref ≠ 4 →
      let near := 255 * T ≤ 256 * n ∧ 256 * n ≤ 257 * T
      (8 * n < T → exec (.audioRefEdge n) s = .next { s with aud := { a with refGlitch := a.refGlitch.bump } }) ∧
      (near → a.st = .locked → exec (.audioRefEdge n) s = .next s) ∧
      (near → a.st ≠ .locked → a.goodIvals < 15 → ∃ u, exec (.audioRefEdge n) s = .next u ∧
        u.aud = { a with st := .acquiring, goodIvals := a.goodIvals + 1 } ∧ u = { s with aud := u.aud, threads := u.threads }) ∧
      (near → a.st ≠ .locked → 15 ≤ a.goodIvals → ∃ u, exec (.audioRefEdge n) s = .next u ∧
        u.aud = { a with st := .locked, goodIvals := a.goodIvals + 1 } ∧ u.err.total = s.err.total + 1 ∧
        ∀ t : Tid, (u.thread t).evt.getLsbD 12 = true) ∧
      (T ≤ 8 * n → ¬near → loss (.audioRefEdge n)) ∧
      (2 * T ≤ n → loss (.audioRefLoss n)) ∧ (n < 2 * T → exec (.audioRefLoss n) s = .next s)) ∧
    (∀ (i : Fin 2) (l r : BitVec 24) (x : BitVec 6), exec (.aes3InputFrame i (.ok l r x)) s = .next { s with aud := { a with
      input := a.input.set i.val (some (l, r, x)), badRun := a.badRun.set i.val 0 } }) ∧
    (∀ i : Fin 2, (a.cfg.ref = 2 + i.val → a.badRun[i] = 1 → loss (.aes3InputFrame i .bad)) ∧
      (a.cfg.ref ≠ 2 + i.val ∨ a.badRun[i] ≠ 1 → ∃ u, exec (.aes3InputFrame i .bad) s = .next u ∧ u = { s with aud := { a with
        badRun := a.badRun.set i.val (a.badRun[i] + 1), inErr0 := u.aud.inErr0, inErr1 := u.aud.inErr1 } } ∧
        (i = 0 → u.aud.inErr0 = a.inErr0.bump ∧ u.aud.inErr1 = a.inErr1) ∧ (i = 1 → u.aud.inErr1 = a.inErr1.bump ∧ u.aud.inErr0 = a.inErr0)))

/-- R494: `TRIMSTAGE` faults on a region beyond the buffer and, with STORE, outside the flash window; a copy that fails its checks gives
TRIM_CHECK and stages nothing; otherwise it is staged and, with STORE, written to the copy that does not hold the newest valid record, with
FLASH_FAIL and record 0x1504 when the read-back fails (R483, R490).
R495, R473, R474: `TRIMAPPLY` faults with nothing staged, waits for the next period start while a plan is in force, and otherwise brings every
staged record into force at once: the boundary words take the record's value, or their default where its mask leaves them out. `TREAD`
gives a trim word, or the last valid reading of a sensor that the board fits; for a sensor without one the value is free (log 10).
Where the rules leave a corner open, what it says is the model's choice: logs 14 and 32. -/
def Obligations.TrimRecords : Prop :=
  (
  ∀ (s : State) (t : Tid) (w : IWord) (ok : Bool) (b : Buf), s.canIssue t 1 →
    let th := s.thread t
    let blk := w.block th 16
    let kind := fieldAt blk 0 1
    let h := fieldAt blk 2 2
    let off := fieldAt blk 8 8
    let use : Use := { units := [.trim], handles := [h], reads := [.ofBytes h off 4096] }
    let d := Memory.readN s.mem (b.base + off) 4096
    let good := frameOk d kind = true ∧ bodyOk kind d = true
    w.ue = false → h < 4096 → s.checkOpen t h = .ok b → s.unitFree t use → fieldAt blk 1 1 = 0 → fieldAt blk 4 4 = 0 →
    (kind ≠ 1 → kind ≠ 2 → exec (.trimstage t w ok) s = .next (s.faultAt t .state 0x20 th.pc)) ∧
    (kind = 1 ∨ kind = 2 →
      (b.len < off + 4096 → exec (.trimstage t w ok) s = .next (s.faultAt t .state 0x22 th.pc)) ∧
      (off + 4096 ≤ b.len →
        (w.fn.getLsbD 0 = true → s.flashWindow = false →
          exec (.trimstage t w ok) s = .next ((s.registered t use).faultAt t .state 0x18 th.pc)) ∧
        (w.fn.getLsbD 0 = false ∨ s.flashWindow = true → s.dram.suspects (b.base + off) 4096 = [] →
          ∃ u, exec (.trimstage t w ok) s = .next u ∧ u.mem = s.mem ∧ (∀ v, v ≠ t → (u.thread v).g = (s.thread v).g) ∧
            (¬good → ThreadTo s u t (th.atUnit w (some (.code 0x80))) ∧ u.trim = s.trim ∧ u.flash = s.flash) ∧
            (good → kind = 1 → u.trim = { s.trim with stagedTrim := some (trimOf d, d) }) ∧
            (good → kind = 2 → u.trim = { s.trim with stagedBoard := some (boardOf d, d) }) ∧
            (good → w.fn.getLsbD 0 = false → ThreadTo s u t (th.atUnit w (some (.code 0))) ∧ u.flash = s.flash) ∧
            (good → w.fn.getLsbD 0 = true → (u.thread t).done = some (.code (if ok then 0 else 0x81)) ∧
              u.err.total = (if ok then s.err.total else s.err.total + 1) ∧
              ∀ c x a, s.flash.newest kind = some (c, x) → recordAt kind c ≤ a → a < recordAt kind c + 4096 →
                tabGet 0xFF u.flash.bytes a = tabGet 0xFF s.flash.bytes a))))) ∧
  (
  ∀ (s : State) (t : Tid) (w : IWord), s.canIssue t 1 →
    let th := s.thread t
    let n := (th.reg w.ra).toNat
    let r := s.registered t { units := [.trim] }
    (s.unitFree t { units := [.trim] } →
      (s.trim.stagedTrim = none → s.trim.stagedBoard = none → exec (.trimapply t w) s = .next (r.faultAt t .state 0x19 th.pc)) ∧
      (s.trim.stagedTrim ≠ none ∨ s.trim.stagedBoard ≠ none →
        (s.plan? ≠ none → ∃ u, exec (.trimapply t w) s = .next u ∧ ThreadTo s u t (th.atUnit w none) ∧
          u = { r with threads := u.threads, trim := { s.trim with applyTo := some (.thread t) } }) ∧
        (s.plan? = none → ∃ u, exec (.trimapply t w) s = .next u ∧ ThreadTo s u t (th.atUnit w (some (.code 0))) ∧
          u.trim.stagedTrim = none ∧ u.trim.stagedBoard = none ∧
          (∀ b d, s.trim.stagedBoard = some (b, d) → u.trim.board = b) ∧ (s.trim.stagedBoard = none → u.trim.board = s.trim.board) ∧
          (s.trim.stagedTrim = none → u.trim.words = s.trim.words) ∧
          (∀ x d, s.trim.stagedTrim = some (x, d) → ∀ i : Fin 64,
            (i.val < 24 ∨ (40 ≤ i.val ∧ i.val ≤ 46) →
              u.trim.words[i] = if x.mask.getLsbD i.val then x.words.getD i.val 0 else trimDefault i.val) ∧
            (24 ≤ i.val → i.val < 40 ∨ 46 < i.val → u.trim.words[i] = s.trim.words[i])) ∧
          (∀ i : Fin 6, u.therm.thr[i].conf = s.therm.thr[i].conf) ∧
          u = { r with threads := u.threads, trim := u.trim, therm := { s.therm with thr := u.therm.thr } }))) ∧
    (s.unitFree t {} →
      let gives := fun (d : Done) => ∃ u, exec (.tread t w) s = .next u ∧ ThreadTo s u t (th.atUnit w (some d)) ∧
        u = { s.registered t {} with threads := u.threads, free := u.free }
      (w.fn.getLsbD 0 = true → (∀ i : Fin 64, n = i.val → gives (.codeRc 0 s.trim.words[i].toNat)) ∧
        (64 ≤ n → exec (.tread t w) s = .next (s.faultAt t .state 0x20 th.pc))) ∧
      (w.fn.getLsbD 0 = false →
        (28 ≤ n → exec (.tread t w) s = .next (s.faultAt t .state 0x20 th.pc)) ∧
        (∀ i : Fin 28, n = i.val →
          (24 ≤ n → s.trim.board.trem.getD (n - 24) 0 = 0 → gives (.code 0x82)) ∧
          (n < 24 ∨ s.trim.board.trem.getD (n - 24) 0 ≠ 0 →
            (∀ v, s.therm.sensors[i].bad = false → s.therm.sensors[i].temp = some v → gives (.codeRc 0 (wrapInt 64 v))) ∧
            (s.therm.sensors[i].bad = true ∨ s.therm.sensors[i].temp = none → ∃ v, gives (.codeRc 0 v)))))))

/-- R474, R477, R480: a sample of all sensors. Readings in range are kept and others make their sensor invalid; every enabled threshold meets
the hottest valid reading of its class, with three samples up to confirm and three 4 °C below to clear; the trip at 155 °C stops everything
but the always-on domain.
R330, R478: a poll of MR4 sets each subchannel's refresh rate; the third poll in a row with a report above the doubled-rate range
confirms the DRAM throttle crossing, and the third within it clears it, each with its record and THERM; no other poll sets THERM.
Where the rules leave a corner open, what it says is the model's choice: log 31. -/
def Obligations.Temperatures : Prop :=
  (
  (∀ (x : Thr) (limit t : Int),
    (x.conf = false → limit ≤ t → x.upRun = 2 → x.sample limit t = ({ conf := true }, some true)) ∧
    (x.conf = false → limit ≤ t → x.upRun ≠ 2 → x.sample limit t = ({ x with upRun := x.upRun + 1, downRun := 0 }, none)) ∧
    (x.conf = true → t ≤ limit - 64 → x.downRun = 2 → x.sample limit t = ({}, some false)) ∧
    (x.conf = true → limit - 64 < t → x.sample limit t = ({ x with upRun := 0, downRun := 0 }, none))) ∧
  (∀ (s : State) (r : List (Option Int)), ∃ u, exec (.sensorSample r) s = .next u ∧
    (∀ k : Fin 28, s.therm.sensors[k].bad = false → k.val < 24 ∨ s.trim.board.trem.getD (k.val - 24) 0 ≠ 0 →
      (∀ v : Int, r[k.val]? = some (some v) → -880 ≤ v → v ≤ (if k.val < 24 then 2800 else 2400) →
        u.therm.sensors[k] = { s.therm.sensors[k] with temp := some v }) ∧
      (∀ v : Int, r[k.val]? = some (some v) → v < -880 ∨ (if k.val < 24 then 2800 else 2400) < v → u.therm.sensors[k].bad = true) ∧
      (r[k.val]? = some none → u.therm.sensors[k].bad = true)) ∧
    (s.therm.tripped = true → u.therm.tripped = true ∧ u.err = s.err ∧ u.mem = s.mem) ∧
    (s.therm.tripped = false →
      (∀ i : Fin 6, s.thrEnabled i.val = true → ∀ k v, u.classMax (i.val / 2) = some (k, v) →
        u.therm.thr[i] = (s.therm.thr[i].sample (s.thrLimit i.val) v).1 ∧
        (u.therm.tripped = false → (s.therm.thr[i].sample (s.thrLimit i.val) v).2 ≠ none → ∀ t : Tid, (u.thread t).evt.getLsbD 8 = true)) ∧
      (∀ k v, u.classMax 0 = some (k, v) →
        (u.therm.tripped = true ↔ (s.therm.trip.sample 2480 v).2 = some true) ∧
        (u.therm.tripped = true → u.therm.tripSensor = k ∧ u.therm.tripTemp = v ∧ u.dram.sr = .inSr ∧ u.emitEn = false ∧
          (∀ t : Tid, (u.thread t).st = .idle) ∧ u.pending = s.pending) ∧
        (u.therm.tripped = false → u.mem = s.mem ∧ u.plan = s.plan ∧ ∀ t : Tid, (u.thread t).st = (s.thread t).st))))) ∧
  (
  ∀ (s : State) (l : List Mr4), (s.dramRuns = false → exec (.mr4Read l) s = .next s) ∧
    (s.dramRuns = true → ∃ u, exec (.mr4Read l) s = .next u ∧ u.mem = s.mem ∧ u.plan = s.plan ∧
      (∀ n : Fin 16, u.dram.subs[n] = { s.dram.subs[n] with doubled := l.getD n.val .normal != .normal }) ∧
      (Mr4.above ∈ l.take 16 → u.therm.mr4Down = 0 ∧
        (s.therm.mr4Conf = false → 2 ≤ s.therm.mr4Up → u.therm.mr4Conf = true ∧ u.err.total = s.err.total + 1 ∧
          ∀ t : Tid, (u.thread t).evt.getLsbD 8 = true) ∧
        (s.therm.mr4Conf = true ∨ s.therm.mr4Up < 2 → u.therm.mr4Conf = s.therm.mr4Conf ∧ u.therm.mr4Up = s.therm.mr4Up + 1 ∧ u.err = s.err ∧
          u.threads = s.threads)) ∧
      (Mr4.above ∉ l.take 16 → u.therm.mr4Up = 0 ∧
        (s.therm.mr4Conf = true → 2 ≤ s.therm.mr4Down → u.therm.mr4Conf = false ∧ u.err.total = s.err.total + 1 ∧
          ∀ t : Tid, (u.thread t).evt.getLsbD 8 = true) ∧
        (s.therm.mr4Conf = false ∨ s.therm.mr4Down < 2 → u.therm.mr4Conf = s.therm.mr4Conf ∧ u.err = s.err ∧ u.threads = s.threads))))

/-- R484, R483, R490: each second counts in POWER_ON_S and, with a valid junction reading, in the band of the hottest with its weight; the
64-byte block holds every counter. A store begins in the flash window on the copy that does not hold the newest, and is deferred with record
0x1406 outside it; a deferred write begins when the window opens; the end of a write puts the copy in force with the next SEQ.
Where the rules leave a corner open, what it says is the model's choice: logs 14 and 32. -/
def Obligations.LifetimeAndDeviceWrites : Prop :=
  (∀ l : Life, l.bytes.length = 64 ∧ Life.ofBytes l.bytes = l) ∧
  (∀ s : State, ∃ u, exec .lifetimeTick s = .next u ∧ u = { s with life := u.life } ∧
    u.life.powerOnS.toNat = min (2 ^ 64 - 1) (s.life.powerOnS.toNat + 1) ∧
    (s.hottest (List.range 24) = none → u.life.lifeEq = s.life.lifeEq ∧ u.life.band = s.life.band) ∧
    (∀ k v, s.hottest (List.range 24) = some (k, v) →
      let lands := fun (b : Fin 5) (weight : Nat) => u.life.band = s.life.band.set b.val s.life.band[b].bump ∧
        u.life.lifeEq.toNat = min (2 ^ 64 - 1) (s.life.lifeEq.toNat + weight)
      (v < 16 * 85 → lands 0 2) ∧ (16 * 85 ≤ v → v < 16 * 105 → lands 1 5) ∧ (16 * 105 ≤ v → v < 16 * 125 → lands 2 10) ∧
      (16 * 125 ≤ v → v < 16 * 140 → lands 3 25) ∧ (16 * 140 ≤ v → lands 4 50))) ∧
  (∀ s : State, s.therm.tripped = false →
    (s.flashWindow = true → s.flash.running = none → ∃ (u : State) (c : Bool), exec .lifetimeStore s = .next u ∧
      u.flash.running = some (3, c, s.life.bytes) ∧ (∀ d x, newestDoc s.flash.life = some (d, x) → c = !d) ∧
      newestDoc u.flash.life = (newestDoc s.flash.life).filter (·.1 != c) ∧ u = { s with flash := u.flash }) ∧
    (s.flashWindow = false → ∃ u, exec .lifetimeStore s = .next u ∧ (3, s.life.bytes) ∈ u.flash.deferred ∧
      u.err.total = s.err.total + 1 ∧ u.flash.running = s.flash.running ∧ u.flash.life = s.flash.life)) ∧
  (∀ (s : State) (kind : Nat) (d : List Byte) (r : List (Nat × List Byte)), s.flash.deferred = (kind, d) :: r → s.flash.running = none →
    (s.flashWindow = false → exec .flashWindowOpen s = .next s) ∧
    (s.flashWindow = true → ∃ (u : State) (c : Bool), exec .flashWindowOpen s = .next u ∧ u.flash.running = some (kind, c, d) ∧
      u.flash.deferred = r ∧ u = { s with flash := u.flash })) ∧
  (∀ (s : State) (kind : Nat) (c : Bool) (d : List Byte), s.flash.running = some (kind, c, d) → s.flash.deferred = [] →
    (∃ u, exec (.flashRecordWriteDone true) s = .next u ∧ u.flash.running = none ∧ u = { s with flash := u.flash } ∧
      (u.flash.docs kind)[if c then (1 : Fin 2) else 0] = some ⟨(match newestDoc (s.flash.docs kind) with | some (_, x) => x.seq + 1 | none => 1), d, true⟩ ∧
      (u.flash.docs kind)[if c then (0 : Fin 2) else 1] = (s.flash.docs kind)[if c then (0 : Fin 2) else 1]) ∧
    (∃ u, exec (.flashRecordWriteDone false) s = .next u ∧ u.flash = { s.flash with running := none } ∧ u.err.total = s.err.total + 1))

/-- R512: host flash operations in PROGRAM mode. A command starts unless its length or place is out of range (RESULT 3) or the window of R483
is closed (RESULT 1); while BUSY, and with OP 3, it sets the register and starts nothing; other modes ignore it. The end of a READ fills FLASH_BUF, of an ERASE sets its 4 KiB to 0xFF, of a verified PROGRAM
copies FLASH_BUF to its bytes; RESULT 2 says that it did not verify. Every other byte stays.
Where the rules leave a corner open, what it says is the model's choice: logs 10 and 32. -/
def Obligations.HostFlashOperations : Prop :=
  (∀ (s : State) (v : BitVec 32),
    let len := v.toNat % 2 ^ 13
    let a := s.host.flashAddr.toNat
    let cmd := fun (op : Nat) => BitVec.ofNat 32 (op * 2 ^ 14 + len)
    let begins := fun (c : Instr) (op : Nat) => exec c s = .next { s with host := { s.host with
      flashCmd := cmd op, busy := true, flashRun := cmd op, flashAt := s.host.flashAddr } }
    let sets := fun (c : Instr) (op : Nat) => exec c s = .next { s with host := { s.host with flashCmd := cmd op } }
    let ends := fun (c : Instr) (op : Nat) (x : BitVec 3) => exec c s = .next { s with host := { s.host with flashCmd := cmd op, result := x } }
    (s.boot.mode ≠ 2 → exec (.flashRead v) s = .next s ∧ exec (.flashErase v) s = .next s ∧ exec (.flashProgram v) s = .next s) ∧
    (s.boot.mode = 2 → v.toNat / 2 ^ 14 % 4 = 3 → sets (.flashRead v) 3 ∧ sets (.flashErase v) 3 ∧ sets (.flashProgram v) 3) ∧
    (s.boot.mode = 2 → s.host.busy = true → (v.toNat / 2 ^ 14 % 4 = 0 → sets (.flashRead v) 0) ∧
      (v.toNat / 2 ^ 14 % 4 = 1 → sets (.flashErase v) 1) ∧ (v.toNat / 2 ^ 14 % 4 = 2 → sets (.flashProgram v) 2)) ∧
    (s.boot.mode = 2 → s.host.busy = false →
      (v.toNat / 2 ^ 14 % 4 = 0 → (1 ≤ len → len ≤ 4096 → a + len ≤ 2 ^ 27 → begins (.flashRead v) 0) ∧
        (len = 0 ∨ 4096 < len ∨ 2 ^ 27 < a + len → ends (.flashRead v) 0 3)) ∧
      (v.toNat / 2 ^ 14 % 4 = 1 → (s.flashWindow = true → begins (.flashErase v) 1) ∧ (s.flashWindow = false → ends (.flashErase v) 1 1)) ∧
      (v.toNat / 2 ^ 14 % 4 = 2 →
        (len = 0 ∨ 256 < a % 256 + len → ends (.flashProgram v) 2 3) ∧
        (1 ≤ len → a % 256 + len ≤ 256 → s.flashWindow = true → begins (.flashProgram v) 2) ∧
        (1 ≤ len → a % 256 + len ≤ 256 → s.flashWindow = false → ends (.flashProgram v) 2 1)))) ∧
  (∀ (s : State) (ok : Bool), s.canonical → s.host.busy = true →
    let op := s.host.flashRun.toNat / 2 ^ 14 % 4
    let len := s.host.flashRun.toNat % 2 ^ 13
    let a := s.host.flashAt.toNat
    let byte := fun (u : State) (x : Nat) => tabGet 0xFF u.flash.bytes x
    ∃ u, exec (.flashOperationDone ok) s = .next u ∧ u.host.busy = false ∧ u.mem = s.mem ∧ u.threads = s.threads ∧
      (op = 0 → u.host.result = 0 ∧ u.flash = s.flash ∧ (∀ i, i < len → tabGet 0 u.host.flashBuf i = byte s (a + i)) ∧
        ∀ i, len ≤ i → tabGet 0 u.host.flashBuf i = tabGet 0 s.host.flashBuf i) ∧
      (op = 1 → u.host.result = 0 ∧ u.host.flashBuf = s.host.flashBuf ∧ (∀ x, x / 4096 = a / 4096 → byte u x = 0xFF) ∧
        ∀ x, x / 4096 ≠ a / 4096 → byte u x = byte s x) ∧
      (2 ≤ op → u.host.result = (if ok then 0 else 2) ∧ u.host.flashBuf = s.host.flashBuf ∧
        (ok = true → ∀ i, i < len → byte u (a + i) = tabGet 0 s.host.flashBuf i) ∧
        ∀ x, x < a ∨ a + len ≤ x → byte u x = byte s x))

/-- R273, R274, R500, R526-R528: `SVC` and `BIST` on a unit. A unit without service states gives NOT_REMOVABLE; REMOVE faults with 0x1B on a
unit that is not IN_SERVICE or that is needed, and otherwise takes it to DRAINING, or out of service at once while no plan is in force;
RETURN needs the passes of its kind and leads to RETURNING; `BIST` takes a unit that is out of service to TESTING, and faults with 0x1A elsewhere.
R500: a test ends with the completion of its instruction: a pass is noted and a failure clears both notes, gives BIST_FAIL and writes record
0x1503; the unit is OUT_OF_SERVICE again.
Where the rules leave a corner open, what it says is the model's choice: log 19. -/
def Obligations.ServiceUnits : Prop :=
  (
  ∀ (s : State) (t : Tid) (w : IWord) (run : BistRun), s.canIssue t 1 →
    let th := s.thread t
    let force := (th.reg w.rb).getLsbD 0
    let mem := w.fn.getLsbD 0
    (s.unitFree t {} → w.fn.getLsbD 7 = false → s.higher .service .host = none → unitOf (th.reg w.ra) = none →
      ∀ c, c = Instr.svcRemove t w ∨ c = .svcReturn t w ∨ c = .svcState t w ∨ c = .bist t w run →
        ∃ u, exec c s = .next u ∧ ThreadTo s u t (th.atUnit w (some (.code 0x31))) ∧ u = { s.registered t {} with threads := u.threads }) ∧
    (∀ x, unitOf (th.reg w.ra) = some x →
      let st := (s.unit x).st
      let r := s.registered t {}
      (s.unitFree t {} → ∃ u, exec (.svcState t w) s = .next u ∧ ThreadTo s u t (th.atUnit w (some (.codeRc 0 st.num))) ∧
        u = { r with threads := u.threads }) ∧
      (s.unitFree t {} → s.removable x force = false → exec (.svcRemove t w) s = .next (r.faultAt t .state 0x1B th.pc)) ∧
      (s.unitFree t {} → s.removable x force = true → s.higher .service .host = none →
        ∃ u, exec (.svcRemove t w) s = .next u ∧ u.mem = s.mem ∧ (∀ v : Tid, (u.thread v).evt.getLsbD 13 = true) ∧
          (∀ y, y ≠ x → y ∈ allUnits → (u.unit y).st = (s.unit y).st) ∧
          (s.plan? ≠ none → (u.unit x).st = .draining ∧ (u.thread t).st = .waiting ∧ (u.thread t).done = none) ∧
          (s.plan? = none → (u.unit x).st = .outOfService ∧ (u.thread t).done = some (.code 0) ∧ (u.unit x).logicPass = false ∧
            (u.unit x).memPass = false)) ∧
      (s.unitFree t {} → st ≠ .outOfService ∨ (s.unit x).logicPass = false ∨ (x.1 ≠ 0x2A ∧ (s.unit x).memPass = false) →
        exec (.svcReturn t w) s = .next (r.faultAt t .state 0x1C th.pc)) ∧
      (s.unitFree t {} → st = .outOfService → (s.unit x).logicPass = true → x.1 = 0x2A ∨ (s.unit x).memPass = true →
        s.higher .service .host = none → s.plan? ≠ none → ∃ u, exec (.svcReturn t w) s = .next u ∧ (u.unit x).st = .returning ∧
          (u.thread t).done = some (.code 0) ∧ u.mem = s.mem ∧ u.plan = s.plan ∧ ∀ v : Tid, (u.thread v).evt.getLsbD 13 = true) ∧
      (s.unitFree t { units := [x.ctrl] } → w.fn.getLsbD 7 = false → s.higher .service .host = none →
        (st ≠ .outOfService → st ≠ .testing →
          exec (.bist t w run) s = .next ((s.registered t { units := [x.ctrl] }).faultAt t .state 0x1A th.pc)) ∧
        (st = .outOfService → mem = true → x.1 = 0x2A → ∃ u, exec (.bist t w run) s = .next u ∧ (u.unit x).st = .outOfService ∧
          (u.unit x).memPass = true ∧ ThreadTo s u t (th.atUnit w (some (.code 0))) ∧ u.err = s.err) ∧
        (st = .outOfService → mem = false ∨ x.1 ≠ 0x2A → ∃ u, exec (.bist t w run) s = .next u ∧ (u.unit x).st = .testing ∧
          (u.unit x).test = some (mem, run, .thread t) ∧ (u.thread t).st = .waiting ∧ (u.thread t).done = none ∧ u.plan = s.plan ∧
          u.mem = s.mem)) ∧
      (s.unitFree t { units := [x.ctrl] } → w.fn.getLsbD 7 = true → s.higher .service .host = none → st = .outOfService →
        mem = false ∨ x.1 ≠ 0x2A → ∃ u, exec (.bist t w run) s = .next u ∧ (u.unit x).st = .testing ∧
          (u.unit x).test = some (mem, run, .async t s.nextOp) ∧ (u.thread t).st = .running ∧ (u.thread t).pc = th.pc + 8 ∧
          (u.thread t).g = (th.setReg w.rd 0).g))) ∧
  (
  ∀ (s : State) (t : Tid) (x : UnitName) (mem : Bool) (run : BistRun), s.sequencing = true → x ∈ allUnits →
    (s.unit x).st = .testing → (s.unit x).test = some (mem, run, .thread t) → (∀ y ∈ allUnits, y ≠ x → (s.unit y).test = none) →
    (s.thread t).st = .waiting → (s.thread t).wait = .unit →
    ∃ u, exec (.unitInstructionCompletion t) s = .next u ∧ (u.unit x).st = .outOfService ∧ (u.unit x).test = none ∧
      (u.thread t).st = .running ∧
      (run = .pass → (u.thread t).g = ((s.thread t).setReg (s.thread t).wRd 0).g ∧
        (u.unit x).logicPass = ((s.unit x).logicPass || !mem) ∧ (u.unit x).memPass = ((s.unit x).memPass || mem)) ∧
      (∀ word, run = .fail word → (u.thread t).g = ((s.thread t).setReg (s.thread t).wRd 0x83).g ∧
        (u.unit x).logicPass = false ∧ (u.unit x).memPass = false ∧ u.err.total = s.err.total + 2))

/-! ### The host, resets and the safe state -/

/-- R512, R513: a write of 1 clears its INT_CAUSE bit; a write reaches FLASH_ADDR and FLASH_BUF in PROGRAM mode and the MSI-X table, and
changes nothing at an RO or reserved offset; unmasking a vector with its pending bit set sends its message; the doorbells read as 0. Writes are ignored while BAR0 is closed.
R506, R507, R513: `PERST_N` and a function-level reset mask every vector, clear the pending bits, discard the host's part-written items
with PARTIAL_DROP, and write record 0x1604; device work goes on. `PERST_N` takes the link down. All are ignored while there is no endpoint.
Where the rules leave a corner open, what it says is the model's choice: logs 27 and 41. -/
def Obligations.HostRegistersAndEndpoint : Prop :=
  (
  ∀ (s : State) (off : BitVec 16) (d : List Byte) (v : BitVec 64),
    (s.bar0Open = true ↔ (s.boot.mode = 0 ∨ s.boot.mode = 2) ∧ 1 ≤ s.boot.stage.toNat ∧ s.therm.tripped = false) ∧
    (∀ o, 0x1000 ≤ o → o < 0x1008 → s.bar0Byte o = 0) ∧
    (s.bar0Open = false → exec (.intCauseClear v) s = .next s ∧ exec (.registerWrite off d) s = .next s) ∧
    (s.bar0Open = true →
      exec (.intCauseClear v) s = .next { s with host := { s.host with cause := s.host.cause &&& ~~~v } } ∧
      (off.toNat + d.length ≤ 0x4000 ∨ 0x9000 ≤ off.toNat ∨ (s.boot.mode ≠ 2 ∧ off.toNat + d.length ≤ 0x8000) →
        exec (.registerWrite off d) s = .next s) ∧
      (s.canonical → s.boot.mode = 2 → 0x5000 ≤ off.toNat → off.toNat + d.length ≤ 0x6000 →
        ∃ u, exec (.registerWrite off d) s = .next u ∧ u = { s with host := { s.host with flashBuf := u.host.flashBuf } } ∧
          ∀ i, tabGet 0 u.host.flashBuf i =
            if off.toNat ≤ 0x5000 + i ∧ 0x5000 + i < off.toNat + d.length then d.getD (0x5000 + i - off.toNat) 0 else tabGet 0 s.host.flashBuf i) ∧
      (s.boot.mode = 2 → off = 0x4000 → d.length = 4 →
        exec (.registerWrite off d) s = .next { s with host := { s.host with flashAddr := BitVec.ofNat 27 (leNat d) } }) ∧
      (∀ n : Fin 64, s.canonical → off.toNat = 0x8000 + 16 * n.val + 12 → d = [0] → ∃ u, exec (.registerWrite off d) s = .next u ∧
        u.host.masked n.val = false ∧ (∀ k : Fin 64, k ≠ n → u.host.masked k.val = s.host.masked k.val) ∧ u.host.cause = s.host.cause ∧
        (s.host.pba.getLsbD n.val = true → u.host.sentMsg = some n ∧ u.host.pba = s.host.pba &&& ~~~BitVec.ofNat 64 (2 ^ n.val)) ∧
        (s.host.pba.getLsbD n.val = false → u.host.sentMsg = s.host.sentMsg ∧ u.host.pba = s.host.pba) ∧
        u = { s with host := u.host }))) ∧
  (
  ∀ s : State,
    let resets := fun (u : State) => (∀ v : Fin 64, u.host.masked v.val = true ∧ (v ≠ 8 → v ≠ 9 → u.host.pba.getLsbD v.val = false)) ∧
      u.err.total = s.err.total + 1 ∧
      (∀ q : Fin 64, s.queues[q].hostW = true → u.queues[q].part = [] ∧
        u.queues[q].partialDrop = if s.queues[q].part = [] then s.queues[q].partialDrop else s.queues[q].partialDrop.bump) ∧
      (∀ q : Fin 64, q.val ≠ 40 → q.val ≠ 41 → u.queues[q].ready = s.queues[q].ready) ∧
      u.mem = s.mem ∧ u.plan = s.plan ∧ u.fab = s.fab ∧ u.scan = s.scan ∧ ∀ t : Tid, (u.thread t).st = (s.thread t).st ∧ (u.thread t).g = (s.thread t).g
    (s.bar0Open = false → exec .perstN s = .next s ∧ exec .functionLevelReset s = .next s ∧ ∀ up, exec (.pcieLinkChange up) s = .next s) ∧
    (s.bar0Open = true →
      (∃ u, exec .perstN s = .next u ∧ u.boot = { s.boot with link := false } ∧ resets u) ∧
      (∃ u, exec .functionLevelReset s = .next u ∧ u.boot = s.boot ∧ resets u) ∧
      ∀ up, exec (.pcieLinkChange up) s = .next { s with boot := { s.boot with link := up } }))

/-- R171, R239, R321, R508: BAR4. Closed, a read returns zeros and a write does nothing. Open, a byte of a mapped granule is the byte of DRAM at its
address, any other reads as zero and takes no write, and an access that leaves the map counts in BAR4_DISCARD; a read that meets an
uncorrectable mapped burst is poisoned with zeros for it and reported through AER; a burst that an operation is using holds its old or the new
data; a locked buffer takes nothing and MAP_LOCKED_WR counts.
Where the rules leave a corner open, what it says is the model's choice: log 41. -/
def Obligations.HostMemoryWindow : Prop :=
  ∀ (s : State) (addr : BitVec 36) (n : Nat) (d : List Byte),
    let pa := addr.toNat
    let map := fun (a : Nat) => ∃ e ∈ s.bufs.table, e.2.isSealed = false ∧ e.2.base < 2 ^ 36 ∧ e.2.base < (a / 2 ^ 20 + 1) * 2 ^ 20 ∧
      a / 2 ^ 20 * 2 ^ 20 < e.2.base + e.2.len
    let clean := s.dram.bad = [] ∧ s.dram.faults = [] ∧ s.dram.epochUe = []
    let aligned := (∀ e ∈ s.dram.bad, e.1 % 64 = 0) ∧ ∀ e ∈ s.dram.faults, e.1 % 64 = 0
    (s.bar4Open = true ↔ s.boot.mode = 0 ∧ s.boot.stage = 8 ∧ s.boot.stopped = false ∧ s.therm.tripped = false ∧ s.safe = false) ∧
    (s.bar4Open = false → exec (.bar4Write addr d) s = .next s ∧
      exec (.bar4Read addr n) s = .next { s with host := { s.host with rdata := List.replicate n 0, poisoned := false } }) ∧
    (s.bar4Open = true →
      (∃ u, exec (.bar4Read addr n) s = .next u ∧ u.mem = s.mem ∧ u.bufs = s.bufs ∧ u.plan = s.plan ∧ u.host.rdata.length = n ∧
        (∀ i, i < n → aligned → s.dram.unreadable (pa + i) = false → map (pa + i) → u.host.rdata.getD i 0 = Memory.read s.mem (pa + i)) ∧
        (∀ i, i < n → ¬map (pa + i) → u.host.rdata.getD i 0 = 0) ∧
        (∀ i, i < n → aligned → map (pa + i) → s.dram.unreadable (pa + i) = true → u.host.rdata.getD i 0 = 0 ∧ u.host.poisoned = true) ∧
        (u.host.poisoned = true → u.host.aer = s.host.aer.bump) ∧ (u.host.poisoned = false → u.host.aer = s.host.aer) ∧
        (clean → u.host.poisoned = false ∧ u.err = s.err) ∧
        ((∀ i, i < n → map (pa + i)) → u.dram.bar4Discard = s.dram.bar4Discard) ∧
        ((∃ i, i < n ∧ ¬map (pa + i)) → u.dram.bar4Discard = s.dram.bar4Discard.bump)) ∧
      (s.canonical → clean → (∀ h, s.locked h = false) → ∃ u, exec (.bar4Write addr d) s = .next u ∧
        ((∀ a, s.inUse a = false) → ∀ a, pa ≤ a → a < pa + d.length → map a → Memory.read u.mem a = d.getD (a - pa) 0) ∧
        (∀ a, pa ≤ a → a < pa + d.length → map a → Memory.read u.mem a = d.getD (a - pa) 0 ∨ Memory.read u.mem a = Memory.read s.mem a) ∧
        (∀ a, a < pa ∨ pa + d.length ≤ a ∨ ¬map a → Memory.read u.mem a = Memory.read s.mem a) ∧
        ((∃ i, i < d.length ∧ ¬map (pa + i)) → u.dram.bar4Discard = s.dram.bar4Discard.bump) ∧
        u.threads = s.threads ∧ u.plan = s.plan ∧ u.host = s.host) ∧
      (∀ h b, (h, b) ∈ s.bufs.table → b.isSealed = false → s.locked h = true → b.base ≤ pa → pa + d.length ≤ b.base + b.len → b.base + b.len ≤ 2 ^ 36 →
        (∀ e ∈ s.bufs.table, e ≠ (h, b) → e.2.base + e.2.len ≤ b.base ∨ b.base + b.len ≤ e.2.base) → d ≠ [] →
        pa / 2 ^ 20 = (pa + d.length - 1) / 2 ^ 20 →
        ∃ u, exec (.bar4Write addr d) s = .next u ∧ u.mem = s.mem ∧ u.plan.status.mapLockedWr = s.plan.status.mapLockedWr.bump))

/-- R504, R506, R543: `POR_N`, and `VDD_AO` below its limit, reset everything but fuses and flash, and a cold boot is to follow; `SYS_RST_N` runs the shutdown response and resets
every domain but the always-on one, keeps LAST_CHIP and the counters, and is ignored while tripped. Both sample the straps.
Where the rules leave a corner open, what it says is the model's choice: logs 6 and 28. -/
def Obligations.DeviceResets : Prop :=
  ∀ (s : State) (x : Straps),
    exec (.vddAoUndervoltage x) s = exec (.porN x) s ∧
    (∀ c, c = Instr.porN x ∨ c = .vddAoUndervoltage x → ∃ u, exec c s = .next u ∧ u.boot.fresh = true ∧ u.boot.stopped = false ∧
      u.flash.bytes = s.flash.bytes ∧ u.flash.roster = s.flash.roster ∧ u.flash.pkg = s.flash.pkg ∧ u.flash.life = s.flash.life ∧
      u.sec.own = s.sec.own ∧ u.sec.bootSvn = s.sec.bootSvn ∧ u.sec.keys = [] ∧
      u.boot.mode = x.bootMode ∧ u.boot.origin = x.origin ∧ u.boot.ingest = x.ingest ∧ u.boot.stage = 0 ∧ u.boot.lastReset = 1 ∧
      u.therm = State.reset.therm ∧ u.pwr = State.reset.pwr ∧ u.threads = State.reset.threads ∧ u.err = State.reset.err ∧
      u.queues = State.reset.queues ∧ u.mem = State.reset.mem ∧ u.plan = State.reset.plan ∧ u.pending = s.pending) ∧
    (s.therm.tripped = true → exec (.sysRstN x) s = .next s) ∧
    (s.therm.tripped = false → ∃ u, exec (.sysRstN x) s = .next u ∧ u.boot.fresh = true ∧
      u.boot.mode = x.bootMode ∧ u.boot.stage = 0 ∧ u.boot.lastReset = 2 ∧ u.sec.debug = s.sec.debugArmed ∧
      u.pwr.st = .falling ∧ u.pwr.lightReq = false ∧ u.pwr.resp = some (s.pwr.resp.getD s.now) ∧ u.emitEn = false ∧
      u.scan.goe = false ∧ u.scan.gck = 0 ∧ u.life = s.life ∧ u.therm = s.therm ∧ u.trim.words = s.trim.words ∧ u.trim.board = s.trim.board ∧
      (s.pwr.seq = none → (∀ h ∈ s.holds, h.res = .light ∨ h.res = .rails → h.level = .hardware) →
        u.err.total = s.err.total ∧ u.err.lastChip = s.err.lastChip) ∧ u.flash.bytes = s.flash.bytes ∧
      (∀ t : Tid, (u.thread t).st = .idle ∧ (u.thread t).g = (State.reset.thread t).g) ∧
      (∀ q : Fin 64, u.queues[q].ready = [] ∧ (q.val ≠ 40 → q.val ≠ 41 → u.queues[q].lost = s.queues[q].lost)) ∧ u.plan = State.reset.plan ∧ u.pending = s.pending)

/-- R398, R399, R481, R504, R508: the cold boot runs once after a reset. A reserved mode stops it with record 0x1601, PROGRAM ends at stage 0x01, two
bad firmware copies stop it at stage 0x03, a missing BOARD record at 0x04; otherwise it reaches READY at the highest data rate that trains,
with new DRAM keys, no stream key and a new nonce. ADVANCE programs BOOT_SVN. The restart after a trip is such a boot with two records.
R516, Table 22-8: a start-up entry that applies and passes its checks has its image in buffer 4,032 + i and its launch descriptor last in the
queue of its thread; one out of range, or with a bad BCRC, is skipped with record 0x1603.
Where the rules leave a corner open, what it says is the model's choice: logs 8 and 14 and 30. -/
def Obligations.ColdBootAndStartUp : Prop :=
  (
  (∀ (s : State) (e : BootEnv), s.boot.fresh = false ∨ s.therm.tripped = true → exec (.coldBoot e) s = .next s) ∧
  (∀ (s : State) (e : BootEnv), s.boot.fresh = true → s.therm.tripped = false → ∃ u, exec (.coldBoot e) s = .next u ∧ u.boot.fresh = false ∧
    (s.boot.mode = 3 → u.boot.stopped = true ∧ u.boot.stage = 0 ∧ u.err.total = s.err.total + 1) ∧
    (s.boot.mode = 2 → u = { s with boot := { s.boot with fresh := false, stopped := false, stage := 1 } }) ∧
    (s.boot.mode = 0 ∨ s.boot.mode = 1 → e.sramFails = [] →
      (e.fwA = .badCheck → e.fwB = .badCheck → u.boot.stage = 3 ∧ u.boot.stopped = true ∧ u.err.total = s.err.total + 2) ∧
      (∀ (v : Fin 65) (adv : Bool), e.fwA = .valid v adv → e.fwB = .badCheck → s.sec.bootSvn ≤ v.val →
        u.sec.fwSvn = v.val ∧ u.boot.image = false ∧
        (s.flash.newest 2 = none → u.boot.stage = 4 ∧ u.boot.stopped = true) ∧
        (∀ c b, s.flash.newest 2 = some (c, b) → (boardOf b).density ≠ e.density.toNat → u.boot.stage = 5 ∧ u.boot.stopped = true) ∧
        (∀ c b r, s.flash.newest 2 = some (c, b) → (boardOf b).density = e.density.toNat → r ∈ [9600, 8800, 8000, 7200, 6400] →
          r ≤ (boardOf b).rate → r ∈ e.trainsAt → (∀ q ∈ [9600, 8800, 8000, 7200], r < q → q ≤ (boardOf b).rate → q ∉ e.trainsAt) →
          u.boot.stage = 8 ∧ u.boot.stopped = false ∧ u.dram.rate = r ∧ u.dram.keys = dramKeysOf s.free ∧ u.trim.board = boardOf b ∧ u.sec.keys = [] ∧ u.sec.nonce = e.nonce ∧
          u.sec.bootSvn = (if adv = true ∧ s.sec.bootSvn < v.val ∧ e.vddFuse = true then v.val else s.sec.bootSvn))))) ∧
  (∀ (s : State) (e : BootEnv) (n : BitVec 32), (s.therm.tripped = false → exec (.tripRestart e n) s = .next s) ∧
    (s.therm.tripped = true → ∃ u, exec (.tripRestart e n) s = .next u ∧ u.therm.tripped = false ∧ u.therm.trippedLast = true ∧
      u.boot.lastReset = 3 ∧ u.life.trips = s.life.trips.bump ∧
      (s.boot.mode = 2 → u.boot.stage = 1 ∧ u.err.total = s.err.total + 2)))) ∧
  (
  ∀ (s : State) (i : Fin 8),
    let e := s.flash.startEntry i.val
    let t : Fin 64 := ⟨fieldAt e 28 1 % 8, by omega⟩
    let image := s.flash.read (0x3800000 + fieldAt e 0 4) (fieldAt e 4 4)
    let u := s.startProgram i.val
    (s.boot.mode = 0 → fieldAt e 29 1 % 2 = 0 → u = s) ∧
    (s.boot.mode = 1 ∨ (s.boot.mode = 0 ∧ fieldAt e 29 1 % 2 = 1) →
      (fieldAt e 0 4 % 8 ≠ 0 ∨ fieldAt e 4 4 % 8 ≠ 0 ∨ fieldAt e 4 4 = 0 ∨ 2 ^ 20 < fieldAt e 4 4 ∨ 8 ≤ fieldAt e 28 1 →
        u.mem = s.mem ∧ u.bufs = s.bufs ∧ u.err.total = s.err.total + 1) ∧
      (startRange e = true → crc32c image ≠ fieldAt e 12 4 → u.mem = s.mem ∧ u.bufs = s.bufs ∧ u.err.total = s.err.total + 1) ∧
      (startRange e = true → crc32c image = fieldAt e 12 4 → fieldAt e 20 4 = 0 → 32 ≤ s.queues[t].space → s.queues[t].wmark = false →
        s.queues[t].upset = none → s.canonical → Memory.readN u.mem (s.startBase i.val) image.length = image ∧
        (tabFind u.bufs.table (4032 + i.val)).map (fun b => (b.base, b.len, b.owner)) = some (s.startBase i.val, image.length, none) ∧
        ∃ d, u.queues[t].ready = s.queues[t].ready ++ [d] ∧ d.length = 32 ∧ fieldAt d 0 2 = 1 ∧ fieldAt d 2 2 = 4032 + i.val ∧
          fieldAt d 4 4 = fieldAt e 8 4 ∧ fieldAt d 8 8 = fieldAt e 32 8 ∧ fieldAt d 16 8 = 0 ∧ fieldAt d 24 8 = s.boot.status)))

/-- R331, R332, R522, R531, R532: what enters the chip safe state. A watchdog, a word of the interconnect or of a key store, the fourth `ALERT_n`
within 1 ms and one during a replay write their record and 0x1704, start the shutdown response, put DRAM into self-refresh and stop the
sequencer; a further cause writes its record alone. An earlier `ALERT_n` replays the subchannel.
R421: BYPASS, IDCODE, SAMPLE/PRELOAD and EXTEST change nothing in the device, and a private instruction does nothing outside debug mode;
in debug mode the spec gives it no effect, and it is refused by name.
Where the rules leave a corner open, what it says is the model's choice: logs 30 and 42. -/
def Obligations.SafeStateAndTap : Prop :=
  (
  (∀ (s : State), s.therm.tripped = false →
    let lower := (s.holds.filter fun h => (h.res == .rails || h.res == .light) && h.level != .hardware).length
    let enters := fun (c : Instr) (code : Nat) =>
      (s.safe = false → ∃ u, exec c s = .next u ∧ u.safe = true ∧ u.err.lastChip.toNat / 2 ^ 96 % 2 ^ 16 = 0x1704 ∧
        u.err.lastChip.toNat % 2 ^ 16 = code ∧ (s.dram.reqs = [] → u.err.total = s.err.total + BitVec.ofNat 64 (2 + lower)) ∧ u.emitEn = false ∧ u.pwr.st = .falling ∧
        u.scan.goe = false ∧ u.scan.gck = 0 ∧ u.dram.sr = .inSr ∧ u.dram.reqs = [] ∧ u.aud.outRun = 0 ∧ u.tg1.out = (s.tg1.set.mode != 0 && s.tg1.set.pol) ∧
        u.tg2.out = (s.tg2.set.mode != 0 && s.tg2.set.pol) ∧ u.mem = s.mem ∧ ∀ t w, exec (.add t w) u = .next u) ∧
      (s.safe = true → ∃ u, exec c s = .next u ∧ u.safe = true ∧ u.err.total = s.err.total + 1 ∧ u.dram.sr = s.dram.sr ∧
        u.dram.reqs = s.dram.reqs ∧ u.pwr = s.pwr)
    (∀ k, (s.boot.stage.toNat < 4 → exec (.watchdogExpiry k) s = .next s) ∧ (4 ≤ s.boot.stage.toNat → s.pwr.seq = none → enters (.watchdogExpiry k) 0x1702)) ∧
    (∀ l, (s.boot.stage.toNat < 2 → exec (.interconnectUe l) s = .next s) ∧ (2 ≤ s.boot.stage.toNat → s.pwr.seq = none → enters (.interconnectUe l) 0x1701)) ∧
    (∀ b i, (s.boot.stage.toNat < 5 → exec (.keyWordUe b i) s = .next s) ∧ (5 ≤ s.boot.stage.toNat → s.pwr.seq = none → enters (.keyWordUe b i) 0x1703)) ∧
    (∀ n : Fin 16, s.dramRuns = true → s.dram.capar = true → s.dram.subs[n].failed = false →
      let c := s.dram.subs[n]
      let recent := (c.alerts.filter fun t => decide (s.now < t + 1000000)).length
      (c.replaying = true ∨ 3 ≤ recent → s.pwr.seq = none → enters (.alertN n) 0x0D05 ∧ ∃ u, exec (.alertN n) s = .next u ∧ u.dram.subs[n].failed = true) ∧
      (c.replaying = false → recent < 3 → (∀ r, RetryCmd.req r ∈ c.retry → paSub r.pa = n.val) → ∃ u, exec (.alertN n) s = .next u ∧ u.safe = s.safe ∧ u.dram.subs[n].replaying = true ∧
        u.dram.subs[n].replay = c.replay.bump ∧ u.dram.subs[n].retry = c.retry ∧ u.dram.reqs = s.dram.reqs ∧ u.mem = s.mem ∧
        (∀ k, k ≠ n → u.dram.subs[k] = s.dram.subs[k]) ∧ (c.retry = [] → u.err.total = s.err.total + 1))) ∧
    (∀ n : Fin 16, s.dram.capar = false ∨ s.dram.subs[n].failed = true → exec (.alertN n) s = .next s))) ∧
  (
  ∀ (s : State) (k : Nat),
    exec (.tapInstruction .bypass) s = .next s ∧ exec (.tapInstruction .idcode) s = .next s ∧
    exec (.tapInstruction .samplePreload) s = .next s ∧ exec (.tapInstruction .extest) s = .next s ∧
    (s.sec.debug = false → exec (.tapInstruction (.privateInstr k)) s = .next s) ∧
    (s.sec.debug = true → exec (.tapInstruction (.privateInstr k)) s = .refused .privateTap))

/-! ### Synthesis, output, memory -/

/-- R111, R115, R117, R128-R130: the next line of a layer enters its ring whole, but for columns that the cull pass left out and columns whose words
stay uncorrectable, each with record 0x0501; the slot that it takes drops its old line. A segment whose ring storage is lost later is read
from DRAM once more and is zero where that fails too. The cull pass runs once a frame and leaves
out, of a layer whose ring has not begun, exactly the tiles that no block with Z at or behind that layer touches.
R118-R120, R134, R144, R157: a gallery computes its band of its next hogel row once rings, line store and weave buffer allow: each ray of
the band puts its three codes at the ray's panel pixel, from the depth stack, then the graphic layers that admit the view, then the page as its buffer holds it; the
band adds its words to the page sum and nothing leaves or changes elsewhere.
R101, R135, R136, R144, R168: the arithmetic of one ray: the unit filter gives the centre tap; full scale expands to 32,768; an opaque first layer
gives its own colour and stops the stack; a transparent cover leaves the colour; the unit correction leaves every code and code 0 stays 0.
Where the rules leave a corner open, what it says is the model's choice: log 21. -/
def Obligations.RingsAndGalleries : Prop :=
  (
  ∀ (s : State) (g : Gov), s.composing = some g →
    let p := g.plan
    let clean := s.dram.bad = [] ∧ s.dram.faults = [] ∧ s.dram.epochUe = []
    (∀ (k : Fin 64) (ue : List Nat), s.ringNext p k.val = none → exec (.ringFillLine k ue) s = .next s) ∧
    (∀ (k : Fin 64) (ue : List Nat) (y : Nat) (b : Buf), s.ringNext p k.val = some y → tabFind s.bufs.table s.layers[k].buf = some b →
      clean →
      let e := p.layer k.val
      let off := (if s.layers[k].half then halfLen e.w e.h else 0) + y * layerPitch e.w
      let cut := s.culledCols k.val e.w y
      y = s.synth.nextLine[k] ∧ e.en = true ∧ y < e.h ∧ ∃ (u : State) (l : RingLine), exec (.ringFillLine k ue) s = .next u ∧
        l.line = y ∧ l.culled = cut ∧ (∀ c, c ∈ l.zeroed ↔ c < tilesX e.w ∧ c ∉ cut ∧ c ∈ ue) ∧
        (∀ x j, x < e.w → j < 6 → x / 32 ∉ cut → l.data.getD (6 * x + j) 0 = Memory.read s.mem (b.base + off + 6 * x + j)) ∧
        u.synth = { s.synth with
          rings := s.synth.rings.set k.val (l :: s.synth.rings[k].filter fun x => x.line % p.ringLines k.val != y % p.ringLines k.val)
          nextLine := s.synth.nextLine.set k.val (y + 1) } ∧
        u.err.total = s.err.total + BitVec.ofNat 64 l.zeroed.length ∧ u.mem = s.mem ∧ u.plan.cur = s.plan.cur) ∧
    (∀ (k : Fin 64) (y c : Nat) (l : RingLine) (b : Buf), s.synth.rings[k].find? (·.line == y) = some l → tabFind s.bufs.table s.layers[k].buf = some b →
      c < tilesX (p.layer k.val).w → c ∉ l.zeroed → c ∉ l.culled → clean →
      let u := s.ringLost p k.val y c
      u.err.total = s.err.total + 1 ∧ u.plan.status.ringUe = s.plan.status.ringUe.bump ∧ u.mem = s.mem ∧
        (∀ x ∈ u.synth.rings[k], x.line = y → c ∈ x.zeroed) ∧ ∀ j, j ≠ k → u.synth.rings[j] = s.synth.rings[j]) ∧
    (s.synth.culled = true → exec .cullPassStart s = .next s) ∧
    (s.synth.culled = false → ∃ u, exec .cullPassStart s = .next u ∧ u.mem = s.mem ∧
      u.synth = { s.synth with culled := true, cullTiles := u.synth.cullTiles } ∧
      (∀ k ts, (k, ts) ∈ u.synth.cullTiles → k ∈ p.enabled ∧ vget s.synth.nextLine k = 0 ∧
        ∀ c, c ∈ ts ↔ c < tilesX (p.layer k).w * tilesY (p.layer k).h ∧ ∀ bx bw, bx < ceilDiv p.nhx 8 → bw < ceilDiv p.nhy 8 → k ≤ s.zOf p bx bw →
          c ∉ boxTiles (p.layer k).edge (p.layer k).w (p.layer k).h (p.box (vget s.layers k).geo bx bw)) ∧
      (∀ k, k ∈ p.enabled → vget s.synth.nextLine k = 0 → ∃ ts, (k, ts) ∈ u.synth.cullTiles))) ∧
  (
  ∀ (s : State) (gv : Gov) (gal : Fin 16) (i : Nat), s.composing = some gv → s.synth.places.findIdx? (· == some gal.val) = some i →
    let p := gv.plan
    let h := s.synth.done.getD i 0
    let ue : PixelUe := { replica := [], gfx := [], page := [], umap := [] }
    let clean := s.dram.bad = [] ∧ s.dram.faults = [] ∧ s.dram.epochUe = []
    let word := fun (hx : Nat) => match s.comp.page with
      | .none => 0
      | .builtIn => 0xFF808080
      | .page _ => match s.shownPage with
        | some b => fieldAt (Memory.readN s.mem (b.base + 4 * (h * p.nhx + hx)) 4) 0 4
        | none => 0xFF808080
    let lo := i * p.nhx / p.gReq
    let hi := (i + 1) * p.nhx / p.gReq
    (p.nhy ≤ h → exec (.galleryRowStart gal ue) s = .next s) ∧
    (h < p.nhy → p.gReq ≠ 0 → p.umapFmt = 0 → (∀ g ∈ p.gfxOn, s.gfxHeld p g h = true ∧ (h + 1 < p.nhy → s.gfxHeld p g (h + 1) = true)) →
      (s.rowReady p h = false ∨ s.weaveLow p + 1 < h → exec (.galleryRowStart gal ue) s = .next s) ∧
      (s.rowReady p h = true → h ≤ s.weaveLow p + 1 → clean → ∃ (u : State) (new : List (Nat × Nat × List Nat)),
        exec (.galleryRowStart gal ue) s = .next u ∧ u.out.weave = s.out.weave ++ new ∧ new.length = (hi - lo) * (p.hh * p.hv) ∧
        (∀ hx n, lo ≤ hx → hx < hi → n < p.hh * p.hv →
          let deep := (s.rayStack p ue p.enabled hx h n).1
          let gfx := p.gfxOn.filterMap fun g => (s.gfxSample gv ue hx h g).map fun x => (g, x)
          let seen := gfx.foldl (fun (c : Rgb) (g : Nat × Cover × Bool) => if gv.admits g.1 n then g.2.1.over c else c) deep
          let shown := if s.comp.page = .none then seen else (coverOf (word hx)).1.over seen
          ((pixelOf p hx h n).2, (pixelOf p hx h n).1, pixelCodes gv [] s.wallFrame (pixelOf p hx h n).1 (pixelOf p hx h n).2 shown) ∈ new) ∧
        u.comp.psum = s.comp.psum + BitVec.ofNat 64 (((List.range (hi - lo)).map fun x =>
          p.hh * p.hv * (word (lo + x) ^^^ (h * p.nhx + (lo + x)))).sum) ∧
        u.synth.done = s.synth.done.set i (h + 1) ∧ u.synth.rings = s.synth.rings ∧ u.mem = s.mem ∧
        u.threads = s.threads ∧ ((∀ n, s.comp.page = .page n → s.shownPage ≠ none) → u.err = s.err)))) ∧
  (
  (∀ tap : Nat → Nat → Int, (∀ a b, 0 ≤ tap a b ∧ tap a b ≤ 4095) →
    filterComp [0, 0, 0, 1024, 0, 0, 0, 0] [0, 0, 0, 1024, 0, 0, 0, 0] tap = (tap 3 3).toNat) ∧
  (∀ a b, a ≤ b → expand12 a ≤ expand12 b) ∧ expand12 0 = 0 ∧ expand12 4095 = 32768 ∧ expand8 0 = 0 ∧ expand8 255 = 32768 ∧
  (∀ (f : Nat → Sample) (k : Nat) (rest : List Nat), (f k).a = 4095 →
    depthStack f (k :: rest) 0 {} = (32768, { r := expand12 (f k).r, g := expand12 (f k).g, b := expand12 (f k).b }, [k])) ∧
  (∀ c : Rgb, ({ a := 0, c := {} } : Cover).over c = c) ∧
  (∀ (w x : Nat), x ≤ 4095 → correct 1 16384 x = x ∧ correct 1 w 0 = 0))

/-- R38, R40, R173-R175: a hogel row leaves once every gallery has finished it: its lines go to the lane packer in DIRECT mode unless their send
line has passed, and to the frame-store slot of the frame in STORED mode, whose first line
opens it over the frames that it overwrites and whose last row completes it; the weave buffer drops the row. A row without galleries waits as
long as two rows are held before it.
R124, R228, R529: a failed cell takes its gallery out of service at once, with record 0x0503, and its place is left without one. A read of
the pipeline that waited for a thread's write goes on torn when its time comes, with SB_TORN and record 0x0909; there is nothing to tear otherwise.
Where the rules leave a corner open, what it says is the model's choice: log 21. -/
def Obligations.ReleaseAndTornReads : Prop :=
  (
  ∀ (s : State) (gv : Gov), s.composing = some gv →
    let p := gv.plan
    let r := s.out.nextRow
    let k := s.wallFrame % p.fsCount
    let clean := s.dram.bad = [] ∧ s.dram.faults = [] ∧ s.dram.epochUe = []
    let mine : FsFrame := { slot := k, buf := p.fsBuf, w := p.width, h := p.height, frame := s.wallFrame, alive := s.comp.alive, page := s.comp.page }
    let opened := if r = 0 then s.out.slots.filter (fun x => !x.meets mine) ++ [mine] else s.out.slots
    ((∃ x ∈ s.synth.places.zip s.synth.done, x.1.isSome = true ∧ x.2 ≤ r) ∨ p.nhy ≤ r → exec .weaveRowRelease s = .next s) ∧
    (s.emptyBands p r ≠ [] → (∀ g ∈ p.gfxOn, s.gfxHeld p g r = true) → s.weaveLow p + 1 < r → exec .weaveRowRelease s = .next s) ∧
    (r < p.nhy → 0 < p.hv → (∀ x ∈ s.synth.places.zip s.synth.done, x.1.isSome = true → r < x.2) → s.emptyBands p r = [] →
      (p.outMode = 0 → ∃ u, exec .weaveRowRelease s = .next u ∧ u.out.nextRow = r + 1 ∧
        u.out.weave = s.out.weave.filter (fun e => e.1 / p.hv != r) ∧
        (∀ v, v < p.hv → s.tg0.line < p.vbl + (r * p.hv + v) → tabFind u.out.lines (r * p.hv + v) = some (s.out.line p.width (r * p.hv + v))) ∧
        u = { s with out := { s.out with nextRow := u.out.nextRow, weave := u.out.weave, lines := u.out.lines } }) ∧
      (∀ b, p.outMode = 1 → tabFind s.bufs.table p.fsBuf = some b → s.canonical → clean →
        ∃ u, exec .weaveRowRelease s = .next u ∧ u.out.nextRow = r + 1 ∧
          (∀ v i, v < p.hv → i < fsPitch p.width →
            Memory.read u.mem (b.base + (k * p.height + (r * p.hv + v)) * fsPitch p.width + i) =
              (packCodes (s.out.line p.width (r * p.hv + v))).getD i 0) ∧
          (∀ a, a < b.base + (k * p.height + r * p.hv) * fsPitch p.width ∨
            b.base + (k * p.height + (r + 1) * p.hv) * fsPitch p.width ≤ a → Memory.read u.mem a = Memory.read s.mem a) ∧
          (r + 1 < p.nhy → u.out.slots = opened) ∧
          (p.nhy = r + 1 → u.out.slots = opened.map fun e => if e.frame = s.wallFrame then { e with full := true } else e) ∧ u.out.lines = s.out.lines))) ∧
  (
  (∀ (s : State) (gal : Fin 16) (cell : Fin 64),
    let x : UnitName := (0x18, gal.val)
    let st := s.svc.gallery[gal].st
    (st ≠ .inService → st ≠ .draining → exec (.cellFault gal cell) s = .next s) ∧
    (st = .inService ∨ st = .draining → ∃ u, exec (.cellFault gal cell) s = .next u ∧ u.svc.gallery[gal].st = .outOfService ∧
      u.svc.gallery[gal].logicPass = false ∧ u.svc.gallery[gal].memPass = false ∧ (∀ k, k ≠ gal → u.svc.gallery[k] = s.svc.gallery[k]) ∧
      (s.trigUnit x = true → u.plan.trig = s.plan.trig ||| 2 ∧ u.svc.gallery[gal].forced = true) ∧ (s.trigUnit x = false → u.plan = s.plan) ∧
      (∀ i, s.synth.places.findIdx? (· == some gal.val) = some i → u.synth.places = s.synth.places.set i none ∧ u.synth.lost = s.synth.lost ++ [gal.val] ∧
        (s.synth.logged1706 = false → u.err.total = s.err.total + 3)) ∧
      (∀ t : Tid, (u.thread t).evt.getLsbD 13 = true) ∧ u.mem = s.mem)) ∧
  (∀ (s : State) (gv : Gov) (r : Reader), r.val < 8 → s.composing = some gv → gv.plan.gfxOn.contains r.val = true →
    let p := gv.plan
    let h := s.needRow
    (s.gfxBlocked p r.val h = none ∨ s.gfxHeld p r.val h = true → exec (.pipelineReadTorn r) s = .next s) ∧
    (∀ t b, s.gfxBlocked p r.val h = some t → s.gfxHeld p r.val h = false → tabFind s.bufs.table (p.gfxLayer r.val).buf = some b →
      s.dram.bad = [] → s.dram.faults = [] → s.dram.epochUe = [] → ∃ u, exec (.pipelineReadTorn r) s = .next u ∧ u.gfxHeld p r.val h = true ∧
        u.plan.status.sbTorn = s.plan.status.sbTorn.bump ∧ u.err.total = s.err.total + 1 ∧ u.mem = s.mem ∧ u.out = s.out)) ∧
  (∀ (s : State) (r : Reader), r.val = 8 → s.fetchPlan = none → exec (.pipelineReadTorn r) s = .next s) ∧
  (∀ (s : State) (p : Plan) (b : Buf) (r : Reader), r.val = 8 → s.fetchPlan = some p → 0 < s.out.fetchLine ∨ s.out.fetchAt ≠ none →
    let py := s.out.fetchLine
    let place := s.linePlace p py
    let off := place.2.1
    let n := fsPitch place.2.2
    s.noLine py = false → tabFind s.bufs.table place.1 = some b →
    (s.pendingWrite (8, py) place.1 off n = none → exec (.pipelineReadTorn r) s = .next s) ∧
    (∀ t, s.pendingWrite (8, py) place.1 off n = some t → s.dram.suspects (b.base + off) n = [] →
      ∃ u, exec (.pipelineReadTorn r) s = .next u ∧
        tabFind u.out.lines py = some ((unpackCodes (Memory.readN s.mem (b.base + off) n)).take (3 * place.2.2)) ∧
        u.plan.status.sbTorn = s.plan.status.sbTorn.bump ∧ u.err.total = s.err.total + 1 ∧ u.mem = s.mem)))

/-- R181-R184: the encoder codes the next tile row of a running job once its lines are there: a directory entry per tile, each
at the place of the tile's record; a row that comes when two tile rows of lines
wait and the encoder is behind fails the job with reason 3 and one that does not verify with reason 1.
R177, R186, R187: playback decodes the tile rows of the frame that the wall frame plays, in order and at most two at a time; CP_FIRST and
CP_COUNT choose the frame, over and over with LOOP and holding the last without; a tile that cannot be decoded is codes 0 with CACHE_UE and record 0x0703.
Where the rules leave a corner open, what it says is the model's choice: log 23. -/
def Obligations.FrameCache : Prop :=
  (
  ∀ (s : State) (c : Capture) (differs behind : Bool), s.cap = some c → s.stopped = false →
    (c.state ≠ 1 → exec (.captureTileRow differs behind) s = .next s) ∧
    (c.state = 1 →
      let ends := fun (reason : BitVec 8) => ∃ u x, exec (.captureTileRow differs behind) s = .next u ∧ u.cap = some x ∧ x.state = 3 ∧
        x.reason = reason ∧ x.frames = c.frames ∧ (∀ t : Tid, (u.thread t).evt.getLsbD 14 = true) ∧ u.plan = s.plan
      let th := min 32 (c.h - 32 * c.rows)
      let late := behind = true ∧ 64 ≤ c.lines.length
      (late → ends 3) ∧
      (¬late → c.lines.length < th ∨ th = 0 → exec (.captureTileRow differs behind) s = .next s) ∧
      (∀ b, ¬late → th ≤ c.lines.length → 0 < th → tabFind s.bufs.table c.buf.toNat = some b → c.frames = 0 → s.canonical →
        s.dram.bad = [] → s.dram.faults = [] → s.dram.epochUe = [] →
        let n := tilesX c.w
        let start := if c.rows = 0 then c.frameStart + 8 * (n * tilesY c.h) else c.used
        let code := fun (x : Nat) => encodeTile (tileRect c.w c.h (c.rows * n + x)).tw false (lineTile (c.lines.take th) (tileRect c.w c.h (c.rows * n + x)))
        let size := fun (x : Nat) => ((List.range x).map fun j => (code j).length).sum
        start + size n ≤ b.len →
        (differs = true → ends 1) ∧
        (differs = false → c.rows + 1 < tilesY c.h → ∃ u, exec (.captureTileRow differs behind) s = .next u ∧
          u.cap = some { c with lines := c.lines.drop th, rows := c.rows + 1, used := start + size n
                                dir := c.dir ++ (List.range n).map fun x => start + size x } ∧
          (∀ x i, x < n → i < (code x).length → Memory.read u.mem (b.base + start + size x + i) = (code x).getD i 0) ∧
          (∀ a, a < b.base + start ∨ b.base + start + size n ≤ a → Memory.read u.mem a = Memory.read s.mem a) ∧ u.plan = s.plan ∧
          u.err = s.err)))) ∧
  (
  ∀ (s : State) (g : Gov), s.tgRuns 0 = true → s.plan.cur = some g → g.plan.outMode = 2 →
    let p := g.plan
    let row := s.out.cacheRow
    let w0 := s.plan.w0.getD s.wallFrame
    let f := p.cpFirst + if p.cpLoop then (s.wallFrame - w0) % p.cpCount else min (s.wallFrame - w0) (p.cpCount - 1)
    let n := tilesX p.width
    (tilesY p.height ≤ row → exec .cacheTileRowDecode s = .next s) ∧
    (row < tilesY p.height → s.out.lines = [] →
      (∃ u, exec .cacheTileRowDecode s = .next u ∧ u.out.cacheRow = row + 1 ∧ u.mem = s.mem ∧ u.tg0 = s.tg0 ∧ u.out.frame = s.out.frame ∧
        (∀ y, y < min 32 (p.height - 32 * row) → s.tg0.line < p.vbl + (32 * row + y) → ∃ l, tabFind u.out.lines (32 * row + y) = some l ∧
          l.length = 3 * p.width) ∧
        (tabFind s.bufs.table p.cpBuf = none → u.err.total = s.err.total + BitVec.ofNat 64 n ∧
          ∀ y l, tabFind u.out.lines (32 * row + y) = some l → ∀ x ∈ l, x = 0)) ∧
      (∀ b, tabFind s.bufs.table p.cpBuf = some b → s.dram.bad = [] → s.dram.faults = [] → s.dram.epochUe = [] →
        4096 + 16 * f + 16 ≤ b.len →
        let entry := fun (t : Nat) => leNat (Memory.readN s.mem (b.base + leNat (Memory.readN s.mem (b.base + 4096 + 16 * f) 16) % 2 ^ 40 + 8 * t) 8) % 2 ^ 40
        let record := fun (t : Nat) => Memory.readN s.mem (b.base + entry t) (4 + leNat (Memory.readN s.mem (b.base + entry t) 4) / 2 ^ 16 % 2 ^ 16)
        let base := leNat (Memory.readN s.mem (b.base + 4096 + 16 * f) 16) % 2 ^ 40
        (∀ x, x < n → base + 8 * (row * n + x) + 8 ≤ b.len ∧ entry (row * n + x) + (record (row * n + x)).length ≤ b.len ∧
          ∃ r, decodeRecord true true p.width p.height (tileRect p.width p.height (row * n + x)) (fun _ _ => 0) (record (row * n + x)) = .ok r) →
        ∃ u, exec .cacheTileRowDecode s = .next u ∧ u.err = s.err ∧
          ∀ y x r, y < min 32 (p.height - 32 * row) → x < p.width → s.tg0.line < p.vbl + (32 * row + y) →
            decodeRecord true true p.width p.height (tileRect p.width p.height (row * n + x / 32)) (fun _ _ => 0) (record (row * n + x / 32)) = .ok r →
            ∃ l, tabFind u.out.lines (32 * row + y) = some l ∧ ∀ c, c < 3 → l.getD (3 * x + c) 0 =
              comp (r.samples.getD (y * (tileRect p.width p.height (row * n + x / 32)).tw + x % 32) 0) c)))

/-- R18, R324, R327-R331: a command slot issues one command: a refresh that can wait no longer; else the request that precedes every other by
budget, urgency, class, row hit and age; on an idle subchannel a refresh, at most 4 ahead of its interval, then zeros for freed memory. A
refresh closes the rows that it covers and enters the retry buffer; a granted request leaves the list, opens its row with an activation unless
it hits, and a CLOSE port closes it again. Symbol errors and a lost epoch entry that come with the slot stay with the bursts for reads to meet.
R11, R312, R316, R337: what a read does that meets symbol errors in a burst. Every word corrected counts in CE; a burst corrected whole
gives its data and is rewritten through port P19; an uncorrectable one gives none, counts in UE or TAG_FAIL with its record, and stays so until
it is written.
R323, R325, R329, R330, R334, R335: what time brings to the controller: a waiting request within budget rises one level and counts in URGENT3
at level 3; an interval adds a refresh or uses one pulled in ahead, and starts the activation counts afresh; an idle row closes; with IDLE_SR
DRAM, with no request waiting and no memory to zero, enters self-refresh in two steps, the refreshes owed issued first; a request abandons the
entry, and ends the state.
Where the rules leave a corner open, what it says is the model's choice: logs 9 and 26. -/
def Obligations.DramController : Prop :=
  (
  ∀ (s : State) (n : Fin 16), s.dramRuns = true → s.dram.subs[n].failed = false →
    let c := s.dram.subs[n]
    let mine := s.dram.reqs.filter fun r => paSub r.pa == n.val
    (∀ r, s.pickReq n.val = some r → r ∈ mine ∧ r.port < 22 ∧ (∀ q ∈ s.dram.reqs, q.id < r.id → r.sameBurst q = false) ∧
      ∀ q ∈ mine, s.grantable q = true → keyLt (s.reqKey q) (s.reqKey r) = false) ∧
    (4 < c.owed → ∃ u, exec (.dramCommandSlot n {}) s = .next u ∧ u.dram.subs[n].owed = c.owed - 1 ∧ u.dram.subs[n].nextRef = c.nextRef + 1 ∧
      (∀ b : Fin 32, (mine = [] ∨ b.val % 4 = c.nextRef.val % 4) → u.dram.subs[n].banks[b].row = none) ∧
      (∀ b : Fin 32, mine ≠ [] → b.val % 4 ≠ c.nextRef.val % 4 → u.dram.subs[n].banks[b] = c.banks[b]) ∧
      (s.dram.capar = true → u.dram.subs[n].retry.getLast? = some (.refresh (if mine = [] then none else some (c.nextRef.val % 4)))) ∧
      (∀ k, k ≠ n → u.dram.subs[k] = s.dram.subs[k]) ∧ u = { s with dram := { s.dram with subs := u.dram.subs } }) ∧
    (mine = [] → c.owed = 0 → c.rfm = [] →
      (c.ahead < 4 → ∃ u, exec (.dramCommandSlot n {}) s = .next u ∧ u.dram.subs[n].ahead = c.ahead + 1 ∧
        (∀ b : Fin 32, u.dram.subs[n].banks[b].row = none) ∧ u = { s with dram := { s.dram with subs := u.dram.subs } }) ∧
      (4 ≤ c.ahead → s.zeroRun n.val = none → ∃ u, exec (.dramCommandSlot n {}) s = .next u ∧ u.dram.subs[n] = { c with replaying := false } ∧
        u = { s with dram := { s.dram with subs := u.dram.subs } }) ∧
      (∀ r j, 4 ≤ c.ahead → s.zeroRun n.val = some r → s.zeroTarget = some j → j.isSealed = true →
        ∃ u, exec (.dramCommandSlot n {}) s = .next u ∧ u.dram.zeroed[n] = s.dram.zeroed[n] + 1 ∧ u.mem = s.mem ∧ u.dram.reqs = s.dram.reqs.filter (·.id != r.id) ∧
          (∀ i : Fin 6, u.dram.spent[i] = if i = 4 then s.dram.spent[i] + 512 else s.dram.spent[i])) ∧
      (4 ≤ c.ahead → s.zeroRun n.val = none → s.dram.reqs = [] →
        (∀ (a : Nat) (e : SymErr), paSub (a / 64 * 64) = n.val → a / 64 * 64 < s.dram.capacity → s.dram.burstBad (a / 64 * 64) = none →
          ∃ u, exec (.dramCommandSlot n { errs := [(a, e)] }) s = .next u ∧ u.mem = s.mem ∧ u.err = s.err ∧ u.dram.bad = s.dram.bad ∧
            tabFind u.dram.faults (a / 64 * 64) = some ((tabFind s.dram.faults (a / 64 * 64)).getD [] ++ [e])) ∧
        (∀ g : BitVec 18, g.toNat ∉ s.dram.epochUe → g.toNat * 1048576 < s.dram.capacity → s.zeroTarget = none →
          ∃ u, exec (.dramCommandSlot n { lost := [g] }) s = .next u ∧ u.mem = s.mem ∧ u.err.total = s.err.total + 1 ∧
            ∀ a, paGranule a = g.toNat → u.dram.burstBad a ≠ none))) ∧
    (∀ r, s.pickReq n.val = some r → c.owed = 0 → c.rfm = [] →
      let x := vget c.banks (paBank r.pa)
      (x.row = some (paRow r.pa) ∨ x.raa + 1 ≤ s.dram.raammt →
        ∃ u, exec (.dramCommandSlot n {}) s = .next u ∧ u.dram.reqs = s.dram.reqs.filter (·.id != r.id) ∧ u.mem = s.mem ∧
          (vget u.dram.subs[n].banks (paBank r.pa)).row = (if portCloses r.port then none else some (paRow r.pa)) ∧
          (vget u.dram.subs[n].banks (paBank r.pa)).raa = (if x.row = some (paRow r.pa) then x.raa else x.raa + 1) ∧
          (∀ i : Fin 6, u.dram.spent[i] = if r.port = 14 + i.val then s.dram.spent[i] + r.len else s.dram.spent[i]) ∧
          (s.dram.capar = true → u.dram.subs[n].retry.getLast? = some (.req r)) ∧
          (∀ k, k ≠ n → u.dram.subs[k] = s.dram.subs[k])) ∧
      (x.row ≠ some (paRow r.pa) → s.dram.raammt < x.raa + 1 → ∃ u, exec (.dramCommandSlot n {}) s = .next u ∧ u.dram.reqs = s.dram.reqs ∧
        ∀ b : Fin 32, b.val % 4 = paBank r.pa % 4 → u.dram.subs[n].banks[b].row = none ∧
          u.dram.subs[n].banks[b].raa = c.banks[b].raa - s.dram.raadec))) ∧
  (
  ∀ (s : State) (pa port : Nat) (errs : List SymErr), s.dram.burstBad pa = none → tabFind s.dram.faults (pa / 64 * 64) = some errs →
    let a := pa / 64 * 64
    let n := paSub a
    let u := (s.meetBurst pa).writeBack pa
    let x := wordReads errs false
    let y := wordReads errs true
    let recent := (vget s.dram.subs n).lastCe.any fun t => decide (s.now < t + 1000000000)
    n < 16 ∧ (vget u.dram.subs n).ce = (vget s.dram.subs n).ce.bump (x.1 + y.1) ∧ u.mem = s.mem ∧ tabFind u.dram.faults a = none ∧
    (s.dram.suspects a 64 = [a] → (s.readDram a 64 port).2 = if s.dram.readsBad a = none then some (Memory.readN s.mem a 64) else none) ∧
    (x.2 = none → y.2 = none → s.dram.readsBad a = none ∧ u.dram.bad = s.dram.bad ∧
      u.err.total = (if 0 < x.1 + y.1 ∧ recent = false then s.err.total + 1 else s.err.total) ∧
      ∃ r, u.dram.reqs = r :: s.dram.reqs ∧ r.port = 19 ∧ r.pa = a ∧ r.len = 64 ∧ r.write = true) ∧
    (x.2 = some .wcode ∨ y.2 = some .wcode → s.dram.readsBad a = some .wcode ∧ u.dram.burstBad pa = some .wcode ∧ u.err.total = s.err.total + 1 ∧
      (vget u.dram.subs n).ue = (vget s.dram.subs n).ue.bump) ∧
    (x.2 ≠ some .wcode → y.2 ≠ some .wcode → x.2 = some .tag ∨ y.2 = some .tag → s.dram.readsBad a = some .tag ∧ u.dram.burstBad pa = some .tag ∧
      u.err.total = s.err.total + 1 ∧ (vget u.dram.subs n).tagFail = (vget s.dram.subs n).tagFail.bump)) ∧
  (
  ∀ s : State,
    (∀ (i : Nat) (r : DramReq), s.dram.reqs.find? (·.id == i) = some r →
      (s.portSpent r.port = true ∨ r.urg = 3 → exec (.urgencyRise i) s = .next s) ∧
      (s.portSpent r.port = false → r.urg ≠ 3 → ∃ u, exec (.urgencyRise i) s = .next u ∧
        u.dram.reqs = s.dram.reqs.map (fun x => if x.id = i then { x with urg := r.urg + 1 } else x) ∧
        (∀ p : Fin 24, u.dram.urgent3[p] = if r.urg = 2 ∧ r.port = p.val then s.dram.urgent3[p].bump else s.dram.urgent3[p]) ∧
        u = { s with dram := { s.dram with reqs := u.dram.reqs, urgent3 := u.dram.urgent3 } })) ∧
    (∀ n : Fin 16, s.dramRuns = true → ∃ u, exec (.refreshDue n) s = .next u ∧
      (s.dram.subs[n].ahead = 0 → u.dram.subs[n].owed = s.dram.subs[n].owed + 1 ∧ u.dram.subs[n].ahead = 0) ∧
      (s.dram.subs[n].ahead ≠ 0 → u.dram.subs[n].owed = s.dram.subs[n].owed ∧ u.dram.subs[n].ahead = s.dram.subs[n].ahead - 1) ∧
      (∀ b : Fin 32, u.dram.subs[n].banks[b] = { s.dram.subs[n].banks[b] with acts := [] }) ∧
      (∀ k, k ≠ n → u.dram.subs[k] = s.dram.subs[k]) ∧
      (∀ e ∈ s.dram.throttled, e.sub = n.val → 1 < e.left → { e with left := e.left - 1 } ∈ u.dram.throttled) ∧
      (∀ e ∈ u.dram.throttled, e.sub = n.val → 0 < e.left ∧ { e with left := e.left + 1 } ∈ s.dram.throttled) ∧
      (∀ e, e.sub ≠ n.val → (e ∈ u.dram.throttled ↔ e ∈ s.dram.throttled)) ∧
      u = { s with dram := { s.dram with subs := u.dram.subs, throttled := u.dram.throttled } }) ∧
    (∀ (n : Fin 16) (b : Fin 32), ∃ u, exec (.rowIdleClose n b) s = .next u ∧ u.dram.subs[n].banks[b] = { s.dram.subs[n].banks[b] with row := none } ∧
      (∀ k, k ≠ b → u.dram.subs[n].banks[k] = s.dram.subs[n].banks[k]) ∧ (∀ k, k ≠ n → u.dram.subs[k] = s.dram.subs[k]) ∧
      u = { s with dram := { s.dram with subs := u.dram.subs } }) ∧
    (s.dramRuns = true →
      exec .zqCalibration s = .next { s with dram := { s.dram with zqDone := s.dram.zqDone + 1 } } ∧
      exec .dqsOscillatorTracking s = .next { s with dram := { s.dram with dqsDone := s.dram.dqsDone + 1 } }) ∧
    (s.dramRuns = true → s.dram.idleSr = false ∨ s.dram.reqs ≠ [] ∨ s.zeroTarget ≠ none → exec .dramSelfRefreshEntry s = .next s) ∧
    (∀ (port pa n : Nat) (w : Bool), s.dram.sr = .entering → 0 < n → (s.dramRequest port pa n w).dram.sr = .out) ∧
    (s.dramRuns = true → s.dram.idleSr = true → s.dram.reqs = [] → s.zeroTarget = none →
      (s.dram.sr = .out → exec .dramSelfRefreshEntry s = .next { s with dram := { s.dram with sr := .entering } }) ∧
      (s.dram.sr = .entering → ∃ u, exec .dramSelfRefreshEntry s = .next u ∧ u.dram.sr = .inSr ∧ u.dram.reqs = [] ∧
        u.dram.srEntries = s.dram.srEntries.bump ∧
        (∀ n : Fin 16, s.dram.subs[n].failed = false → u.dram.subs[n].owed = 0 ∧ u.dram.subs[n].retry = [] ∧
          ∀ b : Fin 32, u.dram.subs[n].banks[b].row = none ∧
            u.dram.subs[n].banks[b].raa = s.dram.subs[n].banks[b].raa - s.dram.subs[n].owed * s.dram.raadec) ∧ u.dram.bad = s.dram.bad ∧ u = { s with dram := u.dram })) ∧
    (s.dram.sr = .inSr → (s.therm.tripped = false → s.safe = false →
        exec .dramSelfRefreshExit s = .next { s with dram := { s.dram with sr := .out } }) ∧
      (s.therm.tripped = true ∨ s.safe = true → exec .dramSelfRefreshExit s = .next s)))
end

