-- ==== Sys2Proof/Laws/Frames.lean ====
section
/-! SUPPORT. What each shared operation of the machine can change: one equation per operation, which names the fields of the state
that it may touch and so leaves every other field as it was. -/

namespace Sys2Proof.Machine

theorem State.modThread_frame (s : State) (t : Tid) (f : Thread → Thread) :
    s.modThread t f = { s with threads := (s.modThread t f).threads } := rfl

theorem State.eventFor_frame (s : State) (p : Tid → Bool) (b : BitVec 32) :
    s.eventFor p b = { s with threads := (s.eventFor p b).threads } := rfl

theorem State.event_frame (s : State) (b : Nat) : s.event b = { s with threads := (s.event b).threads } := rfl

theorem State.raise_frame (s : State) (v : Nat) : s.raise v = { s with host := (s.raise v).host } := by
  simp only [State.raise]
  split
  · rfl
  · split <;> rfl

theorem State.putQueueRaw_frame (s : State) (i : Fin 64) (q : Queue) : (s.putQueueRaw i q).1 =
    { s with
      threads := (s.putQueueRaw i q).1.threads, queues := (s.putQueueRaw i q).1.queues, host := (s.putQueueRaw i q).1.host } := by
  simp only [State.putQueueRaw]
  split
  · split
    · rw [State.raise_frame]; rfl
    · rfl
  · rfl

theorem State.post41_frame (s : State) (d : List Byte) : s.post41 d =
    { s with threads := (s.post41 d).threads, queues := (s.post41 d).queues, host := (s.post41 d).host } := by
  simp only [State.post41]
  split
  · split <;> rw [State.raise_frame, State.putQueueRaw_frame]
  · rfl

theorem State.putQueue_frame (s : State) (i : Fin 64) (q : Queue) : s.putQueue i q =
    { s with threads := (s.putQueue i q).threads, queues := (s.putQueue i q).queues, host := (s.putQueue i q).host } := by
  simp only [State.putQueue]
  split
  · rw [State.post41_frame, State.putQueueRaw_frame]
  · rw [State.putQueueRaw_frame]

theorem State.post40_frame (s : State) (c : Bool) (r n k : Nat) : (s.post40 c r n k).1 =
    { s with
      threads := (s.post40 c r n k).1.threads, queues := (s.post40 c r n k).1.queues, host := (s.post40 c r n k).1.host } := by
  simp only [State.post40]
  generalize (if c = true then 32 else 1024) = room
  split
  · rw [State.raise_frame, State.putQueue_frame]
  · rfl

/-- A record touches the error log, the event words, the queues and the host's cause bits. -/
theorem State.report_frame (s : State) (code block info : Nat) : s.report code block info =
    { s with
      threads := (s.report code block info).threads, queues := (s.report code block info).queues
      host := (s.report code block info).host, err := (s.report code block info).err } := by
  simp only [State.report]
  split
  · split
    · rfl
    · rw [State.post40_frame]
  · generalize (if (errLevel code info == 3) = true then _ else s.err.lastChip) = last
    split <;> rw [State.post40_frame]

theorem State.faultAt_frame (s : State) (t : Tid) (f : Flt) (sub addr : Nat) : s.faultAt t f sub addr =
    { s with
      threads := (s.faultAt t f sub addr).threads, sboard := s.sboard.filter fun o => !(o.thread == t && o.sync)
      queues := (s.faultAt t f sub addr).queues, host := (s.faultAt t f sub addr).host, err := (s.faultAt t f sub addr).err } := by
  simp only [State.faultAt]
  rw [State.raise_frame, State.eventFor_frame, State.report_frame]
  rfl

theorem State.groupResult_frame (s : State) (g : BitVec 16) (c : BitVec 12) (r : Nat) : s.groupResult g c r =
    { s with
      threads := (s.groupResult g c r).threads, queues := (s.groupResult g c r).queues, host := (s.groupResult g c r).host } := by
  simp only [State.groupResult]
  rw [State.post41_frame]
  rfl

theorem State.deliver_frame (s : State) (d : Deliver) (x : Done) : s.deliver d x =
    { s with threads := (s.deliver d x).threads, queues := (s.deliver d x).queues, host := (s.deliver d x).host } := by
  cases d <;> first | rfl | exact State.groupResult_frame _ _ _ _

theorem State.overruled_frame (s : State) (r : Resource) (a : Level) (m : Nat) (b : Level) (n : Nat) : s.overruled r a m b n =
    { s with
      threads := (s.overruled r a m b n).threads, queues := (s.overruled r a m b n).queues
      host := (s.overruled r a m b n).host, err := (s.overruled r a m b n).err } := State.report_frame _ _ _ _

/-- Records of the orders that lose touch what a record touches. -/
theorem State.overruledAll_frame (l : List Hold) (f : State → Hold → State) (s : State)
    (hf : ∀ s h, f s h = { s with
      threads := (f s h).threads, queues := (f s h).queues, host := (f s h).host, err := (f s h).err }) : l.foldl f s =
    { s with
      threads := (l.foldl f s).threads, queues := (l.foldl f s).queues, host := (l.foldl f s).host, err := (l.foldl f s).err } := by
  induction l generalizing s with
  | nil => rfl
  | cons h l ih => rw [List.foldl_cons, ih (f s h), hf s h]

theorem State.holdAt_frame (s : State) (r : Resource) (l : Level) (n : Nat) : s.holdAt r l n =
    { s with
      threads := (s.holdAt r l n).threads, queues := (s.holdAt r l n).queues, host := (s.holdAt r l n).host
      err := (s.holdAt r l n).err, holds := ⟨r, l, n⟩ :: s.holds.filter fun h => !(h.res == r && h.level == l) } := by
  simp only [State.holdAt]
  rw [State.overruledAll_frame _ _ _ fun _ _ => State.overruled_frame _ _ _ _ _ _]

/-- An order that displaces none writes no record. -/
theorem State.holdAt_alone (s : State) (r : Resource) (l : Level) (n : Nat) (h : ∀ x ∈ s.holds, x.res ≠ r) :
    s.holdAt r l n = { s with holds := ⟨r, l, n⟩ :: s.holds } := by
  have hl : (s.holds.filter fun h => h.loses r l) = [] := by
    rw [List.filter_eq_nil_iff]
    intro x hx
    simp [Hold.loses, h x hx]
  have hf : (s.holds.filter fun h => !(h.res == r && h.level == l)) = s.holds := by
    rw [List.filter_eq_self]
    intro x hx
    simp [h x hx]
  simp only [State.holdAt, hl, List.foldl_nil, hf]

theorem State.wakeDram_frame (s : State) (u : Use) : (s.wakeDram u).1 = { s with dram := (s.wakeDram u).1.dram } := by
  simp only [State.wakeDram]
  split
  · rfl
  · split <;> rfl

theorem State.restart_frame (s : State) (t : Tid) : s.restart t = { s with threads := (s.restart t).threads } := by
  simp only [State.restart]
  split <;> rfl

end Sys2Proof.Machine
end

