-- ==== Sys2Proof/Laws/State.lean ====
section
/-! SUPPORT. One lemma per field and update of the state and of a thread: what the named updates leave as it was, so that no proof
unfolds a record update. -/

namespace Sys2Proof.Machine

/-! `setThread` changes threads. -/

@[simp] theorem State.setThread_pending (s : State) (t : Tid) (x : Thread) : (s.setThread t x).pending = s.pending := rfl
@[simp] theorem State.setThread_now (s : State) (t : Tid) (x : Thread) : (s.setThread t x).now = s.now := rfl
@[simp] theorem State.setThread_free (s : State) (t : Tid) (x : Thread) : (s.setThread t x).free = s.free := rfl
@[simp] theorem State.setThread_nextOp (s : State) (t : Tid) (x : Thread) : (s.setThread t x).nextOp = s.nextOp := rfl
@[simp] theorem State.setThread_sboard (s : State) (t : Tid) (x : Thread) : (s.setThread t x).sboard = s.sboard := rfl
@[simp] theorem State.setThread_holds (s : State) (t : Tid) (x : Thread) : (s.setThread t x).holds = s.holds := rfl
@[simp] theorem State.setThread_bufs (s : State) (t : Tid) (x : Thread) : (s.setThread t x).bufs = s.bufs := rfl
@[simp] theorem State.setThread_mem (s : State) (t : Tid) (x : Thread) : (s.setThread t x).mem = s.mem := rfl
@[simp] theorem State.setThread_dram (s : State) (t : Tid) (x : Thread) : (s.setThread t x).dram = s.dram := rfl
@[simp] theorem State.setThread_queues (s : State) (t : Tid) (x : Thread) : (s.setThread t x).queues = s.queues := rfl
@[simp] theorem State.setThread_plan (s : State) (t : Tid) (x : Thread) : (s.setThread t x).plan = s.plan := rfl
@[simp] theorem State.setThread_layers (s : State) (t : Tid) (x : Thread) : (s.setThread t x).layers = s.layers := rfl
@[simp] theorem State.setThread_synth (s : State) (t : Tid) (x : Thread) : (s.setThread t x).synth = s.synth := rfl
@[simp] theorem State.setThread_comp (s : State) (t : Tid) (x : Thread) : (s.setThread t x).comp = s.comp := rfl
@[simp] theorem State.setThread_cap (s : State) (t : Tid) (x : Thread) : (s.setThread t x).cap = s.cap := rfl
@[simp] theorem State.setThread_out (s : State) (t : Tid) (x : Thread) : (s.setThread t x).out = s.out := rfl
@[simp] theorem State.setThread_streams (s : State) (t : Tid) (x : Thread) : (s.setThread t x).streams = s.streams := rfl
@[simp] theorem State.setThread_engs (s : State) (t : Tid) (x : Thread) : (s.setThread t x).engs = s.engs := rfl
@[simp] theorem State.setThread_blt (s : State) (t : Tid) (x : Thread) : (s.setThread t x).blt = s.blt := rfl
@[simp] theorem State.setThread_cus (s : State) (t : Tid) (x : Thread) : (s.setThread t x).cus = s.cus := rfl
@[simp] theorem State.setThread_tg0 (s : State) (t : Tid) (x : Thread) : (s.setThread t x).tg0 = s.tg0 := rfl
@[simp] theorem State.setThread_tg1 (s : State) (t : Tid) (x : Thread) : (s.setThread t x).tg1 = s.tg1 := rfl
@[simp] theorem State.setThread_tg2 (s : State) (t : Tid) (x : Thread) : (s.setThread t x).tg2 = s.tg2 := rfl
@[simp] theorem State.setThread_scan (s : State) (t : Tid) (x : Thread) : (s.setThread t x).scan = s.scan := rfl
@[simp] theorem State.setThread_pairs (s : State) (t : Tid) (x : Thread) : (s.setThread t x).pairs = s.pairs := rfl
@[simp] theorem State.setThread_pwr (s : State) (t : Tid) (x : Thread) : (s.setThread t x).pwr = s.pwr := rfl
@[simp] theorem State.setThread_sec (s : State) (t : Tid) (x : Thread) : (s.setThread t x).sec = s.sec := rfl
@[simp] theorem State.setThread_fab (s : State) (t : Tid) (x : Thread) : (s.setThread t x).fab = s.fab := rfl
@[simp] theorem State.setThread_aud (s : State) (t : Tid) (x : Thread) : (s.setThread t x).aud = s.aud := rfl
@[simp] theorem State.setThread_therm (s : State) (t : Tid) (x : Thread) : (s.setThread t x).therm = s.therm := rfl
@[simp] theorem State.setThread_life (s : State) (t : Tid) (x : Thread) : (s.setThread t x).life = s.life := rfl
@[simp] theorem State.setThread_trim (s : State) (t : Tid) (x : Thread) : (s.setThread t x).trim = s.trim := rfl
@[simp] theorem State.setThread_flash (s : State) (t : Tid) (x : Thread) : (s.setThread t x).flash = s.flash := rfl
@[simp] theorem State.setThread_host (s : State) (t : Tid) (x : Thread) : (s.setThread t x).host = s.host := rfl
@[simp] theorem State.setThread_boot (s : State) (t : Tid) (x : Thread) : (s.setThread t x).boot = s.boot := rfl
@[simp] theorem State.setThread_err (s : State) (t : Tid) (x : Thread) : (s.setThread t x).err = s.err := rfl
@[simp] theorem State.setThread_svc (s : State) (t : Tid) (x : Thread) : (s.setThread t x).svc = s.svc := rfl
@[simp] theorem State.setThread_safe (s : State) (t : Tid) (x : Thread) : (s.setThread t x).safe = s.safe := rfl

/-! `registered` changes sboard, nextOp. -/

@[simp] theorem State.registered_pending (s : State) (t : Tid) (u : Use) : (s.registered t u).pending = s.pending := rfl
@[simp] theorem State.registered_now (s : State) (t : Tid) (u : Use) : (s.registered t u).now = s.now := rfl
@[simp] theorem State.registered_free (s : State) (t : Tid) (u : Use) : (s.registered t u).free = s.free := rfl
@[simp] theorem State.registered_threads (s : State) (t : Tid) (u : Use) : (s.registered t u).threads = s.threads := rfl
@[simp] theorem State.registered_holds (s : State) (t : Tid) (u : Use) : (s.registered t u).holds = s.holds := rfl
@[simp] theorem State.registered_bufs (s : State) (t : Tid) (u : Use) : (s.registered t u).bufs = s.bufs := rfl
@[simp] theorem State.registered_mem (s : State) (t : Tid) (u : Use) : (s.registered t u).mem = s.mem := rfl
@[simp] theorem State.registered_dram (s : State) (t : Tid) (u : Use) : (s.registered t u).dram = s.dram := rfl
@[simp] theorem State.registered_queues (s : State) (t : Tid) (u : Use) : (s.registered t u).queues = s.queues := rfl
@[simp] theorem State.registered_plan (s : State) (t : Tid) (u : Use) : (s.registered t u).plan = s.plan := rfl
@[simp] theorem State.registered_layers (s : State) (t : Tid) (u : Use) : (s.registered t u).layers = s.layers := rfl
@[simp] theorem State.registered_synth (s : State) (t : Tid) (u : Use) : (s.registered t u).synth = s.synth := rfl
@[simp] theorem State.registered_comp (s : State) (t : Tid) (u : Use) : (s.registered t u).comp = s.comp := rfl
@[simp] theorem State.registered_cap (s : State) (t : Tid) (u : Use) : (s.registered t u).cap = s.cap := rfl
@[simp] theorem State.registered_out (s : State) (t : Tid) (u : Use) : (s.registered t u).out = s.out := rfl
@[simp] theorem State.registered_streams (s : State) (t : Tid) (u : Use) : (s.registered t u).streams = s.streams := rfl
@[simp] theorem State.registered_engs (s : State) (t : Tid) (u : Use) : (s.registered t u).engs = s.engs := rfl
@[simp] theorem State.registered_blt (s : State) (t : Tid) (u : Use) : (s.registered t u).blt = s.blt := rfl
@[simp] theorem State.registered_cus (s : State) (t : Tid) (u : Use) : (s.registered t u).cus = s.cus := rfl
@[simp] theorem State.registered_tg0 (s : State) (t : Tid) (u : Use) : (s.registered t u).tg0 = s.tg0 := rfl
@[simp] theorem State.registered_tg1 (s : State) (t : Tid) (u : Use) : (s.registered t u).tg1 = s.tg1 := rfl
@[simp] theorem State.registered_tg2 (s : State) (t : Tid) (u : Use) : (s.registered t u).tg2 = s.tg2 := rfl
@[simp] theorem State.registered_scan (s : State) (t : Tid) (u : Use) : (s.registered t u).scan = s.scan := rfl
@[simp] theorem State.registered_pairs (s : State) (t : Tid) (u : Use) : (s.registered t u).pairs = s.pairs := rfl
@[simp] theorem State.registered_pwr (s : State) (t : Tid) (u : Use) : (s.registered t u).pwr = s.pwr := rfl
@[simp] theorem State.registered_sec (s : State) (t : Tid) (u : Use) : (s.registered t u).sec = s.sec := rfl
@[simp] theorem State.registered_fab (s : State) (t : Tid) (u : Use) : (s.registered t u).fab = s.fab := rfl
@[simp] theorem State.registered_aud (s : State) (t : Tid) (u : Use) : (s.registered t u).aud = s.aud := rfl
@[simp] theorem State.registered_therm (s : State) (t : Tid) (u : Use) : (s.registered t u).therm = s.therm := rfl
@[simp] theorem State.registered_life (s : State) (t : Tid) (u : Use) : (s.registered t u).life = s.life := rfl
@[simp] theorem State.registered_trim (s : State) (t : Tid) (u : Use) : (s.registered t u).trim = s.trim := rfl
@[simp] theorem State.registered_flash (s : State) (t : Tid) (u : Use) : (s.registered t u).flash = s.flash := rfl
@[simp] theorem State.registered_host (s : State) (t : Tid) (u : Use) : (s.registered t u).host = s.host := rfl
@[simp] theorem State.registered_boot (s : State) (t : Tid) (u : Use) : (s.registered t u).boot = s.boot := rfl
@[simp] theorem State.registered_err (s : State) (t : Tid) (u : Use) : (s.registered t u).err = s.err := rfl
@[simp] theorem State.registered_svc (s : State) (t : Tid) (u : Use) : (s.registered t u).svc = s.svc := rfl
@[simp] theorem State.registered_safe (s : State) (t : Tid) (u : Use) : (s.registered t u).safe = s.safe := rfl

/-! `modThread` changes threads. -/

@[simp] theorem State.modThread_pending (s : State) (t : Tid) (f : Thread → Thread) : (s.modThread t f).pending = s.pending := rfl
@[simp] theorem State.modThread_now (s : State) (t : Tid) (f : Thread → Thread) : (s.modThread t f).now = s.now := rfl
@[simp] theorem State.modThread_free (s : State) (t : Tid) (f : Thread → Thread) : (s.modThread t f).free = s.free := rfl
@[simp] theorem State.modThread_nextOp (s : State) (t : Tid) (f : Thread → Thread) : (s.modThread t f).nextOp = s.nextOp := rfl
@[simp] theorem State.modThread_sboard (s : State) (t : Tid) (f : Thread → Thread) : (s.modThread t f).sboard = s.sboard := rfl
@[simp] theorem State.modThread_holds (s : State) (t : Tid) (f : Thread → Thread) : (s.modThread t f).holds = s.holds := rfl
@[simp] theorem State.modThread_bufs (s : State) (t : Tid) (f : Thread → Thread) : (s.modThread t f).bufs = s.bufs := rfl
@[simp] theorem State.modThread_mem (s : State) (t : Tid) (f : Thread → Thread) : (s.modThread t f).mem = s.mem := rfl
@[simp] theorem State.modThread_dram (s : State) (t : Tid) (f : Thread → Thread) : (s.modThread t f).dram = s.dram := rfl
@[simp] theorem State.modThread_queues (s : State) (t : Tid) (f : Thread → Thread) : (s.modThread t f).queues = s.queues := rfl
@[simp] theorem State.modThread_plan (s : State) (t : Tid) (f : Thread → Thread) : (s.modThread t f).plan = s.plan := rfl
@[simp] theorem State.modThread_layers (s : State) (t : Tid) (f : Thread → Thread) : (s.modThread t f).layers = s.layers := rfl
@[simp] theorem State.modThread_synth (s : State) (t : Tid) (f : Thread → Thread) : (s.modThread t f).synth = s.synth := rfl
@[simp] theorem State.modThread_comp (s : State) (t : Tid) (f : Thread → Thread) : (s.modThread t f).comp = s.comp := rfl
@[simp] theorem State.modThread_cap (s : State) (t : Tid) (f : Thread → Thread) : (s.modThread t f).cap = s.cap := rfl
@[simp] theorem State.modThread_out (s : State) (t : Tid) (f : Thread → Thread) : (s.modThread t f).out = s.out := rfl
@[simp] theorem State.modThread_streams (s : State) (t : Tid) (f : Thread → Thread) : (s.modThread t f).streams = s.streams := rfl
@[simp] theorem State.modThread_engs (s : State) (t : Tid) (f : Thread → Thread) : (s.modThread t f).engs = s.engs := rfl
@[simp] theorem State.modThread_blt (s : State) (t : Tid) (f : Thread → Thread) : (s.modThread t f).blt = s.blt := rfl
@[simp] theorem State.modThread_cus (s : State) (t : Tid) (f : Thread → Thread) : (s.modThread t f).cus = s.cus := rfl
@[simp] theorem State.modThread_tg0 (s : State) (t : Tid) (f : Thread → Thread) : (s.modThread t f).tg0 = s.tg0 := rfl
@[simp] theorem State.modThread_tg1 (s : State) (t : Tid) (f : Thread → Thread) : (s.modThread t f).tg1 = s.tg1 := rfl
@[simp] theorem State.modThread_tg2 (s : State) (t : Tid) (f : Thread → Thread) : (s.modThread t f).tg2 = s.tg2 := rfl
@[simp] theorem State.modThread_scan (s : State) (t : Tid) (f : Thread → Thread) : (s.modThread t f).scan = s.scan := rfl
@[simp] theorem State.modThread_pairs (s : State) (t : Tid) (f : Thread → Thread) : (s.modThread t f).pairs = s.pairs := rfl
@[simp] theorem State.modThread_pwr (s : State) (t : Tid) (f : Thread → Thread) : (s.modThread t f).pwr = s.pwr := rfl
@[simp] theorem State.modThread_sec (s : State) (t : Tid) (f : Thread → Thread) : (s.modThread t f).sec = s.sec := rfl
@[simp] theorem State.modThread_fab (s : State) (t : Tid) (f : Thread → Thread) : (s.modThread t f).fab = s.fab := rfl
@[simp] theorem State.modThread_aud (s : State) (t : Tid) (f : Thread → Thread) : (s.modThread t f).aud = s.aud := rfl
@[simp] theorem State.modThread_therm (s : State) (t : Tid) (f : Thread → Thread) : (s.modThread t f).therm = s.therm := rfl
@[simp] theorem State.modThread_life (s : State) (t : Tid) (f : Thread → Thread) : (s.modThread t f).life = s.life := rfl
@[simp] theorem State.modThread_trim (s : State) (t : Tid) (f : Thread → Thread) : (s.modThread t f).trim = s.trim := rfl
@[simp] theorem State.modThread_flash (s : State) (t : Tid) (f : Thread → Thread) : (s.modThread t f).flash = s.flash := rfl
@[simp] theorem State.modThread_host (s : State) (t : Tid) (f : Thread → Thread) : (s.modThread t f).host = s.host := rfl
@[simp] theorem State.modThread_boot (s : State) (t : Tid) (f : Thread → Thread) : (s.modThread t f).boot = s.boot := rfl
@[simp] theorem State.modThread_err (s : State) (t : Tid) (f : Thread → Thread) : (s.modThread t f).err = s.err := rfl
@[simp] theorem State.modThread_svc (s : State) (t : Tid) (f : Thread → Thread) : (s.modThread t f).svc = s.svc := rfl
@[simp] theorem State.modThread_safe (s : State) (t : Tid) (f : Thread → Thread) : (s.modThread t f).safe = s.safe := rfl

/-! `eventFor` changes threads. -/

@[simp] theorem State.eventFor_pending (s : State) (p : Tid → Bool) (b : BitVec 32) : (s.eventFor p b).pending = s.pending := rfl
@[simp] theorem State.eventFor_now (s : State) (p : Tid → Bool) (b : BitVec 32) : (s.eventFor p b).now = s.now := rfl
@[simp] theorem State.eventFor_free (s : State) (p : Tid → Bool) (b : BitVec 32) : (s.eventFor p b).free = s.free := rfl
@[simp] theorem State.eventFor_nextOp (s : State) (p : Tid → Bool) (b : BitVec 32) : (s.eventFor p b).nextOp = s.nextOp := rfl
@[simp] theorem State.eventFor_sboard (s : State) (p : Tid → Bool) (b : BitVec 32) : (s.eventFor p b).sboard = s.sboard := rfl
@[simp] theorem State.eventFor_holds (s : State) (p : Tid → Bool) (b : BitVec 32) : (s.eventFor p b).holds = s.holds := rfl
@[simp] theorem State.eventFor_bufs (s : State) (p : Tid → Bool) (b : BitVec 32) : (s.eventFor p b).bufs = s.bufs := rfl
@[simp] theorem State.eventFor_mem (s : State) (p : Tid → Bool) (b : BitVec 32) : (s.eventFor p b).mem = s.mem := rfl
@[simp] theorem State.eventFor_dram (s : State) (p : Tid → Bool) (b : BitVec 32) : (s.eventFor p b).dram = s.dram := rfl
@[simp] theorem State.eventFor_queues (s : State) (p : Tid → Bool) (b : BitVec 32) : (s.eventFor p b).queues = s.queues := rfl
@[simp] theorem State.eventFor_plan (s : State) (p : Tid → Bool) (b : BitVec 32) : (s.eventFor p b).plan = s.plan := rfl
@[simp] theorem State.eventFor_layers (s : State) (p : Tid → Bool) (b : BitVec 32) : (s.eventFor p b).layers = s.layers := rfl
@[simp] theorem State.eventFor_synth (s : State) (p : Tid → Bool) (b : BitVec 32) : (s.eventFor p b).synth = s.synth := rfl
@[simp] theorem State.eventFor_comp (s : State) (p : Tid → Bool) (b : BitVec 32) : (s.eventFor p b).comp = s.comp := rfl
@[simp] theorem State.eventFor_cap (s : State) (p : Tid → Bool) (b : BitVec 32) : (s.eventFor p b).cap = s.cap := rfl
@[simp] theorem State.eventFor_out (s : State) (p : Tid → Bool) (b : BitVec 32) : (s.eventFor p b).out = s.out := rfl
@[simp] theorem State.eventFor_streams (s : State) (p : Tid → Bool) (b : BitVec 32) : (s.eventFor p b).streams = s.streams := rfl
@[simp] theorem State.eventFor_engs (s : State) (p : Tid → Bool) (b : BitVec 32) : (s.eventFor p b).engs = s.engs := rfl
@[simp] theorem State.eventFor_blt (s : State) (p : Tid → Bool) (b : BitVec 32) : (s.eventFor p b).blt = s.blt := rfl
@[simp] theorem State.eventFor_cus (s : State) (p : Tid → Bool) (b : BitVec 32) : (s.eventFor p b).cus = s.cus := rfl
@[simp] theorem State.eventFor_tg0 (s : State) (p : Tid → Bool) (b : BitVec 32) : (s.eventFor p b).tg0 = s.tg0 := rfl
@[simp] theorem State.eventFor_tg1 (s : State) (p : Tid → Bool) (b : BitVec 32) : (s.eventFor p b).tg1 = s.tg1 := rfl
@[simp] theorem State.eventFor_tg2 (s : State) (p : Tid → Bool) (b : BitVec 32) : (s.eventFor p b).tg2 = s.tg2 := rfl
@[simp] theorem State.eventFor_scan (s : State) (p : Tid → Bool) (b : BitVec 32) : (s.eventFor p b).scan = s.scan := rfl
@[simp] theorem State.eventFor_pairs (s : State) (p : Tid → Bool) (b : BitVec 32) : (s.eventFor p b).pairs = s.pairs := rfl
@[simp] theorem State.eventFor_pwr (s : State) (p : Tid → Bool) (b : BitVec 32) : (s.eventFor p b).pwr = s.pwr := rfl
@[simp] theorem State.eventFor_sec (s : State) (p : Tid → Bool) (b : BitVec 32) : (s.eventFor p b).sec = s.sec := rfl
@[simp] theorem State.eventFor_fab (s : State) (p : Tid → Bool) (b : BitVec 32) : (s.eventFor p b).fab = s.fab := rfl
@[simp] theorem State.eventFor_aud (s : State) (p : Tid → Bool) (b : BitVec 32) : (s.eventFor p b).aud = s.aud := rfl
@[simp] theorem State.eventFor_therm (s : State) (p : Tid → Bool) (b : BitVec 32) : (s.eventFor p b).therm = s.therm := rfl
@[simp] theorem State.eventFor_life (s : State) (p : Tid → Bool) (b : BitVec 32) : (s.eventFor p b).life = s.life := rfl
@[simp] theorem State.eventFor_trim (s : State) (p : Tid → Bool) (b : BitVec 32) : (s.eventFor p b).trim = s.trim := rfl
@[simp] theorem State.eventFor_flash (s : State) (p : Tid → Bool) (b : BitVec 32) : (s.eventFor p b).flash = s.flash := rfl
@[simp] theorem State.eventFor_host (s : State) (p : Tid → Bool) (b : BitVec 32) : (s.eventFor p b).host = s.host := rfl
@[simp] theorem State.eventFor_boot (s : State) (p : Tid → Bool) (b : BitVec 32) : (s.eventFor p b).boot = s.boot := rfl
@[simp] theorem State.eventFor_err (s : State) (p : Tid → Bool) (b : BitVec 32) : (s.eventFor p b).err = s.err := rfl
@[simp] theorem State.eventFor_svc (s : State) (p : Tid → Bool) (b : BitVec 32) : (s.eventFor p b).svc = s.svc := rfl
@[simp] theorem State.eventFor_safe (s : State) (p : Tid → Bool) (b : BitVec 32) : (s.eventFor p b).safe = s.safe := rfl

/-! `event` changes threads. -/

@[simp] theorem State.event_pending (s : State) (b : Nat) : (s.event b).pending = s.pending := rfl
@[simp] theorem State.event_now (s : State) (b : Nat) : (s.event b).now = s.now := rfl
@[simp] theorem State.event_free (s : State) (b : Nat) : (s.event b).free = s.free := rfl
@[simp] theorem State.event_nextOp (s : State) (b : Nat) : (s.event b).nextOp = s.nextOp := rfl
@[simp] theorem State.event_sboard (s : State) (b : Nat) : (s.event b).sboard = s.sboard := rfl
@[simp] theorem State.event_holds (s : State) (b : Nat) : (s.event b).holds = s.holds := rfl
@[simp] theorem State.event_bufs (s : State) (b : Nat) : (s.event b).bufs = s.bufs := rfl
@[simp] theorem State.event_mem (s : State) (b : Nat) : (s.event b).mem = s.mem := rfl
@[simp] theorem State.event_dram (s : State) (b : Nat) : (s.event b).dram = s.dram := rfl
@[simp] theorem State.event_queues (s : State) (b : Nat) : (s.event b).queues = s.queues := rfl
@[simp] theorem State.event_plan (s : State) (b : Nat) : (s.event b).plan = s.plan := rfl
@[simp] theorem State.event_layers (s : State) (b : Nat) : (s.event b).layers = s.layers := rfl
@[simp] theorem State.event_synth (s : State) (b : Nat) : (s.event b).synth = s.synth := rfl
@[simp] theorem State.event_comp (s : State) (b : Nat) : (s.event b).comp = s.comp := rfl
@[simp] theorem State.event_cap (s : State) (b : Nat) : (s.event b).cap = s.cap := rfl
@[simp] theorem State.event_out (s : State) (b : Nat) : (s.event b).out = s.out := rfl
@[simp] theorem State.event_streams (s : State) (b : Nat) : (s.event b).streams = s.streams := rfl
@[simp] theorem State.event_engs (s : State) (b : Nat) : (s.event b).engs = s.engs := rfl
@[simp] theorem State.event_blt (s : State) (b : Nat) : (s.event b).blt = s.blt := rfl
@[simp] theorem State.event_cus (s : State) (b : Nat) : (s.event b).cus = s.cus := rfl
@[simp] theorem State.event_tg0 (s : State) (b : Nat) : (s.event b).tg0 = s.tg0 := rfl
@[simp] theorem State.event_tg1 (s : State) (b : Nat) : (s.event b).tg1 = s.tg1 := rfl
@[simp] theorem State.event_tg2 (s : State) (b : Nat) : (s.event b).tg2 = s.tg2 := rfl
@[simp] theorem State.event_scan (s : State) (b : Nat) : (s.event b).scan = s.scan := rfl
@[simp] theorem State.event_pairs (s : State) (b : Nat) : (s.event b).pairs = s.pairs := rfl
@[simp] theorem State.event_pwr (s : State) (b : Nat) : (s.event b).pwr = s.pwr := rfl
@[simp] theorem State.event_sec (s : State) (b : Nat) : (s.event b).sec = s.sec := rfl
@[simp] theorem State.event_fab (s : State) (b : Nat) : (s.event b).fab = s.fab := rfl
@[simp] theorem State.event_aud (s : State) (b : Nat) : (s.event b).aud = s.aud := rfl
@[simp] theorem State.event_therm (s : State) (b : Nat) : (s.event b).therm = s.therm := rfl
@[simp] theorem State.event_life (s : State) (b : Nat) : (s.event b).life = s.life := rfl
@[simp] theorem State.event_trim (s : State) (b : Nat) : (s.event b).trim = s.trim := rfl
@[simp] theorem State.event_flash (s : State) (b : Nat) : (s.event b).flash = s.flash := rfl
@[simp] theorem State.event_host (s : State) (b : Nat) : (s.event b).host = s.host := rfl
@[simp] theorem State.event_boot (s : State) (b : Nat) : (s.event b).boot = s.boot := rfl
@[simp] theorem State.event_err (s : State) (b : Nat) : (s.event b).err = s.err := rfl
@[simp] theorem State.event_svc (s : State) (b : Nat) : (s.event b).svc = s.svc := rfl
@[simp] theorem State.event_safe (s : State) (b : Nat) : (s.event b).safe = s.safe := rfl

/-! `hold` changes threads. -/

@[simp] theorem State.hold_pending (s : State) (t : Tid) (i : Instr) : (s.hold t i).pending = s.pending := rfl
@[simp] theorem State.hold_now (s : State) (t : Tid) (i : Instr) : (s.hold t i).now = s.now := rfl
@[simp] theorem State.hold_free (s : State) (t : Tid) (i : Instr) : (s.hold t i).free = s.free := rfl
@[simp] theorem State.hold_nextOp (s : State) (t : Tid) (i : Instr) : (s.hold t i).nextOp = s.nextOp := rfl
@[simp] theorem State.hold_sboard (s : State) (t : Tid) (i : Instr) : (s.hold t i).sboard = s.sboard := rfl
@[simp] theorem State.hold_holds (s : State) (t : Tid) (i : Instr) : (s.hold t i).holds = s.holds := rfl
@[simp] theorem State.hold_bufs (s : State) (t : Tid) (i : Instr) : (s.hold t i).bufs = s.bufs := rfl
@[simp] theorem State.hold_mem (s : State) (t : Tid) (i : Instr) : (s.hold t i).mem = s.mem := rfl
@[simp] theorem State.hold_dram (s : State) (t : Tid) (i : Instr) : (s.hold t i).dram = s.dram := rfl
@[simp] theorem State.hold_queues (s : State) (t : Tid) (i : Instr) : (s.hold t i).queues = s.queues := rfl
@[simp] theorem State.hold_plan (s : State) (t : Tid) (i : Instr) : (s.hold t i).plan = s.plan := rfl
@[simp] theorem State.hold_layers (s : State) (t : Tid) (i : Instr) : (s.hold t i).layers = s.layers := rfl
@[simp] theorem State.hold_synth (s : State) (t : Tid) (i : Instr) : (s.hold t i).synth = s.synth := rfl
@[simp] theorem State.hold_comp (s : State) (t : Tid) (i : Instr) : (s.hold t i).comp = s.comp := rfl
@[simp] theorem State.hold_cap (s : State) (t : Tid) (i : Instr) : (s.hold t i).cap = s.cap := rfl
@[simp] theorem State.hold_out (s : State) (t : Tid) (i : Instr) : (s.hold t i).out = s.out := rfl
@[simp] theorem State.hold_streams (s : State) (t : Tid) (i : Instr) : (s.hold t i).streams = s.streams := rfl
@[simp] theorem State.hold_engs (s : State) (t : Tid) (i : Instr) : (s.hold t i).engs = s.engs := rfl
@[simp] theorem State.hold_blt (s : State) (t : Tid) (i : Instr) : (s.hold t i).blt = s.blt := rfl
@[simp] theorem State.hold_cus (s : State) (t : Tid) (i : Instr) : (s.hold t i).cus = s.cus := rfl
@[simp] theorem State.hold_tg0 (s : State) (t : Tid) (i : Instr) : (s.hold t i).tg0 = s.tg0 := rfl
@[simp] theorem State.hold_tg1 (s : State) (t : Tid) (i : Instr) : (s.hold t i).tg1 = s.tg1 := rfl
@[simp] theorem State.hold_tg2 (s : State) (t : Tid) (i : Instr) : (s.hold t i).tg2 = s.tg2 := rfl
@[simp] theorem State.hold_scan (s : State) (t : Tid) (i : Instr) : (s.hold t i).scan = s.scan := rfl
@[simp] theorem State.hold_pairs (s : State) (t : Tid) (i : Instr) : (s.hold t i).pairs = s.pairs := rfl
@[simp] theorem State.hold_pwr (s : State) (t : Tid) (i : Instr) : (s.hold t i).pwr = s.pwr := rfl
@[simp] theorem State.hold_sec (s : State) (t : Tid) (i : Instr) : (s.hold t i).sec = s.sec := rfl
@[simp] theorem State.hold_fab (s : State) (t : Tid) (i : Instr) : (s.hold t i).fab = s.fab := rfl
@[simp] theorem State.hold_aud (s : State) (t : Tid) (i : Instr) : (s.hold t i).aud = s.aud := rfl
@[simp] theorem State.hold_therm (s : State) (t : Tid) (i : Instr) : (s.hold t i).therm = s.therm := rfl
@[simp] theorem State.hold_life (s : State) (t : Tid) (i : Instr) : (s.hold t i).life = s.life := rfl
@[simp] theorem State.hold_trim (s : State) (t : Tid) (i : Instr) : (s.hold t i).trim = s.trim := rfl
@[simp] theorem State.hold_flash (s : State) (t : Tid) (i : Instr) : (s.hold t i).flash = s.flash := rfl
@[simp] theorem State.hold_host (s : State) (t : Tid) (i : Instr) : (s.hold t i).host = s.host := rfl
@[simp] theorem State.hold_boot (s : State) (t : Tid) (i : Instr) : (s.hold t i).boot = s.boot := rfl
@[simp] theorem State.hold_err (s : State) (t : Tid) (i : Instr) : (s.hold t i).err = s.err := rfl
@[simp] theorem State.hold_svc (s : State) (t : Tid) (i : Instr) : (s.hold t i).svc = s.svc := rfl
@[simp] theorem State.hold_safe (s : State) (t : Tid) (i : Instr) : (s.hold t i).safe = s.safe := rfl

/-! `toUnit` changes threads. -/

@[simp] theorem State.toUnit_pending (s : State) (t : Tid) (w : IWord) (d : Option Done) : (s.toUnit t w d).pending = s.pending := rfl
@[simp] theorem State.toUnit_now (s : State) (t : Tid) (w : IWord) (d : Option Done) : (s.toUnit t w d).now = s.now := rfl
@[simp] theorem State.toUnit_free (s : State) (t : Tid) (w : IWord) (d : Option Done) : (s.toUnit t w d).free = s.free := rfl
@[simp] theorem State.toUnit_nextOp (s : State) (t : Tid) (w : IWord) (d : Option Done) : (s.toUnit t w d).nextOp = s.nextOp := rfl
@[simp] theorem State.toUnit_sboard (s : State) (t : Tid) (w : IWord) (d : Option Done) : (s.toUnit t w d).sboard = s.sboard := rfl
@[simp] theorem State.toUnit_holds (s : State) (t : Tid) (w : IWord) (d : Option Done) : (s.toUnit t w d).holds = s.holds := rfl
@[simp] theorem State.toUnit_bufs (s : State) (t : Tid) (w : IWord) (d : Option Done) : (s.toUnit t w d).bufs = s.bufs := rfl
@[simp] theorem State.toUnit_mem (s : State) (t : Tid) (w : IWord) (d : Option Done) : (s.toUnit t w d).mem = s.mem := rfl
@[simp] theorem State.toUnit_dram (s : State) (t : Tid) (w : IWord) (d : Option Done) : (s.toUnit t w d).dram = s.dram := rfl
@[simp] theorem State.toUnit_queues (s : State) (t : Tid) (w : IWord) (d : Option Done) : (s.toUnit t w d).queues = s.queues := rfl
@[simp] theorem State.toUnit_plan (s : State) (t : Tid) (w : IWord) (d : Option Done) : (s.toUnit t w d).plan = s.plan := rfl
@[simp] theorem State.toUnit_layers (s : State) (t : Tid) (w : IWord) (d : Option Done) : (s.toUnit t w d).layers = s.layers := rfl
@[simp] theorem State.toUnit_synth (s : State) (t : Tid) (w : IWord) (d : Option Done) : (s.toUnit t w d).synth = s.synth := rfl
@[simp] theorem State.toUnit_comp (s : State) (t : Tid) (w : IWord) (d : Option Done) : (s.toUnit t w d).comp = s.comp := rfl
@[simp] theorem State.toUnit_cap (s : State) (t : Tid) (w : IWord) (d : Option Done) : (s.toUnit t w d).cap = s.cap := rfl
@[simp] theorem State.toUnit_out (s : State) (t : Tid) (w : IWord) (d : Option Done) : (s.toUnit t w d).out = s.out := rfl
@[simp] theorem State.toUnit_streams (s : State) (t : Tid) (w : IWord) (d : Option Done) : (s.toUnit t w d).streams = s.streams := rfl
@[simp] theorem State.toUnit_engs (s : State) (t : Tid) (w : IWord) (d : Option Done) : (s.toUnit t w d).engs = s.engs := rfl
@[simp] theorem State.toUnit_blt (s : State) (t : Tid) (w : IWord) (d : Option Done) : (s.toUnit t w d).blt = s.blt := rfl
@[simp] theorem State.toUnit_cus (s : State) (t : Tid) (w : IWord) (d : Option Done) : (s.toUnit t w d).cus = s.cus := rfl
@[simp] theorem State.toUnit_tg0 (s : State) (t : Tid) (w : IWord) (d : Option Done) : (s.toUnit t w d).tg0 = s.tg0 := rfl
@[simp] theorem State.toUnit_tg1 (s : State) (t : Tid) (w : IWord) (d : Option Done) : (s.toUnit t w d).tg1 = s.tg1 := rfl
@[simp] theorem State.toUnit_tg2 (s : State) (t : Tid) (w : IWord) (d : Option Done) : (s.toUnit t w d).tg2 = s.tg2 := rfl
@[simp] theorem State.toUnit_scan (s : State) (t : Tid) (w : IWord) (d : Option Done) : (s.toUnit t w d).scan = s.scan := rfl
@[simp] theorem State.toUnit_pairs (s : State) (t : Tid) (w : IWord) (d : Option Done) : (s.toUnit t w d).pairs = s.pairs := rfl
@[simp] theorem State.toUnit_pwr (s : State) (t : Tid) (w : IWord) (d : Option Done) : (s.toUnit t w d).pwr = s.pwr := rfl
@[simp] theorem State.toUnit_sec (s : State) (t : Tid) (w : IWord) (d : Option Done) : (s.toUnit t w d).sec = s.sec := rfl
@[simp] theorem State.toUnit_fab (s : State) (t : Tid) (w : IWord) (d : Option Done) : (s.toUnit t w d).fab = s.fab := rfl
@[simp] theorem State.toUnit_aud (s : State) (t : Tid) (w : IWord) (d : Option Done) : (s.toUnit t w d).aud = s.aud := rfl
@[simp] theorem State.toUnit_therm (s : State) (t : Tid) (w : IWord) (d : Option Done) : (s.toUnit t w d).therm = s.therm := rfl
@[simp] theorem State.toUnit_life (s : State) (t : Tid) (w : IWord) (d : Option Done) : (s.toUnit t w d).life = s.life := rfl
@[simp] theorem State.toUnit_trim (s : State) (t : Tid) (w : IWord) (d : Option Done) : (s.toUnit t w d).trim = s.trim := rfl
@[simp] theorem State.toUnit_flash (s : State) (t : Tid) (w : IWord) (d : Option Done) : (s.toUnit t w d).flash = s.flash := rfl
@[simp] theorem State.toUnit_host (s : State) (t : Tid) (w : IWord) (d : Option Done) : (s.toUnit t w d).host = s.host := rfl
@[simp] theorem State.toUnit_boot (s : State) (t : Tid) (w : IWord) (d : Option Done) : (s.toUnit t w d).boot = s.boot := rfl
@[simp] theorem State.toUnit_err (s : State) (t : Tid) (w : IWord) (d : Option Done) : (s.toUnit t w d).err = s.err := rfl
@[simp] theorem State.toUnit_svc (s : State) (t : Tid) (w : IWord) (d : Option Done) : (s.toUnit t w d).svc = s.svc := rfl
@[simp] theorem State.toUnit_safe (s : State) (t : Tid) (w : IWord) (d : Option Done) : (s.toUnit t w d).safe = s.safe := rfl

/-! `holdAt` changes threads, holds, queues, host, err. -/

@[simp] theorem State.holdAt_pending (s : State) (r : Resource) (l : Level) (n : Nat) : (s.holdAt r l n).pending = s.pending := by rw [State.holdAt_frame]
@[simp] theorem State.holdAt_now (s : State) (r : Resource) (l : Level) (n : Nat) : (s.holdAt r l n).now = s.now := by rw [State.holdAt_frame]
@[simp] theorem State.holdAt_free (s : State) (r : Resource) (l : Level) (n : Nat) : (s.holdAt r l n).free = s.free := by rw [State.holdAt_frame]
@[simp] theorem State.holdAt_nextOp (s : State) (r : Resource) (l : Level) (n : Nat) : (s.holdAt r l n).nextOp = s.nextOp := by rw [State.holdAt_frame]
@[simp] theorem State.holdAt_sboard (s : State) (r : Resource) (l : Level) (n : Nat) : (s.holdAt r l n).sboard = s.sboard := by rw [State.holdAt_frame]
@[simp] theorem State.holdAt_bufs (s : State) (r : Resource) (l : Level) (n : Nat) : (s.holdAt r l n).bufs = s.bufs := by rw [State.holdAt_frame]
@[simp] theorem State.holdAt_mem (s : State) (r : Resource) (l : Level) (n : Nat) : (s.holdAt r l n).mem = s.mem := by rw [State.holdAt_frame]
@[simp] theorem State.holdAt_dram (s : State) (r : Resource) (l : Level) (n : Nat) : (s.holdAt r l n).dram = s.dram := by rw [State.holdAt_frame]
@[simp] theorem State.holdAt_plan (s : State) (r : Resource) (l : Level) (n : Nat) : (s.holdAt r l n).plan = s.plan := by rw [State.holdAt_frame]
@[simp] theorem State.holdAt_layers (s : State) (r : Resource) (l : Level) (n : Nat) : (s.holdAt r l n).layers = s.layers := by rw [State.holdAt_frame]
@[simp] theorem State.holdAt_synth (s : State) (r : Resource) (l : Level) (n : Nat) : (s.holdAt r l n).synth = s.synth := by rw [State.holdAt_frame]
@[simp] theorem State.holdAt_comp (s : State) (r : Resource) (l : Level) (n : Nat) : (s.holdAt r l n).comp = s.comp := by rw [State.holdAt_frame]
@[simp] theorem State.holdAt_cap (s : State) (r : Resource) (l : Level) (n : Nat) : (s.holdAt r l n).cap = s.cap := by rw [State.holdAt_frame]
@[simp] theorem State.holdAt_out (s : State) (r : Resource) (l : Level) (n : Nat) : (s.holdAt r l n).out = s.out := by rw [State.holdAt_frame]
@[simp] theorem State.holdAt_streams (s : State) (r : Resource) (l : Level) (n : Nat) : (s.holdAt r l n).streams = s.streams := by rw [State.holdAt_frame]
@[simp] theorem State.holdAt_engs (s : State) (r : Resource) (l : Level) (n : Nat) : (s.holdAt r l n).engs = s.engs := by rw [State.holdAt_frame]
@[simp] theorem State.holdAt_blt (s : State) (r : Resource) (l : Level) (n : Nat) : (s.holdAt r l n).blt = s.blt := by rw [State.holdAt_frame]
@[simp] theorem State.holdAt_cus (s : State) (r : Resource) (l : Level) (n : Nat) : (s.holdAt r l n).cus = s.cus := by rw [State.holdAt_frame]
@[simp] theorem State.holdAt_tg0 (s : State) (r : Resource) (l : Level) (n : Nat) : (s.holdAt r l n).tg0 = s.tg0 := by rw [State.holdAt_frame]
@[simp] theorem State.holdAt_tg1 (s : State) (r : Resource) (l : Level) (n : Nat) : (s.holdAt r l n).tg1 = s.tg1 := by rw [State.holdAt_frame]
@[simp] theorem State.holdAt_tg2 (s : State) (r : Resource) (l : Level) (n : Nat) : (s.holdAt r l n).tg2 = s.tg2 := by rw [State.holdAt_frame]
@[simp] theorem State.holdAt_scan (s : State) (r : Resource) (l : Level) (n : Nat) : (s.holdAt r l n).scan = s.scan := by rw [State.holdAt_frame]
@[simp] theorem State.holdAt_pairs (s : State) (r : Resource) (l : Level) (n : Nat) : (s.holdAt r l n).pairs = s.pairs := by rw [State.holdAt_frame]
@[simp] theorem State.holdAt_pwr (s : State) (r : Resource) (l : Level) (n : Nat) : (s.holdAt r l n).pwr = s.pwr := by rw [State.holdAt_frame]
@[simp] theorem State.holdAt_sec (s : State) (r : Resource) (l : Level) (n : Nat) : (s.holdAt r l n).sec = s.sec := by rw [State.holdAt_frame]
@[simp] theorem State.holdAt_fab (s : State) (r : Resource) (l : Level) (n : Nat) : (s.holdAt r l n).fab = s.fab := by rw [State.holdAt_frame]
@[simp] theorem State.holdAt_aud (s : State) (r : Resource) (l : Level) (n : Nat) : (s.holdAt r l n).aud = s.aud := by rw [State.holdAt_frame]
@[simp] theorem State.holdAt_therm (s : State) (r : Resource) (l : Level) (n : Nat) : (s.holdAt r l n).therm = s.therm := by rw [State.holdAt_frame]
@[simp] theorem State.holdAt_life (s : State) (r : Resource) (l : Level) (n : Nat) : (s.holdAt r l n).life = s.life := by rw [State.holdAt_frame]
@[simp] theorem State.holdAt_trim (s : State) (r : Resource) (l : Level) (n : Nat) : (s.holdAt r l n).trim = s.trim := by rw [State.holdAt_frame]
@[simp] theorem State.holdAt_flash (s : State) (r : Resource) (l : Level) (n : Nat) : (s.holdAt r l n).flash = s.flash := by rw [State.holdAt_frame]
@[simp] theorem State.holdAt_boot (s : State) (r : Resource) (l : Level) (n : Nat) : (s.holdAt r l n).boot = s.boot := by rw [State.holdAt_frame]
@[simp] theorem State.holdAt_svc (s : State) (r : Resource) (l : Level) (n : Nat) : (s.holdAt r l n).svc = s.svc := by rw [State.holdAt_frame]
@[simp] theorem State.holdAt_safe (s : State) (r : Resource) (l : Level) (n : Nat) : (s.holdAt r l n).safe = s.safe := by rw [State.holdAt_frame]

/-! `unhold` changes holds. -/

@[simp] theorem State.unhold_pending (s : State) (r : Resource) (l : Level) : (s.unhold r l).pending = s.pending := rfl
@[simp] theorem State.unhold_now (s : State) (r : Resource) (l : Level) : (s.unhold r l).now = s.now := rfl
@[simp] theorem State.unhold_free (s : State) (r : Resource) (l : Level) : (s.unhold r l).free = s.free := rfl
@[simp] theorem State.unhold_nextOp (s : State) (r : Resource) (l : Level) : (s.unhold r l).nextOp = s.nextOp := rfl
@[simp] theorem State.unhold_threads (s : State) (r : Resource) (l : Level) : (s.unhold r l).threads = s.threads := rfl
@[simp] theorem State.unhold_sboard (s : State) (r : Resource) (l : Level) : (s.unhold r l).sboard = s.sboard := rfl
@[simp] theorem State.unhold_bufs (s : State) (r : Resource) (l : Level) : (s.unhold r l).bufs = s.bufs := rfl
@[simp] theorem State.unhold_mem (s : State) (r : Resource) (l : Level) : (s.unhold r l).mem = s.mem := rfl
@[simp] theorem State.unhold_dram (s : State) (r : Resource) (l : Level) : (s.unhold r l).dram = s.dram := rfl
@[simp] theorem State.unhold_queues (s : State) (r : Resource) (l : Level) : (s.unhold r l).queues = s.queues := rfl
@[simp] theorem State.unhold_plan (s : State) (r : Resource) (l : Level) : (s.unhold r l).plan = s.plan := rfl
@[simp] theorem State.unhold_layers (s : State) (r : Resource) (l : Level) : (s.unhold r l).layers = s.layers := rfl
@[simp] theorem State.unhold_synth (s : State) (r : Resource) (l : Level) : (s.unhold r l).synth = s.synth := rfl
@[simp] theorem State.unhold_comp (s : State) (r : Resource) (l : Level) : (s.unhold r l).comp = s.comp := rfl
@[simp] theorem State.unhold_cap (s : State) (r : Resource) (l : Level) : (s.unhold r l).cap = s.cap := rfl
@[simp] theorem State.unhold_out (s : State) (r : Resource) (l : Level) : (s.unhold r l).out = s.out := rfl
@[simp] theorem State.unhold_streams (s : State) (r : Resource) (l : Level) : (s.unhold r l).streams = s.streams := rfl
@[simp] theorem State.unhold_engs (s : State) (r : Resource) (l : Level) : (s.unhold r l).engs = s.engs := rfl
@[simp] theorem State.unhold_blt (s : State) (r : Resource) (l : Level) : (s.unhold r l).blt = s.blt := rfl
@[simp] theorem State.unhold_cus (s : State) (r : Resource) (l : Level) : (s.unhold r l).cus = s.cus := rfl
@[simp] theorem State.unhold_tg0 (s : State) (r : Resource) (l : Level) : (s.unhold r l).tg0 = s.tg0 := rfl
@[simp] theorem State.unhold_tg1 (s : State) (r : Resource) (l : Level) : (s.unhold r l).tg1 = s.tg1 := rfl
@[simp] theorem State.unhold_tg2 (s : State) (r : Resource) (l : Level) : (s.unhold r l).tg2 = s.tg2 := rfl
@[simp] theorem State.unhold_scan (s : State) (r : Resource) (l : Level) : (s.unhold r l).scan = s.scan := rfl
@[simp] theorem State.unhold_pairs (s : State) (r : Resource) (l : Level) : (s.unhold r l).pairs = s.pairs := rfl
@[simp] theorem State.unhold_pwr (s : State) (r : Resource) (l : Level) : (s.unhold r l).pwr = s.pwr := rfl
@[simp] theorem State.unhold_sec (s : State) (r : Resource) (l : Level) : (s.unhold r l).sec = s.sec := rfl
@[simp] theorem State.unhold_fab (s : State) (r : Resource) (l : Level) : (s.unhold r l).fab = s.fab := rfl
@[simp] theorem State.unhold_aud (s : State) (r : Resource) (l : Level) : (s.unhold r l).aud = s.aud := rfl
@[simp] theorem State.unhold_therm (s : State) (r : Resource) (l : Level) : (s.unhold r l).therm = s.therm := rfl
@[simp] theorem State.unhold_life (s : State) (r : Resource) (l : Level) : (s.unhold r l).life = s.life := rfl
@[simp] theorem State.unhold_trim (s : State) (r : Resource) (l : Level) : (s.unhold r l).trim = s.trim := rfl
@[simp] theorem State.unhold_flash (s : State) (r : Resource) (l : Level) : (s.unhold r l).flash = s.flash := rfl
@[simp] theorem State.unhold_host (s : State) (r : Resource) (l : Level) : (s.unhold r l).host = s.host := rfl
@[simp] theorem State.unhold_boot (s : State) (r : Resource) (l : Level) : (s.unhold r l).boot = s.boot := rfl
@[simp] theorem State.unhold_err (s : State) (r : Resource) (l : Level) : (s.unhold r l).err = s.err := rfl
@[simp] theorem State.unhold_svc (s : State) (r : Resource) (l : Level) : (s.unhold r l).svc = s.svc := rfl
@[simp] theorem State.unhold_safe (s : State) (r : Resource) (l : Level) : (s.unhold r l).safe = s.safe := rfl

/-! `releaseLevel` changes holds. -/

@[simp] theorem State.releaseLevel_pending (s : State) (l : Level) : (s.releaseLevel l).pending = s.pending := rfl
@[simp] theorem State.releaseLevel_now (s : State) (l : Level) : (s.releaseLevel l).now = s.now := rfl
@[simp] theorem State.releaseLevel_free (s : State) (l : Level) : (s.releaseLevel l).free = s.free := rfl
@[simp] theorem State.releaseLevel_nextOp (s : State) (l : Level) : (s.releaseLevel l).nextOp = s.nextOp := rfl
@[simp] theorem State.releaseLevel_threads (s : State) (l : Level) : (s.releaseLevel l).threads = s.threads := rfl
@[simp] theorem State.releaseLevel_sboard (s : State) (l : Level) : (s.releaseLevel l).sboard = s.sboard := rfl
@[simp] theorem State.releaseLevel_bufs (s : State) (l : Level) : (s.releaseLevel l).bufs = s.bufs := rfl
@[simp] theorem State.releaseLevel_mem (s : State) (l : Level) : (s.releaseLevel l).mem = s.mem := rfl
@[simp] theorem State.releaseLevel_dram (s : State) (l : Level) : (s.releaseLevel l).dram = s.dram := rfl
@[simp] theorem State.releaseLevel_queues (s : State) (l : Level) : (s.releaseLevel l).queues = s.queues := rfl
@[simp] theorem State.releaseLevel_plan (s : State) (l : Level) : (s.releaseLevel l).plan = s.plan := rfl
@[simp] theorem State.releaseLevel_layers (s : State) (l : Level) : (s.releaseLevel l).layers = s.layers := rfl
@[simp] theorem State.releaseLevel_synth (s : State) (l : Level) : (s.releaseLevel l).synth = s.synth := rfl
@[simp] theorem State.releaseLevel_comp (s : State) (l : Level) : (s.releaseLevel l).comp = s.comp := rfl
@[simp] theorem State.releaseLevel_cap (s : State) (l : Level) : (s.releaseLevel l).cap = s.cap := rfl
@[simp] theorem State.releaseLevel_out (s : State) (l : Level) : (s.releaseLevel l).out = s.out := rfl
@[simp] theorem State.releaseLevel_streams (s : State) (l : Level) : (s.releaseLevel l).streams = s.streams := rfl
@[simp] theorem State.releaseLevel_engs (s : State) (l : Level) : (s.releaseLevel l).engs = s.engs := rfl
@[simp] theorem State.releaseLevel_blt (s : State) (l : Level) : (s.releaseLevel l).blt = s.blt := rfl
@[simp] theorem State.releaseLevel_cus (s : State) (l : Level) : (s.releaseLevel l).cus = s.cus := rfl
@[simp] theorem State.releaseLevel_tg0 (s : State) (l : Level) : (s.releaseLevel l).tg0 = s.tg0 := rfl
@[simp] theorem State.releaseLevel_tg1 (s : State) (l : Level) : (s.releaseLevel l).tg1 = s.tg1 := rfl
@[simp] theorem State.releaseLevel_tg2 (s : State) (l : Level) : (s.releaseLevel l).tg2 = s.tg2 := rfl
@[simp] theorem State.releaseLevel_scan (s : State) (l : Level) : (s.releaseLevel l).scan = s.scan := rfl
@[simp] theorem State.releaseLevel_pairs (s : State) (l : Level) : (s.releaseLevel l).pairs = s.pairs := rfl
@[simp] theorem State.releaseLevel_pwr (s : State) (l : Level) : (s.releaseLevel l).pwr = s.pwr := rfl
@[simp] theorem State.releaseLevel_sec (s : State) (l : Level) : (s.releaseLevel l).sec = s.sec := rfl
@[simp] theorem State.releaseLevel_fab (s : State) (l : Level) : (s.releaseLevel l).fab = s.fab := rfl
@[simp] theorem State.releaseLevel_aud (s : State) (l : Level) : (s.releaseLevel l).aud = s.aud := rfl
@[simp] theorem State.releaseLevel_therm (s : State) (l : Level) : (s.releaseLevel l).therm = s.therm := rfl
@[simp] theorem State.releaseLevel_life (s : State) (l : Level) : (s.releaseLevel l).life = s.life := rfl
@[simp] theorem State.releaseLevel_trim (s : State) (l : Level) : (s.releaseLevel l).trim = s.trim := rfl
@[simp] theorem State.releaseLevel_flash (s : State) (l : Level) : (s.releaseLevel l).flash = s.flash := rfl
@[simp] theorem State.releaseLevel_host (s : State) (l : Level) : (s.releaseLevel l).host = s.host := rfl
@[simp] theorem State.releaseLevel_boot (s : State) (l : Level) : (s.releaseLevel l).boot = s.boot := rfl
@[simp] theorem State.releaseLevel_err (s : State) (l : Level) : (s.releaseLevel l).err = s.err := rfl
@[simp] theorem State.releaseLevel_svc (s : State) (l : Level) : (s.releaseLevel l).svc = s.svc := rfl
@[simp] theorem State.releaseLevel_safe (s : State) (l : Level) : (s.releaseLevel l).safe = s.safe := rfl

/-! `raise` changes host. -/

@[simp] theorem State.raise_pending (s : State) (v : Nat) : (s.raise v).pending = s.pending := by rw [State.raise_frame]
@[simp] theorem State.raise_now (s : State) (v : Nat) : (s.raise v).now = s.now := by rw [State.raise_frame]
@[simp] theorem State.raise_free (s : State) (v : Nat) : (s.raise v).free = s.free := by rw [State.raise_frame]
@[simp] theorem State.raise_nextOp (s : State) (v : Nat) : (s.raise v).nextOp = s.nextOp := by rw [State.raise_frame]
@[simp] theorem State.raise_threads (s : State) (v : Nat) : (s.raise v).threads = s.threads := by rw [State.raise_frame]
@[simp] theorem State.raise_sboard (s : State) (v : Nat) : (s.raise v).sboard = s.sboard := by rw [State.raise_frame]
@[simp] theorem State.raise_holds (s : State) (v : Nat) : (s.raise v).holds = s.holds := by rw [State.raise_frame]
@[simp] theorem State.raise_bufs (s : State) (v : Nat) : (s.raise v).bufs = s.bufs := by rw [State.raise_frame]
@[simp] theorem State.raise_mem (s : State) (v : Nat) : (s.raise v).mem = s.mem := by rw [State.raise_frame]
@[simp] theorem State.raise_dram (s : State) (v : Nat) : (s.raise v).dram = s.dram := by rw [State.raise_frame]
@[simp] theorem State.raise_queues (s : State) (v : Nat) : (s.raise v).queues = s.queues := by rw [State.raise_frame]
@[simp] theorem State.raise_plan (s : State) (v : Nat) : (s.raise v).plan = s.plan := by rw [State.raise_frame]
@[simp] theorem State.raise_layers (s : State) (v : Nat) : (s.raise v).layers = s.layers := by rw [State.raise_frame]
@[simp] theorem State.raise_synth (s : State) (v : Nat) : (s.raise v).synth = s.synth := by rw [State.raise_frame]
@[simp] theorem State.raise_comp (s : State) (v : Nat) : (s.raise v).comp = s.comp := by rw [State.raise_frame]
@[simp] theorem State.raise_cap (s : State) (v : Nat) : (s.raise v).cap = s.cap := by rw [State.raise_frame]
@[simp] theorem State.raise_out (s : State) (v : Nat) : (s.raise v).out = s.out := by rw [State.raise_frame]
@[simp] theorem State.raise_streams (s : State) (v : Nat) : (s.raise v).streams = s.streams := by rw [State.raise_frame]
@[simp] theorem State.raise_engs (s : State) (v : Nat) : (s.raise v).engs = s.engs := by rw [State.raise_frame]
@[simp] theorem State.raise_blt (s : State) (v : Nat) : (s.raise v).blt = s.blt := by rw [State.raise_frame]
@[simp] theorem State.raise_cus (s : State) (v : Nat) : (s.raise v).cus = s.cus := by rw [State.raise_frame]
@[simp] theorem State.raise_tg0 (s : State) (v : Nat) : (s.raise v).tg0 = s.tg0 := by rw [State.raise_frame]
@[simp] theorem State.raise_tg1 (s : State) (v : Nat) : (s.raise v).tg1 = s.tg1 := by rw [State.raise_frame]
@[simp] theorem State.raise_tg2 (s : State) (v : Nat) : (s.raise v).tg2 = s.tg2 := by rw [State.raise_frame]
@[simp] theorem State.raise_scan (s : State) (v : Nat) : (s.raise v).scan = s.scan := by rw [State.raise_frame]
@[simp] theorem State.raise_pairs (s : State) (v : Nat) : (s.raise v).pairs = s.pairs := by rw [State.raise_frame]
@[simp] theorem State.raise_pwr (s : State) (v : Nat) : (s.raise v).pwr = s.pwr := by rw [State.raise_frame]
@[simp] theorem State.raise_sec (s : State) (v : Nat) : (s.raise v).sec = s.sec := by rw [State.raise_frame]
@[simp] theorem State.raise_fab (s : State) (v : Nat) : (s.raise v).fab = s.fab := by rw [State.raise_frame]
@[simp] theorem State.raise_aud (s : State) (v : Nat) : (s.raise v).aud = s.aud := by rw [State.raise_frame]
@[simp] theorem State.raise_therm (s : State) (v : Nat) : (s.raise v).therm = s.therm := by rw [State.raise_frame]
@[simp] theorem State.raise_life (s : State) (v : Nat) : (s.raise v).life = s.life := by rw [State.raise_frame]
@[simp] theorem State.raise_trim (s : State) (v : Nat) : (s.raise v).trim = s.trim := by rw [State.raise_frame]
@[simp] theorem State.raise_flash (s : State) (v : Nat) : (s.raise v).flash = s.flash := by rw [State.raise_frame]
@[simp] theorem State.raise_boot (s : State) (v : Nat) : (s.raise v).boot = s.boot := by rw [State.raise_frame]
@[simp] theorem State.raise_err (s : State) (v : Nat) : (s.raise v).err = s.err := by rw [State.raise_frame]
@[simp] theorem State.raise_svc (s : State) (v : Nat) : (s.raise v).svc = s.svc := by rw [State.raise_frame]
@[simp] theorem State.raise_safe (s : State) (v : Nat) : (s.raise v).safe = s.safe := by rw [State.raise_frame]

/-! `post41` changes threads, queues, host. -/

@[simp] theorem State.post41_pending (s : State) (d : List Byte) : (s.post41 d).pending = s.pending := by rw [State.post41_frame]
@[simp] theorem State.post41_now (s : State) (d : List Byte) : (s.post41 d).now = s.now := by rw [State.post41_frame]
@[simp] theorem State.post41_free (s : State) (d : List Byte) : (s.post41 d).free = s.free := by rw [State.post41_frame]
@[simp] theorem State.post41_nextOp (s : State) (d : List Byte) : (s.post41 d).nextOp = s.nextOp := by rw [State.post41_frame]
@[simp] theorem State.post41_sboard (s : State) (d : List Byte) : (s.post41 d).sboard = s.sboard := by rw [State.post41_frame]
@[simp] theorem State.post41_holds (s : State) (d : List Byte) : (s.post41 d).holds = s.holds := by rw [State.post41_frame]
@[simp] theorem State.post41_bufs (s : State) (d : List Byte) : (s.post41 d).bufs = s.bufs := by rw [State.post41_frame]
@[simp] theorem State.post41_mem (s : State) (d : List Byte) : (s.post41 d).mem = s.mem := by rw [State.post41_frame]
@[simp] theorem State.post41_dram (s : State) (d : List Byte) : (s.post41 d).dram = s.dram := by rw [State.post41_frame]
@[simp] theorem State.post41_plan (s : State) (d : List Byte) : (s.post41 d).plan = s.plan := by rw [State.post41_frame]
@[simp] theorem State.post41_layers (s : State) (d : List Byte) : (s.post41 d).layers = s.layers := by rw [State.post41_frame]
@[simp] theorem State.post41_synth (s : State) (d : List Byte) : (s.post41 d).synth = s.synth := by rw [State.post41_frame]
@[simp] theorem State.post41_comp (s : State) (d : List Byte) : (s.post41 d).comp = s.comp := by rw [State.post41_frame]
@[simp] theorem State.post41_cap (s : State) (d : List Byte) : (s.post41 d).cap = s.cap := by rw [State.post41_frame]
@[simp] theorem State.post41_out (s : State) (d : List Byte) : (s.post41 d).out = s.out := by rw [State.post41_frame]
@[simp] theorem State.post41_streams (s : State) (d : List Byte) : (s.post41 d).streams = s.streams := by rw [State.post41_frame]
@[simp] theorem State.post41_engs (s : State) (d : List Byte) : (s.post41 d).engs = s.engs := by rw [State.post41_frame]
@[simp] theorem State.post41_blt (s : State) (d : List Byte) : (s.post41 d).blt = s.blt := by rw [State.post41_frame]
@[simp] theorem State.post41_cus (s : State) (d : List Byte) : (s.post41 d).cus = s.cus := by rw [State.post41_frame]
@[simp] theorem State.post41_tg0 (s : State) (d : List Byte) : (s.post41 d).tg0 = s.tg0 := by rw [State.post41_frame]
@[simp] theorem State.post41_tg1 (s : State) (d : List Byte) : (s.post41 d).tg1 = s.tg1 := by rw [State.post41_frame]
@[simp] theorem State.post41_tg2 (s : State) (d : List Byte) : (s.post41 d).tg2 = s.tg2 := by rw [State.post41_frame]
@[simp] theorem State.post41_scan (s : State) (d : List Byte) : (s.post41 d).scan = s.scan := by rw [State.post41_frame]
@[simp] theorem State.post41_pairs (s : State) (d : List Byte) : (s.post41 d).pairs = s.pairs := by rw [State.post41_frame]
@[simp] theorem State.post41_pwr (s : State) (d : List Byte) : (s.post41 d).pwr = s.pwr := by rw [State.post41_frame]
@[simp] theorem State.post41_sec (s : State) (d : List Byte) : (s.post41 d).sec = s.sec := by rw [State.post41_frame]
@[simp] theorem State.post41_fab (s : State) (d : List Byte) : (s.post41 d).fab = s.fab := by rw [State.post41_frame]
@[simp] theorem State.post41_aud (s : State) (d : List Byte) : (s.post41 d).aud = s.aud := by rw [State.post41_frame]
@[simp] theorem State.post41_therm (s : State) (d : List Byte) : (s.post41 d).therm = s.therm := by rw [State.post41_frame]
@[simp] theorem State.post41_life (s : State) (d : List Byte) : (s.post41 d).life = s.life := by rw [State.post41_frame]
@[simp] theorem State.post41_trim (s : State) (d : List Byte) : (s.post41 d).trim = s.trim := by rw [State.post41_frame]
@[simp] theorem State.post41_flash (s : State) (d : List Byte) : (s.post41 d).flash = s.flash := by rw [State.post41_frame]
@[simp] theorem State.post41_boot (s : State) (d : List Byte) : (s.post41 d).boot = s.boot := by rw [State.post41_frame]
@[simp] theorem State.post41_err (s : State) (d : List Byte) : (s.post41 d).err = s.err := by rw [State.post41_frame]
@[simp] theorem State.post41_svc (s : State) (d : List Byte) : (s.post41 d).svc = s.svc := by rw [State.post41_frame]
@[simp] theorem State.post41_safe (s : State) (d : List Byte) : (s.post41 d).safe = s.safe := by rw [State.post41_frame]

/-! `putQueue` changes threads, queues, host. -/

@[simp] theorem State.putQueue_pending (s : State) (i : Fin 64) (q : Queue) : (s.putQueue i q).pending = s.pending := by rw [State.putQueue_frame]
@[simp] theorem State.putQueue_now (s : State) (i : Fin 64) (q : Queue) : (s.putQueue i q).now = s.now := by rw [State.putQueue_frame]
@[simp] theorem State.putQueue_free (s : State) (i : Fin 64) (q : Queue) : (s.putQueue i q).free = s.free := by rw [State.putQueue_frame]
@[simp] theorem State.putQueue_nextOp (s : State) (i : Fin 64) (q : Queue) : (s.putQueue i q).nextOp = s.nextOp := by rw [State.putQueue_frame]
@[simp] theorem State.putQueue_sboard (s : State) (i : Fin 64) (q : Queue) : (s.putQueue i q).sboard = s.sboard := by rw [State.putQueue_frame]
@[simp] theorem State.putQueue_holds (s : State) (i : Fin 64) (q : Queue) : (s.putQueue i q).holds = s.holds := by rw [State.putQueue_frame]
@[simp] theorem State.putQueue_bufs (s : State) (i : Fin 64) (q : Queue) : (s.putQueue i q).bufs = s.bufs := by rw [State.putQueue_frame]
@[simp] theorem State.putQueue_mem (s : State) (i : Fin 64) (q : Queue) : (s.putQueue i q).mem = s.mem := by rw [State.putQueue_frame]
@[simp] theorem State.putQueue_dram (s : State) (i : Fin 64) (q : Queue) : (s.putQueue i q).dram = s.dram := by rw [State.putQueue_frame]
@[simp] theorem State.putQueue_plan (s : State) (i : Fin 64) (q : Queue) : (s.putQueue i q).plan = s.plan := by rw [State.putQueue_frame]
@[simp] theorem State.putQueue_layers (s : State) (i : Fin 64) (q : Queue) : (s.putQueue i q).layers = s.layers := by rw [State.putQueue_frame]
@[simp] theorem State.putQueue_synth (s : State) (i : Fin 64) (q : Queue) : (s.putQueue i q).synth = s.synth := by rw [State.putQueue_frame]
@[simp] theorem State.putQueue_comp (s : State) (i : Fin 64) (q : Queue) : (s.putQueue i q).comp = s.comp := by rw [State.putQueue_frame]
@[simp] theorem State.putQueue_cap (s : State) (i : Fin 64) (q : Queue) : (s.putQueue i q).cap = s.cap := by rw [State.putQueue_frame]
@[simp] theorem State.putQueue_out (s : State) (i : Fin 64) (q : Queue) : (s.putQueue i q).out = s.out := by rw [State.putQueue_frame]
@[simp] theorem State.putQueue_streams (s : State) (i : Fin 64) (q : Queue) : (s.putQueue i q).streams = s.streams := by rw [State.putQueue_frame]
@[simp] theorem State.putQueue_engs (s : State) (i : Fin 64) (q : Queue) : (s.putQueue i q).engs = s.engs := by rw [State.putQueue_frame]
@[simp] theorem State.putQueue_blt (s : State) (i : Fin 64) (q : Queue) : (s.putQueue i q).blt = s.blt := by rw [State.putQueue_frame]
@[simp] theorem State.putQueue_cus (s : State) (i : Fin 64) (q : Queue) : (s.putQueue i q).cus = s.cus := by rw [State.putQueue_frame]
@[simp] theorem State.putQueue_tg0 (s : State) (i : Fin 64) (q : Queue) : (s.putQueue i q).tg0 = s.tg0 := by rw [State.putQueue_frame]
@[simp] theorem State.putQueue_tg1 (s : State) (i : Fin 64) (q : Queue) : (s.putQueue i q).tg1 = s.tg1 := by rw [State.putQueue_frame]
@[simp] theorem State.putQueue_tg2 (s : State) (i : Fin 64) (q : Queue) : (s.putQueue i q).tg2 = s.tg2 := by rw [State.putQueue_frame]
@[simp] theorem State.putQueue_scan (s : State) (i : Fin 64) (q : Queue) : (s.putQueue i q).scan = s.scan := by rw [State.putQueue_frame]
@[simp] theorem State.putQueue_pairs (s : State) (i : Fin 64) (q : Queue) : (s.putQueue i q).pairs = s.pairs := by rw [State.putQueue_frame]
@[simp] theorem State.putQueue_pwr (s : State) (i : Fin 64) (q : Queue) : (s.putQueue i q).pwr = s.pwr := by rw [State.putQueue_frame]
@[simp] theorem State.putQueue_sec (s : State) (i : Fin 64) (q : Queue) : (s.putQueue i q).sec = s.sec := by rw [State.putQueue_frame]
@[simp] theorem State.putQueue_fab (s : State) (i : Fin 64) (q : Queue) : (s.putQueue i q).fab = s.fab := by rw [State.putQueue_frame]
@[simp] theorem State.putQueue_aud (s : State) (i : Fin 64) (q : Queue) : (s.putQueue i q).aud = s.aud := by rw [State.putQueue_frame]
@[simp] theorem State.putQueue_therm (s : State) (i : Fin 64) (q : Queue) : (s.putQueue i q).therm = s.therm := by rw [State.putQueue_frame]
@[simp] theorem State.putQueue_life (s : State) (i : Fin 64) (q : Queue) : (s.putQueue i q).life = s.life := by rw [State.putQueue_frame]
@[simp] theorem State.putQueue_trim (s : State) (i : Fin 64) (q : Queue) : (s.putQueue i q).trim = s.trim := by rw [State.putQueue_frame]
@[simp] theorem State.putQueue_flash (s : State) (i : Fin 64) (q : Queue) : (s.putQueue i q).flash = s.flash := by rw [State.putQueue_frame]
@[simp] theorem State.putQueue_boot (s : State) (i : Fin 64) (q : Queue) : (s.putQueue i q).boot = s.boot := by rw [State.putQueue_frame]
@[simp] theorem State.putQueue_err (s : State) (i : Fin 64) (q : Queue) : (s.putQueue i q).err = s.err := by rw [State.putQueue_frame]
@[simp] theorem State.putQueue_svc (s : State) (i : Fin 64) (q : Queue) : (s.putQueue i q).svc = s.svc := by rw [State.putQueue_frame]
@[simp] theorem State.putQueue_safe (s : State) (i : Fin 64) (q : Queue) : (s.putQueue i q).safe = s.safe := by rw [State.putQueue_frame]

/-! `report` changes threads, queues, host, err. -/

@[simp] theorem State.report_pending (s : State) (c b i : Nat) : (s.report c b i).pending = s.pending := by rw [State.report_frame]
@[simp] theorem State.report_now (s : State) (c b i : Nat) : (s.report c b i).now = s.now := by rw [State.report_frame]
@[simp] theorem State.report_free (s : State) (c b i : Nat) : (s.report c b i).free = s.free := by rw [State.report_frame]
@[simp] theorem State.report_nextOp (s : State) (c b i : Nat) : (s.report c b i).nextOp = s.nextOp := by rw [State.report_frame]
@[simp] theorem State.report_sboard (s : State) (c b i : Nat) : (s.report c b i).sboard = s.sboard := by rw [State.report_frame]
@[simp] theorem State.report_holds (s : State) (c b i : Nat) : (s.report c b i).holds = s.holds := by rw [State.report_frame]
@[simp] theorem State.report_bufs (s : State) (c b i : Nat) : (s.report c b i).bufs = s.bufs := by rw [State.report_frame]
@[simp] theorem State.report_mem (s : State) (c b i : Nat) : (s.report c b i).mem = s.mem := by rw [State.report_frame]
@[simp] theorem State.report_dram (s : State) (c b i : Nat) : (s.report c b i).dram = s.dram := by rw [State.report_frame]
@[simp] theorem State.report_plan (s : State) (c b i : Nat) : (s.report c b i).plan = s.plan := by rw [State.report_frame]
@[simp] theorem State.report_layers (s : State) (c b i : Nat) : (s.report c b i).layers = s.layers := by rw [State.report_frame]
@[simp] theorem State.report_synth (s : State) (c b i : Nat) : (s.report c b i).synth = s.synth := by rw [State.report_frame]
@[simp] theorem State.report_comp (s : State) (c b i : Nat) : (s.report c b i).comp = s.comp := by rw [State.report_frame]
@[simp] theorem State.report_cap (s : State) (c b i : Nat) : (s.report c b i).cap = s.cap := by rw [State.report_frame]
@[simp] theorem State.report_out (s : State) (c b i : Nat) : (s.report c b i).out = s.out := by rw [State.report_frame]
@[simp] theorem State.report_streams (s : State) (c b i : Nat) : (s.report c b i).streams = s.streams := by rw [State.report_frame]
@[simp] theorem State.report_engs (s : State) (c b i : Nat) : (s.report c b i).engs = s.engs := by rw [State.report_frame]
@[simp] theorem State.report_blt (s : State) (c b i : Nat) : (s.report c b i).blt = s.blt := by rw [State.report_frame]
@[simp] theorem State.report_cus (s : State) (c b i : Nat) : (s.report c b i).cus = s.cus := by rw [State.report_frame]
@[simp] theorem State.report_tg0 (s : State) (c b i : Nat) : (s.report c b i).tg0 = s.tg0 := by rw [State.report_frame]
@[simp] theorem State.report_tg1 (s : State) (c b i : Nat) : (s.report c b i).tg1 = s.tg1 := by rw [State.report_frame]
@[simp] theorem State.report_tg2 (s : State) (c b i : Nat) : (s.report c b i).tg2 = s.tg2 := by rw [State.report_frame]
@[simp] theorem State.report_scan (s : State) (c b i : Nat) : (s.report c b i).scan = s.scan := by rw [State.report_frame]
@[simp] theorem State.report_pairs (s : State) (c b i : Nat) : (s.report c b i).pairs = s.pairs := by rw [State.report_frame]
@[simp] theorem State.report_pwr (s : State) (c b i : Nat) : (s.report c b i).pwr = s.pwr := by rw [State.report_frame]
@[simp] theorem State.report_sec (s : State) (c b i : Nat) : (s.report c b i).sec = s.sec := by rw [State.report_frame]
@[simp] theorem State.report_fab (s : State) (c b i : Nat) : (s.report c b i).fab = s.fab := by rw [State.report_frame]
@[simp] theorem State.report_aud (s : State) (c b i : Nat) : (s.report c b i).aud = s.aud := by rw [State.report_frame]
@[simp] theorem State.report_therm (s : State) (c b i : Nat) : (s.report c b i).therm = s.therm := by rw [State.report_frame]
@[simp] theorem State.report_life (s : State) (c b i : Nat) : (s.report c b i).life = s.life := by rw [State.report_frame]
@[simp] theorem State.report_trim (s : State) (c b i : Nat) : (s.report c b i).trim = s.trim := by rw [State.report_frame]
@[simp] theorem State.report_flash (s : State) (c b i : Nat) : (s.report c b i).flash = s.flash := by rw [State.report_frame]
@[simp] theorem State.report_boot (s : State) (c b i : Nat) : (s.report c b i).boot = s.boot := by rw [State.report_frame]
@[simp] theorem State.report_svc (s : State) (c b i : Nat) : (s.report c b i).svc = s.svc := by rw [State.report_frame]
@[simp] theorem State.report_safe (s : State) (c b i : Nat) : (s.report c b i).safe = s.safe := by rw [State.report_frame]

/-! `faultAt` changes threads, sboard, queues, host, err. -/

@[simp] theorem State.faultAt_pending (s : State) (t : Tid) (f : Flt) (sub addr : Nat) : (s.faultAt t f sub addr).pending = s.pending := by rw [State.faultAt_frame]
@[simp] theorem State.faultAt_now (s : State) (t : Tid) (f : Flt) (sub addr : Nat) : (s.faultAt t f sub addr).now = s.now := by rw [State.faultAt_frame]
@[simp] theorem State.faultAt_free (s : State) (t : Tid) (f : Flt) (sub addr : Nat) : (s.faultAt t f sub addr).free = s.free := by rw [State.faultAt_frame]
@[simp] theorem State.faultAt_nextOp (s : State) (t : Tid) (f : Flt) (sub addr : Nat) : (s.faultAt t f sub addr).nextOp = s.nextOp := by rw [State.faultAt_frame]
@[simp] theorem State.faultAt_holds (s : State) (t : Tid) (f : Flt) (sub addr : Nat) : (s.faultAt t f sub addr).holds = s.holds := by rw [State.faultAt_frame]
@[simp] theorem State.faultAt_bufs (s : State) (t : Tid) (f : Flt) (sub addr : Nat) : (s.faultAt t f sub addr).bufs = s.bufs := by rw [State.faultAt_frame]
@[simp] theorem State.faultAt_mem (s : State) (t : Tid) (f : Flt) (sub addr : Nat) : (s.faultAt t f sub addr).mem = s.mem := by rw [State.faultAt_frame]
@[simp] theorem State.faultAt_dram (s : State) (t : Tid) (f : Flt) (sub addr : Nat) : (s.faultAt t f sub addr).dram = s.dram := by rw [State.faultAt_frame]
@[simp] theorem State.faultAt_plan (s : State) (t : Tid) (f : Flt) (sub addr : Nat) : (s.faultAt t f sub addr).plan = s.plan := by rw [State.faultAt_frame]
@[simp] theorem State.faultAt_layers (s : State) (t : Tid) (f : Flt) (sub addr : Nat) : (s.faultAt t f sub addr).layers = s.layers := by rw [State.faultAt_frame]
@[simp] theorem State.faultAt_synth (s : State) (t : Tid) (f : Flt) (sub addr : Nat) : (s.faultAt t f sub addr).synth = s.synth := by rw [State.faultAt_frame]
@[simp] theorem State.faultAt_comp (s : State) (t : Tid) (f : Flt) (sub addr : Nat) : (s.faultAt t f sub addr).comp = s.comp := by rw [State.faultAt_frame]
@[simp] theorem State.faultAt_cap (s : State) (t : Tid) (f : Flt) (sub addr : Nat) : (s.faultAt t f sub addr).cap = s.cap := by rw [State.faultAt_frame]
@[simp] theorem State.faultAt_out (s : State) (t : Tid) (f : Flt) (sub addr : Nat) : (s.faultAt t f sub addr).out = s.out := by rw [State.faultAt_frame]
@[simp] theorem State.faultAt_streams (s : State) (t : Tid) (f : Flt) (sub addr : Nat) : (s.faultAt t f sub addr).streams = s.streams := by rw [State.faultAt_frame]
@[simp] theorem State.faultAt_engs (s : State) (t : Tid) (f : Flt) (sub addr : Nat) : (s.faultAt t f sub addr).engs = s.engs := by rw [State.faultAt_frame]
@[simp] theorem State.faultAt_blt (s : State) (t : Tid) (f : Flt) (sub addr : Nat) : (s.faultAt t f sub addr).blt = s.blt := by rw [State.faultAt_frame]
@[simp] theorem State.faultAt_cus (s : State) (t : Tid) (f : Flt) (sub addr : Nat) : (s.faultAt t f sub addr).cus = s.cus := by rw [State.faultAt_frame]
@[simp] theorem State.faultAt_tg0 (s : State) (t : Tid) (f : Flt) (sub addr : Nat) : (s.faultAt t f sub addr).tg0 = s.tg0 := by rw [State.faultAt_frame]
@[simp] theorem State.faultAt_tg1 (s : State) (t : Tid) (f : Flt) (sub addr : Nat) : (s.faultAt t f sub addr).tg1 = s.tg1 := by rw [State.faultAt_frame]
@[simp] theorem State.faultAt_tg2 (s : State) (t : Tid) (f : Flt) (sub addr : Nat) : (s.faultAt t f sub addr).tg2 = s.tg2 := by rw [State.faultAt_frame]
@[simp] theorem State.faultAt_scan (s : State) (t : Tid) (f : Flt) (sub addr : Nat) : (s.faultAt t f sub addr).scan = s.scan := by rw [State.faultAt_frame]
@[simp] theorem State.faultAt_pairs (s : State) (t : Tid) (f : Flt) (sub addr : Nat) : (s.faultAt t f sub addr).pairs = s.pairs := by rw [State.faultAt_frame]
@[simp] theorem State.faultAt_pwr (s : State) (t : Tid) (f : Flt) (sub addr : Nat) : (s.faultAt t f sub addr).pwr = s.pwr := by rw [State.faultAt_frame]
@[simp] theorem State.faultAt_sec (s : State) (t : Tid) (f : Flt) (sub addr : Nat) : (s.faultAt t f sub addr).sec = s.sec := by rw [State.faultAt_frame]
@[simp] theorem State.faultAt_fab (s : State) (t : Tid) (f : Flt) (sub addr : Nat) : (s.faultAt t f sub addr).fab = s.fab := by rw [State.faultAt_frame]
@[simp] theorem State.faultAt_aud (s : State) (t : Tid) (f : Flt) (sub addr : Nat) : (s.faultAt t f sub addr).aud = s.aud := by rw [State.faultAt_frame]
@[simp] theorem State.faultAt_therm (s : State) (t : Tid) (f : Flt) (sub addr : Nat) : (s.faultAt t f sub addr).therm = s.therm := by rw [State.faultAt_frame]
@[simp] theorem State.faultAt_life (s : State) (t : Tid) (f : Flt) (sub addr : Nat) : (s.faultAt t f sub addr).life = s.life := by rw [State.faultAt_frame]
@[simp] theorem State.faultAt_trim (s : State) (t : Tid) (f : Flt) (sub addr : Nat) : (s.faultAt t f sub addr).trim = s.trim := by rw [State.faultAt_frame]
@[simp] theorem State.faultAt_flash (s : State) (t : Tid) (f : Flt) (sub addr : Nat) : (s.faultAt t f sub addr).flash = s.flash := by rw [State.faultAt_frame]
@[simp] theorem State.faultAt_boot (s : State) (t : Tid) (f : Flt) (sub addr : Nat) : (s.faultAt t f sub addr).boot = s.boot := by rw [State.faultAt_frame]
@[simp] theorem State.faultAt_svc (s : State) (t : Tid) (f : Flt) (sub addr : Nat) : (s.faultAt t f sub addr).svc = s.svc := by rw [State.faultAt_frame]
@[simp] theorem State.faultAt_safe (s : State) (t : Tid) (f : Flt) (sub addr : Nat) : (s.faultAt t f sub addr).safe = s.safe := by rw [State.faultAt_frame]

/-! `deliver` changes threads, queues, host. -/

@[simp] theorem State.deliver_pending (s : State) (d : Deliver) (x : Done) : (s.deliver d x).pending = s.pending := by rw [State.deliver_frame]
@[simp] theorem State.deliver_now (s : State) (d : Deliver) (x : Done) : (s.deliver d x).now = s.now := by rw [State.deliver_frame]
@[simp] theorem State.deliver_free (s : State) (d : Deliver) (x : Done) : (s.deliver d x).free = s.free := by rw [State.deliver_frame]
@[simp] theorem State.deliver_nextOp (s : State) (d : Deliver) (x : Done) : (s.deliver d x).nextOp = s.nextOp := by rw [State.deliver_frame]
@[simp] theorem State.deliver_sboard (s : State) (d : Deliver) (x : Done) : (s.deliver d x).sboard = s.sboard := by rw [State.deliver_frame]
@[simp] theorem State.deliver_holds (s : State) (d : Deliver) (x : Done) : (s.deliver d x).holds = s.holds := by rw [State.deliver_frame]
@[simp] theorem State.deliver_bufs (s : State) (d : Deliver) (x : Done) : (s.deliver d x).bufs = s.bufs := by rw [State.deliver_frame]
@[simp] theorem State.deliver_mem (s : State) (d : Deliver) (x : Done) : (s.deliver d x).mem = s.mem := by rw [State.deliver_frame]
@[simp] theorem State.deliver_dram (s : State) (d : Deliver) (x : Done) : (s.deliver d x).dram = s.dram := by rw [State.deliver_frame]
@[simp] theorem State.deliver_plan (s : State) (d : Deliver) (x : Done) : (s.deliver d x).plan = s.plan := by rw [State.deliver_frame]
@[simp] theorem State.deliver_layers (s : State) (d : Deliver) (x : Done) : (s.deliver d x).layers = s.layers := by rw [State.deliver_frame]
@[simp] theorem State.deliver_synth (s : State) (d : Deliver) (x : Done) : (s.deliver d x).synth = s.synth := by rw [State.deliver_frame]
@[simp] theorem State.deliver_comp (s : State) (d : Deliver) (x : Done) : (s.deliver d x).comp = s.comp := by rw [State.deliver_frame]
@[simp] theorem State.deliver_cap (s : State) (d : Deliver) (x : Done) : (s.deliver d x).cap = s.cap := by rw [State.deliver_frame]
@[simp] theorem State.deliver_out (s : State) (d : Deliver) (x : Done) : (s.deliver d x).out = s.out := by rw [State.deliver_frame]
@[simp] theorem State.deliver_streams (s : State) (d : Deliver) (x : Done) : (s.deliver d x).streams = s.streams := by rw [State.deliver_frame]
@[simp] theorem State.deliver_engs (s : State) (d : Deliver) (x : Done) : (s.deliver d x).engs = s.engs := by rw [State.deliver_frame]
@[simp] theorem State.deliver_blt (s : State) (d : Deliver) (x : Done) : (s.deliver d x).blt = s.blt := by rw [State.deliver_frame]
@[simp] theorem State.deliver_cus (s : State) (d : Deliver) (x : Done) : (s.deliver d x).cus = s.cus := by rw [State.deliver_frame]
@[simp] theorem State.deliver_tg0 (s : State) (d : Deliver) (x : Done) : (s.deliver d x).tg0 = s.tg0 := by rw [State.deliver_frame]
@[simp] theorem State.deliver_tg1 (s : State) (d : Deliver) (x : Done) : (s.deliver d x).tg1 = s.tg1 := by rw [State.deliver_frame]
@[simp] theorem State.deliver_tg2 (s : State) (d : Deliver) (x : Done) : (s.deliver d x).tg2 = s.tg2 := by rw [State.deliver_frame]
@[simp] theorem State.deliver_scan (s : State) (d : Deliver) (x : Done) : (s.deliver d x).scan = s.scan := by rw [State.deliver_frame]
@[simp] theorem State.deliver_pairs (s : State) (d : Deliver) (x : Done) : (s.deliver d x).pairs = s.pairs := by rw [State.deliver_frame]
@[simp] theorem State.deliver_pwr (s : State) (d : Deliver) (x : Done) : (s.deliver d x).pwr = s.pwr := by rw [State.deliver_frame]
@[simp] theorem State.deliver_sec (s : State) (d : Deliver) (x : Done) : (s.deliver d x).sec = s.sec := by rw [State.deliver_frame]
@[simp] theorem State.deliver_fab (s : State) (d : Deliver) (x : Done) : (s.deliver d x).fab = s.fab := by rw [State.deliver_frame]
@[simp] theorem State.deliver_aud (s : State) (d : Deliver) (x : Done) : (s.deliver d x).aud = s.aud := by rw [State.deliver_frame]
@[simp] theorem State.deliver_therm (s : State) (d : Deliver) (x : Done) : (s.deliver d x).therm = s.therm := by rw [State.deliver_frame]
@[simp] theorem State.deliver_life (s : State) (d : Deliver) (x : Done) : (s.deliver d x).life = s.life := by rw [State.deliver_frame]
@[simp] theorem State.deliver_trim (s : State) (d : Deliver) (x : Done) : (s.deliver d x).trim = s.trim := by rw [State.deliver_frame]
@[simp] theorem State.deliver_flash (s : State) (d : Deliver) (x : Done) : (s.deliver d x).flash = s.flash := by rw [State.deliver_frame]
@[simp] theorem State.deliver_boot (s : State) (d : Deliver) (x : Done) : (s.deliver d x).boot = s.boot := by rw [State.deliver_frame]
@[simp] theorem State.deliver_err (s : State) (d : Deliver) (x : Done) : (s.deliver d x).err = s.err := by rw [State.deliver_frame]
@[simp] theorem State.deliver_svc (s : State) (d : Deliver) (x : Done) : (s.deliver d x).svc = s.svc := by rw [State.deliver_frame]
@[simp] theorem State.deliver_safe (s : State) (d : Deliver) (x : Done) : (s.deliver d x).safe = s.safe := by rw [State.deliver_frame]

/-! `overruled` changes threads, queues, host, err. -/

@[simp] theorem State.overruled_pending (s : State) (r : Resource) (a : Level) (m : Nat) (b : Level) (n : Nat) : (s.overruled r a m b n).pending = s.pending := by rw [State.overruled_frame]
@[simp] theorem State.overruled_now (s : State) (r : Resource) (a : Level) (m : Nat) (b : Level) (n : Nat) : (s.overruled r a m b n).now = s.now := by rw [State.overruled_frame]
@[simp] theorem State.overruled_free (s : State) (r : Resource) (a : Level) (m : Nat) (b : Level) (n : Nat) : (s.overruled r a m b n).free = s.free := by rw [State.overruled_frame]
@[simp] theorem State.overruled_nextOp (s : State) (r : Resource) (a : Level) (m : Nat) (b : Level) (n : Nat) : (s.overruled r a m b n).nextOp = s.nextOp := by rw [State.overruled_frame]
@[simp] theorem State.overruled_sboard (s : State) (r : Resource) (a : Level) (m : Nat) (b : Level) (n : Nat) : (s.overruled r a m b n).sboard = s.sboard := by rw [State.overruled_frame]
@[simp] theorem State.overruled_holds (s : State) (r : Resource) (a : Level) (m : Nat) (b : Level) (n : Nat) : (s.overruled r a m b n).holds = s.holds := by rw [State.overruled_frame]
@[simp] theorem State.overruled_bufs (s : State) (r : Resource) (a : Level) (m : Nat) (b : Level) (n : Nat) : (s.overruled r a m b n).bufs = s.bufs := by rw [State.overruled_frame]
@[simp] theorem State.overruled_mem (s : State) (r : Resource) (a : Level) (m : Nat) (b : Level) (n : Nat) : (s.overruled r a m b n).mem = s.mem := by rw [State.overruled_frame]
@[simp] theorem State.overruled_dram (s : State) (r : Resource) (a : Level) (m : Nat) (b : Level) (n : Nat) : (s.overruled r a m b n).dram = s.dram := by rw [State.overruled_frame]
@[simp] theorem State.overruled_plan (s : State) (r : Resource) (a : Level) (m : Nat) (b : Level) (n : Nat) : (s.overruled r a m b n).plan = s.plan := by rw [State.overruled_frame]
@[simp] theorem State.overruled_layers (s : State) (r : Resource) (a : Level) (m : Nat) (b : Level) (n : Nat) : (s.overruled r a m b n).layers = s.layers := by rw [State.overruled_frame]
@[simp] theorem State.overruled_synth (s : State) (r : Resource) (a : Level) (m : Nat) (b : Level) (n : Nat) : (s.overruled r a m b n).synth = s.synth := by rw [State.overruled_frame]
@[simp] theorem State.overruled_comp (s : State) (r : Resource) (a : Level) (m : Nat) (b : Level) (n : Nat) : (s.overruled r a m b n).comp = s.comp := by rw [State.overruled_frame]
@[simp] theorem State.overruled_cap (s : State) (r : Resource) (a : Level) (m : Nat) (b : Level) (n : Nat) : (s.overruled r a m b n).cap = s.cap := by rw [State.overruled_frame]
@[simp] theorem State.overruled_out (s : State) (r : Resource) (a : Level) (m : Nat) (b : Level) (n : Nat) : (s.overruled r a m b n).out = s.out := by rw [State.overruled_frame]
@[simp] theorem State.overruled_streams (s : State) (r : Resource) (a : Level) (m : Nat) (b : Level) (n : Nat) : (s.overruled r a m b n).streams = s.streams := by rw [State.overruled_frame]
@[simp] theorem State.overruled_engs (s : State) (r : Resource) (a : Level) (m : Nat) (b : Level) (n : Nat) : (s.overruled r a m b n).engs = s.engs := by rw [State.overruled_frame]
@[simp] theorem State.overruled_blt (s : State) (r : Resource) (a : Level) (m : Nat) (b : Level) (n : Nat) : (s.overruled r a m b n).blt = s.blt := by rw [State.overruled_frame]
@[simp] theorem State.overruled_cus (s : State) (r : Resource) (a : Level) (m : Nat) (b : Level) (n : Nat) : (s.overruled r a m b n).cus = s.cus := by rw [State.overruled_frame]
@[simp] theorem State.overruled_tg0 (s : State) (r : Resource) (a : Level) (m : Nat) (b : Level) (n : Nat) : (s.overruled r a m b n).tg0 = s.tg0 := by rw [State.overruled_frame]
@[simp] theorem State.overruled_tg1 (s : State) (r : Resource) (a : Level) (m : Nat) (b : Level) (n : Nat) : (s.overruled r a m b n).tg1 = s.tg1 := by rw [State.overruled_frame]
@[simp] theorem State.overruled_tg2 (s : State) (r : Resource) (a : Level) (m : Nat) (b : Level) (n : Nat) : (s.overruled r a m b n).tg2 = s.tg2 := by rw [State.overruled_frame]
@[simp] theorem State.overruled_scan (s : State) (r : Resource) (a : Level) (m : Nat) (b : Level) (n : Nat) : (s.overruled r a m b n).scan = s.scan := by rw [State.overruled_frame]
@[simp] theorem State.overruled_pairs (s : State) (r : Resource) (a : Level) (m : Nat) (b : Level) (n : Nat) : (s.overruled r a m b n).pairs = s.pairs := by rw [State.overruled_frame]
@[simp] theorem State.overruled_pwr (s : State) (r : Resource) (a : Level) (m : Nat) (b : Level) (n : Nat) : (s.overruled r a m b n).pwr = s.pwr := by rw [State.overruled_frame]
@[simp] theorem State.overruled_sec (s : State) (r : Resource) (a : Level) (m : Nat) (b : Level) (n : Nat) : (s.overruled r a m b n).sec = s.sec := by rw [State.overruled_frame]
@[simp] theorem State.overruled_fab (s : State) (r : Resource) (a : Level) (m : Nat) (b : Level) (n : Nat) : (s.overruled r a m b n).fab = s.fab := by rw [State.overruled_frame]
@[simp] theorem State.overruled_aud (s : State) (r : Resource) (a : Level) (m : Nat) (b : Level) (n : Nat) : (s.overruled r a m b n).aud = s.aud := by rw [State.overruled_frame]
@[simp] theorem State.overruled_therm (s : State) (r : Resource) (a : Level) (m : Nat) (b : Level) (n : Nat) : (s.overruled r a m b n).therm = s.therm := by rw [State.overruled_frame]
@[simp] theorem State.overruled_life (s : State) (r : Resource) (a : Level) (m : Nat) (b : Level) (n : Nat) : (s.overruled r a m b n).life = s.life := by rw [State.overruled_frame]
@[simp] theorem State.overruled_trim (s : State) (r : Resource) (a : Level) (m : Nat) (b : Level) (n : Nat) : (s.overruled r a m b n).trim = s.trim := by rw [State.overruled_frame]
@[simp] theorem State.overruled_flash (s : State) (r : Resource) (a : Level) (m : Nat) (b : Level) (n : Nat) : (s.overruled r a m b n).flash = s.flash := by rw [State.overruled_frame]
@[simp] theorem State.overruled_boot (s : State) (r : Resource) (a : Level) (m : Nat) (b : Level) (n : Nat) : (s.overruled r a m b n).boot = s.boot := by rw [State.overruled_frame]
@[simp] theorem State.overruled_svc (s : State) (r : Resource) (a : Level) (m : Nat) (b : Level) (n : Nat) : (s.overruled r a m b n).svc = s.svc := by rw [State.overruled_frame]
@[simp] theorem State.overruled_safe (s : State) (r : Resource) (a : Level) (m : Nat) (b : Level) (n : Nat) : (s.overruled r a m b n).safe = s.safe := by rw [State.overruled_frame]

/-! `wakeDram` changes dram. -/

@[simp] theorem State.wakeDram_pending (s : State) (u : Use) : (s.wakeDram u).1.pending = s.pending := by rw [State.wakeDram_frame]
@[simp] theorem State.wakeDram_now (s : State) (u : Use) : (s.wakeDram u).1.now = s.now := by rw [State.wakeDram_frame]
@[simp] theorem State.wakeDram_free (s : State) (u : Use) : (s.wakeDram u).1.free = s.free := by rw [State.wakeDram_frame]
@[simp] theorem State.wakeDram_nextOp (s : State) (u : Use) : (s.wakeDram u).1.nextOp = s.nextOp := by rw [State.wakeDram_frame]
@[simp] theorem State.wakeDram_threads (s : State) (u : Use) : (s.wakeDram u).1.threads = s.threads := by rw [State.wakeDram_frame]
@[simp] theorem State.wakeDram_sboard (s : State) (u : Use) : (s.wakeDram u).1.sboard = s.sboard := by rw [State.wakeDram_frame]
@[simp] theorem State.wakeDram_holds (s : State) (u : Use) : (s.wakeDram u).1.holds = s.holds := by rw [State.wakeDram_frame]
@[simp] theorem State.wakeDram_bufs (s : State) (u : Use) : (s.wakeDram u).1.bufs = s.bufs := by rw [State.wakeDram_frame]
@[simp] theorem State.wakeDram_mem (s : State) (u : Use) : (s.wakeDram u).1.mem = s.mem := by rw [State.wakeDram_frame]
@[simp] theorem State.wakeDram_queues (s : State) (u : Use) : (s.wakeDram u).1.queues = s.queues := by rw [State.wakeDram_frame]
@[simp] theorem State.wakeDram_plan (s : State) (u : Use) : (s.wakeDram u).1.plan = s.plan := by rw [State.wakeDram_frame]
@[simp] theorem State.wakeDram_layers (s : State) (u : Use) : (s.wakeDram u).1.layers = s.layers := by rw [State.wakeDram_frame]
@[simp] theorem State.wakeDram_synth (s : State) (u : Use) : (s.wakeDram u).1.synth = s.synth := by rw [State.wakeDram_frame]
@[simp] theorem State.wakeDram_comp (s : State) (u : Use) : (s.wakeDram u).1.comp = s.comp := by rw [State.wakeDram_frame]
@[simp] theorem State.wakeDram_cap (s : State) (u : Use) : (s.wakeDram u).1.cap = s.cap := by rw [State.wakeDram_frame]
@[simp] theorem State.wakeDram_out (s : State) (u : Use) : (s.wakeDram u).1.out = s.out := by rw [State.wakeDram_frame]
@[simp] theorem State.wakeDram_streams (s : State) (u : Use) : (s.wakeDram u).1.streams = s.streams := by rw [State.wakeDram_frame]
@[simp] theorem State.wakeDram_engs (s : State) (u : Use) : (s.wakeDram u).1.engs = s.engs := by rw [State.wakeDram_frame]
@[simp] theorem State.wakeDram_blt (s : State) (u : Use) : (s.wakeDram u).1.blt = s.blt := by rw [State.wakeDram_frame]
@[simp] theorem State.wakeDram_cus (s : State) (u : Use) : (s.wakeDram u).1.cus = s.cus := by rw [State.wakeDram_frame]
@[simp] theorem State.wakeDram_tg0 (s : State) (u : Use) : (s.wakeDram u).1.tg0 = s.tg0 := by rw [State.wakeDram_frame]
@[simp] theorem State.wakeDram_tg1 (s : State) (u : Use) : (s.wakeDram u).1.tg1 = s.tg1 := by rw [State.wakeDram_frame]
@[simp] theorem State.wakeDram_tg2 (s : State) (u : Use) : (s.wakeDram u).1.tg2 = s.tg2 := by rw [State.wakeDram_frame]
@[simp] theorem State.wakeDram_scan (s : State) (u : Use) : (s.wakeDram u).1.scan = s.scan := by rw [State.wakeDram_frame]
@[simp] theorem State.wakeDram_pairs (s : State) (u : Use) : (s.wakeDram u).1.pairs = s.pairs := by rw [State.wakeDram_frame]
@[simp] theorem State.wakeDram_pwr (s : State) (u : Use) : (s.wakeDram u).1.pwr = s.pwr := by rw [State.wakeDram_frame]
@[simp] theorem State.wakeDram_sec (s : State) (u : Use) : (s.wakeDram u).1.sec = s.sec := by rw [State.wakeDram_frame]
@[simp] theorem State.wakeDram_fab (s : State) (u : Use) : (s.wakeDram u).1.fab = s.fab := by rw [State.wakeDram_frame]
@[simp] theorem State.wakeDram_aud (s : State) (u : Use) : (s.wakeDram u).1.aud = s.aud := by rw [State.wakeDram_frame]
@[simp] theorem State.wakeDram_therm (s : State) (u : Use) : (s.wakeDram u).1.therm = s.therm := by rw [State.wakeDram_frame]
@[simp] theorem State.wakeDram_life (s : State) (u : Use) : (s.wakeDram u).1.life = s.life := by rw [State.wakeDram_frame]
@[simp] theorem State.wakeDram_trim (s : State) (u : Use) : (s.wakeDram u).1.trim = s.trim := by rw [State.wakeDram_frame]
@[simp] theorem State.wakeDram_flash (s : State) (u : Use) : (s.wakeDram u).1.flash = s.flash := by rw [State.wakeDram_frame]
@[simp] theorem State.wakeDram_host (s : State) (u : Use) : (s.wakeDram u).1.host = s.host := by rw [State.wakeDram_frame]
@[simp] theorem State.wakeDram_boot (s : State) (u : Use) : (s.wakeDram u).1.boot = s.boot := by rw [State.wakeDram_frame]
@[simp] theorem State.wakeDram_err (s : State) (u : Use) : (s.wakeDram u).1.err = s.err := by rw [State.wakeDram_frame]
@[simp] theorem State.wakeDram_svc (s : State) (u : Use) : (s.wakeDram u).1.svc = s.svc := by rw [State.wakeDram_frame]
@[simp] theorem State.wakeDram_safe (s : State) (u : Use) : (s.wakeDram u).1.safe = s.safe := by rw [State.wakeDram_frame]

/-! `restart` changes threads. -/

@[simp] theorem State.restart_pending (s : State) (t : Tid) : (s.restart t).pending = s.pending := by rw [State.restart_frame]
@[simp] theorem State.restart_now (s : State) (t : Tid) : (s.restart t).now = s.now := by rw [State.restart_frame]
@[simp] theorem State.restart_free (s : State) (t : Tid) : (s.restart t).free = s.free := by rw [State.restart_frame]
@[simp] theorem State.restart_nextOp (s : State) (t : Tid) : (s.restart t).nextOp = s.nextOp := by rw [State.restart_frame]
@[simp] theorem State.restart_sboard (s : State) (t : Tid) : (s.restart t).sboard = s.sboard := by rw [State.restart_frame]
@[simp] theorem State.restart_holds (s : State) (t : Tid) : (s.restart t).holds = s.holds := by rw [State.restart_frame]
@[simp] theorem State.restart_bufs (s : State) (t : Tid) : (s.restart t).bufs = s.bufs := by rw [State.restart_frame]
@[simp] theorem State.restart_mem (s : State) (t : Tid) : (s.restart t).mem = s.mem := by rw [State.restart_frame]
@[simp] theorem State.restart_dram (s : State) (t : Tid) : (s.restart t).dram = s.dram := by rw [State.restart_frame]
@[simp] theorem State.restart_queues (s : State) (t : Tid) : (s.restart t).queues = s.queues := by rw [State.restart_frame]
@[simp] theorem State.restart_plan (s : State) (t : Tid) : (s.restart t).plan = s.plan := by rw [State.restart_frame]
@[simp] theorem State.restart_layers (s : State) (t : Tid) : (s.restart t).layers = s.layers := by rw [State.restart_frame]
@[simp] theorem State.restart_synth (s : State) (t : Tid) : (s.restart t).synth = s.synth := by rw [State.restart_frame]
@[simp] theorem State.restart_comp (s : State) (t : Tid) : (s.restart t).comp = s.comp := by rw [State.restart_frame]
@[simp] theorem State.restart_cap (s : State) (t : Tid) : (s.restart t).cap = s.cap := by rw [State.restart_frame]
@[simp] theorem State.restart_out (s : State) (t : Tid) : (s.restart t).out = s.out := by rw [State.restart_frame]
@[simp] theorem State.restart_streams (s : State) (t : Tid) : (s.restart t).streams = s.streams := by rw [State.restart_frame]
@[simp] theorem State.restart_engs (s : State) (t : Tid) : (s.restart t).engs = s.engs := by rw [State.restart_frame]
@[simp] theorem State.restart_blt (s : State) (t : Tid) : (s.restart t).blt = s.blt := by rw [State.restart_frame]
@[simp] theorem State.restart_cus (s : State) (t : Tid) : (s.restart t).cus = s.cus := by rw [State.restart_frame]
@[simp] theorem State.restart_tg0 (s : State) (t : Tid) : (s.restart t).tg0 = s.tg0 := by rw [State.restart_frame]
@[simp] theorem State.restart_tg1 (s : State) (t : Tid) : (s.restart t).tg1 = s.tg1 := by rw [State.restart_frame]
@[simp] theorem State.restart_tg2 (s : State) (t : Tid) : (s.restart t).tg2 = s.tg2 := by rw [State.restart_frame]
@[simp] theorem State.restart_scan (s : State) (t : Tid) : (s.restart t).scan = s.scan := by rw [State.restart_frame]
@[simp] theorem State.restart_pairs (s : State) (t : Tid) : (s.restart t).pairs = s.pairs := by rw [State.restart_frame]
@[simp] theorem State.restart_pwr (s : State) (t : Tid) : (s.restart t).pwr = s.pwr := by rw [State.restart_frame]
@[simp] theorem State.restart_sec (s : State) (t : Tid) : (s.restart t).sec = s.sec := by rw [State.restart_frame]
@[simp] theorem State.restart_fab (s : State) (t : Tid) : (s.restart t).fab = s.fab := by rw [State.restart_frame]
@[simp] theorem State.restart_aud (s : State) (t : Tid) : (s.restart t).aud = s.aud := by rw [State.restart_frame]
@[simp] theorem State.restart_therm (s : State) (t : Tid) : (s.restart t).therm = s.therm := by rw [State.restart_frame]
@[simp] theorem State.restart_life (s : State) (t : Tid) : (s.restart t).life = s.life := by rw [State.restart_frame]
@[simp] theorem State.restart_trim (s : State) (t : Tid) : (s.restart t).trim = s.trim := by rw [State.restart_frame]
@[simp] theorem State.restart_flash (s : State) (t : Tid) : (s.restart t).flash = s.flash := by rw [State.restart_frame]
@[simp] theorem State.restart_host (s : State) (t : Tid) : (s.restart t).host = s.host := by rw [State.restart_frame]
@[simp] theorem State.restart_boot (s : State) (t : Tid) : (s.restart t).boot = s.boot := by rw [State.restart_frame]
@[simp] theorem State.restart_err (s : State) (t : Tid) : (s.restart t).err = s.err := by rw [State.restart_frame]
@[simp] theorem State.restart_svc (s : State) (t : Tid) : (s.restart t).svc = s.svc := by rw [State.restart_frame]
@[simp] theorem State.restart_safe (s : State) (t : Tid) : (s.restart t).safe = s.safe := by rw [State.restart_frame]

/-! Threads. -/

@[simp] theorem State.setThread_thread (s : State) (t : Tid) (x : Thread) : (s.setThread t x).thread t = x := by
  simp [State.setThread, State.thread]

@[simp] theorem State.setThread_thread_other (s : State) (t v : Tid) (x : Thread) (h : v ≠ t) :
    (s.setThread t x).thread v = s.thread v := by
  have : t.val ≠ v.val := fun e => h (Fin.ext e.symm)
  simp [State.setThread, State.thread, this]

/-- Changing a thread is putting the changed thread in its place. -/
theorem State.modThread_eq (s : State) (t : Tid) (f : Thread → Thread) : s.modThread t f = s.setThread t (f (s.thread t)) := rfl

theorem State.toUnit_eq (s : State) (t : Tid) (w : IWord) (d : Option Done) :
    s.toUnit t w d = s.setThread t ((s.thread t).atUnit w d) := rfl

@[simp] theorem State.registered_thread (s : State) (t v : Tid) (u : Use) : (s.registered t u).thread v = s.thread v := rfl

@[simp] theorem State.eventFor_thread (s : State) (p : Tid → Bool) (b : BitVec 32) (t : Tid) :
    (s.eventFor p b).thread t = if p t then { s.thread t with evt := (s.thread t).evt ||| b } else s.thread t := by
  simp [State.eventFor, State.thread]

@[simp] theorem Thread.setReg_st (th : Thread) (r : BitVec 4) (v : Reg) : (th.setReg r v).st = th.st := by
  unfold Thread.setReg; split <;> rfl
@[simp] theorem Thread.setReg_fl (th : Thread) (r : BitVec 4) (v : Reg) : (th.setReg r v).fl = th.fl := by
  unfold Thread.setReg; split <;> rfl
@[simp] theorem Thread.setReg_pc (th : Thread) (r : BitVec 4) (v : Reg) : (th.setReg r v).pc = th.pc := by
  unfold Thread.setReg; split <;> rfl
@[simp] theorem Thread.setReg_prog (th : Thread) (r : BitVec 4) (v : Reg) : (th.setReg r v).prog = th.prog := by
  unfold Thread.setReg; split <;> rfl
@[simp] theorem Thread.setReg_entry (th : Thread) (r : BitVec 4) (v : Reg) : (th.setReg r v).entry = th.entry := by
  unfold Thread.setReg; split <;> rfl
@[simp] theorem Thread.setReg_recDone (th : Thread) (r : BitVec 4) (v : Reg) : (th.setReg r v).recDone = th.recDone := by
  unfold Thread.setReg; split <;> rfl
@[simp] theorem Thread.setReg_intDone (th : Thread) (r : BitVec 4) (v : Reg) : (th.setReg r v).intDone = th.intDone := by
  unfold Thread.setReg; split <;> rfl
@[simp] theorem Thread.setReg_stack (th : Thread) (r : BitVec 4) (v : Reg) : (th.setReg r v).stack = th.stack := by
  unfold Thread.setReg; split <;> rfl
@[simp] theorem Thread.setReg_scratch (th : Thread) (r : BitVec 4) (v : Reg) : (th.setReg r v).scratch = th.scratch := by
  unfold Thread.setReg; split <;> rfl
@[simp] theorem Thread.setReg_evt (th : Thread) (r : BitVec 4) (v : Reg) : (th.setReg r v).evt = th.evt := by
  unfold Thread.setReg; split <;> rfl
@[simp] theorem Thread.setReg_wait (th : Thread) (r : BitVec 4) (v : Reg) : (th.setReg r v).wait = th.wait := by
  unfold Thread.setReg; split <;> rfl
@[simp] theorem Thread.setReg_wRd (th : Thread) (r : BitVec 4) (v : Reg) : (th.setReg r v).wRd = th.wRd := by
  unfold Thread.setReg; split <;> rfl
@[simp] theorem Thread.setReg_wRc (th : Thread) (r : BitVec 4) (v : Reg) : (th.setReg r v).wRc = th.wRc := by
  unfold Thread.setReg; split <;> rfl
@[simp] theorem Thread.setReg_wEnd (th : Thread) (r : BitVec 4) (v : Reg) : (th.setReg r v).wEnd = th.wEnd := by
  unfold Thread.setReg; split <;> rfl
@[simp] theorem Thread.setReg_wNoFault (th : Thread) (r : BitVec 4) (v : Reg) : (th.setReg r v).wNoFault = th.wNoFault := by
  unfold Thread.setReg; split <;> rfl
@[simp] theorem Thread.setReg_wHit (th : Thread) (r : BitVec 4) (v : Reg) : (th.setReg r v).wHit = th.wHit := by
  unfold Thread.setReg; split <;> rfl
@[simp] theorem Thread.setReg_wAddr (th : Thread) (r : BitVec 4) (v : Reg) : (th.setReg r v).wAddr = th.wAddr := by
  unfold Thread.setReg; split <;> rfl
@[simp] theorem Thread.setReg_done (th : Thread) (r : BitVec 4) (v : Reg) : (th.setReg r v).done = th.done := by
  unfold Thread.setReg; split <;> rfl
@[simp] theorem Thread.setReg_async (th : Thread) (r : BitVec 4) (v : Reg) : (th.setReg r v).async = th.async := by
  unfold Thread.setReg; split <;> rfl
@[simp] theorem Thread.setReg_snap (th : Thread) (r : BitVec 4) (v : Reg) : (th.setReg r v).snap = th.snap := by
  unfold Thread.setReg; split <;> rfl

@[simp] theorem Thread.setWord_st (th : Thread) (i : Nat) (v : Reg) : (th.setWord i v).st = th.st := rfl
@[simp] theorem Thread.setWord_g (th : Thread) (i : Nat) (v : Reg) : (th.setWord i v).g = th.g := rfl
@[simp] theorem Thread.setWord_fl (th : Thread) (i : Nat) (v : Reg) : (th.setWord i v).fl = th.fl := rfl
@[simp] theorem Thread.setWord_pc (th : Thread) (i : Nat) (v : Reg) : (th.setWord i v).pc = th.pc := rfl
@[simp] theorem Thread.setWord_prog (th : Thread) (i : Nat) (v : Reg) : (th.setWord i v).prog = th.prog := rfl
@[simp] theorem Thread.setWord_entry (th : Thread) (i : Nat) (v : Reg) : (th.setWord i v).entry = th.entry := rfl
@[simp] theorem Thread.setWord_recDone (th : Thread) (i : Nat) (v : Reg) : (th.setWord i v).recDone = th.recDone := rfl
@[simp] theorem Thread.setWord_intDone (th : Thread) (i : Nat) (v : Reg) : (th.setWord i v).intDone = th.intDone := rfl
@[simp] theorem Thread.setWord_stack (th : Thread) (i : Nat) (v : Reg) : (th.setWord i v).stack = th.stack := rfl
@[simp] theorem Thread.setWord_evt (th : Thread) (i : Nat) (v : Reg) : (th.setWord i v).evt = th.evt := rfl
@[simp] theorem Thread.setWord_wait (th : Thread) (i : Nat) (v : Reg) : (th.setWord i v).wait = th.wait := rfl
@[simp] theorem Thread.setWord_wRd (th : Thread) (i : Nat) (v : Reg) : (th.setWord i v).wRd = th.wRd := rfl
@[simp] theorem Thread.setWord_wRc (th : Thread) (i : Nat) (v : Reg) : (th.setWord i v).wRc = th.wRc := rfl
@[simp] theorem Thread.setWord_wEnd (th : Thread) (i : Nat) (v : Reg) : (th.setWord i v).wEnd = th.wEnd := rfl
@[simp] theorem Thread.setWord_wNoFault (th : Thread) (i : Nat) (v : Reg) : (th.setWord i v).wNoFault = th.wNoFault := rfl
@[simp] theorem Thread.setWord_wHit (th : Thread) (i : Nat) (v : Reg) : (th.setWord i v).wHit = th.wHit := rfl
@[simp] theorem Thread.setWord_wAddr (th : Thread) (i : Nat) (v : Reg) : (th.setWord i v).wAddr = th.wAddr := rfl
@[simp] theorem Thread.setWord_done (th : Thread) (i : Nat) (v : Reg) : (th.setWord i v).done = th.done := rfl
@[simp] theorem Thread.setWord_async (th : Thread) (i : Nat) (v : Reg) : (th.setWord i v).async = th.async := rfl
@[simp] theorem Thread.setWord_snap (th : Thread) (i : Nat) (v : Reg) : (th.setWord i v).snap = th.snap := rfl

@[simp] theorem Thread.next_st (th : Thread) (n : Nat) : (th.next n).st = th.st := rfl
@[simp] theorem Thread.next_g (th : Thread) (n : Nat) : (th.next n).g = th.g := rfl
@[simp] theorem Thread.next_fl (th : Thread) (n : Nat) : (th.next n).fl = th.fl := rfl
@[simp] theorem Thread.next_prog (th : Thread) (n : Nat) : (th.next n).prog = th.prog := rfl
@[simp] theorem Thread.next_entry (th : Thread) (n : Nat) : (th.next n).entry = th.entry := rfl
@[simp] theorem Thread.next_recDone (th : Thread) (n : Nat) : (th.next n).recDone = th.recDone := rfl
@[simp] theorem Thread.next_intDone (th : Thread) (n : Nat) : (th.next n).intDone = th.intDone := rfl
@[simp] theorem Thread.next_stack (th : Thread) (n : Nat) : (th.next n).stack = th.stack := rfl
@[simp] theorem Thread.next_scratch (th : Thread) (n : Nat) : (th.next n).scratch = th.scratch := rfl
@[simp] theorem Thread.next_evt (th : Thread) (n : Nat) : (th.next n).evt = th.evt := rfl
@[simp] theorem Thread.next_wait (th : Thread) (n : Nat) : (th.next n).wait = th.wait := rfl
@[simp] theorem Thread.next_wRd (th : Thread) (n : Nat) : (th.next n).wRd = th.wRd := rfl
@[simp] theorem Thread.next_wRc (th : Thread) (n : Nat) : (th.next n).wRc = th.wRc := rfl
@[simp] theorem Thread.next_wEnd (th : Thread) (n : Nat) : (th.next n).wEnd = th.wEnd := rfl
@[simp] theorem Thread.next_wNoFault (th : Thread) (n : Nat) : (th.next n).wNoFault = th.wNoFault := rfl
@[simp] theorem Thread.next_wHit (th : Thread) (n : Nat) : (th.next n).wHit = th.wHit := rfl
@[simp] theorem Thread.next_wAddr (th : Thread) (n : Nat) : (th.next n).wAddr = th.wAddr := rfl
@[simp] theorem Thread.next_done (th : Thread) (n : Nat) : (th.next n).done = th.done := rfl
@[simp] theorem Thread.next_async (th : Thread) (n : Nat) : (th.next n).async = th.async := rfl
@[simp] theorem Thread.next_snap (th : Thread) (n : Nat) : (th.next n).snap = th.snap := rfl

@[simp] theorem Thread.atUnit_g (th : Thread) (w : IWord) (d : Option Done) : (th.atUnit w d).g = th.g := rfl
@[simp] theorem Thread.atUnit_fl (th : Thread) (w : IWord) (d : Option Done) : (th.atUnit w d).fl = th.fl := rfl
@[simp] theorem Thread.atUnit_prog (th : Thread) (w : IWord) (d : Option Done) : (th.atUnit w d).prog = th.prog := rfl
@[simp] theorem Thread.atUnit_entry (th : Thread) (w : IWord) (d : Option Done) : (th.atUnit w d).entry = th.entry := rfl
@[simp] theorem Thread.atUnit_recDone (th : Thread) (w : IWord) (d : Option Done) : (th.atUnit w d).recDone = th.recDone := rfl
@[simp] theorem Thread.atUnit_intDone (th : Thread) (w : IWord) (d : Option Done) : (th.atUnit w d).intDone = th.intDone := rfl
@[simp] theorem Thread.atUnit_stack (th : Thread) (w : IWord) (d : Option Done) : (th.atUnit w d).stack = th.stack := rfl
@[simp] theorem Thread.atUnit_scratch (th : Thread) (w : IWord) (d : Option Done) : (th.atUnit w d).scratch = th.scratch := rfl
@[simp] theorem Thread.atUnit_evt (th : Thread) (w : IWord) (d : Option Done) : (th.atUnit w d).evt = th.evt := rfl
@[simp] theorem Thread.atUnit_wEnd (th : Thread) (w : IWord) (d : Option Done) : (th.atUnit w d).wEnd = th.wEnd := rfl
@[simp] theorem Thread.atUnit_wNoFault (th : Thread) (w : IWord) (d : Option Done) : (th.atUnit w d).wNoFault = th.wNoFault := rfl
@[simp] theorem Thread.atUnit_wHit (th : Thread) (w : IWord) (d : Option Done) : (th.atUnit w d).wHit = th.wHit := rfl
@[simp] theorem Thread.atUnit_async (th : Thread) (w : IWord) (d : Option Done) : (th.atUnit w d).async = th.async := rfl

end Sys2Proof.Machine
end

