-- ==== Sys2Proof/Laws/Tables.lean ====
section
/-! SUPPORT. Sparse tables: what a read gives after a write, and that every operation keeps the canonical form. -/

namespace Sys2Proof.Machine

variable {β : Type}

theorem tabWf_iff [DecidableEq β] (d : β) (l : List (Nat × β)) :
    tabWf d l = true ↔ (l.Pairwise fun a b => a.1 < b.1) ∧ ∀ e ∈ l, e.2 ≠ d := by
  simp [tabWf]

@[simp] theorem tabWf_nil [DecidableEq β] (d : β) : tabWf d ([] : List (Nat × β)) = true := by simp [tabWf_iff]

theorem tabGet_of_lt (d : β) (l : List (Nat × β)) (a : Nat) (h : ∀ e ∈ l, a < e.1) : tabGet d l a = d := by
  induction l with
  | nil => rfl
  | cons e r ih =>
    have h1 := h e (by simp)
    simp only [tabGet]
    rw [if_neg (by omega), ih fun x hx => h x (by simp [hx])]

@[simp] theorem tabGet_tabSet_same [DecidableEq β] (d : β) (l : List (Nat × β)) (a : Nat) (v : β)
    (h : l.Pairwise fun a b => a.1 < b.1) : tabGet d (tabSet d l a v) a = v := by
  induction l with
  | nil => by_cases hv : v = d <;> simp [tabSet, tabGet, hv]
  | cons e r ih =>
    obtain ⟨hr, hp⟩ := List.pairwise_cons.1 h
    simp only [tabSet]
    split
    · split
      · rename_i h1 h2
        rw [h2]
        exact tabGet_of_lt d _ _ (by rintro x (_ | ⟨_, hx⟩); exacts [h1, h1.trans (hr x hx)])
      · simp [tabGet]
    · split
      · rename_i h1 h2
        subst h2
        split
        · rename_i h3
          rw [h3]
          exact tabGet_of_lt d _ _ hr
        · simp [tabGet]
      · rename_i h1 h2
        simp only [tabGet]
        rw [if_neg (fun h => h2 h.symm), ih hp]

@[simp] theorem tabGet_tabSet_other [DecidableEq β] (d : β) (l : List (Nat × β)) (a b : Nat) (v : β) (hab : b ≠ a) :
    tabGet d (tabSet d l a v) b = tabGet d l b := by
  induction l with
  | nil => by_cases hv : v = d <;> simp [tabSet, tabGet, hv, Ne.symm hab]
  | cons e r ih =>
    simp only [tabSet]
    split
    · split <;> simp [tabGet, Ne.symm hab]
    · split
      · rename_i h2
        subst h2
        split <;> simp [tabGet, Ne.symm hab]
      · simp [tabGet, ih]

theorem mem_tabSet [DecidableEq β] (d : β) (l : List (Nat × β)) (a : Nat) (v : β) (e : Nat × β) (h : e ∈ tabSet d l a v) :
    e ∈ l ∨ (e = (a, v) ∧ v ≠ d) := by
  induction l with
  | nil =>
    simp only [tabSet] at h
    split at h
    · simp at h
    · right; exact ⟨by simpa using h, ‹_›⟩
  | cons x r ih =>
    simp only [tabSet] at h
    split at h
    · split at h
      · exact .inl h
      · rcases List.mem_cons.1 h with h | h
        · exact .inr ⟨h, ‹_›⟩
        · exact .inl h
    · split at h
      · split at h
        · exact .inl (List.mem_cons_of_mem _ h)
        · rcases List.mem_cons.1 h with h | h
          · exact .inr ⟨h, ‹_›⟩
          · exact .inl (List.mem_cons_of_mem _ h)
      · rcases List.mem_cons.1 h with h | h
        · exact .inl (h ▸ List.mem_cons_self)
        · exact (ih h).imp (List.mem_cons_of_mem _) id

/-- A write keeps the canonical form. -/
theorem tabSet_wf [DecidableEq β] (d : β) (l : List (Nat × β)) (a : Nat) (v : β) (h : tabWf d l = true) :
    tabWf d (tabSet d l a v) = true := by
  rw [tabWf_iff] at h ⊢
  refine ⟨?_, fun e he => ?_⟩
  · obtain ⟨h, -⟩ := h
    induction l with
    | nil => by_cases hv : v = d <;> simp [tabSet, hv]
    | cons x r ih =>
      obtain ⟨hr, hp⟩ := List.pairwise_cons.1 h
      simp only [tabSet]
      split
      · split
        · exact h
        · rename_i h1 _
          exact List.pairwise_cons.2 ⟨by rintro y (_ | ⟨_, hy⟩); exacts [h1, h1.trans (hr y hy)], h⟩
      · split
        · split
          · exact hp
          · rename_i h2 _
            exact List.pairwise_cons.2 ⟨fun y hy => by simpa [h2] using hr y hy, hp⟩
        · refine List.pairwise_cons.2 ⟨fun y hy => ?_, ih hp⟩
          rcases mem_tabSet d r a v y hy with hy | ⟨rfl, -⟩
          · exact hr y hy
          · rename_i h1 h2; show x.1 < a; omega
  · rcases mem_tabSet d l a v e he with he | ⟨rfl, hv⟩
    · exact h.2 e he
    · exact hv

/-- Leaving entries out keeps the canonical form. -/
theorem filter_wf [DecidableEq β] (d : β) (l : List (Nat × β)) (p : Nat × β → Bool) (h : tabWf d l = true) :
    tabWf d (l.filter p) = true := by
  rw [tabWf_iff] at h ⊢
  exact ⟨h.1.filter p, fun e he => h.2 e (List.mem_of_mem_filter he)⟩

theorem tabClear_wf [DecidableEq β] (d : β) (l : List (Nat × β)) (lo hi : Nat) (h : tabWf d l = true) :
    tabWf d (tabClear l lo hi) = true := filter_wf d l _ h

/-- A cleared range reads as unlisted and every other key as before. -/
theorem tabGet_tabClear (d : β) (l : List (Nat × β)) (lo hi a : Nat) :
    tabGet d (tabClear l lo hi) a = if lo ≤ a ∧ a < hi then d else tabGet d l a := by
  induction l with
  | nil => simp [tabClear, tabGet]
  | cons e r ih =>
    simp only [tabClear, List.filter_cons] at ih ⊢
    split
    · rename_i h
      simp only [tabGet, ih]
      by_cases he : e.1 = a
      · subst he
        rw [if_pos rfl, if_pos rfl, if_neg]
        simp at h; omega
      · rw [if_neg he, if_neg he]
    · rename_i h
      rw [ih]
      simp only [tabGet]
      split
      · rfl
      · rw [if_neg]
        rintro rfl
        simp at h; omega

/-- Two tables in canonical form that read alike are equal data. -/
theorem tabWf_ext [DecidableEq β] (d : β) (l m : List (Nat × β)) (hl : tabWf d l = true) (hm : tabWf d m = true)
    (h : ∀ a, tabGet d l a = tabGet d m a) : l = m := by
  rw [tabWf_iff] at hl hm
  induction l generalizing m with
  | nil =>
    cases m with
    | nil => rfl
    | cons e r =>
      have := h e.1
      simp [tabGet] at this
      exact absurd this.symm (hm.2 e (by simp))
  | cons x r ih =>
    obtain ⟨hr, hp⟩ := List.pairwise_cons.1 hl.1
    cases m with
    | nil =>
      have := h x.1
      simp [tabGet] at this
      exact absurd this (hl.2 x (by simp))
    | cons y q =>
      obtain ⟨hq, hpq⟩ := List.pairwise_cons.1 hm.1
      have key : x.1 = y.1 := by
        rcases Nat.lt_trichotomy x.1 y.1 with hlt | he | hlt
        · have hx := h x.1
          rw [tabGet_of_lt d (y :: q) x.1 (by rintro z (_ | ⟨_, hz⟩); exacts [hlt, hlt.trans (hq z hz)])] at hx
          simp [tabGet] at hx
          exact absurd hx (hl.2 x (by simp))
        · exact he
        · have hy := h y.1
          rw [tabGet_of_lt d (x :: r) y.1 (by rintro z (_ | ⟨_, hz⟩); exacts [hlt, hlt.trans (hr z hz)])] at hy
          simp [tabGet] at hy
          exact absurd hy.symm (hm.2 y (by simp))
      have val : x.2 = y.2 := by
        have hx := h x.1
        simpa [tabGet, key] using hx
      have e : x = y := Prod.ext key val
      subst e
      congr 1
      refine ih q ⟨hp, fun e he => hl.2 e (by simp [he])⟩ ⟨hpq, fun e he => hm.2 e (by simp [he])⟩ fun a => ?_
      by_cases ha : x.1 = a
      · rw [tabGet_of_lt d r a (by subst ha; exact hr), tabGet_of_lt d q a (by subst ha; exact hq)]
      · have := h a
        simpa [tabGet, ha] using this

@[simp] theorem tabFind_tabPut_same (l : List (Nat × β)) (a : Nat) (v : β) : tabFind (tabPut l a v) a = some v := by
  induction l with
  | nil => simp [tabPut, tabFind]
  | cons e r ih =>
    simp only [tabPut]
    split
    · simp [tabFind]
    · split
      · simp [tabFind]
      · rename_i h1 h2
        simp only [tabFind]
        rw [if_neg (fun h => h2 h.symm), ih]

@[simp] theorem tabFind_tabPut_other (l : List (Nat × β)) (a b : Nat) (v : β) (hab : b ≠ a) :
    tabFind (tabPut l a v) b = tabFind l b := by
  induction l with
  | nil => simp [tabPut, tabFind, Ne.symm hab]
  | cons e r ih =>
    simp only [tabPut]
    split
    · simp [tabFind, Ne.symm hab]
    · split
      · rename_i h2
        subst h2
        simp [tabFind, Ne.symm hab]
      · simp [tabFind, ih]

theorem mem_tabPut (l : List (Nat × β)) (a : Nat) (v : β) (e : Nat × β) (h : e ∈ tabPut l a v) : e ∈ l ∨ e = (a, v) := by
  induction l with
  | nil => right; simpa [tabPut] using h
  | cons x r ih =>
    simp only [tabPut] at h
    split at h
    · rcases List.mem_cons.1 h with h | h
      · exact .inr h
      · exact .inl h
    · split at h
      · rcases List.mem_cons.1 h with h | h
        · exact .inr h
        · exact .inl (List.mem_cons_of_mem _ h)
      · rcases List.mem_cons.1 h with h | h
        · exact .inl (h ▸ List.mem_cons_self)
        · exact (ih h).imp (List.mem_cons_of_mem _) id

/-- Putting an entry keeps the keys strictly rising. -/
theorem tabPut_sorted (l : List (Nat × β)) (a : Nat) (v : β) (h : l.Pairwise fun a b => a.1 < b.1) :
    (tabPut l a v).Pairwise fun a b => a.1 < b.1 := by
  induction l with
  | nil => simp [tabPut]
  | cons x r ih =>
    obtain ⟨hr, hp⟩ := List.pairwise_cons.1 h
    simp only [tabPut]
    split
    · rename_i h1
      exact List.pairwise_cons.2 ⟨by rintro y (_ | ⟨_, hy⟩); exacts [h1, h1.trans (hr y hy)], h⟩
    · split
      · rename_i h2
        exact List.pairwise_cons.2 ⟨fun y hy => by simpa [h2] using hr y hy, hp⟩
      · refine List.pairwise_cons.2 ⟨fun y hy => ?_, ih hp⟩
        rcases mem_tabPut r a v y hy with hy | rfl
        · exact hr y hy
        · rename_i h1 h2; show x.1 < a; omega

/-- A key that a table in order holds is found with its entry. -/
theorem tabFind_of_mem (l : List (Nat × β)) (a : Nat) (v : β) (h : l.Pairwise fun a b => a.1 < b.1) (hm : (a, v) ∈ l) :
    tabFind l a = some v := by
  induction l with
  | nil => simp at hm
  | cons x r ih =>
    obtain ⟨hr, hp⟩ := List.pairwise_cons.1 h
    rcases List.mem_cons.1 hm with rfl | hm
    · simp [tabFind]
    · have := hr _ hm
      simp only [tabFind]
      rw [if_neg (by simp at this; omega), ih hp hm]

end Sys2Proof.Machine
end

