-- ==== Sys2Proof/Laws/Memory.lean ====
section
/-! SUPPORT. Memory: a byte reads what was written to it last, a write leaves every other byte, and every operation over memory
keeps the canonical form. -/

namespace Sys2Proof.Machine

@[simp] theorem Memory.reset_wf : Memory.wf State.reset.mem = true := rfl

theorem Memory.write_wf (m : List Host.Cell) (a : Nat) (b : Byte) (h : Memory.wf m = true) : Memory.wf (Memory.write m a b) = true :=
  tabSet_wf _ m a b h

@[simp] theorem Memory.read_write_other (m : List Host.Cell) (a x : Nat) (b : Byte) (hx : x ≠ a) :
    Memory.read (Memory.write m a b) x = Memory.read m x := tabGet_tabSet_other _ m a x b hx

theorem Memory.sorted (m : List Host.Cell) (h : Memory.wf m = true) : m.Pairwise fun a b => a.1 < b.1 :=
  ((tabWf_iff _ m).1 h).1

@[simp] theorem Memory.read_write_same (m : List Host.Cell) (a : Nat) (b : Byte) (h : Memory.wf m = true) :
    Memory.read (Memory.write m a b) a = b := tabGet_tabSet_same _ m a b (Memory.sorted m h)

theorem Memory.writeN_wf (m : List Host.Cell) (a : Nat) (d : List Byte) (h : Memory.wf m = true) :
    Memory.wf (Memory.writeN m a d) = true := by
  induction d generalizing m a with
  | nil => exact h
  | cons b r ih => exact ih _ _ (Memory.write_wf m a b h)

/-- Bytes outside the range written keep their value. -/
theorem Memory.read_writeN_other (m : List Host.Cell) (a x : Nat) (d : List Byte) (hx : x < a ∨ a + d.length ≤ x) :
    Memory.read (Memory.writeN m a d) x = Memory.read m x := by
  induction d generalizing m a with
  | nil => rfl
  | cons b r ih =>
    simp only [List.length_cons] at hx
    simp only [Memory.writeN]
    rw [ih _ _ (by omega), Memory.read_write_other _ _ _ _ (by omega)]

/-- Byte `i` of the range written is byte `i` of the data. -/
theorem Memory.read_writeN_same (m : List Host.Cell) (a i : Nat) (d : List Byte) (h : Memory.wf m = true) (hi : i < d.length) :
    Memory.read (Memory.writeN m a d) (a + i) = d[i] := by
  induction d generalizing m a i with
  | nil => simp at hi
  | cons b r ih =>
    simp only [Memory.writeN]
    cases i with
    | zero =>
      rw [Memory.read_writeN_other _ _ _ _ (by omega)]
      exact Memory.read_write_same m a b h
    | succ i =>
      have := ih (Memory.write m a b) (a + 1) i (Memory.write_wf m a b h) (by simpa using hi)
      simpa [Nat.add_assoc, Nat.add_comm 1 i] using this

@[simp] theorem Memory.length_readN (m : List Host.Cell) (a n : Nat) : (Memory.readN m a n).length = n := by simp [Memory.readN]

/-- Reading the range written gives the data. -/
theorem Memory.readN_writeN (m : List Host.Cell) (a : Nat) (d : List Byte) (h : Memory.wf m = true) :
    Memory.readN (Memory.writeN m a d) a d.length = d := by
  apply List.ext_getElem (by simp)
  intro i h1 h2
  simp only [Memory.readN, List.getElem_map, List.getElem_range]
  exact Memory.read_writeN_same m a i d h h2

theorem Memory.zero_wf (m : List Host.Cell) (lo hi : Nat) (h : Memory.wf m = true) : Memory.wf (Memory.zero m lo hi) = true :=
  tabClear_wf _ m lo hi h

theorem Memory.read_zero (m : List Host.Cell) (lo hi a : Nat) :
    Memory.read (Memory.zero m lo hi) a = if lo ≤ a ∧ a < hi then 0 else Memory.read m a := tabGet_tabClear _ m lo hi a

/-- Memories in canonical form that read alike are equal data. -/
theorem Memory.wf_ext (m n : List Host.Cell) (hm : Memory.wf m = true) (hn : Memory.wf n = true)
    (h : ∀ a, Memory.read m a = Memory.read n a) : m = n := tabWf_ext _ m n hm hn h

/-! ### The operations of the state that move data -/

@[simp] theorem State.dramRequest_mem (s : State) (port pa n : Nat) (w : Bool) (d : List Byte) (wb : Bool) :
    (s.dramRequest port pa n w d wb).mem = s.mem := rfl

/-- What a read may touch: the DRAM controller, the numbers of its requests, and what a record touches. -/
def ReadFrame (s u : State) : Prop :=
  u = { s with
    threads := u.threads, queues := u.queues, host := u.host, err := u.err, dram := u.dram, nextOp := u.nextOp }

theorem ReadFrame.refl (s : State) : ReadFrame s s := rfl

theorem ReadFrame.trans {s u v : State} (h : ReadFrame s u) (k : ReadFrame u v) : ReadFrame s v := by
  rw [ReadFrame] at *
  rw [k, h]

theorem ReadFrame.mem {s u : State} (h : ReadFrame s u) : u.mem = s.mem := by
  rw [ReadFrame] at h
  rw [h]

theorem ReadFrame.bufs {s u : State} (h : ReadFrame s u) : u.bufs = s.bufs := by
  rw [ReadFrame] at h
  rw [h]

theorem ReadFrame.plan {s u : State} (h : ReadFrame s u) : u.plan = s.plan := by
  rw [ReadFrame] at h
  rw [h]

theorem State.report_readFrame (s : State) (c b i : Nat) : ReadFrame s (s.report c b i) := by
  rw [ReadFrame, State.report_frame]

theorem State.modDram_readFrame (s : State) (f : Dram → Dram) : ReadFrame s (s.modDram f) := rfl

theorem State.modSub_readFrame (s : State) (n : Nat) (f : SubCh → SubCh) : ReadFrame s (s.modSub n f) := rfl

theorem State.dramRequest_readFrame (s : State) (port pa n : Nat) (w : Bool) (d : List Byte) (wb : Bool) :
    ReadFrame s (s.dramRequest port pa n w d wb) := rfl

theorem State.burstError_readFrame (s : State) (pa : Nat) (b : BurstBad) : ReadFrame s (s.burstError pa b) := by
  cases b <;> exact (State.modSub_readFrame s _ _).trans (State.report_readFrame _ _ _ _)

theorem State.readErrors_readFrame (s : State) (pa : Nat) (errs : List SymErr) : ReadFrame s (s.readErrors pa errs) := by
  simp only [State.readErrors]
  split
  · exact (State.modSub_readFrame s _ _).trans ((State.modDram_readFrame _ _).trans (State.burstError_readFrame _ _ _))
  · split
    · exact State.modSub_readFrame s _ _
    · split
      · exact (State.modSub_readFrame s _ _).trans ((State.modSub_readFrame _ _ _).trans (State.report_readFrame _ _ _ _))
      · exact State.modSub_readFrame s _ _

theorem State.meetBurst_readFrame (s : State) (a : Nat) : ReadFrame s (s.meetBurst a) := by
  simp only [State.meetBurst]
  split
  · exact State.burstError_readFrame _ _ _
  · exact State.readErrors_readFrame _ _ _
  · exact .refl _

theorem State.writeBack_readFrame (s : State) (a : Nat) : ReadFrame s (s.writeBack a) := by
  simp only [State.writeBack]
  split
  · exact .refl _
  · exact .refl _

theorem State.meetErrors_readFrame (s : State) (pa n : Nat) : ReadFrame s (s.meetErrors pa n) := by
  simp only [State.meetErrors]
  generalize s.dram.suspects pa n = l
  induction l generalizing s with
  | nil => exact .refl _
  | cons a l ih => exact ((State.meetBurst_readFrame _ _).trans (State.writeBack_readFrame _ _)).trans (ih _)

theorem State.meetFirst_readFrame (s : State) (l : List Nat) : ReadFrame s (s.meetFirst l).1 := by
  induction l generalizing s with
  | nil => exact .refl _
  | cons a l ih =>
    simp only [State.meetFirst]
    have h := (State.meetBurst_readFrame s a).trans (State.writeBack_readFrame _ a)
    split
    · exact h
    · exact h.trans (ih _)

/-- Everything that a read may touch. -/
theorem State.readDram_readFrame (s : State) (pa n port : Nat) : ReadFrame s (s.readDram pa n port).1 :=
  (State.dramRequest_readFrame _ _ _ _ _ _ _).trans (State.meetErrors_readFrame _ _ _)

theorem State.readMarks_readFrame (s : State) (pa n port : Nat) : ReadFrame s (s.readMarks pa n port).1 :=
  (State.dramRequest_readFrame _ _ _ _ _ _ _).trans (State.meetErrors_readFrame _ _ _)

theorem State.readUntil_readFrame (s : State) (pa n port : Nat) : ReadFrame s (s.readUntil pa n port).1 :=
  (State.dramRequest_readFrame _ _ _ _ _ _ _).trans (State.meetFirst_readFrame _ _)

/-- A read leaves memory as it is. -/
@[simp] theorem State.readDram_mem (s : State) (pa n port : Nat) : (s.readDram pa n port).1.mem = s.mem :=
  (State.readDram_readFrame s pa n port).mem

/-- A range with no error and no uncorrectable burst reads its bytes, and only its request is new. -/
theorem State.readDram_clean (s : State) (pa n port : Nat) (h : s.dram.suspects pa n = []) :
    s.readDram pa n port = (s.dramRequest port pa n false, some (Memory.readN s.mem pa n)) := by
  have hs : (s.dramRequest port pa n false).dram.suspects pa n = [] := h
  have hm : (s.dramRequest port pa n false).meetErrors pa n = s.dramRequest port pa n false := by
    simp only [State.meetErrors, hs, List.foldl_nil]
  simp [State.readDram, hm, Dram.badIn, hs]

theorem State.mergeRead_readFrame (s : State) (pa n b port : Nat) : ReadFrame s (s.mergeRead pa n b port) := by
  simp only [State.mergeRead]
  split <;> exact .refl _

theorem State.burstOut_readFrame (s : State) (b port : Nat) : ReadFrame s (s.burstOut b port) := by
  simp only [State.burstOut]
  split <;> exact .refl _

/-- A burst keeps its bytes or takes those of the write (R551). -/
theorem State.writeBurst_mem (s : State) (pa : Nat) (d : List Byte) (b : Nat) :
    (s.writeBurst pa d b).mem = s.mem ∨ ∃ lo part, (s.writeBurst pa d b).mem = Memory.writeN s.mem lo part := by
  simp only [State.writeBurst]
  split
  · exact .inr ⟨_, _, rfl⟩
  · split
    · exact .inl (State.meetBurst_readFrame s b).mem
    · exact .inr ⟨_, _, by rw [(State.meetBurst_readFrame s b).mem]⟩

theorem State.writeBurst_wf (s : State) (pa : Nat) (d : List Byte) (b : Nat) (h : Memory.wf s.mem = true) :
    Memory.wf (s.writeBurst pa d b).mem = true := by
  obtain e | ⟨_, _, e⟩ := State.writeBurst_mem s pa d b <;> rw [e]
  · exact h
  · exact Memory.writeN_wf _ _ _ h

theorem State.writeBursts_wf (l : List Nat) (f : Nat → Nat) (s : State) (pa : Nat) (d : List Byte) (h : Memory.wf s.mem = true) :
    Memory.wf (l.foldl (fun v i => v.writeBurst pa d (f i)) s).mem = true := by
  induction l generalizing s with
  | nil => exact h
  | cons i r ih => exact ih _ (State.writeBurst_wf s pa d _ h)

/-- A write into DRAM keeps the canonical form. -/
theorem State.writeDram_wf (s : State) (pa : Nat) (d : List Byte) (port : Nat) (h : Memory.wf s.mem = true) :
    Memory.wf (s.writeDram pa d port).mem = true := by
  unfold State.writeDram
  split
  · exact h
  · extract_lets n first last s1 s2 s3 ends s4 lo hi s5
    have h1 : s1.mem = s.mem := (State.mergeRead_readFrame _ _ _ _ _).mem
    have h2 : s2.mem = s1.mem := by
      simp only [s2]
      split
      · rfl
      · exact (State.mergeRead_readFrame _ _ _ _ _).mem
    have h3 : Memory.wf s3.mem = true := State.writeBursts_wf _ _ _ _ _ (by rw [h2, h1]; exact h)
    have h4 : s4.mem = s3.mem := by
      simp only [s4]
      split
      · rfl
      · exact (State.burstOut_readFrame _ _ _).mem
    have h5 : s5.mem = s4.mem := by
      simp only [s5]
      split <;> rfl
    split
    · rw [h5, h4]; exact h3
    · rw [(State.burstOut_readFrame _ _ _).mem, h5, h4]; exact h3

/-- A write into a buffer keeps the canonical form. -/
theorem State.writeBuf_wf (s : State) (h off : Nat) (d : List Byte) (port : Nat) (hw : Memory.wf s.mem = true) :
    Memory.wf (s.writeBuf h off d port).mem = true := by
  simp only [State.writeBuf]
  split
  · exact hw
  · exact State.writeDram_wf s _ d port hw

/-- Freeing a range gives it to the zeroing engine; its bytes stay until they are rewritten. -/
@[simp] theorem State.freeRange_mem (s : State) (b : Buf) : (s.freeRange b).mem = s.mem := rfl

/-- A job that the zeroing engine ends reads as zeros (R320). -/
theorem State.endZeroing_wf (s : State) (j : ZeroJob) (h : Memory.wf s.mem = true) : Memory.wf (s.endZeroing j).mem = true :=
  Memory.zero_wf _ _ _ h

@[simp] theorem State.release_mem (s : State) (k : Nat) : (s.release k).mem = s.mem := by
  simp only [State.release]
  split <;> rfl

/-! ### Uncorrectable bursts -/

/-- With no uncorrectable burst listed and no epoch entry lost, every burst reads. -/
theorem Dram.burstBad_none (d : Dram) (h : d.bad = []) (k : d.epochUe = []) (a : Nat) : d.burstBad a = none := by
  simp [Dram.burstBad, h, k, tabFind]

/-- With no symbol errors either, no burst of any range is suspect. -/
theorem Dram.suspects_none (d : Dram) (h : d.bad = []) (f : d.faults = []) (k : d.epochUe = []) (a n : Nat) : d.suspects a n = [] := by
  simp [Dram.suspects, h, f, k]

end Sys2Proof.Machine
end

