-- ==== Sys2Proof/Laws/Ops.lean ====
section
/-! SUPPORT. What the shared operations do under the conditions of Safety: an instruction that can issue runs, one whose unit is
free starts at once, an order that no higher level overrules takes effect. -/

namespace Sys2Proof.Machine

/-- A step takes the front command. -/
theorem step_cons (s : State) (c : Instr) (r : List Instr) (h : s.pending = c :: r) : step s = exec c { s with pending := r } := by
  simp only [step, h]

/-- An instruction that can issue runs (R217). -/
theorem issue_run (s : State) (t : Tid) (k : State → State) (h : s.canIssue t 1) : s.issue t 1 k = k s := by
  obtain ⟨h1, h2, h3⟩ := h
  simp only [State.issue, h1, h2]
  simp [Nat.not_lt.2 h3]

/-- A two-word instruction that can issue runs (R243). -/
theorem issue_run_two (s : State) (t : Tid) (k : State → State) (h : s.canIssue t 2) : s.issue t 2 k = k s := by
  obtain ⟨h1, h2, h3⟩ := h
  have h4 : ¬s.progLen t < (s.thread t).pc + 8 := by omega
  have h5 : ¬s.progLen t < (s.thread t).pc + 16 := by omega
  simp only [State.issue, h1, h2]
  simp [h4, h5]

/-- A thread that is not RUNNING issues nothing (R217). -/
theorem issue_idle (s : State) (t : Tid) (n : Nat) (k : State → State) (h : (s.thread t).st ≠ .running) : s.issue t n k = s := by
  simp [State.issue, h]

/-- While the sequencer is stopped nothing issues (R480, R508, R532). -/
theorem issue_stopped (s : State) (t : Tid) (n : Nat) (k : State → State) (h : s.sequencing = false) : s.issue t n k = s := by
  simp [State.issue, h]

/-- Everything that an issue can answer: nothing, a fetch fault at either word, the instruction's own effect. -/
theorem issue_cases (s : State) (t : Tid) (n : Nat) (k : State → State) :
    s.issue t n k = s ∨ s.issue t n k = s.faultAt t .state 0x03 (s.thread t).pc ∨
      s.issue t n k = s.faultAt t .state 0x03 ((s.thread t).pc + 8) ∨ s.issue t n k = k s := by
  simp only [State.issue, State.fault]
  split
  · exact .inl rfl
  · split
    · exact .inr (.inl rfl)
    · split
      · exact .inr (.inr (.inl rfl))
      · exact .inr (.inr (.inr rfl))

theorem wakeDram_awake (s : State) (u : Use) (h : (u.handles = [] ∧ u.dram = false) ∨ s.dram.sr = .out) : s.wakeDram u = (s, false) := by
  simp only [State.wakeDram]
  rcases h with h | h
  · rw [if_pos ⟨h.1, by simp [h.2]⟩]
  · split
    · rfl
    · rw [h]

/-- Nothing before it holds back an operation registered last, when no earlier one does. -/
theorem sbBlocked_last (l : List SbOp) (o : SbOp) (h : ∀ e ∈ l, e.op < o.op ∧ o.waitsFor e = false) :
    sbBlocked (l ++ [o]) o.op = false := by
  have hf : (l ++ [o]).find? (·.op == o.op) = some o := by
    rw [List.find?_append, List.find?_eq_none.2 fun e he => by simpa using (h e he).1.ne]
    simp
  have ht : (l ++ [o]).takeWhile (·.op != o.op) = l := by
    rw [List.takeWhile_append_of_pos fun e he => by simpa using (h e he).1.ne]
    simp
  simp only [sbBlocked, hf, ht]
  rw [List.any_eq_false]
  intro e he
  simp [(h e he).2]

/-- An operation whose unit is free starts on the state that has registered it (R227, R230, R252). -/
theorem startUnit_free (s : State) (t : Tid) (i : Instr) (u : Use) (k : State → State) (h : s.unitFree t u) :
    s.startUnit t i u k = k (s.registered t u) := by
  obtain ⟨h1, h2, h3, h4⟩ := h
  have hb : sbBlocked (s.sboard ++ [s.newOp t u]) (s.newOp t u).op = false := sbBlocked_last _ _ h3
  have hw : (s.registered t u).wakeDram u = (s.registered t u, false) := wakeDram_awake _ _ h4
  simp only [State.startUnit, h1]
  rw [h2]
  simp only [Bool.false_eq_true, if_false]
  change (if ((s.registered t u).wakeDram u).2 || sbBlocked ((s.registered t u).wakeDram u).1.sboard s.nextOp
    then ((s.registered t u).wakeDram u).1.hold t i else k ((s.registered t u).wakeDram u).1) = _
  rw [hw]
  have : sbBlocked (s.registered t u).sboard s.nextOp = false := hb
  simp [this]

/-- An order of a thread takes effect when no higher level holds its resource (R236). -/
theorem hostOrder_free (s : State) (t : Tid) (r : Resource) (op : Nat) (k : State → State) (h : s.higher r .host = none) :
    s.hostOrder t r op k = k s := by
  simp only [State.hostOrder, h]

/-- … and so does a group command (R236). -/
theorem groupOrder_free (s : State) (r : Resource) (op : Nat) (k : State → State) (h : s.higher r .group = none) :
    s.groupOrder r op k = k s := by
  simp only [State.groupOrder, h]

/-- Replacing a thread moves that thread alone. -/
theorem threadTo_setThread (s : State) (t : Tid) (x : Thread) : ThreadTo s (s.setThread t x) t x :=
  ⟨by simp, fun v hv => by simp [hv]⟩

/-- A unit instruction that starts and completes later moves its own thread alone. -/
theorem threadTo_toUnit (s : State) (t : Tid) (w : IWord) (d : Option Done) :
    ThreadTo s (s.toUnit t w d) t ((s.thread t).atUnit w d) := threadTo_setThread s t _

theorem ThreadTo.trans_of_eq {s u v : State} {t : Tid} {x : Thread} (h : ThreadTo s u t x) (e : v.threads = u.threads) :
    ThreadTo s v t x := by
  have k : ∀ n, v.thread n = u.thread n := fun n => by simp only [State.thread, e]
  exact ⟨(k t).trans h.1, fun n hn => (k n).trans (h.2 n hn)⟩

/-- An item that fits joins the published items; one that does not counts in LOST (R296). -/
theorem push_fits (q : Queue) (i : List Byte) (h : itemSpace i ≤ q.space) (m : q.wmark = false) :
    q.push i = { q with wpos := q.ahead q.wpos (itemSpace i), tags := q.tags ++ [false], ready := q.ready ++ [i] } := by
  simp [Queue.push, Queue.add, h, m]

theorem push_lost (q : Queue) (i : List Byte) (h : q.space < itemSpace i) : q.push i = { q with lost := q.lost.bump } := by
  simp [Queue.push, Nat.not_le.2 h]

end Sys2Proof.Machine
end

