-- ==== Sys2Proof/WellFormed.lean ====
section
/-! DEFINITION. Well-formed commands: the bits an instruction does not use are 0 (R242) and its FN selects the row's function;
the bytes and readings of the other commands have the lengths the spec gives them. The machine runs ill-formed
instructions too, since it ignores the unused bits (R242). -/

namespace Sys2Proof

/-- The fields that an instruction's entry uses: RD, RA, RB, RC, the FN bits and their fixed value, the IMM bits. -/
structure Uses where
  rd : Bool := false
  ra : Bool := false
  rb : Bool := false
  rc : Bool := false
  /-- FN bits that are options -/
  fn : BitVec 8 := 0
  /-- value of the FN bits that select the row -/
  sel : BitVec 8 := 0
  imm : BitVec 32 := 0
  /-- the instruction has a two-word form (R243) -/
  ext : Bool := false

/-- An instruction word keeps to its entry (R242, R243). -/
def IWord.keeps (w : IWord) (u : Uses) : Bool :=
  (u.rd || w.rd == 0) && (u.ra || w.ra == 0) && (u.rb || w.rb == 0) && (u.rc || w.rc == 0)
    && (w.fn &&& ~~~u.fn == u.sel) && (w.imm &&& ~~~u.imm == 0)
    && ((u.ext && w.fn.getLsbD 2) || w.ext == 0)

/-- The three-operand arithmetic form of Table 10-8. -/
def Uses.arith : Uses := { rd := true, ra := true, rb := true, fn := 5, imm := 0xFFFFFFFF, ext := true }

/-- A queue operation of Table 10-25. -/
def Uses.queue : Uses := { rd := true, fn := 1, imm := 0x3F }

/-- The command is well formed. -/
def Instr.wf : Instr → Bool
  | .add _ w | .sub _ w | .and _ w | .or _ w | .xor _ w | .shl _ w => w.keeps .arith
  | .shr _ w => w.keeps { Uses.arith with fn := 7 }
  | .movi _ w => w.keeps { rd := true, fn := 4, imm := 0xFFFFFFFF, ext := true }
  | .cmp _ w => w.keeps { Uses.arith with rd := false }
  | .br _ w | .call _ w => w.keeps { imm := 0xFFFFFFFF }
  | .brc _ w => w.keeps { fn := 0x0F, imm := 0xFFFFFFFF }
  | .ret _ w | .halt _ w | .int _ w => w.keeps {}
  | .loop _ w => w.keeps { rd := true, imm := 0xFFFFFFFF }
  | .waitline _ w => w.keeps { rd := true, rc := true, fn := 0x87, imm := 0xFFFF }
  | .waittime _ w => w.keeps { rd := true, ra := true, rc := true, fn := 0x80 }
  | .waitevt _ w => w.keeps { rd := true, rc := true, fn := 0x80, imm := 0xFFFFFFFF }
  | .waitq _ w => w.keeps { rd := true, ra := true, rc := true, fn := 0x83, imm := 0x3F }
  | .ld _ w _ => w.keeps { rd := true, ra := true, imm := 0xFFFFFFFF }
  | .st _ w => w.keeps { ra := true, rb := true, imm := 0xFFFFFFFF }
  | .ldh _ w => w.keeps { rd := true, ra := true, rb := true, fn := 3, imm := 0xFFFFFFFF }
  | .sth _ w => w.keeps { ra := true, rb := true, rc := true, fn := 3, imm := 0xFFFFFFFF }
  | .balloc _ w => w.keeps { rd := true, ra := true, rc := true, fn := 3 }
  | .bfree _ w | .bseal _ w | .spause _ w => w.keeps { rd := true, ra := true }
  | .binfo _ w => w.keeps { rd := true, ra := true, rb := true, fn := 0x13, imm := 0xFFFFFFFF }
  | .planchk _ w => w.keeps { rd := true, ra := true, rb := true, imm := 0xFFFFFFFF }
  | .plancommit _ w => w.keeps { rd := true, ra := true, rb := true, fn := 0xC1, imm := 0x00FFF000 }
  | .planslotLoad _ w => w.keeps { rd := true, ra := true, rb := true, imm := 0xFFFFFFFF }
  | .planslotFree _ w => w.keeps { rd := true, ra := true, sel := 1 }
  | .planslotState _ w => w.keeps { rd := true, ra := true, rc := true, sel := 2 }
  | .planslotStatus _ w => w.keeps { rd := true, rb := true, sel := 3, imm := 0xFFFFFFFF }
  | .sattach _ w => w.keeps { rd := true, ra := true, imm := 0xFFF }
  | .sattachDetach _ w => w.keeps { rd := true, ra := true, sel := 1, imm := 0xFFF }
  | .sseek _ w | .splay _ w => w.keeps { rd := true, ra := true, rb := true, rc := true }
  | .blt _ w => w.keeps { rd := true, ra := true, fn := 0x80, imm := 0xFFFFFF }
  | .crcset _ w => w.keeps { rd := true, ra := true, fn := 7, imm := 0xFFF }
  | .crcrun _ w => w.keeps { rd := true, ra := true, rb := true, rc := true, fn := 0x87, imm := 0xFFF000 }
  | .crcget _ w => w.keeps { rd := true, rc := true, fn := 0x0F }
  | .crcput _ w => w.keeps { rd := true, rb := true, fn := 7 }
  | .fsend _ w => w.keeps { rd := true, ra := true, rb := true, rc := true, fn := 3, imm := 0xFFF }
  | .fgroup _ w => w.keeps { rd := true, ra := true, rb := true, imm := 0xFFF }
  | .ftime _ w => w.keeps { rd := true, rc := true, fn := 1 }
  | .ppowerUp _ w _ _ _ | .plightOn _ w | .pselfEnter _ w => w.keeps { rd := true, sel := 1 }
  | .ppowerDown _ w | .plightOff _ w | .pselfExit _ w | .trimapply _ w => w.keeps { rd := true }
  | .pclear _ w | .pupdate _ w => w.keeps { rd := true, ra := true, rb := true }
  | .pmbx _ w tries => w.keeps { rd := true, ra := true, imm := 0xFFF } && decide (tries.length ≤ 3)
  | .qmark _ w | .qrewind _ w | .qrelease _ w | .qflush _ w => w.keeps .queue
  | .tgset _ w => w.keeps { rd := true, ra := true, fn := 3, imm := 0xFFF }
  | .tgaddr _ w => w.keeps { rd := true, ra := true, rb := true, rc := true }
  | .aset _ w => w.keeps { rd := true, ra := true, imm := 0xFFF }
  | .trimstage _ w _ => w.keeps { rd := true, ra := true, fn := 1, imm := 0xFFF }
  | .tread _ w => w.keeps { rd := true, ra := true, rc := true, fn := 1 }
  | .svcRemove _ w => w.keeps { rd := true, ra := true, rb := true }
  | .svcReturn _ w => w.keeps { rd := true, ra := true, sel := 1 }
  | .svcState _ w => w.keeps { rd := true, ra := true, rc := true, sel := 2 }
  | .svcRestart _ w => w.keeps { rd := true, ra := true, sel := 3 }
  | .svcLaunch _ w => w.keeps { rd := true, ra := true, sel := 4, imm := 0xFFF }
  | .svcQpost _ w _ => w.keeps { rd := true, ra := true, rb := true, rc := true, sel := 5, imm := 0xFFFFFFFF }
  | .svcQtake _ w _ => w.keeps { rd := true, ra := true, rb := true, rc := true, sel := 6, imm := 0xFFFFFFFF }
  | .svcQsub _ w => w.keeps { rd := true, ra := true, sel := 7, imm := 1 }
  | .bist _ w _ => w.keeps { rd := true, ra := true, fn := 0x81, imm := 0xFFF000 }
  | .signal _ w => w.keeps { imm := 0xFFFF00FF }
  | .haltCompletion _ | .waitSatisfied _ | .waitTimeout _ | .unitInstructionCompletion _ | .threadLaunch _
  | .asyncOperationCompletion _ _ | .granuleZeroingDone _ _ | .scoreboardRelease _ => true
  | .bufferRelease h => h != 0
  | .dbRestart v => v &&& 0xFFFFFF00 == 0
  | .dbSignal v => v &&& 0x0000FF00 == 0
  | .intCauseClear _ => true
  | .flashRead v => bitsOp v == 0
  | .flashErase v => bitsOp v == 1
  | .flashProgram v => bitsOp v == 2
  | .flashOperationDone _ => true
  | .registerWrite _ d => decide (1 ≤ d.length ∧ d.length ≤ 8)
  | .queueDataWrite _ d | .queueEndWrite _ d _ => decide (1 ≤ d.length ∧ d.length ≤ 1048576)
  | .queuePop _ | .itemBaseWrite _ _ | .queueStatusClear _ _ => true
  | .bar4Read a n => decide (1 ≤ n ∧ n ≤ 4096 ∧ a.toNat + n ≤ 68719476736)
  | .bar4Write a d => decide (1 ≤ d.length ∧ d.length ≤ 512 ∧ a.toNat + d.length ≤ 68719476736)
  | .porN _ | .sysRstN _ | .coldBoot _ | .perstN | .functionLevelReset | .vddAoUndervoltage _ | .pfailResponse
  | .pfailNRelease | .pgdLoss _ | .crackCheck _ _ | .driverReadback _ _ | .laneStatPoll _ _ | .huReady | .huReadyClear => true
  | .noticeInSample _ | .noticeInAsserted _ | .noticeInDeasserted _ | .refInEdge _ | .refInLoss _ | .framePeriodStart _
  | .tg0LineStart _ | .tgFrameStart _ | .selfRefreshEntryPoint | .scanoutLineFetch | .frameEndChecks
  | .packageExpansionDone | .ingestItem _ | .ingestResume _ | .fabricClsMove _ | .documentFragment _
  | .documentReassemblyTimeout _ | .keyGrant | .decodeStart _ | .decoderDispatch _ | .groupRegistration _
  | .decodePacketDone _ | .cullPassStart | .ringFillLine _ _ | .galleryRowStart _ _ | .weaveRowRelease
  | .cellFault _ _ | .captureTileRow _ _ | .cacheTileRowDecode | .pipelineReadTorn _ | .blitDescriptorStart | .blitGateOpen
  | .blitRowComplete | .blitComplete | .dramCommandSlot _ _ | .urgencyRise _ | .refreshDue _ | .zqCalibration
  | .rowIdleClose _ _ | .alertN _ | .dramSelfRefreshEntry | .dramSelfRefreshExit => true
  | .mr4Read r => r.length == 16
  | .fabricTrainingAttempt _ | .fabricTrained _ _ _ _ | .fabricTrainingTimeout _ _ | .backoffExpiry _ | .fabricBeacon _
  | .partnerDetected _ | .authFrame _ _ | .authTimeout _ | .fabricLaneLoss _ _ | .fabricRetrainDone _ _ _ => true
  | .fabricFrameReceive _ f => f.payload.length == f.hdr.len.toNat
  | .fabricTransmitOpportunity _ _ _ | .fabricSlotStart _ _ | .cometTimer | .planetTimeout | .groupCommit | .groupPlay
  | .groupSeek | .groupPause | .groupLight | .groupSelf | .groupSignal | .groupRoute | .groupRelease
  | .audioSampleFrame _ | .audioRefEdge _ | .audioRefLoss _ | .aes3InputFrame _ _ => true
  | .sensorSample r => r.length == 28
  | .tripRestart _ _ | .lifetimeTick | .lifetimeStore | .flashWindowOpen | .watchdogExpiry _ | .interconnectUe _
  | .keyWordUe _ _ | .pgdChange _ _ | .dqsOscillatorTracking | .refusedPortLockLoss _ | .pcieLinkChange _
  | .tapInstruction _ | .flashRecordWriteDone _ => true
where
  /-- FLASH_CMD.OP, bits [15:14] (Table 22-5). -/
  bitsOp (v : BitVec 32) : Nat := v.toNat / 16384 % 4

end Sys2Proof
end

