-- ==== Sys2Proof/Tests/Slice0.lean ====
section
/-! SUPPORT. Tests: the spec's worked examples, the WellFormed smoke with a term each check refuses, single steps of the machine, and for
every statement with hypotheses a concrete state and operands that meet them (names test_hyps_…). The expected values come from the spec's
examples and tables or from hand calculation after its rules. A clause that needs an opaque cryptographic function of
Config to accept (a key grant, a certificate chain) has no witness here: nothing evaluates it. Theorems are elaborated one after another (Elab.async false): a thread a theorem
would exceed the memory limit. -/

open Sys2Proof Sys2Proof.Machine
namespace Sys2Proof.Tests

set_option Elab.async false

/-! ### Examples of the spec -/

/-- Bytes as the spec's examples print them. -/
def hex (l : List Nat) : List Byte := l.map (BitVec.ofNat 8)

/-- Table 02-5: the positions of the ray of pixel (5,000, 3,210) in three layers. -/
theorem test_ray_positions :
    [layerPos 5120 0 (-1664) (-512) 312, layerPos 5120 0 0 (-512) 312, layerPos 6144 896 5197 (-512) 312] = [25020, 24968, 30030] ∧
      [layerPos 5120 0 (-1664) 1280 200, layerPos 5120 0 0 1280 200, layerPos 6144 (-576) 5197 1280 200] = [15878, 16008, 19478] ∧
      [tapOf 25020, tapOf 30030, tapOf 15878, tapOf 19478] = [(387, 60), (466, 14), (245, 6), (301, 22)] := by decide +kernel

/-- The ray near the edge (02): x64 = −200, taps −7 to 0, phase 56. -/
theorem test_ray_near_edge : layerPos 5120 0 (-1664) 2048 0 = -200 ∧ tapOf (-200) = (-7, 56) := by decide +kernel

/-- Hogel, view index and panel pixel of the first example of 02, with both flips. -/
theorem test_view_index :
    pixelOf { hh := 16, hv := 16, nhx := 1024, nhy := 1024, flipU := true, flipV := true } 312 200 87 = (5000, 3210) := by
  decide +kernel

/-- Table 03-7: the header of a FRAME_START. -/
theorem test_cls_header :
    let b := hex [0x5A, 0xC1, 0x01, 0x02, 0x01, 0x00, 0x49, 0x01, 0x21, 0x00, 0x20, 0x1C, 0, 0, 0, 0xFF, 0x20, 0, 0, 3, 0xC3, 0x00, 0x17,
      0x5A, 0x40, 0x2B, 0x01, 0, 0, 0, 0, 0, 0x2E, 0x1A, 0x04, 0, 0, 0, 0, 0, 0, 0, 0, 0]
    let h := clsOf (b ++ leBytes 4 (crc32c b))
    h.sync = 0xC15A ∧ h.ver = 1 ∧ h.ty = 2 ∧ h.bcast = false ∧ h.landing = true ∧ h.node = 5 * 64 + 9 ∧ h.clip = 0x21 ∧ h.frame = 7200 ∧
      h.layer = 255 ∧ h.len = 32 ∧ h.slot = 3 ∧ h.seq = 0x41A2E ∧ h.rsvd = false ∧ h.crcOk = true := by decide +kernel

/-- The PRED edge tile of 04: tile 1,680 of a layer of 1,282 × 1,282 samples. -/
theorem test_pred_tile :
    (decodeRecord false false 1282 1282 (tileRect 1282 1282 1680) (fun _ _ => 0)
      (hex [0x15, 0, 0x14, 0, 0x04, 0x80, 0xFB, 0xFB, 0xFB, 0xFF, 0xFF, 0xFF, 0x7F, 0xF1, 0x08, 0x40, 0, 0x14, 0xA5, 0, 0x08, 0x88, 0, 0])).toOption.map
        (·.samples) = some [0xFFF7D07D07D0, 0xFFF7D87D87D8, 0xFFF7C47C47C4, 0xFFF7D47D47D4] := by decide +kernel

/-- The PAL tile of 04: tile 11 of a layer of 100 × 66 samples. -/
theorem test_pal_tile :
    let white := 0xFFFFFFFFFFFF
    let grey := 2048 * 2 ^ 36 + 1024 * 2 ^ 24 + 1024 * 2 ^ 12 + 1024
    (decodeRecord false false 100 66 (tileRect 100 66 11) (fun _ _ => 0)
      (hex [0x04, 0, 0x15, 0, 0x20, 0, 0, 0, 0, 0, 0x0F, 0xFF, 0xFF, 0xFF, 0xFF, 0xFF, 0xF4, 0, 0x40, 0x04, 0, 0x80, 0x01, 0x69, 0x40])).toOption.map
        (·.samples) = some [0, white, white, grey, grey, white, white, 0] := by decide +kernel

/-- Table 05-1: the filtered sample (2,000, 0, 0, 2,000). -/
theorem test_filtered_sample :
    let row : Nat → Nat := fun t => (if 3 ≤ t then 2000 else 0) + (if t = 2 then 2000 * 4096 else 0) + 2000 * 2 ^ 36
    filterSample [-8, 36, -100, 304, 876, -96, 20, -8] [0, 0, 0, 1024, 0, 0, 0, 0] (fun t r => if r = 3 then row t else 0) =
      { r := 2000, g := 0, b := 0, a := 2000 } := by decide +kernel

/-- The bank bytes of the filter example (R104). -/
theorem test_bank_bytes :
    let b := hex [0xF8, 0xFF, 0x24, 0, 0x9C, 0xFF, 0x30, 0x01, 0x6C, 0x03, 0xA0, 0xFF, 0x14, 0, 0xF8, 0xFF]
    (bankOf (List.replicate 768 0 ++ b ++ List.replicate 240 0)).1.getD 48 [] = [-8, 36, -100, 304, 876, -96, 20, -8] := by
  decide +kernel

/-- A layer of Table 05-4. -/
def layer544 (d : Int) : Plan :=
  { hh := 1, hv := 2, nhx := 1, nhy := 1024, layers := [{ w := 1280, h := 1280, s := 5120, d := d, en := true }], views := [(0, -1920), (0, 1920)] }

/-- Table 05-4: windows of three layers. -/
theorem test_ring_windows :
    let lo := fun (d : Int) (h : Nat) => ((layer544 d).window { s := 5120, d := d } h).1
    let hi := fun (d : Int) (h : Nat) => ((layer544 d).window { s := 5120, d := d } h).2
    (lo (-1664) 7, hi (-1664) 8) = (2, 17) ∧ (lo 5120 20, hi 5120 21) = (12, 39) ∧ (lo 24576 103, hi 24576 104) = (80, 179) := by
  decide +kernel

/-- Table 05-4: REQ_LINES of two layers. -/
theorem test_ring_lines : ((layer544 (-1664)).ringLines 0, (layer544 5120).ringLines 0) = (16, 28) := by decide +kernel

/-- The footprint boxes of the cull example of 05, at block column 10. -/
theorem test_footprint_box :
    let p := fun d : Int => ({ nhx := 1024, nhy := 1024, layers := [{ w := 1280, h := 1280, s := 5120, d := d, en := true }]
                               views := [(-1920, -1920), (1920, 1920)] } : Plan)
    (boxAxis 5120 0 (-1664) (-1920, 1920) 80 87, boxAxis 5120 0 5120 (-1920, 1920) 80 87) = ((94, 115), (87, 122)) ∧
      (p 5120).txRange = (-1920, 1920) := by decide +kernel

/-- Table 06-7: one ray through the whole stack. -/
theorem test_composition :
    let f : Nat → Sample := fun k => [⟨1000, 500, 0, 2000⟩, ⟨2000, 0, 0, 2000⟩, ⟨3000, 3000, 3000, 4095⟩].getD k default
    let deep := depthStack f [0, 1, 2] 0 {}
    (deep.1, deep.2.1) = (32768, ⟨22473, 10284, 6283⟩) ∧ background {} deep.1 deep.2.1 = ⟨22473, 10284, 6283⟩ ∧
      (coverOf 0x80808080).1.over deep.2.1 = ⟨27641, 21570, 19577⟩ := by decide +kernel

/-- The pixel of 07 through matrix, transfer table, dither and both corrections. -/
theorem test_output_chain :
    matrixRow [4300, -180, -24] 0 (27641, 21570, 19577) = 27955 ∧
      transfer (List.replicate 873 0 ++ [51200, 51260]) 27955 = 51236 ∧
      (51236 + ditherOf 1 5000 3210 0) / 16 = 3202 ∧ ditherOf 1 5000 3210 0 = 3 ∧ ditherOf 2 5000 3210 7 = 6 ∧
      correct 1 0x4B3D 3202 = 3334 ∧ correct 2 0xAF 3202 = 3338 := by decide +kernel

/-- The map address of 07: the red subpixel of pixel (5,000, 3,210) in a U16 map. -/
theorem test_map_address : mapWordAt { hh := 16, hv := 16, nhx := 1024, nhy := 1024, umapFmt := 1 } 3210 15000 = 315589936 := by
  decide +kernel

/-- The address example of 13. -/
theorem test_dram_address :
    let pa := 0x1234567A40
    (paSub pa, paBank pa, paCol pa, paRow pa, paGranule pa) = (5 * 2 + 1, 1 * 4 + 2, 41, 37282, 74565) := by decide +kernel

/-- The W-code example of 13: check value, syndromes, and the corrected word. -/
theorem test_w_code :
    let word := List.replicate 31 0 ++ [1]
    leNat (wCheck (hex word)) = 0x4078360F ∧
      syndromes (List.replicate 32 0 ++ [0x0F, 0x36, 0x78, 0x40]) = [0x01, 0x10, 0x1D, 0xCD] ∧
      wDecode (List.replicate 32 0 ++ [0x0F, 0x36, 0x78, 0x40]) = .corrected (word ++ [0x0F, 0x36, 0x78, 0x40]) := by decide +kernel

/-- The PMB frames of 16 and the CRC unit of 21: 0x0E after 0x02, then 0xF1. -/
theorem test_crc8 :
    let cfg : CuCfg := { width := 8, refin := false, refout := false, poly := 7, xorout := 0 }
    crc8 (hex [0x02, 0x44]) = 0xF1 ∧ crc8 (hex [0x03, 0x01, 0, 0]) = 0x51 ∧ cfg.feed 0 (hex [0x02]) = 0x0E ∧
      cfg.final (cfg.feed 0x0E (hex [0x44])) = 0xF1 := by decide +kernel

/-- The figures of plan A (08) that need no ring: C_row, tiles, the fetch of a line and the frame-store pitch of plan B. -/
def planA : Plan :=
  { hh := 16, hv := 16, nhx := 1024, nhy := 1024, gReq := 16, rateNum := 120, rateDen := 1, lineSym := 800, vbl := 282, umapFmt := 1
    streamMb := 8, res := [12, 4, 30, 25, 4, 4], views := [(0, -1920), (0, 1920)]
    layers := (List.range 45).map fun (k : Nat) => { w := 1280, h := 1280, s := 5120, d := 512 * (k : Int), en := true, srcStream := 0, srcLayer := k } }

theorem test_plan_a : planA.cRow = 11520 ∧ fsPitch planA.width = 73728 ∧ lineBytes 1280 = 7680 ∧ (planA.ringNeed 44 { s := 5120, d := 22528 }).1 = 92 := by
  decide +kernel

/-- The DRAM sum of plan A at 120 Hz: 311.35 GB/s. -/
theorem test_plan_a_dram : (State.reset.needs planA).2 * 120 / 8 / 10000000 = 31135 := by decide +kernel

/-- Ring blit result bits (R282): 0xCC copies the source, 0x5A is the pattern exclusive-or the destination. -/
theorem test_rop : ropByte 0xCC 0x0F 0x33 0x55 = 0x33 ∧ ropByte 0x5A 0x0F 0x33 0x55 = 0x0F ^^^ 0x55 := by decide +kernel

/-! ### Well-formedness: a term for each check that it refuses -/

/-- An instruction word. -/
def iw (rd ra rb rc : BitVec 4 := 0) (fn : BitVec 8 := 0) (imm : BitVec 32 := 0) (ext : BitVec 64 := 0) (ue : Bool := false) : IWord :=
  { rd := rd, ra := ra, rb := rb, rc := rc, fn := fn, imm := imm, ext := ext, ue := ue }

theorem test_wf_accepts :
    (Instr.add 0 (iw 1 2 3)).wf ∧ (Instr.add 0 (iw 1 2 0 0 4 0 7)).wf ∧ (Instr.movi 7 (iw 15 0 0 0 4 0 9)).wf ∧
      (Instr.halt 0 (iw)).wf ∧ (Instr.planslotFree 0 (iw 1 2 0 0 1)).wf ∧ (Instr.bufferRelease 1).wf ∧
      (Instr.bar4Read 0 4096).wf ∧ (Instr.bar4Write 68719476735 [1]).wf := by decide +kernel

/-- Unused register fields, FN bits and IMM bits are 0, and EXT is 0 in a one-word form (R242, R243). -/
theorem test_wf_refuses_unused_bits :
    ¬(Instr.halt 0 (iw 1)).wf ∧ ¬(Instr.halt 0 (iw 0 1)).wf ∧ ¬(Instr.halt 0 (iw 0 0 1)).wf ∧ ¬(Instr.halt 0 (iw 0 0 0 1)).wf ∧
      ¬(Instr.halt 0 (iw 0 0 0 0 1)).wf ∧ ¬(Instr.halt 0 (iw 0 0 0 0 0 1)).wf ∧ ¬(Instr.add 0 (iw 1 2 3 0 0 0 1)).wf ∧
      ¬(Instr.planslotFree 0 (iw 1 2)).wf ∧ ¬(Instr.bfree 0 (iw 1 2 0 0 4)).wf := by decide +kernel

/-- The operands of the other commands keep to their ranges. -/
theorem test_wf_refuses_operands :
    ¬(Instr.pmbx 0 (iw 1 2) [.nak, .nak, .nak, .nak]).wf ∧ ¬(Instr.bufferRelease 0).wf ∧ ¬(Instr.dbRestart 0x100).wf ∧
      ¬(Instr.dbSignal 0x100).wf ∧ ¬(Instr.flashRead 0x4000).wf ∧ ¬(Instr.flashErase 0).wf ∧ ¬(Instr.flashProgram 0x4000).wf ∧
      ¬(Instr.registerWrite 0 []).wf ∧ ¬(Instr.registerWrite 0 (List.replicate 9 0)).wf ∧ ¬(Instr.queueDataWrite 0 []).wf ∧
      ¬(Instr.queueEndWrite 0 [] none).wf ∧ ¬(Instr.bar4Read 0 0).wf ∧ ¬(Instr.bar4Read 0 4097).wf ∧
      ¬(Instr.bar4Read 68719476735 2).wf ∧ ¬(Instr.bar4Write 0 []).wf ∧ ¬(Instr.bar4Write 0 (List.replicate 513 0)).wf ∧
      ¬(Instr.bar4Write 68719476735 [1, 2]).wf ∧ ¬(Instr.mr4Read []).wf ∧ ¬(Instr.sensorSample []).wf := by decide +kernel

/-- A frame header with a length. -/
def fhdr (len : BitVec 12) : FabHdr := ⟨1, 2, len, 2, 1, false, false, false, true, true, false, 0, 0, 0⟩

/-- A fabric frame's payload has the length that its header says. -/
theorem test_wf_refuses_frame_length :
    ¬(Instr.fabricFrameReceive 0 ⟨false, false, false, fhdr 2, [1], 0, 0⟩).wf ∧
      (Instr.fabricFrameReceive 0 ⟨false, false, false, fhdr 1, [1], 0, 0⟩).wf := by decide +kernel

/-! ### A small running device -/

/-- A running thread on the program buffer 1. -/
def runner (g : List Reg) : Thread := { st := .running, prog := 1, g := Vector.ofFn fun i => (0 :: g).getD i.val 0 }

/-- A READY device: thread 0 runs on buffer 1 with g1 upward as given; which every thread may run; buffer 2
is thread 0's own data buffer of 64 KiB. -/
def dev (g : List Reg := []) : State :=
  { State.reset with
    boot := { stage := 8, link := true, fresh := false }
    dram := { rate := 6400, density := 16 }
    bufs := { table := [(1, { base := 0, len := 4096, owner := some 0, shared := true }), (2, { base := 0x100000, len := 65536, owner := some 0 })]
              fresh := 3 }
    threads := State.reset.threads.set 0 (runner g) }

/-- The device with thread 0 changed. -/
def devT (f : Thread → Thread) (g : List Reg := []) : State := (dev g).modThread 0 f

/-- The device is canonical and every burst reads. -/
theorem test_dev_canonical (g : List Reg) : (dev g).canonical := by
  refine ⟨rfl, fun t => ?_, rfl, rfl, ?_, ?_⟩
  · fin_cases t <;> rfl
  · show tabWf 0 ({} : HostIf).msix = true
    decide +kernel
  · show List.Pairwise _ (dev []).bufs.table
    decide +kernel

/-- One step of an `ADD` from the queue (R253). -/
theorem test_step_add :
    (match step { dev [5, 7] with pending := [.add 0 (iw 3 1 2)] } with
      | .next u => ((u.thread 0).reg 3, (u.thread 0).pc, u.pending)
      | _ => (0, 0, [])) = (12, 8, []) := by decide +kernel

/-! The conditions of Safety.lean as tests that evaluate. -/

def issues (s : State) (n : Nat := 1) : Bool :=
  s.sequencing && (s.thread 0).st == .running && decide ((s.thread 0).pc + 8 * n ≤ s.progLen 0)

theorem issues_iff (s : State) (n : Nat) : issues s n = true ↔ s.canIssue 0 n := by
  simp [issues, State.canIssue, and_assoc]

def frees (s : State) (u : Use := {}) : Bool :=
  (s.syncOp 0).isNone && !s.full 0 && s.sboard.all (fun e => decide (e.op < s.nextOp) && !(s.newOp 0 u).waitsFor e) &&
    (u.handles.isEmpty && !u.dram || s.dram.sr == .out)

theorem frees_iff (s : State) (u : Use) : frees s u = true ↔ s.unitFree 0 u := by
  simp [frees, State.unitFree, and_assoc, Option.isNone_iff_eq_none, List.isEmpty_iff]

/-- What an operation of a unit asks: it issues and its unit is free. -/
def ready (s : State) (u : Use := {}) : Bool := issues s && frees s u

theorem ready_iff (s : State) (u : Use) : ready s u = true ↔ s.canIssue 0 1 ∧ s.unitFree 0 u := by
  simp [ready, issues_iff, frees_iff]

def canon (s : State) : Bool :=
  Memory.wf s.mem && s.threads.all (fun th => tabWf 0 th.scratch) && tabWf 0xFF s.flash.bytes && tabWf 0 s.host.flashBuf && tabWf 0 s.host.msix &&
    decide (s.bufs.table.Pairwise fun a b => a.1 < b.1)

theorem canon_canonical (s : State) : canon s = true → s.canonical := by
  simp only [canon, Bool.and_eq_true, decide_eq_true_eq, State.canonical, and_assoc]
  rintro ⟨a, b, c⟩
  refine ⟨a, fun t => ?_, c⟩
  have := Vector.all_eq_true.mp b t.val t.isLt
  simpa [State.thread] using this

/-! ### States that meet the hypotheses of the statements: threads -/

theorem test_hyps_step : ∃ r, ({ dev with pending := [.huReady, .cometTimer] } : State).pending = .huReady :: r := ⟨_, rfl⟩

theorem test_hyps_completes : ({ dev with sec := { debug := true } } : State).sec.debug = true ∧ dev.sec.debug = false := ⟨rfl, rfl⟩

theorem test_hyps_canonical_step (g : List Reg) : (dev g).canonical ∧ ∃ u, step { dev g with pending := [.huReady] } = .next u :=
  ⟨test_dev_canonical g, _, rfl⟩

/-- R218: the last register, the last scratch word, and its alias one scratch further on. -/
theorem test_hyps_registers :
    (15 : BitVec 4) ≠ 0 ∧ ((runner []).setReg 15 9).reg 15 = 9 ∧ tabWf 0 (runner []).scratch = true ∧ 511 % 512 ≠ 512 % 512 ∧
      ((runner []).setWord 511 9).word 1023 = 9 ∧ dev.canIssue 0 1 := by unfold State.canIssue; decide +kernel

theorem test_hyps_fault_record :
    255 < 256 ∧ 2 ^ 32 - 1 < 2 ^ 32 ∧ dev.fab.ft < 2 ^ 48 ∧ dev.err.keys = [] ∧ 1024 ≤ dev.queues[40].space ∧
      dev.queues[40].wmark = false ∧ dev.err.total.toNat + 1 < 2 ^ 64 := by decide +kernel

theorem test_hyps_issue_checks :
    (dev.thread 1).st ≠ .running ∧
      (let s := devT fun th => { th with pc := 4096 }
       s.sequencing = true ∧ (s.thread 0).st = .running ∧ s.progLen 0 < (s.thread 0).pc + 8) ∧
      (let s := devT fun th => { th with pc := 4088 }
       (iw 1 0 0 0 4).fn.getLsbD 2 = true ∧ (s.thread 0).pc + 8 ≤ s.progLen 0 ∧ s.progLen 0 < (s.thread 0).pc + 16) ∧
      (let at0 := fun (op fn : Nat) => ({ dev with mem := Memory.writeN [] 0 (leBytes 8 (op * 2 ^ 56 + fn * 2 ^ 32)) } : State)
       let v := fun (s : State) => leNat (Memory.readN s.mem ((0 : Nat) + (s.thread 0).pc) 8)
       (at0 0 0).buf? ((at0 0 0).thread 0).prog.toNat = some { base := 0, len := 4096, owner := some 0, shared := true } ∧
         v (at0 0 0) / 2 ^ 56 = 0 ∧ v (at0 0x78 8) / 2 ^ 56 = 0x78 ∧ 8 ≤ v (at0 0x78 8) / 2 ^ 32 % 256 ∧ v (at0 0x78 7) / 2 ^ 56 = 0x78 ∧
         v (at0 0x78 7) / 2 ^ 32 % 256 < 8 ∧ v (at0 0x7D 0) / 2 ^ 56 = 0x7D) := by decide +kernel

theorem test_hyps_operand_block : (iw (ue := true)).ue = true ∧ dev.canIssue 0 1 := by unfold State.canIssue; decide +kernel

/-- The last word of the buffer still issues, and so do its last two. -/
theorem test_hyps_arithmetic :
    (devT fun th => { th with pc := 4088 }).canIssue 0 (iw 1 2 3 0 1).words ∧
      (devT fun th => { th with pc := 4080 }).canIssue 0 (iw 1 2 3 0 4).words := by unfold State.canIssue; decide +kernel

theorem test_hyps_branches :
    dev.canIssue 0 1 ∧ (∀ n : Fin 14, (iw 0 0 0 0 (BitVec.ofNat 8 n.val)).fn.toNat % 16 = n.val) ∧ 14 ≤ (iw 0 0 0 0 14).fn.toNat % 16 ∧
      (iw 0).rd = 0 := by unfold State.canIssue; decide +kernel

theorem test_hyps_calls :
    let deep := fun n => devT fun th => { th with stack := List.replicate n 64 }
    ((deep 15).canIssue 0 1 ∧ ((deep 15).thread 0).stack.length < 16) ∧ ((deep 16).canIssue 0 1 ∧ 16 ≤ ((deep 16).thread 0).stack.length) ∧
      ((deep 1).canIssue 0 1 ∧ ((deep 1).thread 0).stack = [64]) ∧ ((deep 0).canIssue 0 1 ∧ ((deep 0).thread 0).stack = []) := by
  unfold State.canIssue; decide +kernel

theorem test_hyps_halt :
    (let s := devT fun th => { th with st := .waiting, wait := .halt, recDone := true, intDone := true }
     s.sequencing = true ∧ (s.thread 0).st = .waiting ∧ (s.thread 0).wait = .halt ∧ (s.thread 0).async = [] ∧ (s.thread 0).intDone = true ∧
       (s.thread 0).recDone = true ∧ s.queues[41].wmark = false ∧ 32 ≤ s.queues[41].space ∧ s.queues[41].level + 16 < s.queues[41].high) ∧
      (let s := devT fun th => { th with st := .waiting, wait := .halt, async := [{ op := 0, word := 0, addr := 0 }] }
       s.sequencing = true ∧ (s.thread 0).async ≠ []) := by decide +kernel

/-- A launch descriptor on the command queue of thread 1. -/
def launching (d : List Byte) : State :=
  { dev with queues := dev.queues.set 1 { dev.queues[1] with ready := [d] } }

theorem test_hyps_launch :
    (let d := leBytes 32 (3 + 1 * 2 ^ 16)
     let s := launching d
     s.sequencing = true ∧ (s.thread 1).st = .idle ∧ s.queues[(1 : Fin 64)].ready = [d] ∧ s.queues[(1 : Fin 64)].upset = none ∧ d.length = 32 ∧
       leNat d / 2 ^ 28 % 16 = 0 ∧
       leNat d / 4 % 2 ^ 14 = 0 ∧ leNat d / 2 ^ 32 % 8 = 0 ∧ s.launchable 1 (leNat d / 2 ^ 16 % 2 ^ 12) = true) ∧
      (let d := leBytes 32 (2 * 2 ^ 16)
       let s := launching d
       s.sequencing = true ∧ (s.thread 1).st = .idle ∧ s.queues[(1 : Fin 64)].ready = [d] ∧ s.queues[(1 : Fin 64)].upset = none ∧ d.length = 32 ∧
         s.launchable 1 (leNat d / 2 ^ 16 % 2 ^ 12) = false) := by decide +kernel

theorem test_hyps_restart :
    (let s := { dev [7] with threads := (dev [7]).threads.set 7 { st := .faulted } }
     s.canIssue 0 1 ∧ s.unitFree 0 {} ∧ (s.thread 0).reg (iw 0 1).ra = BitVec.ofNat 64 (7 : Fin 8).val ∧ (s.thread 7).st = .faulted) ∧
      ((dev [6]).canIssue 0 1 ∧ (dev [6]).unitFree 0 {} ∧ ((dev [6]).thread 0).reg (iw 0 1).ra = BitVec.ofNat 64 (6 : Fin 8).val ∧
        ((dev [6]).thread 6).st ≠ .faulted) ∧ dev.bar0Open = true := by unfold State.canIssue State.unitFree; decide +kernel

/-- Waits that sit and waits that pass, at the value where the two meet. -/
theorem test_hyps_waits_begin :
    let e := fun (m : BitVec 32) (g : List Reg) => devT (fun th => { th with evt := m }) g
    let q1 := fun g : List Reg => ({ dev g with queues := dev.queues.set 8 { dev.queues[8] with ready := [[1, 2]] } } : State)
    let lines := fun n : Nat => ({ dev with tg1 := { set := { mode := 2, lines := n }, line := 5 } } : State)
    ((dev [1]).canIssue 0 1 ∧ (dev [1]).fab.ft < (((dev [1]).thread 0).reg 1).toNat) ∧
      ((dev [0]).canIssue 0 1 ∧ (((dev [0]).thread 0).reg 1).toNat ≤ (dev [0]).fab.ft) ∧
      ((e 1 []).canIssue 0 1 ∧ ((e 1 []).thread 0).evt &&& 2 = 0 ∧ ((e 1 []).thread 0).evt &&& 3 ≠ 0) ∧
      ((q1 [2]).canIssue 0 1 ∧ decide ((((q1 [2]).thread 0).reg 1).toNat ≤ ((q1 [2]).queues[(8 : Fin 64)].ready.map List.length).sum) = true) ∧
      ((q1 [3]).canIssue 0 1 ∧ decide ((((q1 [3]).thread 0).reg 1).toNat ≤ ((q1 [3]).queues[(8 : Fin 64)].ready.map List.length).sum) = false) ∧
      ((lines 6).canIssue 0 1 ∧ (iw 0 0 0 0 5 5).fn.toNat % 4 = (1 : Fin 3).val ∧ 5 < (lines 6).tgLines 1 ∧ (iw 0 0 0 0 5 5).fn.getLsbD 2 = true ∧
        (lines 6).tgRuns 1 = true ∧ (iw 0 0 0 0 5 5).imm.toNat % 65536 ≤ (lines 6).tgLine 1) ∧
      ((lines 5).canIssue 0 1 ∧ (lines 5).tgLines 1 ≠ 0 ∧ (lines 5).tgLines 1 ≤ (iw 0 0 0 0 1 5).imm.toNat % 65536) ∧
      (dev.tgLines 2 = 0 ∧ (iw 0 0 0 0 2).fn.toNat % 4 = (2 : Fin 3).val ∧ (iw 0 0 0 0 2).fn.getLsbD 2 = false) ∧
      (iw 0 0 0 0 3).fn.toNat % 4 = 3 := by unfold State.canIssue; decide +kernel

/-- A thread in a timed wait. -/
def waits (wt : Wait) (f : Thread → Thread := id) : State :=
  devT fun th => f { th with st := .waiting, wait := wt, wEnd := some 0, evt := 8 }

theorem test_hyps_waits_end :
    let on := fun (s : State) (wt : Wait) => s.sequencing = true ∧ (s.thread 0).st = .waiting ∧ (s.thread 0).wait = wt ∧ wt.isWait = true
    on (waits (.line 0 5) fun th => { th with wHit := true }) (.line 0 5) ∧ on (waits (.time 0)) (.time 0) ∧ on (waits (.evt 8)) (.evt 8) ∧
      on (waits (.queue 8 true false 0)) (.queue 8 true false 0) ∧
      (on (waits (.time 1) fun th => { th with wNoFault := true }) (.time 1) ∧
        ((waits (.time 1) fun th => { th with wNoFault := true }).thread 0).wNoFault = true ∧
        ((waits (.time 1)).thread 0).wNoFault = false ∧ ((waits (.time 1)).thread 0).wEnd = some 0 ∧ 0 ≤ (waits (.time 1)).now ∧
        ((waits (.time 1) fun th => { th with wEnd := none }).thread 0).wEnd = none ∧
        ((waits (.time 1) fun th => { th with wEnd := some 1 }).thread 0).wEnd = some 1 ∧ (waits (.time 1)).now < 1) ∧
      decide ((0 : Reg).toNat ≤ (waits (.time 0)).fab.ft) = true ∧ decide ((1 : Reg).toNat ≤ (waits (.time 1)).fab.ft) = false ∧
      (((waits (.evt 8)).thread 0).evt &&& 8 != 0) = true := by decide +kernel

/-- A thread whose unit has finished, with a result or with a fault. -/
def finished (d : Done) : State := devT fun th => { th with st := .waiting, wait := .unit, done := some d }

theorem test_hyps_completion :
    let ok := fun (s : State) (d : Done) => s.sequencing = true ∧ (s.thread 0).st = .waiting ∧ (s.thread 0).wait = .unit ∧
      (s.thread 0).done = some d ∧ ∀ u ∈ allUnits, (s.unit u).test = none
    ok (finished (.codeRc 3 4)) (.codeRc 3 4) ∧ (Done.codeRc 3 4).flt = none ∧
      ok (finished { flt := some (.memUe, 0) }) { flt := some (.memUe, 0) } ∧ ({ flt := some (.memUe, 0) } : Done).flt = some (.memUe, 0) ∧
      (let b : Async := { op := 4, word := 0, addr := 0, blt := true }
       let s := (finished { blt := true }).modThread 0 fun th => { th with async := [b] }
       ok s { blt := true } ∧ b ∈ (s.thread 0).async ∧ b.blt = true ∧ ok (finished { blt := true }) { blt := true } ∧
         (finished { blt := true } |>.thread 0).async = []) := by decide +kernel

theorem test_hyps_async_completion :
    let a := fun d : Done => ({ op := 4, word := 511, addr := 8, res := some d } : Async)
    let ok := fun (s : State) (x : Async) (d : Done) => s.sequencing = true ∧ (s.thread 0).async.find? (·.op == x.op) = some x ∧ x.res = some d ∧
      (∀ u ∈ allUnits, (s.unit u).test = none) ∧ (s.thread 0).st ≠ .faulted
    ok (devT fun th => { th with async := [a (.code 0)] }) (a (.code 0)) (.code 0) ∧
      ok (devT fun th => { th with async := [a { flt := some (.memUe, 0) }] }) (a { flt := some (.memUe, 0) }) { flt := some (.memUe, 0) } ∧
      (let b : Async := { op := 9, word := 0, addr := 0, res := some (.code 0), blt := true }
       ok (devT fun th => { th with async := [a (.code 0), b] }) b (.code 0) ∧ ∀ x ∈ [a (.code 0), b].takeWhile (·.op != b.op), x.blt = false) := by
  decide +kernel

theorem test_hyps_scoreboard_release :
    (let i := Instr.bfree 0 (iw 1 2)
     let s := devT fun th => { th with st := .waiting, wait := .held i }
     s.sequencing = true ∧ (s.thread 0).st = .waiting ∧ (s.thread 0).wait = .held i ∧ i ∈ [Instr.aset 0 (iw 1 2), .bfree 0 (iw 1 2)]) ∧
      (dev.sequencing = true ∧ (dev.thread 0).st = .running ∧ ∀ a ∈ (dev.thread 0).async, a.todo = none) ∧
      (let a : Async := { op := 0, word := 0, addr := 0, todo := some (.crcRun 6 2 0 65536) }
       let s := devT fun th => { th with async := [a] }
       (s.thread 0).st = .running ∧ (s.thread 0).async = [a] ∧ s.dram.sr = .out ∧ (∀ o ∈ s.sboard, o.op = a.op) ∧
         tabFind s.bufs.table 2 = some { base := 0x100000, len := 65536, owner := some 0 } ∧ s.dram.suspects 0x100000 65536 = []) ∧
      (let s := devT fun th => { th with st := .waiting, wait := .entry 5 }
       s.sequencing = true ∧ (s.thread 0).st = .waiting ∧ (s.thread 0).wait = .entry 5 ∧ s.bltWaits 5 = false ∧
         ({ s with blt := { s.blt with queue := List.replicate 65 { op := 5, thread := 0, who := .nobody, d := {} } } } : State).bltWaits 5 = true) := by
  decide +kernel

/-! ### Buffers and queues -/

/-- The device with the entry of buffer 2 changed. -/
def devB (f : Buf → Buf) (g : List Reg := []) : State :=
  { dev g with bufs := { (dev g).bufs with table := [((dev g).bufs.table.getD 0 default), (2, f { base := 0x100000, len := 65536, owner := some 0 })] } }

/-- The checks of a store, each at its boundary (handle 0, 4,032, not live, another's, dying, sealed, misaligned, past the end). -/
theorem test_hyps_sth_checks :
    let s := dev [2, 65535]
    let free := fun s : State => s.canIssue 0 1 ∧ s.syncOp 0 = none
    free s ∧ tabFind s.bufs.table 3 = none ∧ tabFind s.bufs.table 4031 = none ∧
      (free (devB fun b => { b with owner := some 1 }) ∧ tabFind (devB fun b => { b with owner := some 1 }).bufs.table 2 =
        some { base := 0x100000, len := 65536, owner := some 1 }) ∧
      (free (devB fun b => { b with dying := true })) ∧ free (devB fun b => { b with isSealed := true }) ∧
      ((s.thread 0).reg 2).toNat % 2 ^ 1 ≠ 0 ∧ ((s.thread 0).reg 2).toNat % 2 ^ 0 = 0 ∧ 65536 < ((s.thread 0).reg 2).toNat + 2 ^ 1 ∧
      ((s.thread 0).reg 2).toNat + 2 ^ 0 ≤ 65536 := by unfold State.canIssue; decide +kernel

/-- A plan in force that uses buffer 2 as its map locks it. -/
def mapped2 : State :=
  { dev with plan := { next := some { kind := .primary, prim := 0, slot := 0, plan := { umapFmt := 1, umapBuf := 2 }, copies := {} } } }

theorem test_hyps_sth_locked : mapped2.canIssue 0 1 ∧ mapped2.syncOp 0 = none ∧ mapped2.locked 2 = true := by
  unfold State.canIssue; decide +kernel

/-- The last eight bytes of the buffer, and a burst there that cannot be read. -/
theorem test_hyps_ldh :
    let use : Use := { handles := [2], reads := [.ofBytes 2 65528 8] }
    let bad : State := { dev [2, 65528] with dram := { (dev []).dram with bad := [(0x10FFC0, .wcode)] } }
    let ok := fun s : State => s.canIssue 0 1 ∧ (s.checkOpen 0 2).toOption.isSome ∧ 65528 % 8 = 0 ∧ 65528 + 8 ≤ 65536 ∧ s.unitFree 0 use
    (ok (dev [2, 65528]) ∧ (dev [2, 65528]).dram.suspects (0x100000 + 65528) 8 = []) ∧
      (ok bad ∧ bad.dram.readsBad (0x100000 + 65528) ≠ none ∧ (0x100000 + 65528) / 64 = (0x100000 + 65528 + 8 - 1) / 64) := by
  unfold State.canIssue State.unitFree; decide +kernel

theorem test_hyps_sth :
    let use : Use := { handles := [2], writes := [.ofBytes 2 65528 8] }
    let s := dev [2, 65528, 0x0102030405060708]
    s.canIssue 0 1 ∧ (s.checkOpen 0 2).toOption.isSome ∧ s.locked 2 = false ∧ s.unitFree 0 use ∧ s.dram.suspects (0x100000 + 65528) 8 = [] ∧ s.canonical :=
  ⟨by unfold State.canIssue; decide +kernel, by decide +kernel, by decide +kernel, by unfold State.unitFree; decide +kernel,
    by decide +kernel, test_dev_canonical _⟩

/-- One store, and the byte at the end of it (R257, little-endian). -/
theorem test_sth_bytes :
    (match exec (.sth 0 (iw 0 1 2 3 3)) (dev [2, 65528, 0x0102030405060708]) with
      | .next u => (Memory.readN u.mem (0x100000 + 65527) 9, (u.thread 0).st)
      | _ => ([], .idle)) = ([0, 8, 7, 6, 5, 4, 3, 2, 1], .waiting) := by decide +kernel

theorem test_hyps_bad_burst :
    let s : State := { dev with dram := { dev.dram with bad := [(0x100040, .tag)] } }
    let two : State := { dev with dram := { dev.dram with faults := [(0x100040, [⟨false, 3, 1⟩, ⟨false, 9, 1⟩, ⟨false, 17, 5⟩])] } }
    0x100040 % 64 = 0 ∧ s.dram.readsBad 0x100040 = some .tag ∧ s.dram.epochUe = [] ∧ s.canonical ∧ ([0, 1] : List Byte).length < 64 ∧
      two.dram.readsBad 0x100040 ≠ none :=
  ⟨by decide, by decide +kernel, rfl, test_dev_canonical [], by decide, by decide +kernel⟩

/-- Allocation: a length of 0, no handle left, no room, and the largest unsealed buffer. -/
theorem test_hyps_balloc :
    let none' : State := { dev [1] with bufs := { (dev [1]).bufs with fresh := 4032 } }
    ((dev [0]).canIssue 0 1 ∧ (dev [0]).unitFree 0 {} ∧ (((dev [0]).thread 0).reg 1).toNat = 0) ∧
      (none'.canIssue 0 1 ∧ none'.unitFree 0 {} ∧ none'.bufs.freeHandle = none) ∧
      ((dev [2 ^ 37]).canIssue 0 1 ∧ (dev [2 ^ 37]).unitFree 0 {} ∧ (dev [2 ^ 37]).bufs.freeHandle = some 3 ∧
        (dev [2 ^ 37]).place false (2 ^ 37) = none) ∧
      (dev.place false (2 ^ 36 - 2 ^ 21) = some 0x110000 ∧ dev.place true 1 = some (2 ^ 36)) := by
  unfold State.canIssue State.unitFree; decide +kernel

theorem test_hyps_bfree :
    let free := fun s : State => s.canIssue 0 1 ∧ s.unitFree 0 {}
    free dev ∧ tabFind dev.bufs.table 4031 = none ∧
      (free (devB fun b => { b with owner := some 7 })) ∧ free (devB fun b => { b with dying := true }) ∧
      (free dev ∧ dev.refs 2 = 0) ∧ (free mapped2 ∧ mapped2.refs 2 ≠ 0) := by
  unfold State.canIssue State.unitFree; decide +kernel

theorem test_hyps_freed_memory :
    (let s := devB fun b => { b with dying := true }
     tabFind s.bufs.table (2 : Handle).toNat = some { base := 0x100000, len := 65536, owner := some 0, dying := true } ∧ s.refs 2 = 0) ∧
      (let s := devB fun b => { b with dying := true, isSealed := true }
       tabFind s.bufs.table (2 : Handle).toNat = some { base := 0x100000, len := 65536, owner := some 0, dying := true, isSealed := true } ∧
         s.refs 2 = 0) ∧
      (let z := fun e : Nat => ({ dev with bufs := { dev.bufs with zeroing := [⟨262143 * 2 ^ 20, 262144 * 2 ^ 20, true⟩] }, dram := { dev.dram with density := 32, epochs := [(262143, e)], zeroed := Vector.replicate 16 128 } } : State)
       let j : ZeroJob := ⟨(262143 : BitVec 18).toNat * 2 ^ 20, ((262143 : BitVec 18).toNat + 1) * 2 ^ 20, true⟩
       j ∈ (z 65534).bufs.zeroing ∧ tabGet 0 (z 65534).dram.epochs 262143 < 65535 ∧ (z 65534).zeroTarget = some j ∧
         (z 65534).zeroedAll j = true ∧ tabGet 0 (z 65535).dram.epochs 262143 = 65535 ∧ j ∈ (z 65535).bufs.zeroing ∧ j ∉ dev.bufs.zeroing ∧
         ({ z 0 with dram := { (z 0).dram with zeroed := Vector.replicate 16 127 } } : State).zeroedAll j = false ∧
         262143 ∉ (z 0).dram.epochUe ∧ 262143 * 2 ^ 20 < (z 0).dram.capacity) := by decide +kernel

theorem test_hyps_info_and_seal :
    (let s := dev [2, 0]
     s.canIssue 0 1 ∧ s.canonical ∧ tabFind s.bufs.table 2 = some { base := 0x100000, len := 65536, owner := some 0 } ∧
       (iw 1 1 2).fn.toNat % 4 = 0 ∧ ((s.thread 0).reg 2).toNat % 4096 = 0 ∧ s.unitFree 0 {} ∧
       s.sharesGranule 2 { base := 0x100000, len := 65536, owner := some 0 } = false ∧
       s.unitFree 0 { handles := [2], writes := [.ofBytes 2 0 65536] }) ∧
      (devB fun b => { b with owner := none, isSealed := true }).canIssue 0 1 ∧ (devB fun b => { b with isSealed := true }).canIssue 0 1 := by
  unfold State.canIssue State.unitFree State.canonical; decide +kernel

/-- The device with one queue changed. -/
def devQ (q : Fin 64) (f : Queue → Queue) (g : List Reg := []) : State := { dev g with queues := vmod (dev g).queues q f }

/-- Marks: the wrong side, an UNCONFIGURED queue, and each side with and without its mark. -/
theorem test_hyps_queue_marks :
    let use := fun n : Nat => ({ units := [.queue n] } : Use)
    let free := fun (s : State) (n : Nat) => ready s (use n) = true
    let marked := devQ 23 fun x => { x with wmark := true, unpub := [[1]], part := [2] }
    let reader := devQ 24 fun x => { x with rmark := true, kept := [[1]], ready := [[2]] }
    free dev 40 ∧ (free dev 42 ∧ dev.queues[(42 : Fin 64)].kind = .unconfigured) ∧
      (free marked 23 ∧ marked.queues[(23 : Fin 64)].kind ≠ .unconfigured ∧ marked.queues[(23 : Fin 64)].wmark = true) ∧
      (free dev 23 ∧ dev.queues[(23 : Fin 64)].wmark = false) ∧ (free reader 24 ∧ reader.queues[(24 : Fin 64)].rmark = true) ∧
      (free dev 31 ∧ dev.queues[(31 : Fin 64)].rmark = false) := by decide +kernel

/-- A watermark is crossed upward exactly at HIGH and downward exactly at LOW. -/
theorem test_hyps_watermarks :
    let x := (devQ 24 fun x => { x with high := 2, low := 1 }).queues[(24 : Fin 64)]
    let s := devQ 24 fun x => { x with high := 2, low := 1 }
    let two := devQ 24 fun x => { x with high := 2, low := 1, ready := [[1, 2]] }
    s.queues[41].wmark = false ∧ 64 ≤ s.queues[41].space ∧ s.queues[41].level + 32 < s.queues[41].high ∧
      (x.level < 2 ∧ 2 ≤ ({ x with ready := [[1, 2]] } : Queue).level) ∧ (¬ 2 ≤ ({ x with ready := [[1]] } : Queue).level) ∧
      (1 < two.queues[(24 : Fin 64)].level ∧ ({ x with ready := [[1]] } : Queue).level ≤ 1) := by decide +kernel

theorem test_hyps_post_and_take :
    let use : Use := { units := [.queue 23], dram := true }
    let rd : Use := { units := [.queue 24], dram := true }
    let full := devQ 23 (fun x => { x with cap := 64, ready := [[1], [2]] }) [23]
    let item := fun n : Nat => devQ 24 (fun x => { x with ready := [List.replicate n 1] }) [24]
    ((dev [23]).canIssue 0 1 ∧ canon (dev [23]) = true ∧ ((dev [23]).thread 0).reg 1 = BitVec.ofNat 64 (23 : Fin 64).val ∧
        (((dev [23]).thread 0).reg 2).toNat % 4096 = 0 ∧ (dev [23]).queues[(23 : Fin 64)].kind = .large ∧ (dev [23]).queues[(23 : Fin 64)].upset = none ∧ (iw).ue = false ∧
        (dev [23]).dram.bad = [] ∧ (dev [23]).dram.faults = [] ∧ (dev [23]).dram.epochUe = [] ∧ frees (dev [23]) use = true ∧
        threadSide 23 true = true ∧ (dev [23]).queues[(23 : Fin 64)].cap < 16711681 ∧ (dev [23]).queues[(23 : Fin 64)].wmark = false ∧
        (16711680 + 31) / 32 * 32 ≤ (dev [23]).queues[(23 : Fin 64)].space) ∧
      (full.canIssue 0 1 ∧ 64 ≤ full.queues[(23 : Fin 64)].cap ∧ full.queues[(23 : Fin 64)].space < (1 + 31) / 32 * 32 ∧ frees full use = true) ∧
      (threadSide 24 false = true ∧ frees (dev [24]) rd = true ∧ (dev [24]).queues[(24 : Fin 64)].ready = [] ∧
        frees (item 4096) rd = true ∧ (item 4096).canIssue 0 1 ∧ (item 4097).canIssue 0 1) := by
  unfold State.canIssue; decide +kernel

theorem test_hyps_queue_control :
    ((dev [5]).canIssue 0 1 ∧ (dev [5]).unitFree 0 { units := [.queue 63] } ∧ (dev [5]).unitFree 0 { units := [.queue 5] } ∧
        ((dev [5]).thread 0).reg 1 = BitVec.ofNat 64 (5 : Tid).val ∧ (dev [5]).queues[(5 : Fin 64)].wmark = false ∧
        32 ≤ (dev [5]).queues[(5 : Fin 64)].space ∧ (dev [5]).queues[(5 : Fin 64)].upset = none ∧ (dev [5]).queues[(63 : Fin 64)].upset = none) ∧
      (devQ 5 (fun x => { x with cap := 0 }) [5]).queues[(5 : Fin 64)].space < 32 ∧
      (devQ 63 fun x => { x with kind := .small, cap := 64 }).queues[(63 : Fin 64)].kind ≠ .unconfigured := by
  unfold State.canIssue State.unitFree; decide +kernel

/-- R304, Table 12-5: the window shows the length and the bytes of the oldest item, 0 beyond its end and on a queue the host may not read. -/
theorem test_bar2_window :
    let s := devQ 41 fun x => { x with ready := [[7, 8, 9], [5]] }
    s.bar2 41 0x201000 8 = [3, 0, 0, 0, 0, 0, 0, 0] ∧ s.bar2 41 0x210001 3 = [8, 9, 0] ∧
      (devQ 0 fun x => { x with ready := [[7]] }).bar2 0 0x210000 1 = [0] := by decide +kernel

theorem test_hyps_host_window :
    (dev.boot.mode = 0 ∧ dev.boot.stage = 8 ∧ dev.boot.stopped = false ∧ dev.therm.tripped = false ∧ dev.safe = false) ∧
      dev.queues[(24 : Fin 64)].hostW = false ∧ dev.queues[(0 : Fin 64)].hostR = false ∧
      (let x := dev.queues[(23 : Fin 64)]
       x.upset = none ∧ x.hostW = true ∧ x.kind ≠ .unconfigured ∧ dev.dram.bad = [] ∧ dev.dram.faults = [] ∧ dev.dram.epochUe = [] ∧ x.discard = false ∧ x.past = false ∧ x.wmark = false ∧
         ((x.kept ++ x.ready ++ x.unpub).map itemSpace).sum + ((x.part ++ [1]).length + 31) / 32 * 32 ≤ x.cap) ∧
      (let s := devQ 41 fun x => { x with ready := [List.replicate (2 ^ 20 / 1024) 1], low := 0 }
       s.queues[(41 : Fin 64)].hostR = true ∧ s.queues[(41 : Fin 64)].ready ≠ [] ∧
         (s.queues[(41 : Fin 64)].low + 1024 < s.queues[(41 : Fin 64)].level ∨ s.queues[(41 : Fin 64)].level ≤ 1024)) := by
  decide +kernel

/-! ### Plans -/

/-- A plan without layers that admission passes on the small device: 16 lines, the transfer table in buffer 2. -/
def okPlan : Plan :=
  { hv := 1, nhy := 16, rateNum := 240, rateDen := 1, lineSym := 6410, vbl := 1024, gReq := 1, ttBuf := 2
    m := [4096, 0, 0, 0, 4096, 0, 0, 0, 4096], views := [(0, 0)] }

/-- The device with that plan LOADED in slot 7; slot 6 holds a LOADED plan that no check passes. -/
def devP (g : List Reg := []) (f : PlanSt → PlanSt := id) : State :=
  { dev g with
    mem := [(0x100800, 0xFF), (0x100801, 0xFF)]
    plan := f { slots := (Vector.replicate 8 ({} : Slot)).set 7 { st := .loaded, plan := okPlan } |>.set 6 { st := .loaded } } }

/-- A plan image of one pixel: 60 bytes, the check value, and the rest. -/
def imageHead : List Byte := leBytes 4 0x4E414C50 ++ leBytes 2 0x0C40 ++ [1, 0] ++ List.replicate 52 0

def imageTail : List Byte := [1, 1] ++ List.replicate 3070 0

def image : List Byte := imageHead ++ (leBytes 4 (crc32c (imageHead ++ ([0, 0, 0, 0] ++ imageTail))) ++ imageTail)

theorem foldl_pow_le (p : Nat → Bool) (g : Nat → Nat) (l : List Nat) (a : Nat) :
    l.foldl (fun a i => if p i then a + g i else a) a ≤ a + (l.map g).sum := by
  induction l generalizing a with
  | nil => simp
  | cons x r ih =>
    simp only [List.foldl_cons, List.map_cons, List.sum_cons]
    refine le_trans (ih _) ?_
    split <;> omega

theorem crc32c_lt (l : List Byte) : crc32c l < 2 ^ 32 := by
  show (reflect 32 _ ^^^ 0xFFFFFFFF) < 2 ^ 32
  refine Nat.xor_lt_two_pow (lt_of_le_of_lt (foldl_pow_le _ _ _ _) ?_) (by decide)
  decide

theorem image_crc :
    fieldAt image 0x3C 4 = crc32c (image.take 0x3C ++ [0, 0, 0, 0] ++ image.drop 0x40) := by
  have h : imageHead.length = 60 := by decide
  have h64 : imageHead.drop 64 = [] := List.drop_of_length_le (by omega)
  have e : image.take 60 ++ [0, 0, 0, 0] ++ image.drop 64 = imageHead ++ ([0, 0, 0, 0] ++ imageTail) := by
    simp [image, List.drop_append, h, h64]
  rw [e]
  have f : (image.drop 60).take 4 = leBytes 4 (crc32c (imageHead ++ ([0, 0, 0, 0] ++ imageTail))) := by
    simp only [image, List.drop_left' h, List.take_left' (length_leBytes 4 _)]
  rw [fieldAt, f, leNat_leBytes]
  exact Nat.mod_eq_of_lt (crc32c_lt _)

/-- PLANSLOT: an EMPTY slot, a LOADED one and one in force; a region that ends with the buffer and one past it. -/
theorem test_hyps_plan_slot :
    let u : Use := { units := [.slot 7] }
    let on := fun s : State => issues s ∧ (s.thread 0).reg 1 = BitVec.ofNat 64 (7 : Fin 8).val ∧ s.higher .planSlots .host = none ∧
      frees s u
    let force := devP [7] fun p => { p with slots := p.slots.set 7 { st := .inForce } }
    (on (devP [7]) ∧ (devP [7]).plan.slots[(7 : Fin 8)].st = .loaded) ∧ (on (dev [7]) ∧ (dev [7]).plan.slots[(7 : Fin 8)].st = .empty) ∧
      (on force ∧ force.plan.slots[(7 : Fin 8)].st ≠ .empty ∧ force.plan.slots[(7 : Fin 8)].st ≠ .loaded) ∧
      (let s := dev [7, 2]
       let rd := fun off : Nat => ({ units := [.slot 7], handles := [2], reads := [.ofBytes 2 off (min 16384 (65536 - off))] } : Use)
       on s ∧ ((s.thread 0).reg 2).toNat % 4096 = 2 ∧ (s.checkHandle 0 2).toOption.isSome ∧ 65472 + 64 ≤ 65536 ∧ 65536 < 65473 + 64 ∧
         frees s (rd 65472) ∧ s.dram.bad = [] ∧ s.dram.faults = [] ∧ s.dram.epochUe = [] ∧ s.dram.suspects (0x100000 + 64512) 1024 = [] ∧ (s.checkStore 0 2 64512 1024).toOption.isSome ∧
         frees s { handles := [2], writes := [.ofBytes 2 64512 1024] }) := by decide +kernel

/-- The image of one pixel is good (R194). -/
theorem test_hyps_good_image :
    fieldAt image 0 4 = 0x4E414C50 ∧ fieldAt image 6 1 = 1 ∧ fieldAt image 4 2 = image.length ∧ image.length ≤ 16384 ∧
      image.length = (0x0C00 + 4 * fieldAt image 0x40 1 * fieldAt image 0x41 1 + 63) / 64 * 64 ∧
      fieldAt image 0x3C 4 = crc32c (image.take 0x3C ++ [0, 0, 0, 0] ++ image.drop 0x40) ∧ (planOfBytes image).rsvdOk = true :=
  ⟨by decide +kernel, by decide +kernel, by decide +kernel, by decide +kernel, by decide +kernel, image_crc, by decide +kernel⟩

/-- A commit that passes, over a plan in force, and one that is refused. -/
def commits (s : State) (i : Fin 8) : Bool :=
  ready s (s.slotUse i [.slot i.val]) && (s.thread 0).reg 1 == BitVec.ofNat 64 i.val && (s.higher .planSlots .host).isNone

def committed (s : State) (i : Fin 8) : Nat := ((s.registered 0 (s.slotUse i [.slot i.val])).commit i none .host 0x31).2

def overPlan (f : PlanSt → PlanSt := id) (p : Plan := okPlan) : State :=
  devP [7] fun x => f { x with prim := some 0, slots := x.slots.set 0 { st := .inForce, plan := p } }

theorem test_hyps_commit :
    commits (overPlan) 7 = true ∧ committed (overPlan) 7 = 0 ∧ (overPlan).plan.prim = some 0 ∧
      (overPlan).plan.slots[(0 : Fin 8)].plan.hasFb = false ∧ (iw 1 1 2).fn.getLsbD 7 = false ∧ (((overPlan).thread 0).reg 2).toNat % 4096 = 0 := by
  decide +kernel

theorem test_hyps_commit_refused :
    commits (devP [6]) 6 = true ∧ committed (devP [6]) 6 ≠ 0 ∧ commits (devP [5]) 5 = true ∧ (devP [5]).plan.slots[(5 : Fin 8)].st ≠ .loaded := by
  decide +kernel

/-- The checks run in order (R202). -/
theorem test_hyps_first_check : runChecks [(8, fun s => (s, none))] dev = (dev, 0, 0xFFFF) := by
  simp [runChecks, noDetail]

/-- A device on which slot 0 is in force with a plan, with trigger rows given. -/
def inForce (p : Plan) (trig : BitVec 4) : State :=
  devP [] fun x =>
    { x with
      prim := some 0, trig := trig, slots := x.slots.set 0 { st := .inForce, plan := p }
      next := some { kind := .primary, prim := 0, slot := 0, plan := p, copies := {} } }

def withFb (j : Nat) : Plan := { okPlan with hasFb := true, fbSlot := j }

theorem test_hyps_arming :
    (inForce okPlan 4).plan.armed = none ∧ (inForce okPlan 4).plan.prim = some 0 ∧ ((inForce okPlan 4).plan.next.map (·.kind)) = some .primary ∧
      (inForce okPlan 0).trigger okPlan = none ∧ (inForce okPlan 4).trigger okPlan = some 2 := by decide +kernel

/-- A fall-back that passes, one that fails; without one, a plan that passes and one that fails. -/
theorem test_hyps_fall_back_passes :
    (inForce (withFb 7) 4).trigger (withFb 7) = some 2 ∧ (inForce (withFb 7) 4).recheck true okPlan = 0 := by decide +kernel

theorem test_hyps_fall_back_fails :
    (inForce (withFb 6) 4).trigger (withFb 6) = some 2 ∧ (inForce (withFb 6) 4).recheck true {} ≠ 0 := by decide +kernel

theorem test_hyps_no_fall_back : (inForce okPlan 4).recheck false okPlan = 0 ∧ (inForce {} 4).recheck false {} ≠ 0 := by decide +kernel

theorem test_hyps_armed :
    let arm := fun a : Fin 8 => devP [] fun x => { x with armed := some a, armedAt := some 9 }
    ((arm 7).plan.armed = some 7 ∧ 9 ≤ 9 ∧ (arm 7).plan.slots[(7 : Fin 8)].st ≠ .empty ∧ (arm 7).plan.prim ≠ some 7 ∧
        (arm 7).recheckArmed okPlan = 0 ∧ (arm 7).clearLost.trigger okPlan = none) ∧
      ((arm 6).plan.slots[(6 : Fin 8)].st ≠ .empty ∧ (arm 6).recheckArmed {} ≠ 0) := by decide +kernel

/-! ### Streams -/

/-- A CLS item with a good header check value and a good trailer of a clear packet (Table 03-1, R42). -/
def item (ty : Nat) (payload : List Byte) (sync : Nat := 0xC15A) (ver : Nat := 1) (flags : Nat := 0) (node clip frame : Nat := 0)
    (layer : Nat := 255) (slot : Nat := 0) (seq : Nat := 1) (rsvd : Nat := 0) (crc : Nat := 0) : List Byte :=
  let b := leBytes 2 sync ++ leBytes 1 ver ++ leBytes 1 ty ++ leBytes 2 flags ++ leBytes 2 node ++ leBytes 2 clip ++ leBytes 5 frame ++
    leBytes 1 layer ++ leBytes 3 payload.length ++ leBytes 1 slot ++ leBytes 12 0 ++ leBytes 4 seq ++ leBytes 8 rsvd
  let b := b ++ leBytes 4 (crc32c b ^^^ crc) ++ payload
  b ++ leBytes 4 (crc32c b) ++ List.replicate 12 0

/-- A CLIP_START of 64 payload bytes. -/
def clipStart : List Byte := item 1 (List.replicate 64 0) (flags := 2)

/-- Stream 15 PAUSED on a HOLD buffer of 2 MiB (handle 2), with an item in its ingest queue. -/
def devS (items : List (List Byte)) (f : Stream → Stream := id) (g : List Reg := []) : State :=
  { devB (fun b => { b with len := 2097152 }) g with
    queues := vmod (dev g).queues 23 fun q => { q with ready := items }
    streams := (dev g).streams.set 15 (f { st := .paused, buf := 2 }) }

set_option maxRecDepth 100000 in
/-- One header for each check of ingest, in the order of R55. -/
theorem test_hyps_ingest_checks :
    let s := devS [clipStart]
    let h := fun x => clsOf x
    (s.sequencing = true ∧ s.streams[(15 : Fin 16)].st ≠ .detached ∧ s.streams[(15 : Fin 16)].stalled = false ∧
        s.queues[8 + (15 : Fin 16).val].ready = [clipStart] ∧ s.queues[8 + (15 : Fin 16).val].rdMid = false ∧
        s.queues[8 + (15 : Fin 16).val].upset = none ∧ s.dram.bad = [] ∧ s.dram.faults = [] ∧ s.dram.epochUe = []) ∧
      64 ≤ (item 10 []).length ∧ (clipStart.take 63).length < 64 ∧ (h (item 1 [] (sync := 0xC15B))).sync ≠ 0xC15A ∧
      (h (item 1 [] (crc := 1))).crcOk = false ∧ (h (item 1 [] (ver := 0))).ver ≠ 1 ∧ (h (item 0 [])).ty = 0 ∧ 10 < (h (item 11 [])).ty ∧
      (h (item 1 [] (rsvd := 1))).rsvd = true ∧ ((h (item 3 [] (flags := 1))).landing = true ∧ (h (item 3 [] (flags := 1))).ty ≠ 2) ∧
      lenOk 1 (h (item 1 [0])).len = false ∧ 63 < (h (item 3 (List.replicate 8 0) (layer := 64))).layer ∧
      (h (item 1 (List.replicate 64 0) (layer := 0))).layer ≠ 255 ∧ 63 < (h (item 1 (List.replicate 64 0) (slot := 64))).slot ∧
      (h (item 7 [1] (slot := 1))).slot ≠ 0 ∧ s.clearOk = true ∧ s.forwards = false ∧ s.node? = none ∧ (h clipStart).bcast = true ∧
      (h (item 2 (List.replicate 32 0) (flags := 2))).ty ≠ 1 ∧ s.streams[(15 : Fin 16)].started = false := by decide +kernel

/-- A clear packet where the roster forbids them (check 8). -/
theorem test_hyps_clear_refused :
    let r : Roster := { seq := 0, clearOk := false, minCode := 0, thrPct := 0, noticeKey := 0, issuers := [], entries := [], doc := [] }
    ({ devS [clipStart] with sec := { roster := some r } } : State).clearOk = false := by decide +kernel

set_option maxRecDepth 100000 in
/-- A CLIP_START at the last place where it fits, and one unit too late. -/
theorem test_hyps_clip_start :
    let at' := fun n : Nat => devS [clipStart] fun x => { x with wpos := n }
    clipStart.length = 128 ∧ (clsOf clipStart).ty = 1 ∧ canon (at' 2097024) ∧ (at' 2097024).judge 15 clipStart = .store 0 ∧
      2097024 + (128 + 63) / 64 * 64 ≤ 2097152 ∧ 2097152 < 2097088 + (128 + 63) / 64 * 64 ∧ (at' 2097088).judge 15 clipStart = .store 0 ∧
      tabFind (at' 2097024).bufs.table 2 = some { base := 0x100000, len := 2097152, owner := some 0 } := by decide +kernel

/-- The series, at the edges of its window of 2^31 numbers. -/
theorem test_hyps_series :
    let h := fun (ty seq frame : Nat) => clsOf (item ty [] (seq := seq) (frame := frame))
    let x : Stream := { started := true, serN := { lastSeq := some 0xFFFFFFFF, ingest := some 5 } }
    let d := fun seq : Nat => (seq + 2 ^ 32 - 0xFFFFFFFF) % 2 ^ 32
    (h 2 0 6).clip = x.clipId.toNat ∧ x.started = true ∧ (h 2 0 6).ty ≠ 1 ∧ (h 2 0 6).seq < 2 ^ 32 ∧ d 0 = 1 ∧ d 0xFFFFFFFF = 0 ∧
      d (2 ^ 31 - 1) = 2 ^ 31 ∧ d (2 ^ 31 - 2) = 2 ^ 31 - 1 ∧ (h 2 0 5).frame ≤ 5 ∧ 5 < (h 2 0 6).frame ∧ (h 3 0 4).frame < 5 ∧
      5 < (h 6 0 6).frame ∧ (h 3 0 5).frame = 5 := by decide +kernel

/-- The 32-byte block of SATTACH in scratch: stream, mode, clip, handle, HIGH, LOW. -/
def attach (f : Stream → Stream) (mode high low : Nat) (len : Nat := 2097152) : State :=
  let s := devB fun b => { b with len := len }
  { s with streams := s.streams.set 15 (f {}) }.modThread 0 fun th =>
    th.scratchWrite 0 (leBytes 32 (15 + mode * 2 ^ 8 + 7 * 2 ^ 16 + 2 * 2 ^ 32 + high * 2 ^ 64 + low * 2 ^ 128))

theorem test_hyps_sattach :
    let w := iw 1 0
    let blk := fun s : State => w.block (s.thread 0) 32
    let on := fun s : State => issues s ∧ w.ue = false ∧ fieldAt (blk s) 0 1 = (15 : Fin 16).val ∧ fieldAt (blk s) 4 2 = 2 ∧ (s.checkHandle 0 2).toOption.isSome ∧
      frees s { units := [.stream 15], handles := [2] }
    (on (attach id 2 2 1) ∧ 1 < fieldAt (blk (attach id 2 2 1)) 1 1) ∧ (on (attach id 1 1 1) ∧ fieldAt (blk (attach id 1 1 1)) 8 8 ≤ fieldAt (blk (attach id 1 1 1)) 16 8) ∧
      (on (attach (fun x => { x with st := .paused }) 1 2 1) ∧ fieldAt (blk (attach id 1 2 1)) 16 8 < fieldAt (blk (attach id 1 2 1)) 8 8) ∧
      on (attach id 0 2 1 2097151) ∧ (on (attach id 0 2 1 107374182401) ∧ 107374182400 < (attach id 0 2 1 107374182401).clipTotal + 107374182401) ∧
      (on (attach id 0 2 1 107374182400) ∧ (attach id 0 2 1 107374182400).clipTotal + 107374182400 ≤ 107374182400) := by
  decide +kernel

theorem test_hyps_pause_detach :
    let st := fun (st : SState) => devS [] (fun x => { x with st := st }) [15]
    let on := fun s : State => issues s ∧ s.higher .stream .host = none ∧ frees s { units := [.stream 15] } ∧
      (s.thread 0).reg 1 = BitVec.ofNat 64 (15 : Fin 16).val
    on (st .detached) ∧ on (st .paused) ∧ on (st .stopped) ∧ on (st .playing) ∧
      fieldAt ((iw 1 2).block ((attach id 0 2 1).thread 0) 32) 0 1 = (15 : Fin 16).val := by decide +kernel

/-- A stored FRAME_START with an index entry, and one without. -/
def pkt (ty frame : Nat) (entry : Option Nat) (off : Nat := 0x100000) : Pkt := ⟨off, 96, ty, frame, 255, false, entry.isSome, entry⟩

theorem test_hyps_sseek :
    let clip : Clip := { rateNum := 120, rateDen := 1, first := 0, last := none, mask := 0, gap := 0, loopable := false }
    let s := fun (st : SState) (f : Nat) => devS [] (fun x => { x with st := st, clip := some clip, pkts := [pkt 2 4 (some 0), pkt 2 5 none] }) [15, BitVec.ofNat 64 f]
    let on := fun s : State => issues s ∧ s.higher .stream .host = none ∧ (s.thread 0).reg 1 = BitVec.ofNat 64 (15 : Fin 16).val ∧
      s.streams[(15 : Fin 16)].clip ≠ none ∧ s.streams[(15 : Fin 16)].seek = none ∧ frees s { units := [.stream 15] }
    let last := fun s : State => ((s.streams[(15 : Fin 16)].pkts.filter fun p => p.ty == 2).getLast?).map (·.frame)
    on (s .detached 5) ∧ on (s .paused 6) ∧ on (s .paused 3) ∧ on (s .paused 4) ∧ on (s .stopped 5) ∧ on (s .playing 5) ∧
      last (s .paused 6) = some 5 := by decide +kernel

theorem test_hyps_splay :
    let clip : Clip := { rateNum := 240, rateDen := 1, first := 0, last := none, mask := 0, gap := 0, loopable := false }
    let s := fun (st : SState) (c : Clip) (wa : Nat) (plan : Bool) =>
      ({ devS [] (fun x => { x with st := st, clip := some c, position := some 9 }) [15, BitVec.ofNat 64 wa, 9] with
        plan := if plan then { next := some { kind := .primary, prim := 0, slot := 0, plan := okPlan, copies := {} } } else {} } : State)
    let on := fun s : State => issues s ∧ s.higher .stream .host = none ∧ (s.thread 0).reg 1 = BitVec.ofNat 64 (15 : Fin 16).val ∧
      frees s { units := [.stream 15] } ∧ ((s.thread 0).reg 3).toNat = 9
    on (s .detached clip 2 true) ∧ on (s .playing clip 2 true) ∧ (on (s .paused clip 1 true) ∧ 1 < (s .paused clip 1 true).out.frame + 2) ∧
      (on (s .paused clip 2 false) ∧ (s .paused clip 2 false).plan? = none) ∧
      (on (s .stopped clip 2 true) ∧ (s .stopped clip 2 true).plan? = some okPlan ∧ clip.rateDen ≠ 0 ∧
        clip.rateNum * okPlan.rateDen = okPlan.rateNum * clip.rateDen) ∧ 239 * okPlan.rateDen ≠ okPlan.rateNum * 1 := by
  decide +kernel

/-! ### Decoding, check values and blits -/

/-- Stream 15 PLAYING frame 7, with a FRAME_START, a TILE_GROUP of layer 5 and a FRAME_END stored. -/
def playing (ps : List Pkt) (f : Stream → Stream := id) : State :=
  let s := devS [] fun x => f { x with st := .playing, position := some 7, wA := 1, pkts := ps }
  { s with tg0 := { s.tg0 with running := true } }

def framePkts7 : List Pkt := [pkt 2 7 none, pkt 3 7 none 0x100080, pkt 6 7 none 0x100100]

theorem test_hyps_decode_start :
    let s := playing framePkts7
    let x := s.streams[(15 : Fin 16)]
    x.st = .playing ∧ x.position = some 7 ∧ x.wA ≤ s.out.frame + 1 ∧ s.tgRuns 0 = true ∧ x.dec = none ∧ (x.framePkts 7).any (·.ty = 6) = true ∧
      ((playing (framePkts7.take 2)).streams[(15 : Fin 16)].framePkts 7).all (·.ty ≠ 6) = true := by decide +kernel

theorem test_hyps_dispatch :
    let s := playing framePkts7 fun x => { x with dec := some { frame := 7 } }
    s.streams[(15 : Fin 16)].dec = some { frame := 7 } ∧
      (s.streams[(15 : Fin 16)].framePkts 7).find? (fun p => !([] : List Nat).contains p.off) = some (pkt 2 7 none) ∧ (pkt 2 7 none).ty ≠ 3 ∧ s.tgRuns 0 = true ∧
      (let z := playing framePkts7 fun x => { x with dec := some { frame := 7, sent := [0x100000] } }
       (z.streams[(15 : Fin 16)].framePkts 7).find? (fun p => !([0x100000] : List Nat).contains p.off) = some (pkt 3 7 none 0x100080) ∧
         z.takers 15 255 = []) := by decide +kernel

/-- Engine 7 with the packet given at its head. -/
def engine7 (p : Pkt) (reg : Bool) : State :=
  let s := playing framePkts7 fun x => { x with dec := some { frame := 7 } }
  { s with
    engs := s.engs.set 7 [⟨15, p, 1, reg, false⟩], mem := [(0x200080 + 19, 63)]
    plan := { next := some { kind := .primary, prim := 0, slot := 0, copies := {}, plan :=
      { layers := List.replicate 63 {} ++ [{ en := true, srcStream := 15, srcLayer := 255, imgBuf := 9 }] } } } }

theorem test_hyps_registration :
    let s := engine7 (pkt 3 7 none 0x100080) false
    s.engs[(7 : Fin 8)] = [⟨15, pkt 3 7 none 0x100080, 1, false, false⟩] ∧ s.streams[(15 : Fin 16)].dec = some { frame := 7 } ∧
      s.regWaits ⟨15, pkt 3 7 none 0x100080, 1, false, false⟩ = false ∧ s.tgRuns 0 = true ∧ s.takers 15 255 = [63] ∧
      (let z := playing framePkts7 fun x => { x with dec := some { frame := 7, sent := [0x100000] } }
       let z : State := { z with plan := s.plan }
       (z.streams[(15 : Fin 16)].framePkts 7).find? (fun p => !([0x100000] : List Nat).contains p.off) = some (pkt 3 7 none 0x100080) ∧
         z.takers 15 255 ≠ []) := by decide +kernel

/-- Headers of a group of one tile for a layer of one tile, in and beyond its range (R81); coverage that meets it and that only borders on it. -/
theorem test_hyps_group_ranges :
    let e : LayerEntry := { en := true, w := 32, h := 32 }
    let s : State := { dev with plan := { next := some { kind := .primary, prim := 0, slot := 0, copies := {}, plan := { layers := [e] } } } }
    s.headerOk ([0, 0, 0, 0, 1, 0] ++ List.replicate 30 0) 0 = true ∧ s.headerOk ([1, 0, 0, 0, 1, 0] ++ List.replicate 30 0) 0 = false ∧
      (2 + 1 ≤ 3 ∨ 3 + 2 ≤ 2) ∧ (1 < 0 + 2 ∧ 0 < 1 + 1) := by decide +kernel

theorem test_hyps_packet_done :
    (engine7 (pkt 6 7 none 0x100100) false).engs[(7 : Fin 8)] = [⟨15, pkt 6 7 none 0x100100, 1, false, false⟩] ∧
      (engine7 (pkt 3 7 none 0x100080) true).engs[(7 : Fin 8)] = [⟨15, pkt 3 7 none 0x100080, 1, true, false⟩] := by
  decide +kernel

set_option maxRecDepth 100000 in
/-- A FRAME_END in the clear whose trailer is right, and one whose trailer is not. -/
theorem test_hyps_clear_packet :
    let s := fun (b : Byte) => ({ engine7 (pkt 6 7 none 0x100100) false with mem := Memory.writeN [] 0x200100 ((item 6 (List.replicate 32 0)).set 80 b) } : State)
    let r := fun (b : Byte) => ((s b).readPkt 15 (pkt 6 7 none 0x100100) (6 + 7)).2
    (item 6 (List.replicate 32 0)).length = 96 ∧ (r 0).isSome = true ∧ (r 0).all (fun b => (clsOf b).slot == 0) = true ∧
      (r ((item 6 (List.replicate 32 0)).getD 80 0)).all clearOkTrailer = true ∧
      (r ((item 6 (List.replicate 32 0)).getD 80 0 + 1)).all clearOkTrailer = false ∧
      (s 0).tgRuns 0 = true ∧ (s 0).streams[(15 : Fin 16)].dec = some { frame := 7 } := by decide +kernel

/-- A group in KEY_SLOT 63 that holds no key, taken by layer 63. -/
theorem test_hyps_failed_group :
    let s := engine7 (pkt 3 7 none 0x100080) true
    let r := (s.readPkt 15 (pkt 3 7 none 0x100080) (6 + 7)).2
    r.isSome = true ∧ (r.map fun b => (clsOf b).slot) = some 63 ∧ s.keyFor 63 0 = none ∧ s.takers 15 255 = [63] ∧ s.clearOnly [63] = false ∧ s.tgRuns 0 = true ∧
      s.dram.bad = [] ∧ s.dram.faults = [] ∧ s.dram.epochUe = [] := by decide +kernel

/-- A header for each check of a tile record (modes 0 to 7, the plain bits, the length), for the last tile of an image. -/
theorem test_hyps_tile_checks :
    3 < tilesX 33 * tilesY 33 ∧ ([0, 0, 0] : List Byte).length < 4 ∧ 6 ≤ fieldAt [6, 0, 0, 0] 0 4 % 8 ∧ fieldAt [5, 0, 0, 0] 0 4 % 8 < 6 ∧
      fieldAt [8, 0, 0, 0] 0 4 / 8 % 2 ≠ 0 ∧ fieldAt [0x40, 0, 0, 0] 0 4 / 64 % 1024 ≠ 0 ∧ fieldAt [0x11, 0, 0, 0] 0 4 / 16 % 4 ≠ 0 ∧
      4 < 4 + fieldAt [4, 0, 1, 0] 0 4 / 65536 ∧ fieldAt [3, 0, 1, 0, 9] 0 4 / 65536 ≠ 0 ∧ fieldAt [1, 0, 4, 0, 1, 1, 1, 1] 0 4 / 65536 = 4 ∧
      fieldAt [2, 0, 5, 0, 1, 1, 1, 1, 1] 0 4 / 65536 ≠ 6 ∧ fieldAt [0, 0, 0, 0] 0 4 = 0 ∧ fieldAt [3, 0, 0, 0] 0 4 / 65536 = 0 := by
  decide +kernel

/-- The last tile of an image of 33 × 33 samples is one sample; its largest value is below 2^36. -/
theorem test_hyps_lossless :
    3 < tilesX 33 * tilesY 33 ∧ ([2 ^ 36 - 1] : List Nat).length = (tileRect 33 33 3).tw * (tileRect 33 33 3).th ∧
      ∀ v ∈ ([2 ^ 36 - 1] : List Nat), v < 2 ^ 36 := by decide +kernel

/-- A configuration block of `CRCSET` in scratch: width, flags and polynomial. -/
def crcBlock (width flags poly : Nat) : State :=
  (dev [0, 5]).modThread 0 fun th => th.scratchWrite 0 (leBytes 32 (width + flags * 2 ^ 8 + poly * 2 ^ 64))

theorem test_hyps_crc_units :
    let blk := fun s : State => (iw 1 1 2 0 6).block (s.thread 0) 32
    let s := crcBlock 64 3 (2 ^ 64 - 1)
    let taken := { s with cus := s.cus.set 6 { (s.cus[6]) with taken := [(s.cus[6].cfg, 5)] } }
    (iw).ue = false ∧ (iw 1 1 2 0 7).fn.toNat % 8 = 7 ∧ (iw 1 1 2 0 6).fn.toNat % 8 = (6 : Fin 7).val ∧ ready s { units := [.cu 6] } ∧
      (1 ≤ fieldAt (blk s) 0 1 ∧ fieldAt (blk s) 0 1 ≤ 64 ∧ fieldAt (blk s) 8 8 < 2 ^ fieldAt (blk s) 0 1) ∧ fieldAt (blk (crcBlock 0 3 1)) 0 1 = 0 ∧
      64 < fieldAt (blk (crcBlock 65 3 1)) 0 1 ∧ 2 ^ 8 ≤ fieldAt (blk (crcBlock 8 3 256)) 8 8 ∧
      ((vget taken.cus 6).cfg, (taken.thread 0).reg 2) ∈ (vget taken.cus 6).taken := by decide +kernel

/-- A run to the end of the buffer, and one with a bad burst in it. -/
theorem test_hyps_crc_run :
    let s := dev [2, 65535, 1]
    let bad : State := { s with dram := { s.dram with bad := [(0x10FFC0, .wcode)] } }
    let use : Use := { units := [.cu 6], handles := [2], reads := [.ofBytes 2 65535 1] }
    ready s use ∧ ready bad use ∧ (s.checkOpen 0 2).toOption.isSome ∧ 65535 + 1 ≤ 65536 ∧ s.dram.suspects (0x100000 + 65535) 1 = [] ∧
      bad.dram.faults = [] ∧ (bad.dram.suspects (0x100000 + 65535) 1).find? bad.dram.unreadable = some 0x10FFC0 ∧ (iw 1 1 2 3 6).fn.getLsbD 7 = false ∧ (iw 1 1 2 3 0x86).fn.getLsbD 7 = true := by
  decide +kernel

/-- A one-byte blit to the last byte of buffer 2 (R278), in scratch. -/
def bltBlock (off : Nat := 65535) (width : Nat := 1) : List Byte :=
  [0xCC, 0, 0, 0] ++ leBytes 2 width ++ [1, 0] ++ leBytes 8 0x100000002 ++ leBytes 8 off ++ List.replicate 40 0

def blits (b : List Byte) (f : BltDesc → BltDesc := id) : State × BltDesc :=
  let s := devB id |>.modThread 0 fun th => th.scratchWrite 0 b
  (s, f (bltOf ((iw 1).block (s.thread 0) 64)))

/-- A solid fill: operation 0 of the ROP ignores the source. -/
def fillBlock (off width : Nat) : List Byte := [0, 0, 0, 0] ++ leBytes 2 width ++ [1, 0, 2, 0] ++ List.replicate 6 0 ++ leBytes 8 off ++ List.replicate 40 0

theorem test_hyps_blt :
    let s := (blits (fillBlock 65535 1)).1
    let d := (blits (fillBlock 65535 1)).2
    let op : BltOp := { op := 0, thread := 0, who := .thread 0, d := d }
    let full : State := { s with blt := { queue := List.replicate 64 op } }
    (issues s ∧ s.dram.sr = .out ∧ s.syncOp 0 = none) ∧ (d.readsS = false ∧ d.tmp = 0 ∧ 0 < d.dst ∧ d.dst < 4032 ∧ s.bltFields d = true ∧
      d.dstOff + ((d.height - 1) * d.dstPitch + d.width * d.size) ≤ 65536) ∧ ((s.bltCheck 0 d).toOption.isSome) ∧ s.blt.queue.length < 64 ∧
      s.full 0 = false ∧ (iw).ue = false ∧
      ({ s with sboard := List.replicate 256 { op := 0, thread := 1, sync := false } } : State).full 0 = true ∧ (64 ≤ full.blt.queue.length ∧ (full.bltCheck 0 d).toOption.isSome) ∧
      (s.bltCheck 0 (blits (fillBlock 65535 0)).2).toOption = none ∧ s.bltFields (blits (fillBlock 65535 0)).2 = false ∧
      65536 < (blits (fillBlock 65536 1)).2.dstOff + ((1 - 1) * 0 + 1 * 1) ∧ s.bltFields (blits (fillBlock 65536 1)).2 = true := by
  decide +kernel

/-- A blit queued, at its gate, done, and with a row to do. -/
def bltState (f : BltOp → BltOp) (q : Bool) (p : Option Plan := none) : State × BltOp :=
  let d := (blits (fillBlock 65535 1)).2
  let o : BltOp := f { op := 0, thread := 0, who := .thread 0, d := d }
  ({ (blits (fillBlock 65535 1)).1 with
      blt := if q then { queue := [o] } else { cur := some o }
      plan := { next := none, cur := p.map fun p => { kind := .primary, prim := 0, slot := 0, plan := p, copies := {} } } }, o)

theorem test_hyps_blit_start :
    let s := bltState id true
    let z := (bltState id true (some { okPlan with res := [0, 0, 0, 0, 0, 0] })).1
    s.1.stopped = false ∧ s.1.dram.sr = .out ∧ s.1.blt.cur = none ∧ s.1.blt.queue = [s.2] ∧ sbBlocked s.1.sboard 0 = false ∧
      (z.plan?.map fun p => 1000000 * p.res.getD 0 0) = some 0 ∧ s.1.plan? = none ∧ s.2.d.twoPass = false ∧ s.2.d.gate = false ∧
      (s.1.bltRecheck 0 s.2.d).toOption = some () ∧
      ((devB fun b => { b with isSealed := true, owner := some 1 }).bltRecheck 0 s.2.d).toOption = none := by decide +kernel

theorem test_hyps_blit_gate :
    let w := bltState (fun o => { o with gateWait := true, gateHit := true }) false
    let v := bltState (fun o => { o with gateWait := true, d := { o.d with gate := true } }) false
    w.1.blt.cur = some w.2 ∧ w.2.gateWait = true ∧ w.2.gateHit = true ∧ v.1.tgRuns 0 = false ∧ v.2.d.gateTg = 0 ∧ v.2.gateHit = false := by
  decide +kernel

theorem test_hyps_blit_end :
    let e := bltState (fun o => { o with rows := 1 }) false
    let r := bltState (fun o => { o with res := some 0xC1 }) false
    let f := bltState (fun o => { o with flt := some (.seal, 0) }) false
    let s := e.1.modThread 0 fun th => { th with st := .waiting, wait := .unit }
    e.1.blt.cur = some e.2 ∧ e.2.rows = e.2.d.height ∧ e.2.firstPass = false ∧ r.2.res.isSome = true ∧ f.2.flt.isSome = true ∧ (s.thread 0).wait = .unit ∧
      s.blt.cur = some e.2 := by decide +kernel

theorem test_hyps_blit_row :
    let s := bltState id false (some { okPlan with res := [1, 0, 0, 0, 0, 0] })
    let cost := (s.1.bltRow s.2).cost s.2.d s.2.d.width s.2.d.readsD
    s.1.blt.cur = some s.2 ∧ s.2.rows < s.2.d.height ∧ 0 < s.2.d.size ∧ canon s.1 ∧ s.1.dram.bad = [] ∧ s.1.dram.faults = [] ∧ s.1.dram.epochUe = [] ∧
      s.2.flt = none ∧ s.2.res = none ∧ s.2.gateWait = false ∧ s.2.done < s.2.d.width ∧
      tabFind s.1.bufs.table s.2.d.dst = some { base := 0x100000, len := 65536, owner := some 0 } ∧
      (s.1.plan?.map fun p => 1000000 * p.res.getD 0 0) = some 1000000 ∧ cost ≤ 1000000 - 0 ∧ 1000000 - (1000000 - cost + 1) < cost := by
  decide +kernel

/-- A row of two bursts whose budget ends after the first. -/
theorem test_hyps_blit_cut :
    let d := (blits (fillBlock 65408 128)).2
    let o : BltOp := { op := 0, thread := 0, who := .thread 0, d := d }
    let p : Plan := { okPlan with res := [1, 0, 0, 0, 0, 0] }
    let s : State := { (blits (fillBlock 65408 128)).1 with
      blt := { cur := some o, spent := 1000000 - 64 }, plan := { cur := some { kind := .primary, prim := 0, slot := 0, plan := p, copies := {} } } }
    s.bltReach o = 64 ∧ o.done < 64 ∧ 64 < d.width := by decide +kernel

/-! ### The fabric -/

/-- Node 65 (row 1, column 1), with port `p` changed. -/
def devF (p : Fin 8) (f : Port → Port) (k : Fab → Fab := id) (g : List Reg := []) : State :=
  { dev g with fab := k { coord := some (1, 1), ports := vmod ({} : Fab).ports p f } }

/-- The partners of R427 that a port may meet, and every state that bring-up starts from. -/
theorem test_hyps_bring_up :
    let st := fun (x : PortState) (n : Nat) => (devF 3 fun y => { y with st := x, fails := n }).fab.ports[(3 : Fin 8)]
    ((st .down 0).st = .down ∧ 6 ≤ (dev).boot.stage.toNat ∧ dev.boot.stopped = false) ∧ ((st .training 6).st = .training ∧ (st .training 6).fails < 7) ∧
      ¬(st .training 7).fails < 7 ∧ (st .backoff 7).st = .backoff ∧ (st .absent 8).st = .absent ∧ (st .authenticating 7).st = .authenticating ∧
      (st .refused 0).st = .refused ∧ ((2 : BitVec 3).toNat / 2 = (3 : Fin 8).val / 2 ∧ (2 : BitVec 3).toNat ≠ 3) ∧ 4 ≤ (7 : BitVec 3).toNat ∧
      ((0xF0 : BitVec 8) &&& 0x0F).toNat = 0 ∧ ((0xFF : BitVec 8) &&& 0x80).toNat ≠ 0 := by decide +kernel

theorem test_hyps_link :
    let a := (devF 7 fun y => { y with st := .authenticating, partner := some ⟨1, 2, 3, [], [], false⟩ }).fab.ports[(7 : Fin 8)]
    let u := (devF 7 fun y => { y with st := .up, seen := 0x0F, lanes := 4, retrain := true }).fab.ports[(7 : Fin 8)]
    a.st = .authenticating ∧ a.partner = some ⟨1, 2, 3, [], [], false⟩ ∧ u.st = .up ∧ u.retrain = true ∧ 0 < u.lanes ∧
      u.seen &&& 0xF0 &&& 0xFF = 0 ∧ u.seen &&& 0x08 &&& 0xFF ≠ 0 := by decide +kernel

/-- A port that is UP, and the frame that its partner sends: MSG of one byte, class 1, LSEQ 9. -/
def up (p : Fin 8) (f : Port → Port := id) : State := devF p fun y => f { y with st := .up, link := .restricted, lseqRx := 8 }

def frame (f : FabHdr → FabHdr := id) (err : Nat := 0) : FabFrame :=
  let h : FabHdr := f { fhdr 1 with lseq := 9, ttl := 2, dst := 65 }
  ⟨err == 1, err == 2, err == 3, h, [7], Config.gcmTag 0 (leBytes 4 0 ++ leBytes 8 h.lseq.toNat) h.bytes [7], 0⟩

/-- The tag of that frame is good, and one more than it is not. -/
theorem test_hyps_frame_tag (f : FabHdr → FabHdr) :
    let y := (up 7).fab.ports[(7 : Fin 8)]
    let x := frame f
    Config.gcmTag y.rxKey (leBytes 4 y.rxSalt.toNat ++ leBytes 8 x.hdr.lseq.toNat) x.hdr.bytes x.payload = x.tag ∧
      Config.gcmTag y.rxKey (leBytes 4 y.rxSalt.toNat ++ leBytes 8 x.hdr.lseq.toNat) x.hdr.bytes x.payload ≠ ({ x with tag := x.tag + 1 } : FabFrame).tag := by
  constructor
  · rfl
  · show ∀ _, _
    intro h
    have : (frame f).tag = (frame f).tag + 1 := h
    bv_omega

theorem test_hyps_frame_checks :
    let y := (up 7).fab.ports[(7 : Fin 8)]
    let h := (frame).hdr
    y.st = .up ∧ y.retrain = false ∧ (frame id 1).symErr = true ∧ (frame id 2).ue = true ∧ (frame id 3).crcErr = true ∧
      y.lseqRx.toNat < h.lseq.toNat ∧ (8 : BitVec 64).toNat ≤ y.lseqRx.toNat ∧ h.rsvd = false ∧ h.len.toNat ≤ 2048 ∧ h.ftype = 2 ∧ h.tc = 1 ∧
      2048 < (2049 : BitVec 12).toNat ∧ y.link = .restricted ∧ h.bcast = false ∧ h.first = true ∧ h.last = true ∧ vget y.ctx 1 = none ∧
      (up 7).safe = false := by decide +kernel

/-- Where the frame goes: to this node with and without room, past the last hop, nowhere, and on. -/
theorem test_hyps_frame_goes :
    let on := (up 0).nextHop 66 1 false
    (up 7).node? = some 65 ∧ (up 7).queues[31].wmark = false ∧ (up 7).queues[31].upset = none ∧ itemSpace ([7] : List Byte) ≤ (up 7).queues[31].space ∧
      ({ up 7 with queues := vmod (up 7).queues 31 fun q => { q with cap := 0 } } : State).queues[31].space < itemSpace ([7] : List Byte) ∧
      (up 7).node? ≠ some 66 ∧ (1 : BitVec 8).toNat ≤ 1 ∧ 2 ≤ (2 : BitVec 8).toNat ∧ (up 7).nextHop 66 1 false = none ∧ on = some (0, false) := by
  decide +kernel

/-- A CLS item and others at the head of Q31. -/
def inQ31 (b : List Byte) (tags : List Bool) (f : State → State := id) : State :=
  f { up 7 with queues := vmod dev.queues 31 fun q => { q with ready := [b], tags := tags } }

set_option maxRecDepth 100000 in
theorem test_hyps_distribute :
    let s := inQ31 clipStart [true]
    let one := inQ31 clipStart [true] fun s => { s with streams := s.streams.set 15 { st := .paused, buf := 2 } }
    (s.queues[24 + (7 : Fin 8).val].ready = [clipStart] ∧ s.queues[31].take.isSome = true ∧ s.queues[31].tag = true ∧ s.queues[31].upset = none ∧ s.stopped = false ∧
        s.dram.bad = [] ∧ s.dram.faults = [] ∧ s.dram.epochUe = [] ∧ (inQ31 clipStart [false]).queues[31].tag = false) ∧
      (one.streams[(15 : Fin 16)].st ≠ .detached ∧ one.streams[(15 : Fin 16)].clipId.toNat = (clsOf clipStart).clip ∧
        one.queues[23].wmark = false ∧ one.queues[23].upset = none ∧ itemSpace clipStart ≤ one.queues[23].space) := by
  decide +kernel

/-- Frames in every class, a marked slot and one that is not. -/
def sending (f : Port → Port) : State := up 7 fun y => f { y with slot := 255 }

def outFrame (t : BitVec 4) (c : BitVec 2) : TxFrame := ⟨{ fhdr 1 with ftype := t, tc := c }, [7], none⟩

theorem test_hyps_transmit :
    let s := sending fun y => { y with tx0 := [outFrame 0 0], tx1 := [outFrame 2 1], tx2 := [outFrame 3 2], tx3 := [outFrame 3 3], mask := 2 ^ 255 }
    let y := s.fab.ports[(7 : Fin 8)]
    let it : TxItem := ⟨3, 3, false, false, 9, false, 65, 66, List.replicate 2049 0, 0, 0⟩
    y.st = .up ∧ y.retrain = false ∧ y.waiting = [] ∧ s.safe = false ∧ (∀ tc : Fin 4, vget y.openTx tc.val = none) ∧ y.mask.getLsbD y.slot = true ∧
      ({ y with mask := 1 } : Port).mask.getLsbD y.slot = false ∧ it.tc = 3 ∧ it.sentBytes + 2048 < it.bytes.length ∧ y.own = [] := by
  decide +kernel

theorem test_hyps_slot_start :
    let y := (sending fun y => { y with maskNext := some (1, 0) }).fab.ports[(7 : Fin 8)]
    (255 : Fin 256) ≠ 0 ∧ y.maskNext = some (1, 0) ∧ y.own = [] ∧ 0 ≤ (sending id).fab.ft ∧ (sending id).fab.ports[(7 : Fin 8)].maskNext = none := by
  decide +kernel

theorem test_hyps_fabric_time :
    let p := devF 7 id fun f => { f with parent := some 7, planet := some 4095 }
    issues dev ∧ (up 7).fab.ports[(7 : Fin 8)].st = .up ∧ (devF 0 id).node? = some 65 ∧ (∀ q : Fin 8, (devF 0 id).fab.ports[q].st ≠ .up) ∧
      (devF 0 id).fab.parent = none ∧ (devF 0 id).fab.tstate ≠ .planet ∧ p.fab.parent = some 7 ∧ p.fab.planet = some 4095 ∧
      ({ p with tg0 := { p.tg0 with src := 2 } } : State).tg0.src ≠ 0 := by decide +kernel

/-- `FSEND` of the last bytes of buffer 2, of 2,048 bytes and of none, with and without a route and room. -/
theorem test_hyps_fsend :
    let s := devF 0 (fun y => { y with st := .up }) id [66, 2, 63488, 4095]
    let w := iw 4 1 2 3 1 2048
    let full : State := { s with queues := vmod s.queues 32 fun q => { q with ready := List.replicate 2047 (List.replicate 64 0) } }
    let use : Use := { handles := [2], reads := [.ofBytes 2 63488 2048] }
    ready s use ∧ (s.checkOpen 0 2).toOption.isSome ∧ w.imm.toNat % 4096 = 2048 ∧ w.fn.toNat % 4 = 1 ∧ 63488 + 2048 ≤ 65536 ∧
      s.dram.suspects (0x100000 + 63488) 2048 = [] ∧ s.queues[32].wmark = false ∧ s.queues[32].upset = none ∧ s.node? ≠ some 66 ∧ s.nextHop 66 1 false = some (0, false) ∧ s.nextHop 4095 3 false = none ∧
      s.txRoom 0 [1] = true ∧ full.txRoom 0 (List.replicate 64 0) = false ∧ (iw 4 1 2 3 2).fn.toNat % 4 = 2 ∧ 2048 < (2049 : BitVec 32).toNat := by
  decide +kernel

/-- `FGROUP` RELEASE for the square of this node, at the first time that may be and at the last. -/
def fgroups (time : Nat) (ts : TimeState) (gop : Nat := 9) : State :=
  (devF 3 (fun y => { y with st := .up }) (fun f => { f with tstate := ts }) [0, BitVec.ofNat 64 time]).modThread 0 fun th =>
    th.scratchWrite 0 (leBytes 8 (gop + 0x41041 * 2 ^ 32) ++ List.replicate 56 0)

theorem test_hyps_fgroup :
    let b := fun s : State => (iw 4 1 2).block (s.thread 0) 64
    let s := fgroups 1000000 .locked
    ready s ∧ (iw 4 1 2).ue = false ∧ (s.thread 0).reg 2 = 1000000 ∧ s.ftLocked = true ∧ groupOk (fieldAt (b s) 0 2) (fieldAt (b s) 2 2) (bytesAt (b s) 8 56) = true ∧
      fieldAt (b s) 4 4 = 0x41041 ∧ s.targeted 0x41041 = true ∧ s.targeted 0 = false ∧ s.node? ≠ none ∧ s.fab.ports[(3 : Fin 8)].st = .up ∧ s.safe = false ∧
      s.fab.group.length < 64 ∧ (fgroups 1000000 .unlocked).ftLocked = false ∧ 999999 < s.fab.ft + 1000000 ∧ 10000000000 ≤ s.fab.ft + 10000000000 ∧
      groupOk (fieldAt (b (fgroups 1000000 .locked 10)) 0 2) 0 [] = false := by decide +kernel

/-- An owner key, a roster that names this device, and its node address make the device ENROLLED. -/
def enrolled (s : State) : State :=
  { s with
    fab := { s.fab with coord := some (1, 1) }
    sec := { s.sec with
      own := s.sec.own.set 0 { used := true }
      roster := some { seq := 0, clearOk := true, minCode := 0, thrPct := 0, noticeKey := 0, issuers := [], doc := []
                       entries := [⟨Config.serial, 65, Config.ownKeyId⟩] } } }

theorem test_hyps_enrolled (s : State) : (enrolled s).enrolled = true := by
  have h : (enrolled s).owned = true := by
    simp [State.owned, State.ownerSlot, enrolled]
    exact ⟨0, by simp, by simp⟩
  simp only [State.enrolled, h, Bool.true_and]
  simp [enrolled, State.node?]

/-- One group command pending for each opcode. -/
def grouped (gop : Nat) (b : List Byte) (f : State → State := id) : State :=
  f (devF 0 id fun x => { x with ft := 5, group := [⟨5, BitVec.ofNat 16 gop, 66, b⟩] })

theorem test_hyps_group :
    let g := fun (n : Nat) => grouped n (List.replicate 56 0)
    let first := fun s : State => (firstGroup s.fab.group).map (·.gop.toNat)
    (∀ n : Fin 9, first (g (n.val + 1)) = some (n.val + 1) ∧ (g (n.val + 1)).sequencing = true) ∧ 5 ≤ (g 1).fab.ft ∧
      firstGroup [⟨5, 1, 9, []⟩, ⟨4, 1, 66, []⟩, ⟨4, 2, 65, []⟩] = some ⟨4, 2, 65, []⟩ ∧ (g 5).higher .light .group = none ∧
      ({ g 5 with holds := [⟨.light, .hardware, 0⟩] } : State).higher .light .group ≠ none ∧
      (grouped 1 (7 :: List.replicate 55 0) fun s => { s with plan := (devP).plan }).plan.slots[(7 : Fin 8)].st = .loaded ∧
      (g 3).streams[(0 : Fin 16)].st ≠ .playing ∧ fieldAt (List.replicate 56 (0 : Byte)) 0 1 = 0 ∧ (g 6).scan.st = .scanning := by
  decide +kernel

/-- A document fragment of two, a broken one, and a grant that no check accepts. -/
theorem test_hyps_documents :
    let b : List Byte := [1, 0, 9, 0, 1, 2, 0, 0, 1, 0, 0, 0, 0, 0, 0, 0, 7]
    let s := fun (x : SecItem) => ({ dev with sec := { inbox := [x], docs := [⟨8, 1, 64, 5, []⟩] } } : State)
    (s ⟨false, b, none⟩).secRuns = true ∧ fragOk b = true ∧ 2 ≤ fieldAt b 5 1 ∧ (s ⟨false, b, none⟩).sec.docs.all (·.docId ≠ 9) = true ∧
      (s ⟨false, b, none⟩).sec.docs.length < 2 ∧ fragOk (b.take 15) = false ∧
      (s ⟨false, b, none⟩).sec.docs.find? (·.docId == 8) = some ⟨8, 1, 64, 5, []⟩ ∧
      (({ s ⟨true, [], none⟩ with sec := { docs := [] } } : State).grantCheck []).toOption = none := by decide +kernel

/-! ### The panel and scan-out -/

/-- The plan in force, TG0 running, the panel UP with all six rails used and good. -/
def panel (p : Plan := okPlan) (g : List Reg := []) (f : State → State := id) : State :=
  let s := dev g
  f { s with
    plan := { cur := some { kind := .primary, prim := 0, slot := 0, plan := p, copies := {} } }
    tg0 := { s.tg0 with running := true }
    pwr := { s.pwr with st := .up, pgd := 0x3F, cleared := true, huReady := true }
    trim := { s.trim with boardUp := { used := 0x3F, crackEn := true }, board := { used := 0x3F, crackEn := true } }
    pairs := s.pairs.set 0 { st := .aligned, drvId := some 5 } }

def withPwr (f : Pwr → Pwr) : State := panel okPlan [] fun s => { s with pwr := f s.pwr }

/-- Guards of the panel instructions, met and not met; the first and the last rail. -/
theorem test_hyps_power :
    let use : Use := { units := [.panel] }
    let d := withPwr fun p => { p with st := .down, pgd := 0 }
    let e := withPwr fun p => { p with lightReq := true }
    ready d use ∧ d.pwr.pfailLow = false ∧ d.pwr.huReady = true ∧ d.pwr.resp = none ∧ d.higher .rails .host = none ∧ d.trim.board.crackEn = true ∧
      d.trim.board.used.getLsbD 0 = true ∧ d.pwr.pgd.getLsbD 0 = false ∧ (withPwr id).pwr.st ≠ .down ∧ e.emitEn = true ∧ d.emitEn = false ∧
      (withPwr id).trim.boardUp.used.getLsbD 5 = true ∧ (withPwr id).pwr.pgd.getLsbD 5 = true ∧ ready (withPwr id) use ∧
      (∀ i : Fin 6, (withPwr id).trim.boardUp.used.getLsbD i.val = true → (withPwr id).pwr.pgd.getLsbD i.val = true) ∧
      (withPwr id).pwr.cleared = true ∧ (withPwr id).comp.lightHeld = false ∧ (withPwr id).higher .light .host = none ∧
      ((withPwr fun p => { p with pgd := 0x1F }).pwr.pgd.getLsbD 5 = false) := by decide +kernel

/-- The last driver, the longest transfer, and a field past each limit. -/
theorem test_hyps_pmbx :
    let w := iw 1 0
    let s := fun (f : State → State) (a n r : Nat) => ((f (panel)).modThread 0 fun th => th.scratchWrite 0 (leBytes 8 (a + n * 256 + r * 65536)))
    let b := fun s : State => w.block (s.thread 0) 112
    (ready (s id 63 48 48) ∧ w.ue = false ∧ fieldAt (b (s id 63 48 48)) 0 1 < 64 ∧ fieldAt (b (s id 63 48 48)) 1 1 ≤ 48 ∧ 1 ≤ fieldAt (b (s id 63 48 48)) 1 1 ∧
        fieldAt (b (s id 63 48 48)) 2 1 ≤ 48 ∧ (s id 63 48 48).pwr.st = .up ∧ canon (s id 63 48 48)) ∧
      (s (fun s => { s with pwr := {} }) 63 48 48).pwr.st ≠ .up ∧ 64 ≤ fieldAt (b (s id 64 1 0)) 0 1 ∧ fieldAt (b (s id 0 0 0)) 1 1 = 0 ∧
      48 < fieldAt (b (s id 0 49 0)) 1 1 ∧ 48 < fieldAt (b (s id 0 1 49)) 2 1 ∧ pmbOk .nak = none ∧ pmbOk .badCrc = none ∧ pmbOk .noAnswer = none := by
  decide +kernel

theorem test_hyps_responses :
    let q : RailSeq := { up := true, rail := 0, since := 0, who := .thread 0 }
    let s := withPwr fun p => { p with st := .rising, pgd := 0, seq := some q }
    let r := withPwr fun p => { p with resp := some 0, st := .falling }
    s.pwr.seq = some q ∧ s.trim.boardUp.used.getLsbD 1 = true ∧ s.pwr.pgd.getLsbD 1 = false ∧ (withPwr id).pwr.seq = none ∧
      (withPwr id).pwr.pfailLow = false ∧ (withPwr id).pwr.st = .up ∧ (withPwr id).trim.boardUp.crackEn = true ∧
      (withPwr fun p => { p with chgEn := true }).pwr.chgEn = true ∧ (withPwr id).pwr.chgEn = false ∧ r.pending = [] ∧ r.pwr.resp = some 0 ∧
      0 + 1100000 ≤ ({ r with now := 1099000 } : State).now + 1000 := by decide +kernel

theorem test_hyps_lanes :
    let s := panel
    let re := panel okPlan [] fun s => { s with pairs := s.pairs.set 0 { st := .realign, trained := true, fails := 7 } }
    s.pairs[(0 : Fin 48)].drvId = some 5 ∧ s.pwr.st = .up ∧ (6 : BitVec 32) ≠ 5 ∧ s.pairs[(0 : Fin 48)].st = .aligned ∧ (1 : BitVec 6).toNat ≠ (0 : Fin 48).val ∧
      (2 : BitVec 3).getLsbD 1 = true ∧ s.scan.st = .scanning ∧ (0 : Fin 48).val < s.trim.boardUp.drivers ∧ (0x0F0F0003 : BitVec 32).toNat % 4 = 3 ∧
      (0x0F0F0003 : BitVec 32).toNat / 16 % 16 = 0 ∧ (0x0F0F0003 : BitVec 32).toNat / 65536 % 256 < 16 ∧ 16 ≤ (0x10000003 : BitVec 32).toNat / 2 ^ 24 ∧
      re.pairs[(0 : Fin 48)].st = .realign ∧ re.pairs[(0 : Fin 48)].trained = true ∧
      re.vbl ≤ ({ re with tg0 := { re.tg0 with line := 1023 } } : State).tg0.line + 1 := by decide +kernel

/-- A TRAINING pair of a RETURNING quad before step 4 and after it, with what passes and what fails; the last try. -/
theorem test_hyps_returning_pair :
    let s := fun (done : Bool) (n : Nat) => panel okPlan [] fun s =>
      { s with pairs := s.pairs.set 0 { st := .training, trained := done, tries := n }, svc := { s.svc with quad := s.svc.quad.set 0 { st := .returning } } }
    let r : LaneRead := { stat := 3, lines := 0x00100010 }
    (s false 0).pwr.st = .up ∧ (s false 0).pairs[(0 : Fin 48)].st = .training ∧ (vget (s false 0).svc.quad (0 / 2)).st = .returning ∧
      (s false 0).pairs[(0 : Fin 48)].trained = false ∧ (s true 2).pairs[(0 : Fin 48)].trained = true ∧ (s true 2).plan? ≠ none ∧
      (s true 2).pairs[(0 : Fin 48)].tries < 3 ∧ (r.stat.toNat % 4 = 3 ∧ r.stat.toNat / 64 % 4 = 0) ∧
      (r.lines = 0x00100010 ∧ r.stat.toNat / 65536 = 0) ∧ (0x43 : BitVec 32).toNat / 64 % 4 ≠ 0 ∧ (0x0010000F : BitVec 32) ≠ 0x00100010 := by
  decide +kernel

/-- Self-refresh and row requests: the first and the last row, one row past it, an empty and a reversed range. -/
theorem test_hyps_self_refresh :
    let s := fun (a b : Reg) (st : ScanState) => panel okPlan [a, b] fun s => { s with scan := { s.scan with st := st, activeBegun := true } }
    let rows := fun a b : Nat => ({ writes := [.rows a b] } : Use)
    let clr := fun a b : Nat => ({ units := [.panel], writes := [.rows a b] } : Use)
    ready (s 0 0 .scanning) { units := [.panel] } ∧ ready (s 0 0 .scanning) (rows 0 0) ∧ (s 0 0 .scanning).pwr.st = .up ∧
      (s 0 0 .scanning).selfGuard = true ∧ dev.selfGuard = false ∧
      (s 0 0 .scanning).higher .selfRefresh .host = none ∧ (s 0 0 .scanning).scan.activeBegun = true ∧ (s 0 0 .holding).scan.st = .holding ∧
      (ready (s 15 1 .scanning) (rows 15 16) ∧ 15 + 1 ≤ okPlan.height ∧ (s 15 1 .scanning).plan? = some okPlan) ∧ okPlan.height < 16 + 1 ∧
      ready (s 0 65535 .scanning) (clr 0 16) ∧ (s 0 65535 .scanning).rowsH - 1 = 15 ∧ (s 0 65535 .scanning).emitEn = false ∧
      (s 0 15 .scanning).rowsH = 16 ∧ ready (s 0 15 .scanning) (clr 0 16) ∧ ready (s 15 14 .scanning) (clr 15 15) ∧ ready (s 0 16 .scanning) (clr 0 17) := by
  decide +kernel

theorem test_hyps_entry_point :
    let s := fun b : Bool => panel okPlan [] fun s =>
      { s with scan := { s.scan with st := .entering, pastEntry := b, enterTo := [.thread 0] }, streams := s.streams.set 15 { st := .playing, buf := 2 } }
    (s true).scan.st = .entering ∧ (s true).stopped = false ∧ (s false).scan.pastEntry = false ∧
      (s false).streams[(15 : Fin 16)].st = .playing ∧ (s false).streams[(15 : Fin 16)].detach = none := by decide +kernel

/-- The last blanking line, the first active line and the last one. -/
theorem test_hyps_line_start :
    let s := fun n : Nat => panel okPlan [] fun s => { s with tg0 := { s.tg0 with line := n }, out := { s.out with lines := [(0, [1, 2, 3])] } }
    (∀ n ∈ [1022, 1023, 1038], (s n).plan? = some okPlan ∧ (s n).tgRuns 0 = true ∧ (s n).scan.clearing = false ∧ (s n).scan.st = .scanning ∧
        (s n).pwr.st = .up ∧ (s n).tg0.noFrame = false ∧ n + 1 < okPlan.vbl + okPlan.height) ∧ 1022 + 1 < okPlan.vbl ∧ 1024 ≤ okPlan.vbl ∧
      okPlan.vbl < 1038 + 1 ∧ tabFind (s 1023).out.lines (1024 - okPlan.vbl) = some [1, 2, 3] ∧ (s 1023).scan.reqs = [] ∧
      (0 < (s 1023).trim.boardUp.drivers ∧ (s 1023).pairs[(0 : Fin 48)].st = .aligned ∧
        ({ s 1023 with comp := { (s 1023).comp with sent := true } } : State).comp.sent = true ∧ (s 1023).cap = none) ∧
      (let q : RowReq := { lo := 0, hi := 0, clear := false, who := .thread 0, active := true }
       let u : State := { s 1023 with scan := { (s 1023).scan with reqs := [q] } }
       q ∈ u.scan.reqs ∧ q.active = true ∧ q.clear = false ∧ q.hi = 1024 - okPlan.vbl ∧ q.who = .thread 0 ∧ (finished {} |>.thread 0).wait = .unit) := by
  decide +kernel

/-- Stored output whose frame store is buffer 2, at its last line. -/
def storing (f : State → State := id) (g : List Reg := []) : State :=
  panel { okPlan with outMode := 1, fsBuf := 2, fsCount := 1 } g fun s =>
    f { s with tg0 := { s.tg0 with line := 1007 }, out := { s.out with fetchLine := 15, scan := { buf := 2, w := 1, h := 16, full := true } } }

theorem test_hyps_line_fetch :
    let p : Plan := { okPlan with outMode := 1, fsBuf := 2, fsCount := 1 }
    let held := storing fun s => { s with sboard := [{ op := 0, thread := 1, sync := true, handles := [2], writes := [.ofBytes 2 960 64] }] }
    ((storing).plan.cur.map (·.plan)) = some p ∧ p.outMode = 1 ∧ (storing).tgRuns 0 = true ∧ (storing).tg0.noFrame = false ∧ (storing).out.fetchOf ≤ (storing).out.count ∧
      (storing).out.fetchAt = none ∧ (storing).out.pin = none ∧ (storing).out.fetchLine = 15 ∧ 15 < p.height ∧ 15 < (storing).out.scan.h ∧
      p.vbl + 15 ≤ (storing).tg0.line + 32 ∧
      (storing fun s => { s with tg0 := { s.tg0 with line := 1006 } }).tg0.line + 32 < p.vbl + 15 ∧ fsPitch p.width = 64 ∧
      tabFind (storing).bufs.table p.fsBuf = some { base := 0x100000, len := 65536, owner := some 0 } ∧ (storing).sboard = [] ∧
      (storing).dram.suspects (0x100000 + 960) 64 = [] ∧ held.sboard.all (fun o => o.pipe != some (8, 15)) = true ∧
      held.sboard.any (fun o => o.writes.any fun r => r.overlaps (.ofBytes 2 (0 + 15 * 64) 64)) = true := by decide +kernel

/-- Offsets of `TGADDR`: the last frame that fits, one unit past it, one that is not aligned, and the release of the pin. -/
theorem test_hyps_tgaddr :
    let use : Use := { units := [.tg 0], handles := [2] }
    let p : Plan := { okPlan with outMode := 1, fsBuf := 2, fsCount := 1 }
    ready (storing id [2, 64512]) use ∧ ((storing id [2, 0]).checkHandle 0 2).toOption.isSome ∧ 64512 % 64 = 0 ∧
      64512 + fsPitch p.width * p.height ≤ 65536 ∧ 65536 < 64576 + fsPitch p.width * p.height ∧ 64511 % 64 ≠ 0 ∧
      ((storing id [2, BitVec.allOnes 64]).thread 0).reg 2 = BitVec.allOnes 64 ∧ (storing).out.pin = none ∧ (storing).plan? = some p ∧ (ready (panel okPlan [2]) use ∧ okPlan.outMode ≠ 1) := by
  decide +kernel

/-- Intervals of `REF_IN` around T_ref = 2,560, held in sixteenths: a glitch, the edges of the window, one past it, a missing edge. -/
theorem test_hyps_ref :
    let s := panel okPlan [] fun s => { s with tg0 := { s.tg0 with refValid := true, tRef := 40960, src := 1, st := .locked } }
    s.stopped = false ∧ s.tg0.refValid = true ∧ s.tg0.src = 1 ∧ s.tg0.st = .locked ∧ 128 * 319 < s.tg0.tRef ∧ s.tg0.tRef ≤ 128 * 320 ∧
      (16 * 2570 * 256 ≤ s.tg0.tRef * 257 ∧ s.tg0.tRef * 255 ≤ 16 * 2550 * 256) ∧ ¬16 * 2571 * 256 ≤ s.tg0.tRef * 257 ∧
      ¬s.tg0.tRef * 255 ≤ 16 * 2549 * 256 ∧ s.tg0.tRef ≤ 8 * 5120 ∧ 8 * 5119 < s.tg0.tRef ∧ ({ s with tg0 := { s.tg0 with src := 2 } } : State).tg0.src ≠ 1 := by
  decide +kernel

/-- `TGSET` blocks at the edges of their fields, for TG2. -/
theorem test_hyps_tgset :
    let s := fun (mode lines lsym pline plen : Nat) =>
      (panel).modThread 0 fun th => th.scratchWrite 0 (leBytes 32 (mode + lines * 2 ^ 16 + lsym * 2 ^ 32 + pline * 2 ^ 80 + plen * 2 ^ 96))
    let w := iw 1 0 0 0 2
    let b := fun s : State => w.block (s.thread 0) 32
    let x := fun s : State => tgSetOf (b s)
    ready (s 3 2 64 1 1) { units := [.tg 2] } ∧ (s 3 2 64 1 1).higher .tgDiscipline .host = none ∧ (s 3 2 64 1 1).tgSetOk (b (s 3 2 64 1 1)) = true ∧
      (x (s 3 2 64 1 1)).mode ≠ 0 ∧ 3 < (x (s 4 2 64 1 1)).mode ∧ (x (s 3 1 64 0 0)).lines < 2 ∧ (x (s 3 2 63 1 1)).lsym < 64 ∧
      (x (s 3 2 64 2 1)).lines ≤ (x (s 3 2 64 2 1)).pline ∧ (x (s 3 2 64 1 0)).plen = 0 ∧ (x (s 3 2 64 1 2)).lines ≤ (x (s 3 2 64 1 2)).plen ∧
      w.ue = false ∧ w.fn.toNat % 4 = 2 ∧ (iw 1 0 0 0 3).fn.toNat % 4 = 3 ∧ (x (s 3 2 64 1 1)).offset < (x (s 3 2 64 1 1)).lines * (x (s 3 2 64 1 1)).lsym := by
  decide +kernel

theorem test_hyps_tgset_off :
    let s := (panel).modThread 0 fun th => th.scratchWrite 0 (leBytes 32 (2 * 2 ^ 16 + 64 * 2 ^ 32 + 2 ^ 48 + 2 ^ 64 + 2 ^ 80 + 2 ^ 96))
    s.tgSetOk ((iw 1 0 0 0 1).block (s.thread 0) 32) = true ∧ (tgSetOf ((iw 1 0 0 0 1).block (s.thread 0) 32)).mode = 0 := by
  decide +kernel

theorem test_hyps_tg_frame :
    let s := panel okPlan [] fun s => { s with tg2 := { set := { mode := 3, lines := 2 }, staged := some { mode := 0 }, who := .thread 0 } }
    let one := fun off : Nat => panel okPlan [] fun s => { s with tg0 := { s.tg0 with line0 := 6410 }, tg1 := { set := { mode := 1, lines := 2, rn := 1, rm := 1, offset := off } } }
    s.stopped = false ∧ (s.tg true).set.mode ≠ 0 ∧ (s.tg true).staged ≠ none ∧ (s.tg true).who = .thread 0 ∧
      (((one 0).tg false).staged = none ∧ ((one 0).tg false).set.mode = 1 ∧ (one 0).tgRuns 0 = true ∧ (((one 0).tg false).starts + 1) % 1 = 0) ∧
      (one 0).startsNow ((one 0).tg false).set 1 = true ∧
      (one 9999999).tg0.sym + (if (one 9999999).tg0.line = 0 then (one 9999999).tg0.line0 else (one 9999999).lineSym) ≤ 9999999 := by
  decide +kernel

theorem test_hyps_period :
    let go := panel okPlan [] fun s => { s with plan := { s.plan with next := s.plan.cur } }
    let fresh := panel okPlan [] fun s => { s with plan := { cur := none, next := s.plan.cur }, fab := { s.fab with tstate := .unlocked } }
    let done := panel okPlan [] fun s =>
      { s with plan := {}, scan := { s.scan with clearing := true, reqs := [{ lo := 0, hi := 1, clear := true, who := .thread 0, active := true }] } }
    go.tg0.running = true ∧ go.therm.tripped = false ∧ go.safe = false ∧ go.plan.next.isSome = true ∧ go.plan.cur ≠ none ∧ go.tg0.stepNext = false ∧
      fresh.plan.cur = none ∧ (okPlan.tg0Src ≠ 0 ∨ fresh.ftLocked = false) ∧ done.plan.next = none ∧ done.scan.clearing = true ∧ done.tg0.noFrame = false ∧
      done.scan.st = .scanning ∧ (∀ r ∈ done.scan.reqs, r.active = true) := by decide +kernel

/-- Frame ends: every check good, each check failing, at each edge of the runs. -/
def frameEnd (f : Comp → Comp := id) : State := panel okPlan [] fun s => { s with comp := f { s.comp with ended := false, psum := 120 } }

theorem test_hyps_frame_end :
    let s := frameEnd
    s.tgRuns 0 = true ∧ s.comp.ended = false ∧ s.plan? = some okPlan ∧ (s.tg0.noFrame = true → okPlan.outMode = 1) ∧
      (s.comp.psum = s.expectSum okPlan ∧ s.comp.pageUe = false) ∧ s.comp.crcSeen = s.comp.crcMade ∧ s.comp.expectAlive = none ∧
      (frameEnd fun c => { c with psum := 1 }).comp.psum ≠ s.expectSum okPlan ∧
      (frameEnd fun c => { c with crcSeen := 0 }).comp.crcSeen ≠ 0xFFFFFFFF ∧
      (frameEnd fun c => { c with crcMade := 0, expectAlive := some 1 }).comp.expectAlive ≠ some 0 ∧ 14 < 15 ∧
      (frameEnd fun c => { c with page := .page 0, pageRun := 3, passRun := 15 }).comp.page ≠ .none ∧
      (frameEnd fun c => { c with sent := true, expectAlive := some 1 }).comp.expectAlive ≠ some (frameEnd).comp.laneAlive ∧
      (let p : Plan := { okPlan with outMode := 1, fsBuf := 2 }
       let st := panel p [] fun s => { s with
         comp := { s.comp with ended := false, sent := true }, out := { s.out with lane := { pageOk := true }, slots := [{ frame := 0 }] } }
       st.tgRuns 0 = true ∧ st.comp.ended = false ∧ st.plan? = some p ∧ st.tg0.noFrame = false ∧ st.out.lane.pageOk = true ∧
         (st.out.slots.map (·.frame)) = [st.out.frame] ∧ ({ st with comp := { st.comp with sent := false } } : State).comp.sent = false) := by
  decide +kernel

/-! ### Notices, audio, trims and temperatures -/

theorem test_hyps_notices :
    let s := panel okPlan [] fun s => { s with comp := { s.comp with pins := 8, rise := 1, pkgNext := some default, run1 := #v[15, 14, 0, 0], run0 := #v[0, 0, 0, 99999] } }
    let act : Activation := { start := 0, stop := 1, page := 7 }
    let a : State := { dev with fab := { dev.fab with tstate := .locked }, comp := { dev.comp with acts := [default, act] } }
    s.comp.pins.getLsbD 3 = true ∧ s.comp.pins.getLsbD 0 = false ∧ (s.comp.rise &&& ~~~(0 : BitVec 4) &&& ~~~s.comp.pins) = BitVec.ofNat 4 (2 ^ 0) ∧
      (s.comp.rise &&& ~~~(1 : BitVec 4) &&& ~~~s.comp.pins) = 0 ∧ 16 ≤ s.comp.run1[(0 : Fin 4)] + 1 ∧ ¬16 ≤ s.comp.run1[(1 : Fin 4)] + 1 ∧
      ¬s.comp.run0[(3 : Fin 4)] + 1 < 100000 ∧ s.comp.pkgNext = some default ∧ s.stopped = false ∧ s.plan? ≠ none ∧
      ({ s with plan := {} } : State).plan? = none ∧ (a.comp.pins = 0 ∧ a.comp.acts.getLast? = some act ∧ a.ftLocked = true ∧ act.start ≤ a.fab.ft ∧
        a.fab.ft < act.stop) := by decide +kernel

/-- `ASET` blocks: the largest fields, and one past each. -/
def audio (l : List Nat) (f : State → State := id) : State :=
  f ((panel).modThread 0 fun th => th.scratchWrite 0 ((l.map (BitVec.ofNat 8)) ++ List.replicate (64 - l.length) 0))

def goodAudio (stream : Nat := 15) : List Nat := [1, 4, 255, 255, 64, 0, 64, 0, 0xFF, 0xFF, 0, 0, stream, 0, 0, 0, 0x33, 0x23, 0x13, 3, 0, 0, 0, 0]

theorem test_hyps_aset :
    let w := iw 1 0
    let b := fun l : List Nat => w.block ((audio l).thread 0) 64
    let plays := audio (goodAudio) fun s => { s with streams := s.streams.set 15 { st := .playing, buf := 2 } }
    ready (audio (goodAudio)) { units := [.audio] } ∧ w.ue = false ∧ (audOfBlock (b (goodAudio))).isSome = true ∧ (audio (goodAudio)).audPlaying 15 = false ∧
      (plays.audPlaying 15 = true ∧ plays.aud.cfg.rate ≠ 1) ∧ 1 < fieldAt (b [2, 0]) 0 1 ∧ 4 < fieldAt (b [0, 5]) 1 1 ∧
      fieldAt (b [0, 0, 0, 0, 63]) 4 2 < 64 ∧ fieldAt (b [0, 0, 0, 0, 64, 0, 63]) 6 2 < 64 ∧ 15 < fieldAt (b (goodAudio 16)) 0x0C 1 ∧
      fieldAt (b (goodAudio 16)) 0x0C 1 ≠ 255 ∧ 64 ≤ fieldAt (b ((goodAudio).take 23 ++ [64])) (0x10 + 7) 1 := by decide +kernel

theorem test_hyps_staged_audio :
    let s := (panel).modThread 0 fun th => { th with st := .waiting, wait := .unit }
    let on := fun r : Nat => ({ s with aud := { s.aud with staged := some { ref := r }, who := .thread 0 } } : State)
    (on 0).therm.tripped = false ∧ (on 0).safe = false ∧ (on 3).aud.staged = some { ref := 3 } ∧ (on 3).aud.who = .thread 0 ∧
      ((on 3).thread 0).wait = .unit ∧ 3 ≠ (on 3).aud.cfg.ref := by decide +kernel

/-- Output 7 follows pair 3 of the programme; its sample frame is there, or not. -/
theorem test_hyps_programme :
    let s := panel okPlan [] fun s => { s with aud := { s.aud with
      outRun := 0x80, idx := some 5, store := [(5, [1, 2, 3, 4, 5, 6, 7, 8])], cfg := { s.aud.cfg with outSrc := [0, 0, 0, 0, 0, 0, 0, 19] } } }
    s.aud.staged = none ∧ s.aud.idx = some (5 : Int) ∧ s.aud.leadLeft = 0 ∧ (tabFind s.aud.store 5).isSome = true ∧ tabFind s.aud.store 6 = none ∧
      s.aud.outRun.getLsbD 7 = true ∧ s.aud.cfg.outSrc.getD 7 0 = 16 + 3 ∧ s.aud.outRun.getLsbD 0 = false := by decide +kernel

/-- Edges of an audio reference at 48 kHz, where T is 512. -/
theorem test_hyps_audio_reference :
    let s := fun (st : Disc) (n : Nat) => panel okPlan [] fun s => { s with aud := { s.aud with st := st, goodIvals := n, badRun := #v[0, 1], cfg := { s.aud.cfg with ref := 3 } } }
    let a := (s .locked 15).aud
    a.cfg.ref ≠ 0 ∧ a.cfg.ref ≠ 4 ∧ a.cfg.refT = 512 ∧ 8 * 63 < a.cfg.refT ∧ a.cfg.refT ≤ 8 * 64 ∧
      (255 * a.cfg.refT ≤ 256 * 510 ∧ 256 * 514 ≤ 257 * a.cfg.refT) ∧ ¬255 * a.cfg.refT ≤ 256 * 509 ∧ ¬256 * 515 ≤ 257 * a.cfg.refT ∧
      a.st = .locked ∧ (s .acquiring 14).aud.goodIvals < 15 ∧ (s .acquiring 14).aud.st ≠ .locked ∧ 15 ≤ (s .acquiring 15).aud.goodIvals ∧
      2 * a.cfg.refT ≤ 1024 ∧ 1023 < 2 * a.cfg.refT ∧ (a.cfg.ref = 2 + (1 : Fin 2).val ∧ a.badRun[(1 : Fin 2)] = 1) ∧ a.cfg.ref ≠ 2 + (0 : Fin 2).val ∧
      (s .holdover 0).aud.st = .holdover := by decide +kernel

/-- A trim record at the end of buffer 2, whose first word alone is masked in, and the block of `TRIMSTAGE`. -/
def trims (kind off : Nat) (f : State → State := id) : State :=
  let s := (panel).modThread 0 fun th => th.scratchWrite 0 (leBytes 16 (kind + 2 * 2 ^ 16 + off * 2 ^ 64))
  f { s with mem := [(0x10F000, 0x54), (0x10F001, 0x52), (0x10F002, 0x49), (0x10F003, 0x4D), (0x10F004, 1), (0x10F005, 1), (0x10F010, 1), (0x10F020, 128)] }

/-- Every junction sensor and remote input 0 read in the flash window. -/
def cool (s : State) : State :=
  { s with
    therm := { s.therm with sensors := Vector.ofFn fun i => if i.val < 24 then { temp := some (16 * 110) } else { temp := some (16 * 85) } }
    trim := { s.trim with board := { s.trim.board with trem := [1, 0, 0, 0] }, boardBoot := { s.trim.boardBoot with trem := [1, 0, 0, 0] } } }

set_option maxRecDepth 100000 in
theorem test_hyps_trimstage :
    let s := trims 1 61440
    let b := (iw 1 0).block (s.thread 0) 16
    let d := Memory.readN s.mem (0x100000 + 61440) 4096
    let use : Use := { units := [.trim], handles := [2], reads := [.ofBytes 2 61440 4096] }
    ready s use ∧ (iw 1 0).ue = false ∧ fieldAt b 0 1 = 1 ∧ fieldAt b 2 2 = 2 ∧ fieldAt b 8 8 = 61440 ∧ fieldAt b 1 1 = 0 ∧ fieldAt b 4 4 = 0 ∧ (s.checkOpen 0 2).toOption.isSome ∧
      61440 + 4096 ≤ 65536 ∧ 65536 < 61441 + 4096 ∧ s.dram.suspects (0x100000 + 61440) 4096 = [] ∧ frameOk d 1 = true ∧ bodyOk 1 d = true ∧
      frameOk (Memory.readN s.mem (0x100000 + 61376) 4096) 1 = false ∧ s.flashWindow = false ∧ (cool s).flashWindow = true ∧
      fieldAt ((iw 1 0).block ((trims 3 61440).thread 0) 16) 0 1 = 3 := by decide +kernel

theorem test_hyps_trimapply :
    let use : Use := { units := [.trim] }
    let staged := fun s : State => ({ s with trim := { s.trim with stagedTrim := some (⟨1, [5]⟩, []), stagedBoard := some ({}, []) } } : State)
    ready (dev []) use ∧ (dev []).trim.stagedTrim = none ∧ (dev []).trim.stagedBoard = none ∧ ready (staged (dev [])) use ∧ (staged (dev [])).plan? = none ∧
      (staged (panel)).plan? ≠ none ∧ (staged (dev [])).trim.stagedTrim ≠ none := by decide +kernel

/-- The last trim word and sensor, and one past them. -/
theorem test_hyps_tread :
    let s := fun n : Reg => cool (dev [n])
    ready (s 63) ∧ (iw 1 1 0 0 1).fn.getLsbD 0 = true ∧ ((s 63).thread 0).reg 1 = 63 ∧ 64 ≤ ((s 64).thread 0).reg 1 ∧ 28 ≤ ((s 28).thread 0).reg 1 ∧
      (s 27).trim.board.trem.getD (27 - 24) 0 = 0 ∧ (s 24).trim.board.trem.getD 0 0 ≠ 0 ∧ (s 24).therm.sensors[(24 : Fin 28)].bad = false ∧
      (s 24).therm.sensors[(24 : Fin 28)].temp = some 1360 ∧ (dev []).therm.sensors[(24 : Fin 28)].temp = none := by
  decide +kernel

/-- Samples at a limit of 2,480 and 4 °C below it, at the edges of the sensors' ranges. -/
theorem test_hyps_temperatures :
    let up : Thr := { upRun := 2 }
    let down : Thr := { conf := true, downRun := 2 }
    let s := cool dev
    up.conf = false ∧ (2480 : Int) ≤ 2480 ∧ up.upRun = 2 ∧ ({} : Thr).upRun ≠ 2 ∧ down.conf = true ∧ (2416 : Int) ≤ 2480 - 64 ∧ down.downRun = 2 ∧
      (2480 : Int) - 64 < 2417 ∧ s.therm.sensors[(23 : Fin 28)].bad = false ∧ s.trim.board.trem.getD (24 - 24) 0 ≠ 0 ∧ s.therm.tripped = false ∧
      s.thrEnabled 0 = true ∧ s.classMax 0 = some (0, 1760) ∧ ([some (2800 : Int), some (-880), some (-881), none][2]? = some (some (-881))) ∧
      ({ s with therm := { s.therm with tripped := true } } : State).therm.tripped = true := by decide +kernel

theorem test_hyps_mr4 :
    let s := fun (c : Bool) (n : Nat) => ({ dev with therm := { dev.therm with mr4Conf := c, mr4Up := n, mr4Down := n } } : State)
    (s false 0).dramRuns = true ∧ ({ dev with dram := { dev.dram with sr := .inSr } } : State).dramRuns = false ∧
      Mr4.above ∈ ([Mr4.normal, .above] : List Mr4).take 16 ∧ Mr4.above ∉ ([Mr4.normal] : List Mr4).take 16 ∧ (s false 2).therm.mr4Conf = false ∧
      2 ≤ (s false 2).therm.mr4Up ∧ (s false 1).therm.mr4Up < 2 ∧ (s true 2).therm.mr4Conf = true ∧ 2 ≤ (s true 2).therm.mr4Down := by
  decide +kernel

theorem test_hyps_lifetime :
    let s := cool dev
    let kept : State := { s with flash := { s.flash with life := #v[some ⟨1, [], true⟩, none] } }
    (cool dev).hottest (List.range 24) = some (0, 1760) ∧ dev.hottest (List.range 24) = none ∧ (1760 : Int) < 16 * 125 ∧ (16 * 105 : Int) ≤ 1760 ∧
      s.flashWindow = true ∧ s.flash.running = none ∧ dev.flashWindow = false ∧ newestDoc kept.flash.life = some (false, ⟨1, [], true⟩) := by
  decide +kernel

theorem test_hyps_device_write :
    let s : State := { dev with flash := { dev.flash with deferred := [(3, [1])] } }
    let r : State := { dev with flash := { dev.flash with running := some (3, true, [1]) } }
    s.flash.deferred = [(3, [1])] ∧ s.flash.running = none ∧ s.flashWindow = false ∧ (cool s).flashWindow = true ∧ r.flash.running = some (3, true, [1]) ∧
      r.flash.deferred = [] := by decide +kernel

/-! ### Service, the host, resets and the safe state -/

theorem test_hyps_flash_commands :
    let s := fun (a : BitVec 27) (f : State → State) => f { dev with boot := { dev.boot with mode := 2 }, host := { dev.host with flashAddr := a } }
    (s 0 id).boot.mode = 2 ∧ (s 0 id).host.busy = false ∧ dev.boot.mode ≠ 2 ∧ (0x1000 : BitVec 32).toNat / 2 ^ 14 % 4 = 0 ∧
      (0x1000 : BitVec 32).toNat % 2 ^ 13 = 4096 ∧ (s 0x7FFF000 id).host.flashAddr.toNat + 4096 ≤ 2 ^ 27 ∧
      2 ^ 27 < (s 0x7FFF001 id).host.flashAddr.toNat + 4096 ∧ 4096 < (0x1001 : BitVec 32).toNat % 2 ^ 13 ∧ (0x4000 : BitVec 32).toNat / 2 ^ 14 % 4 = 1 ∧
      (0x8100 : BitVec 32).toNat / 2 ^ 14 % 4 = 2 ∧ (s 0 id).host.flashAddr.toNat % 256 + 256 ≤ 256 ∧ 256 < (s 1 id).host.flashAddr.toNat % 256 + 256 ∧
      (s 0 id).flashWindow = false ∧ (s 0 cool).flashWindow = true ∧ (0xC001 : BitVec 32).toNat / 2 ^ 14 % 4 = 3 ∧
      (s 0 fun d => { d with host := { d.host with busy := true } }).host.busy = true := by decide +kernel

theorem test_hyps_flash_done :
    let s := fun op : Nat => ({ dev with host := { dev.host with busy := true, flashRun := BitVec.ofNat 32 (op * 2 ^ 14 + 256), flashAt := 0x7FFFF00 } } : State)
    ∀ op : Fin 3, canon (s op.val) = true ∧ (s op.val).host.busy = true ∧ (s op.val).host.flashRun.toNat / 2 ^ 14 % 4 = op.val := by
  decide +kernel

/-- The last gallery, quad and port, and one past each; a port in every service state. -/
def unitAt (r : Reg) (st : SvcState) (f : SvcUnit → SvcUnit := id) (plan : Bool := false) : State :=
  let s := if plan then panel okPlan [r] else dev [r]
  match unitOf r with
  | some x => s.modUnit x fun u => f { u with st := st }
  | none => s

theorem test_hyps_service :
    let u : UnitName := (0x2A, 23)
    let use : Use := { units := [u.ctrl] }
    let s := fun st => unitAt 0x2A17 st
    unitOf 0x2A17 = some u ∧ unitOf 0x180F = some (0x18, 15) ∧ unitOf 0x0907 = some (9, 7) ∧ unitOf 0x2A18 = none ∧ unitOf 0x1810 = none ∧
      unitOf 0x0908 = none ∧ ready (s .inService) ∧ ready (s .inService) use ∧ (s .inService).higher .service .host = none ∧
      (s .inService).removable u false = true ∧ (s .testing).removable u false = false ∧ (unitAt 0x2A17 .inService id true).plan? ≠ none ∧
      (s .inService).plan? = none ∧ (unitAt 0x2A17 .outOfService (fun x => { x with logicPass := true })).unit u = { st := .outOfService, logicPass := true } ∧
      ((s .outOfService).unit u).logicPass = false ∧ (unitAt 0x180F .outOfService fun x => { x with logicPass := true }).unit (0x18, 15) =
        { st := .outOfService, logicPass := true } ∧ (iw 1 1 2).fn.getLsbD 7 = false ∧ (iw 1 1 2 0 0x80).fn.getLsbD 7 = true := by
  decide +kernel

theorem test_hyps_self_test :
    let s := (unitAt 0x2A17 .testing fun x => { x with test := some (false, .pass, .thread 0) }).modThread 0 fun th => { th with st := .waiting, wait := .unit }
    s.sequencing = true ∧ ((0x2A, 23) : UnitName) ∈ allUnits ∧ (s.unit (0x2A, 23)).st = .testing ∧
      (s.unit (0x2A, 23)).test = some (false, .pass, .thread 0) ∧ (∀ y ∈ allUnits, y ≠ (0x2A, 23) → (s.unit y).test = none) ∧
      (s.thread 0).st = .waiting ∧ (s.thread 0).wait = .unit := by decide +kernel

/-- Register writes at the edges of their ranges, in PROGRAM mode. -/
theorem test_hyps_registers_of_host :
    let s : State := { dev with boot := { dev.boot with mode := 2 }, host := { dev.host with pba := 2 ^ 63 } }
    s.bar0Open = true ∧ ({ s with boot := { s.boot with mode := 1 } } : State).bar0Open = false ∧ canon s = true ∧
      (0x3FF8 : BitVec 16).toNat + 8 ≤ 0x4000 ∧ 0x9000 ≤ (0x9000 : BitVec 16).toNat ∧ (dev.boot.mode ≠ 2 ∧ (0x7FF8 : BitVec 16).toNat + 8 ≤ 0x8000) ∧
      (0x5000 ≤ (0x5FF8 : BitVec 16).toNat ∧ (0x5FF8 : BitVec 16).toNat + 8 ≤ 0x6000) ∧ (0x83FC : BitVec 16).toNat = 0x8000 + 16 * (63 : Fin 64).val + 12 ∧
      s.host.pba.getLsbD 63 = true ∧ s.host.pba.getLsbD 0 = false ∧ 0x1007 < 0x1008 := by decide +kernel

/-- BAR4: the last mapped byte of buffer 2's granule, and the first that is not mapped. -/
theorem test_hyps_bar4 :
    let bad : State := { dev with dram := { dev.dram with bad := [(0x1FFFC0, .wcode)] } }
    dev.bar4Open = true ∧ ({ dev with boot := { dev.boot with stage := 7 } } : State).bar4Open = false ∧
      dev.bufs.table.any (fun e => e.2.isSealed == false && decide (e.2.base < 2 ^ 36 ∧ e.2.base < (0x1FFFFF / 2 ^ 20 + 1) * 2 ^ 20 ∧
        0x1FFFFF / 2 ^ 20 * 2 ^ 20 < e.2.base + e.2.len)) = true ∧
      dev.bufs.table.all (fun e => !decide (0x200000 / 2 ^ 20 * 2 ^ 20 < e.2.base + e.2.len)) = true ∧ dev.dram.unreadable 0x1FFFFF = false ∧
      (bad.dram.unreadable 0x1FFFFF = true ∧ bad.dram.unreadable 0x1FFFBF = false ∧ (∀ e ∈ bad.dram.bad, e.1 % 64 = 0) ∧ bad.dram.faults = []) ∧
      (dev.dram.bad = [] ∧ dev.dram.faults = [] ∧ dev.dram.epochUe = []) ∧ canon dev = true := by decide +kernel

theorem test_hyps_bar4_writes : (∀ h, dev.locked h = false) ∧ dev.canonical ∧ ∀ a, dev.inUse a = false :=
  ⟨fun h => by
    have a : dev.heldPlans = [] := by decide +kernel
    have b : dev.cap = none := rfl
    simp [State.locked, a, b], test_dev_canonical [], fun a => by
    have b : dev.sboard = [] := rfl
    simp [State.inUse, b]⟩

/-- A write to the end of a locked buffer, within its granule. -/
theorem test_hyps_bar4_locked :
    mapped2.locked 2 = true ∧ (0x10FFFF ≤ 0x10FFFF ∧ 0x10FFFF + 1 ≤ 0x100000 + 65536) ∧ mapped2.bar4Open = true ∧
      (2, { base := 0x100000, len := 65536, owner := some 0 }) ∈ mapped2.bufs.table ∧
      (∀ e ∈ mapped2.bufs.table, e ≠ (2, { base := 0x100000, len := 65536, owner := some 0 }) → e.2.base + e.2.len ≤ 0x100000) := by
  decide +kernel

theorem test_hyps_resets :
    ({ dev with therm := { dev.therm with tripped := true } } : State).therm.tripped = true ∧ dev.therm.tripped = false ∧ dev.pwr.seq = none := by
  decide +kernel

/-! #### A cold boot that reaches READY -/

/-- A table of consecutive bytes reads back as those bytes. -/
theorem tabGet_block (d : Byte) (a : Nat) (l : List Byte) (b i : Nat) (hi : i < l.length) (hb : b = a + i) :
    tabGet d ((l.zipIdx a).map fun x => (x.2, x.1)) b = l.getD i d := by
  subst hb
  induction l generalizing a i with
  | nil => simp at hi
  | cons x r ih =>
    simp only [List.zipIdx_cons, List.map_cons, tabGet]
    cases i with
    | zero => simp
    | succ i =>
      rw [if_neg (by omega)]
      have := ih (a + 1) i (by simpa using hi)
      rw [show a + (i + 1) = a + 1 + i by omega, this]
      simp

/-- A flash that holds one block of bytes. -/
def flashWith (a : Nat) (l : List Byte) : Flash := { bytes := (l.zipIdx a).map fun x => (x.2, x.1) }

theorem flashWith_read (a : Nat) (l : List Byte) : (flashWith a l).read a l.length = l := by
  apply List.ext_getElem
  · simp [Flash.read]
  · intro i h _
    have hi : i < l.length := by simpa [Flash.read] using h
    simp only [Flash.read, flashWith, List.getElem_map, List.getElem_range]
    rw [tabGet_block 0xFF a l (a + i) i hi rfl]
    simp [List.getD_eq_getElem?_getD, hi]

/-- A BOARD record: one driver, 6,400 MT/s, every used field at the lowest value that is good. -/
def boardBody : List Byte :=
  leBytes 4 0x4D495254 ++ [2, 1, 0, 0] ++ leBytes 4 1 ++ [0, 0, 0, 0] ++ [16, 0] ++ leBytes 2 6400 ++ [1, 1] ++ leBytes 2 1 ++ [0, 0] ++
    leBytes 2 8 ++ leBytes 2 16 ++ leBytes 2 17 ++ List.replicate 6 1 ++ List.replicate 12 0 ++ List.replicate 14 0 ++ List.replicate 64 0 ++
    List.replicate 448 0 ++ (List.replicate 80 [0, 1, 2, 3, 4, 5, 6, 7]).flatten ++ List.replicate 2876 0

def boardRec : List Byte := boardBody ++ leBytes 4 (crc32c boardBody)

set_option maxRecDepth 100000 in
theorem boardRec_length : boardBody.length = 4092 ∧ boardRec.length = 4096 := by decide +kernel

set_option maxRecDepth 100000 in
theorem boardRec_body : frameOk boardRec 2 = true ∧ boardOk boardRec = true := by decide +kernel

theorem boardRec_crc : fieldAt boardRec 0xFFC 4 = crc32c (boardRec.take 0xFFC) := by
  have h := boardRec_length.1
  rw [fieldAt, boardRec, List.take_left' h, List.drop_left' h, List.take_of_length_le (by simp), leNat_leBytes]
  exact Nat.mod_eq_of_lt (crc32c_lt _)

set_option maxRecDepth 100000 in
theorem boardRec_other : frameOk ((flashWith (recordAt 2 false) boardRec).read (recordAt 2 true) 4096) 2 = false := by
  decide +kernel

theorem newest_copyA (f : Flash) (kind : Nat) (a : List Byte) (h1 : f.read (recordAt kind false) 4096 = a) (h2 : recordValid kind a = true)
    (h3 : recordValid kind (f.read (recordAt kind true) 4096) = false) : f.newest kind = some (false, a) := by
  unfold Flash.newest
  simp only [h1, h2, h3]

theorem boardRec_valid : recordValid 2 boardRec = true := by
  rw [recordValid, boardRec_body.1, boardRec_crc, bodyOk, if_neg (by decide), boardRec_body.2]
  simp only [beq_self_eq_true, Bool.and_self]

theorem boardRec_read : (flashWith (recordAt 2 false) boardRec).read (recordAt 2 false) 4096 = boardRec := by
  have := flashWith_read (recordAt 2 false) boardRec
  rwa [boardRec_length.2] at this

theorem boardRec_alone : recordValid 2 ((flashWith (recordAt 2 false) boardRec).read (recordAt 2 true) 4096) = false := by
  rw [recordValid, boardRec_other]
  simp only [Bool.false_and]

/-- A flash whose newest BOARD record is that one, copy A (R489). -/
theorem test_hyps_board_record : ∃ f : Flash, f.newest 2 = some (false, boardRec) :=
  ⟨_, newest_copyA (flashWith (recordAt 2 false) boardRec) 2 boardRec boardRec_read boardRec_valid boardRec_alone⟩

theorem test_hyps_cold_boot :
    let e : BootEnv := ⟨[], .valid 64 true, .badCheck, true, 16, [6400], 0, 0, 0, 0⟩
    State.reset.boot.fresh = true ∧ State.reset.therm.tripped = false ∧ dev.boot.fresh = false ∧ State.reset.boot.mode = 0 ∧ e.sramFails = [] ∧
      e.fwA = .valid 64 true ∧ e.fwB = .badCheck ∧ State.reset.sec.bootSvn ≤ 64 ∧ 6400 ∈ e.trainsAt ∧ e.vddFuse = true ∧ 7200 ∉ e.trainsAt := by
  decide +kernel

set_option maxRecDepth 100000 in
theorem test_hyps_cold_boot_board : (boardOf boardRec).density = (16 : BitVec 8).toNat ∧ (boardOf boardRec).rate = 6400 := by
  decide +kernel

theorem test_hyps_no_board : State.reset.flash.bytes = [] ∧ frameOk (State.reset.flash.read (recordAt 2 false) 16) 2 = false := by
  decide +kernel

/-! #### Start-up programs -/

/-- Start-up entry 7: an image of 8 zero bytes for thread 7, with its check value, in modes 0 and 1. -/
def startFlash (f : List Byte → List Byte := id) : Flash :=
  let e := leBytes 4 0x1000 ++ leBytes 4 8 ++ leBytes 4 0 ++ leBytes 4 (crc32c (List.replicate 8 0)) ++ List.replicate 12 0 ++ [7, 1] ++ List.replicate 18 0
  { bytes := ((f e).zipIdx (0x3800000 + 0x10 + 48 * 7)).map (fun x => (x.2, x.1)) ++ ((List.replicate 8 (0 : Byte)).zipIdx 0x3801000).map fun x => (x.2, x.1) }

def starts (f : List Byte → List Byte := id) (mode : BitVec 2 := 0) : State := { dev with boot := { dev.boot with mode := mode }, flash := startFlash f }

theorem test_hyps_start_entry :
    let e := (starts).flash.startEntry (7 : Fin 8).val
    let bad := (starts fun e => e.set 4 9).flash.startEntry 7
    let crc := (starts fun e => e.set 12 0).flash.startEntry 7
    let image := (starts).flash.read (0x3800000 + fieldAt e 0 4) (fieldAt e 4 4)
    fieldAt e 29 1 % 2 = 1 ∧ startRange e = true ∧ crc32c image = fieldAt e 12 4 ∧ fieldAt e 20 4 = 0 ∧ 32 ≤ (starts).queues[7].space ∧
      (starts).queues[7].wmark = false ∧ fieldAt bad 4 4 % 8 ≠ 0 ∧ startRange crc = true ∧ crc32c image ≠ fieldAt crc 12 4 ∧
      (starts id 1).boot.mode = 1 ∧ fieldAt ((starts fun e => e.set 29 0).flash.startEntry 7) 29 1 % 2 = 0 ∧ canon { starts with flash := {} } = true ∧
      (starts).queues[7].upset = none := by decide +kernel

theorem test_hyps_safe_state :
    let al := fun (f : SubCh → SubCh) => ({ dev with dram := { dev.dram with capar := true, subs := dev.dram.subs.set 15 (f {}) } } : State)
    let recent := fun s : State => (s.dram.subs[(15 : Fin 16)].alerts.filter fun t => decide (s.now < t + 1000000)).length
    dev.therm.tripped = false ∧ dev.safe = false ∧ dev.dram.reqs = [] ∧ (al id).dram.subs[(15 : Fin 16)].retry = [] ∧
      paSub 0x1E00 = 15 ∧
      ({ dev with safe := true } : State).safe = true ∧ dev.pwr.seq = none ∧ 4 ≤ dev.boot.stage.toNat ∧
      5 ≤ dev.boot.stage.toNat ∧ State.reset.boot.stage.toNat < 2 ∧ (al id).dramRuns = true ∧ (al id).dram.capar = true ∧
      (al id).dram.subs[(15 : Fin 16)].failed = false ∧ 3 ≤ recent (al fun c => { c with alerts := [0, 0, 0] }) ∧
      recent (al fun c => { c with alerts := [0, 0] }) < 3 ∧ (al fun c => { c with replaying := true }).dram.subs[(15 : Fin 16)].replaying = true ∧
      dev.dram.capar = false ∧ (al fun c => { c with failed := true }).dram.subs[(15 : Fin 16)].failed = true ∧
      ({ dev with sec := { debug := true } } : State).sec.debug = true ∧ dev.sec.debug = false := by decide +kernel

/-! ### Synthesis, output and memory -/

/-- A frame in composition with one gallery, a depth layer 63 whose image is buffer 2, and a graphic layer 7. -/
def composes (f : State → State := id) (p : Plan → Plan := id) : State :=
  let e : LayerEntry := { en := true, w := 33, h := 33, imgBuf := 2 }
  panel (p { okPlan with layers := List.replicate 63 {} ++ [e] }) [] fun s =>
    f { s with
      layers := s.layers.set 63 { buf := 2, hasImg := true, clear := false, w := 33, h := 33 }
      synth := { s.synth with places := [some 15], done := [0] } }

theorem test_hyps_ring :
    let s := composes
    let p := s.nextPlan
    s.composing.isSome = true ∧ (s.composing.map fun g => s.ringNext g.plan 63) = some (some 0) ∧
      (s.composing.map fun g => s.ringNext g.plan 0) = some none ∧
      tabFind s.bufs.table s.layers[(63 : Fin 64)].buf = some { base := 0x100000, len := 65536, owner := some 0 } ∧
      (s.dram.bad = [] ∧ s.dram.faults = [] ∧ s.dram.epochUe = []) ∧ p.outMode ≠ 2 ∧ s.synth.culled = false ∧
      (composes fun s => { s with synth := { s.synth with culled := true } }).synth.culled = true := by decide +kernel

/-- The last tile column of a line in a ring, whose segment is lost; and one that is zero already. -/
theorem test_hyps_ring_lost :
    let l : RingLine := { line := 32, culled := [], zeroed := [0], data := [] }
    let s := composes fun s => { s with synth := { s.synth with rings := s.synth.rings.set 63 [l] } }
    s.synth.rings[(63 : Fin 64)].find? (·.line == 32) = some l ∧ s.synth.rings[(63 : Fin 64)].find? (·.line == 31) = none ∧
      (s.composing.map fun g => decide (1 < tilesX (g.plan.layer 63).w)) = some true ∧ 1 ∉ l.zeroed ∧ 1 ∉ l.culled := by
  decide +kernel

theorem test_hyps_gallery :
    let s := composes (fun s => { s with layers := State.reset.layers })
    let full := composes fun s => { s with synth := { s.synth with done := [16] } }
    s.synth.places.findIdx? (· == some (15 : Fin 16).val) = some 0 ∧ s.synth.done.getD 0 0 = 0 ∧ 0 < okPlan.nhy ∧ okPlan.gReq ≠ 0 ∧
      okPlan.umapFmt = 0 ∧ okPlan.gfxOn = [] ∧ (s.composing.map fun g => s.rowReady g.plan 0) = some true ∧
      (s.composing.map fun g => decide (0 ≤ s.weaveLow g.plan + 1)) = some true ∧ okPlan.nhy ≤ full.synth.done.getD 0 0 ∧
      (composes.composing.map fun g => composes.rowReady g.plan 0) = some false ∧ s.comp.page = .none ∧
      (s.dram.bad = [] ∧ s.dram.faults = [] ∧ s.dram.epochUe = []) ∧ (s.composing.map fun g => decide (s.weaveLow g.plan + 1 < 2)) = some true := by
  decide +kernel

/-- A page of the package in force, whose buffer is there, and one without; a graphic layer whose rows are held. -/
theorem test_hyps_gallery_page :
    let s := panel okPlan [] fun s => { s with
      comp := { s.comp with page := .page 1, pkg := some { (default : Pkg) with set := 0 } }
      bufs := { s.bufs with table := s.bufs.table ++ [(pageHandle 0 1, { base := 0x200000, len := 64, owner := none, isSealed := true })] } }
    let g := composes (fun s => { s with comp := { s.comp with gfxLine := [(7, 0, [], []), (7, 1, [], [])] } })
      fun p => { p with gEn := 0x80, gfx := List.replicate 7 {} ++ [{ buf := 2, w := 1, h := 16, pitch := 64 }] }
    s.comp.page = .page 1 ∧ s.shownPage ≠ none ∧ ({ s with comp := { s.comp with page := .page 0 } } : State).shownPage = none ∧
      (g.composing.map fun c => g.gfxHeld c.plan 7 0 && g.gfxHeld c.plan 7 1) = some true := by decide +kernel

/-- The arithmetic of one ray at the ends of its range. -/
theorem test_hyps_ray : (0 ≤ (4095 : Int) ∧ (4095 : Int) ≤ 4095) ∧ ({ a := 4095, r := 4095, g := 0, b := 0 } : Sample).a = 4095 ∧ 4095 ≤ 4095 := by
  decide +kernel

theorem test_hyps_release :
    let s := composes fun s => { s with synth := { s.synth with done := [1] } }
    let st := composes (fun s => { s with synth := { s.synth with done := [16] }, out := { s.out with nextRow := 15 } })
      fun p => { p with outMode := 1, fsBuf := 2, fsCount := 1 }
    s.composing.isSome = true ∧ s.out.nextRow = 0 ∧ 0 < okPlan.hv ∧ (∀ x ∈ s.synth.places.zip s.synth.done, x.1.isSome = true → 0 < x.2) ∧
      (s.composing.map fun g => s.emptyBands g.plan 0) = some [] ∧ s.tg0.line < okPlan.vbl + 0 ∧
      (st.dram.bad = [] ∧ st.dram.faults = [] ∧ st.dram.epochUe = []) ∧ (st.composing.map fun g => st.emptyBands g.plan 15) = some [] ∧
      tabFind st.bufs.table 2 = some { base := 0x100000, len := 65536, owner := some 0 } ∧
      (let none' := composes fun s => { s with synth := { s.synth with places := [none], done := [0] }, out := { s.out with nextRow := 2, lines := [(0, [])] } }
       (none'.composing.map fun g => none'.emptyBands g.plan none'.out.nextRow) = some [(0, okPlan.nhx)] ∧
         (none'.composing.map fun g => decide (none'.weaveLow g.plan + 1 < none'.out.nextRow)) = some true ∧ okPlan.gfxOn = []) ∧ (∃ x ∈ composes.synth.places.zip composes.synth.done, x.1.isSome = true ∧ x.2 ≤ 0) ∧
      (st.composing.map fun g => g.plan.outMode) = some 1 ∧ okPlan.nhy = st.out.nextRow + 1 ∧ canon st = true ∧ 0 < s.tg0.line + okPlan.vbl := by
  decide +kernel

theorem test_hyps_cell_fault :
    let s := composes fun s => { s with plan := { s.plan with prim := some 0, slots := s.plan.slots.set 0 { st := .inForce, plan := { okPlan with gReq := 16 } } } }
    let out := s.modUnit (0x18, 15) fun u => { u with st := .outOfService }
    s.svc.gallery[(15 : Fin 16)].st = .inService ∧ out.svc.gallery[(15 : Fin 16)].st = .outOfService ∧ s.trigUnit (0x18, 15) = true ∧
      composes.trigUnit (0x18, 15) = false ∧ s.synth.places.findIdx? (· == some 15) = some 0 ∧ s.synth.logged1706 = false := by
  decide +kernel

/-- Graphic layer 7 in buffer 2, with a write to its row pending. -/
theorem test_hyps_torn_graphic :
    let s := composes (fun s => { s with sboard := [{ op := 0, thread := 1, sync := true, handles := [2], writes := [.ofBytes 2 0 65536] }] })
      fun p => { p with gEn := 0x80, gfx := List.replicate 7 {} ++ [{ buf := 2, w := 1, h := 16, pitch := 64 }] }
    (7 : Reader).val < 8 ∧ (s.dram.bad = [] ∧ s.dram.faults = [] ∧ s.dram.epochUe = []) ∧ (s.composing.map fun g => g.plan.gfxOn) = some [7] ∧ (s.composing.map fun g => s.gfxBlocked g.plan 7 s.needRow) = some (some 1) ∧
      (s.composing.map fun g => s.gfxHeld g.plan 7 s.needRow) = some false ∧
      (s.composing.map fun g => tabFind s.bufs.table (g.plan.gfxLayer 7).buf) = some (some { base := 0x100000, len := 65536, owner := some 0 }) := by
  decide +kernel

theorem test_hyps_torn_line :
    let p : Plan := { okPlan with outMode := 1, fsBuf := 2, fsCount := 1 }
    let s := storing fun s => { s with sboard := [{ op := 0, thread := 1, sync := true, handles := [2], writes := [.ofBytes 2 960 64] }] }
    (8 : Reader).val = 8 ∧ s.fetchPlan = some p ∧ dev.fetchPlan = none ∧ 0 < s.out.fetchLine ∧ s.noLine 15 = false ∧
      (let x := s.linePlace p 15
       tabFind s.bufs.table x.1 = some { base := 0x100000, len := 65536, owner := some 0 } ∧ s.pendingWrite (8, 15) x.1 x.2.1 (fsPitch x.2.2) = some 1 ∧
         s.dram.suspects (0x100000 + x.2.1) (fsPitch x.2.2) = [] ∧ (storing).pendingWrite (8, 15) x.1 x.2.1 (fsPitch x.2.2) = none) := by
  decide +kernel

/-- A capture of 1 × 33 pixels into buffer 2, at its first tile row and at its last. -/
def capturing (f : Capture → Capture := id) : State :=
  panel okPlan [] fun s => { s with cap := some (f { buf := 2, count := 1, state := 1, frameStart := 8192, w := 1, h := 33, lines := List.replicate 32 [1, 2, 3] }) }

theorem test_hyps_capture :
    let s := capturing
    (s.cap.map (·.state)) = some 1 ∧ s.stopped = false ∧ ((capturing fun c => { c with state := 2 }).cap.map (·.state)) = some 2 ∧
      (s.cap.map fun c => min 32 (c.h - 32 * c.rows)) = some 32 ∧ (s.cap.map fun c => c.lines.length) = some 32 ∧
      ((capturing fun c => { c with lines := c.lines.take 31 }).cap.map fun c => decide (c.lines.length < 32)) = some true ∧
      ((capturing fun c => { c with h := 65, lines := c.lines ++ c.lines }).cap.map fun c => decide (64 ≤ c.lines.length)) = some true ∧
      (s.dram.bad = [] ∧ s.dram.faults = [] ∧ s.dram.epochUe = []) ∧
      tabFind s.bufs.table 2 = some { base := 0x100000, len := 65536, owner := some 0 } ∧ (s.cap.map (·.frames)) = some 0 ∧ canon s = true ∧
      (s.cap.map fun c => decide (c.frameStart + 8 * (tilesX c.w * tilesY c.h) + (encodeTile (tileRect c.w c.h 0).tw false (lineTile (c.lines.take 32) (tileRect c.w c.h 0))).length ≤ 65536 ∧
        c.rows + 1 < tilesY c.h)) = some true := by decide +kernel

/-- Playback from buffer 2: frame 0 is one FLAT tile. -/
theorem test_hyps_playback :
    let p : Plan := { okPlan with outMode := 2, cpBuf := 2, cpCount := 1, cpFirst := 0 }
    let s := panel p [] fun s => { s with mem := [(0x101001, 0x20), (0x102000, 8), (0x102001, 0x20), (0x102008, 2), (0x10200A, 5)] }
    s.tgRuns 0 = true ∧ (s.plan.cur.map (·.plan.outMode)) = some 2 ∧ (s.dram.bad = [] ∧ s.dram.faults = [] ∧ s.dram.epochUe = []) ∧ s.tg0.line < p.vbl + 0 ∧ s.out.cacheRow = 0 ∧ 0 < tilesY p.height ∧ s.out.lines = [] ∧
      tabFind s.bufs.table p.cpBuf = some { base := 0x100000, len := 65536, owner := some 0 } ∧ tabFind s.bufs.table ({ p with cpBuf := 9 } : Plan).cpBuf = none ∧
      4096 + 16 * 0 + 16 ≤ 65536 ∧ tilesX p.width = 1 ∧ tilesY p.height ≤ 1 ∧ leNat (Memory.readN s.mem (0x100000 + 4096) 16) = 8192 ∧
      leNat (Memory.readN s.mem (0x100000 + 8192) 8) = 8200 ∧ 8192 + 8 ≤ 65536 ∧ 8200 + 9 ≤ 65536 ∧
      (match decodeRecord true true p.width p.height (tileRect p.width p.height 0) (fun _ _ => 0) (Memory.readN s.mem (0x100000 + 8200) (4 + 5)) with
        | .ok _ => true | .error _ => false) = true := by decide +kernel

/-- Subchannel 15: a request waits, none waits, refreshes owed and pulled in at their limits. -/
theorem test_hyps_dram_slot :
    let r : DramReq := { id := 9, port := 21, pa := 0, len := 64, write := false }
    let s := fun (l : List DramReq) (f : SubCh → SubCh) => ({ dev with dram := { dev.dram with reqs := l, raammt := 1, subs := dev.dram.subs.set 0 (f {}) } } : State)
    (s [r] id).dramRuns = true ∧ (s [r] id).dram.subs[(0 : Fin 16)].failed = false ∧ (s [r] id).pickReq 0 = some r ∧ paSub r.pa = 0 ∧
      4 < (s [] fun c => { c with owed := 5 }).dram.subs[(0 : Fin 16)].owed ∧ ((s [] id).dram.reqs.filter fun r => paSub r.pa == 0) = [] ∧
      (s [] fun c => { c with ahead := 3 }).dram.subs[(0 : Fin 16)].ahead < 4 ∧ 4 ≤ (s [] fun c => { c with ahead := 4 }).dram.subs[(0 : Fin 16)].ahead ∧
      (vget (s [r] id).dram.subs[(0 : Fin 16)].banks (paBank r.pa)).raa + 1 ≤ (s [r] id).dram.raammt ∧
      (vget (s [r] fun c => { c with banks := Vector.replicate 32 { raa := 1 } }).dram.subs[(0 : Fin 16)].banks (paBank r.pa)).row ≠ some (paRow r.pa) ∧
      (s [r] id).dram.raammt < 1 + 1 ∧ (s [r] id).grantable r = true ∧ (s [] id).dram.subs[(0 : Fin 16)].rfm = [] ∧
      (let job : ZeroJob := { lo := 0x200000, hi := 0x300000, isSealed := true }
       let z := { s [] id with bufs := { dev.bufs with zeroing := [job] } }
       z.zeroTarget = some job ∧ (z.zeroRun 0).isSome = true ∧ (s [] id).zeroRun 0 = none ∧ (s [] id).zeroTarget = none) ∧
      (paSub (64 / 64 * 64) = 0 ∧ 64 / 64 * 64 < dev.dram.capacity ∧ dev.dram.burstBad 64 = none) ∧
      ((1 : BitVec 18).toNat ∉ dev.dram.epochUe ∧ (1 : BitVec 18).toNat * 1048576 < dev.dram.capacity) := by decide +kernel

/-- Symbol errors: one that is corrected, three that are not, and the generator's own pattern, which only the tag shows. -/
theorem test_hyps_symbol_errors :
    let one := wordReads [⟨false, 35, 1⟩] false
    let two := wordReads [⟨true, 0, 1⟩, ⟨true, 1, 1⟩, ⟨true, 2, 3⟩] true
    let s : State := { dev with dram := { dev.dram with faults := [(64, [⟨false, 35, 1⟩])] } }
    s.dram.burstBad 64 = none ∧ tabFind s.dram.faults (64 / 64 * 64) = some [⟨false, 35, 1⟩] ∧ s.dram.suspects 64 64 = [64] ∧ s.dram.readsBad 64 = none ∧ one = (1, none) ∧ wordReads [⟨false, 35, 1⟩] true = (0, none) ∧
      two.2 = some .wcode ∧
      wordReads [⟨true, 31, 1⟩, ⟨true, 32, 0x0F⟩, ⟨true, 33, 0x36⟩, ⟨true, 34, 0x78⟩, ⟨true, 35, 0x40⟩] true = (0, some .tag) := by
  decide +kernel

theorem test_hyps_dram_time :
    let r : DramReq := { id := 9, port := 14, pa := 0, len := 64, write := false, urg := 2 }
    let s := fun (f : Dram → Dram) => ({ dev with dram := f { dev.dram with reqs := [r] } } : State)
    ((s id).dram.reqs.find? (·.id == 9)) = some r ∧ (s id).portSpent 14 = false ∧ r.urg ≠ 3 ∧ (s id).dramRuns = true ∧
      (let e : Throttle := { port := 14, sub := 0, bank := 0, left := 2, last := 0 }
       e ∈ (s fun d => { d with throttled := [e] }).dram.throttled ∧ e.sub = (0 : Fin 16).val ∧ 1 < e.left) ∧ (s id).dram.idleSr = false ∧ (s id).dram.reqs ≠ [] ∧
      (s fun d => { d with idleSr := true, reqs := [] }).zeroTarget = none ∧
      ({ dev with bufs := { dev.bufs with zeroing := [{ lo := 0, hi := 1048576, isSealed := true }] } } : State).zeroTarget ≠ none ∧
      (s fun d => { d with idleSr := true, reqs := [] }).dram.idleSr = true ∧ (s fun d => { d with idleSr := true, reqs := [] }).dram.reqs = [] ∧ (s fun d => { d with sr := .entering }).dram.sr = .entering ∧
      (s fun d => { d with sr := .inSr }).dram.sr = .inSr ∧ (s id).therm.tripped = false ∧ (s id).safe = false ∧
      (s fun d => { d with subs := d.subs.set 0 { ahead := 1 } }).dram.subs[(0 : Fin 16)].ahead ≠ 0 := by decide +kernel


end Sys2Proof.Tests
end

section
/-! SUPPORT. What a record does to ERR_TOTAL, and that records, items and results only ever set event bits. -/

namespace Sys2Proof.Machine

/-- All that a record can do: it leaves the error log with ERR_TOTAL one higher, and may have posted an item to Q40 (R519-R525). -/
theorem State.report_cases (s : State) (code block info : Nat) : ∃ e : ErrLog, e.total = s.err.total + 1 ∧
    (s.report code block info = { s with err := e } ∨ ∃ e' chip r n k,
      s.report code block info = { (({ s with err := e' } : State).post40 chip r n k).1 with err := e }) := by
  have kept : ∀ (e : ErrLog) (chip : Bool) (r n k : Nat), (({ s with err := e } : State).post40 chip r n k).1.err = e := by
    intro e chip r n k
    rw [State.post40_frame]
  simp only [State.report]
  generalize (if (errLevel code info == 3) = true then _ else s.err.lastChip) = last
  split
  · split
    · exact ⟨_, rfl, .inl rfl⟩
    · exact ⟨_, by simp only [kept], .inr ⟨_, _, _, _, _, rfl⟩⟩
  · split
    · exact ⟨_, by simp only [kept], .inr ⟨_, _, _, _, _, rfl⟩⟩
    · exact ⟨_, by simp only [kept], .inr ⟨_, _, _, _, _, rfl⟩⟩

/-- A record counts in ERR_TOTAL, suppressed or not (R519, R524). -/
@[simp] theorem State.report_total (s : State) (code block info : Nat) :
    (s.report code block info).err.total = s.err.total + 1 := by
  obtain ⟨e, he, h | ⟨_, _, _, _, _, h⟩⟩ := State.report_cases s code block info
  · rw [h]; exact he
  · rw [h]; exact he

/-- Every event bit of `s` is still set in `u` (R232). -/
def EventsKept (s u : State) : Prop :=
  ∀ (t : Tid) (i : Nat), (s.thread t).evt.getLsbD i = true → (u.thread t).evt.getLsbD i = true

theorem EventsKept.trans {s u v : State} (h : EventsKept s u) (k : EventsKept u v) : EventsKept s v :=
  fun t i hi => k t i (h t i hi)

/-- Only the threads of the two states count. -/
theorem EventsKept.congr {s s' u u' : State} (h : EventsKept s u) (hu : u'.threads = u.threads) (hs : s.threads = s'.threads) :
    EventsKept s' u' := by
  intro t i hi
  have hk := h t i
  simp only [State.thread, hs, ← hu] at hk
  exact hk hi

theorem EventsKept.of_threads {s u : State} (h : u.threads = s.threads) : EventsKept s u := by
  intro t i hi
  rwa [State.thread, h]

theorem EventsKept.refl (s : State) : EventsKept s s := .of_threads rfl

theorem State.eventFor_eventsKept (s : State) (p : Tid → Bool) (b : BitVec 32) : EventsKept s (s.eventFor p b) := by
  intro t i hi
  rw [State.eventFor_thread]
  split
  · simp [hi]
  · exact hi

theorem State.raise_eventsKept (s : State) (v : Nat) : EventsKept s (s.raise v) := .of_threads (State.raise_threads s v)

theorem State.putQueueRaw_eventsKept (s : State) (i : Fin 64) (q : Queue) : EventsKept s (s.putQueueRaw i q).1 := by
  simp only [State.putQueueRaw]
  split
  · refine (State.eventFor_eventsKept s (fun t => q.subs.getLsbD t) 0x10).trans (.of_threads ?_)
    split
    · rw [State.raise_threads]
      rfl
    · rfl
  · exact .of_threads rfl

theorem State.post41_eventsKept (s : State) (item : List Byte) : EventsKept s (s.post41 item) := by
  simp only [State.post41]
  split
  · have h : EventsKept s (((s.putQueueRaw 41 (s.queues[41].push item)).1).raise 9) :=
      (State.putQueueRaw_eventsKept _ _ _).trans (State.raise_eventsKept _ _)
    split
    · exact h.trans (.of_threads rfl)
    · exact h
  · exact .of_threads rfl

theorem State.putQueue_eventsKept (s : State) (i : Fin 64) (q : Queue) : EventsKept s (s.putQueue i q) := by
  simp only [State.putQueue]
  split
  · exact (State.putQueueRaw_eventsKept _ _ _).trans (State.post41_eventsKept _ _)
  · exact State.putQueueRaw_eventsKept _ _ _

theorem State.post40_eventsKept (s : State) (chip : Bool) (r n k : Nat) : EventsKept s (s.post40 chip r n k).1 := by
  simp only [State.post40]
  generalize (if chip = true then 32 else 1024) = room
  split
  · exact (State.putQueue_eventsKept _ _ _).trans (State.raise_eventsKept _ _)
  · exact .of_threads rfl

theorem State.report_eventsKept (s : State) (code block info : Nat) : EventsKept s (s.report code block info) := by
  obtain ⟨e, -, h | ⟨e', chip, r, n, k, h⟩⟩ := State.report_cases s code block info
  · rw [h]
    exact .of_threads rfl
  · rw [h]
    exact (State.post40_eventsKept _ chip r n k).congr rfl rfl

theorem State.modThread_eventsKept (s : State) (t : Tid) (f : Thread → Thread) (h : (f (s.thread t)).evt = (s.thread t).evt) :
    EventsKept s (s.modThread t f) := by
  intro v i hi
  rw [State.modThread_eq]
  by_cases hv : v = t
  · subst hv
    rwa [State.setThread_thread, h]
  · rwa [State.setThread_thread_other _ _ _ _ hv]

theorem State.deliver_eventsKept (s : State) (d : Deliver) (x : Done) : EventsKept s (s.deliver d x) := by
  cases d with
  | thread t => exact State.modThread_eventsKept _ _ _ (by split <;> rfl)
  | async t op => exact State.modThread_eventsKept _ _ _ rfl
  | group gop src => exact (State.eventFor_eventsKept _ _ _).trans (State.post41_eventsKept _ _)
  | nobody => exact .refl _

/-- A device event sets its bit in every thread's event word (R232). -/
theorem State.event_sets (s : State) (bit : Nat) (h : bit < 32) (t : Tid) : ((s.event bit).thread t).evt.getLsbD bit = true := by
  simp only [State.event, State.eventFor_thread, if_true, BitVec.getLsbD_or, BitVec.getLsbD_ofNat, h, Nat.testBit_two_pow_self,
    decide_true, Bool.and_self, Bool.or_true]

end Sys2Proof.Machine
end

section
/-! SUPPORT. DRAM without errors: what reads and writes of it do, and the bytes that a write of any length leaves. -/

namespace Sys2Proof.Machine

/-- No burst is listed as uncorrectable, none holds symbol errors, no epoch entry is lost. -/
def Dram.ErrorFree (d : Dram) : Prop := d.bad = [] ∧ d.faults = [] ∧ d.epochUe = []

theorem Dram.ErrorFree.burstBad {d : Dram} (h : d.ErrorFree) (a : Nat) : d.burstBad a = none :=
  Dram.burstBad_none d h.1 h.2.2 a

theorem Dram.ErrorFree.suspects {d : Dram} (h : d.ErrorFree) (a n : Nat) : d.suspects a n = [] :=
  Dram.suspects_none d h.1 h.2.1 h.2.2 a n

theorem State.meetBurst_errorFree (s : State) (a : Nat) (h : s.dram.ErrorFree) : s.meetBurst a = s := by
  have hf : tabFind s.dram.faults (a / 64 * 64) = none := by rw [h.2.1]; rfl
  simp only [State.meetBurst, h.burstBad a, hf]

/-- A read that marks nothing gives the bytes of its range, and only its request is new. -/
theorem State.readMarked_errorFree (s : State) (b : Buf) (off n port : Nat) (h : s.dram.ErrorFree) :
    s.readMarked b off n port = (s.dramRequest port (b.base + off) n false, Memory.readN s.mem (b.base + off) n, []) := by
  have hs : (s.dramRequest port (b.base + off) n false).dram.suspects (b.base + off) n = [] :=
    Dram.ErrorFree.suspects (d := (s.dramRequest port (b.base + off) n false).dram) h _ _
  simp [State.readMarked, State.readMarks, State.meetErrors, Dram.badIn, hs]

/-- From `s` to `u` memory becomes `m`; only the DRAM controller and the numbers of its requests may change besides, and DRAM stays
without errors. -/
structure CleanWrite (s u : State) (m : List Host.Cell) : Prop where
  frame : u = { s with mem := m, dram := u.dram, nextOp := u.nextOp }
  errorFree : u.dram.ErrorFree

theorem CleanWrite.refl {s : State} (h : s.dram.ErrorFree) : CleanWrite s s s.mem := ⟨rfl, h⟩

theorem CleanWrite.mem_eq {s u : State} {m : List Host.Cell} (h : CleanWrite s u m) : u.mem = m := by
  rw [h.frame]

theorem CleanWrite.trans {s u v : State} {m n : List Host.Cell} (h : CleanWrite s u m) (k : CleanWrite u v n) : CleanWrite s v n := by
  refine ⟨?_, k.errorFree⟩
  rw [k.frame, h.frame]

theorem State.dramRequest_cleanWrite (s : State) (port pa n : Nat) (w : Bool) (d : List Byte) (wb : Bool) (h : s.dram.ErrorFree) :
    CleanWrite s (s.dramRequest port pa n w d wb) s.mem := ⟨rfl, h⟩

theorem State.mergeRead_cleanWrite (s : State) (pa n b port : Nat) (h : s.dram.ErrorFree) :
    CleanWrite s (s.mergeRead pa n b port) s.mem := by
  simp only [State.mergeRead]
  split
  · exact .refl h
  · exact State.dramRequest_cleanWrite _ _ _ _ _ _ _ h

theorem State.burstOut_cleanWrite (s : State) (b port : Nat) (h : s.dram.ErrorFree) : CleanWrite s (s.burstOut b port) s.mem := by
  simp only [State.burstOut]
  split
  · exact .refl h
  · exact State.dramRequest_cleanWrite _ _ _ _ _ _ _ h

/-- Burst `b` takes the bytes of the write that fall into it (R551). -/
theorem State.writeBurst_cleanWrite (s : State) (pa : Nat) (d : List Byte) (b : Nat) (h : s.dram.ErrorFree) :
    CleanWrite s (s.writeBurst pa d b) (Memory.writeN s.mem (max pa b)
      ((d.drop (max pa b - pa)).take (min (pa + d.length) (b + 64) - max pa b))) := by
  obtain ⟨hb, hf, he⟩ := h
  simp only [State.writeBurst]
  split
  · exact ⟨rfl, by simp [State.modDram, hb, tabClear], by simp [State.modDram, hf, tabClear], he⟩
  · rw [State.meetBurst_errorFree s b ⟨hb, hf, he⟩, if_neg (by simp [Dram.burstBad_none s.dram hb he])]
    exact ⟨rfl, hb, by simp [hf, tabClear], he⟩

/-- Writing two pieces one behind the other is writing both at once. -/
theorem Memory.writeN_append (m : List Host.Cell) (a : Nat) (x y : List Byte) :
    Memory.writeN m a (x ++ y) = Memory.writeN (Memory.writeN m a x) (a + x.length) y := by
  induction x generalizing m a with
  | nil => rfl
  | cons b r ih => simp only [List.cons_append, Memory.writeN, ih, List.length_cons, Nat.add_assoc, Nat.add_comm 1]

/-- The bytes up to the end of burst `b` are those before it and those that fall into it. -/
theorem Memory.writeN_nextBurst (m : List Host.Cell) (pa b : Nat) (d : List Byte) (h : pa < b + 64) (hb : b < pa + d.length) :
    Memory.writeN (Memory.writeN m pa (d.take (b - pa))) (max pa b)
      ((d.drop (max pa b - pa)).take (min (pa + d.length) (b + 64) - max pa b)) = Memory.writeN m pa (d.take (b + 64 - pa)) := by
  have hlo : max pa b - pa = b - pa := by omega
  have hat : max pa b = pa + (d.take (b - pa)).length := by rw [List.length_take]; omega
  have hpart : (d.drop (b - pa)).take (min (pa + d.length) (b + 64) - max pa b) = (d.drop (b - pa)).take (b + 64 - pa - (b - pa)) := by
    rw [List.take_eq_take_iff, List.length_drop]
    omega
  have hsplit : d.take (b + 64 - pa) = d.take (b - pa) ++ (d.drop (b - pa)).take (b + 64 - pa - (b - pa)) := by
    rw [← List.take_add]
    congr 1
    omega
  rw [hlo, hpart, hsplit, Memory.writeN_append, ← hat]

/-- After its first `k` bursts a write has stored its bytes up to the end of the last of them. -/
theorem State.writeBursts_cleanWrite (s : State) (pa : Nat) (d : List Byte) (k : Nat) (h : s.dram.ErrorFree)
    (hk : k = 0 ∨ (pa / 64 + (k - 1)) * 64 < pa + d.length) :
    CleanWrite s ((List.range k).foldl (fun v i => v.writeBurst pa d ((pa / 64 + i) * 64)) s)
      (Memory.writeN s.mem pa (d.take ((pa / 64 + k) * 64 - pa))) := by
  induction k with
  | zero =>
    have h0 : (pa / 64 + 0) * 64 - pa = 0 := by omega
    rw [h0]
    exact .refl h
  | succ k ih =>
    have hk' : (pa / 64 + k) * 64 < pa + d.length := by simpa using hk
    have before := ih (by omega)
    rw [List.range_succ, List.foldl_append, List.foldl_cons, List.foldl_nil]
    have step := State.writeBurst_cleanWrite _ pa d ((pa / 64 + k) * 64) before.errorFree
    rw [before.mem_eq, Memory.writeN_nextBurst _ _ _ _ (by omega) hk'] at step
    have hend : (pa / 64 + (k + 1)) * 64 = (pa / 64 + k) * 64 + 64 := by omega
    rw [hend]
    exact before.trans step

/-- A write into DRAM without errors stores every byte (R314, R551). -/
theorem State.writeDram_cleanWrite (s : State) (pa : Nat) (d : List Byte) (port : Nat) (h : s.dram.ErrorFree) :
    CleanWrite s (s.writeDram pa d port) (Memory.writeN s.mem pa d) := by
  unfold State.writeDram
  split
  · rename_i hd
    subst hd
    exact .refl h
  · rename_i hd
    have hn : 0 < d.length := List.length_pos_iff.2 hd
    extract_lets n first last s1 s2 s3 ends s4 lo hi s5
    have h1 : CleanWrite s s1 s.mem := State.mergeRead_cleanWrite _ _ _ _ _ h
    have h2 : CleanWrite s s2 s.mem := by
      simp only [s2]
      split
      · exact h1
      · exact h1.trans (h1.mem_eq ▸ State.mergeRead_cleanWrite _ _ _ _ _ h1.errorFree)
    have h3 : CleanWrite s s3 (Memory.writeN s.mem pa d) := by
      have all : d.take ((pa / 64 + (last + 1 - first)) * 64 - pa) = d := List.take_of_length_le (by omega)
      have bursts := State.writeBursts_cleanWrite s2 pa d (last + 1 - first) h2.errorFree (.inr (by omega))
      rw [all, h2.mem_eq] at bursts
      exact h2.trans bursts
    have h4 : CleanWrite s s4 (Memory.writeN s.mem pa d) := by
      simp only [s4]
      split
      · exact h3
      · exact h3.trans (h3.mem_eq ▸ State.burstOut_cleanWrite _ _ _ h3.errorFree)
    have h5 : CleanWrite s s5 (Memory.writeN s.mem pa d) := by
      simp only [s5]
      split
      · exact h4.trans (h4.mem_eq ▸ State.dramRequest_cleanWrite _ _ _ _ _ _ _ h4.errorFree)
      · exact h4
    split
    · exact h5
    · exact h5.trans (h5.mem_eq ▸ State.burstOut_cleanWrite _ _ _ h5.errorFree)

/-- A write into a live buffer over DRAM without errors stores its bytes and clears MAP_CHECKED (R170). -/
theorem State.writeBuf_errorFree (s : State) (k off : Nat) (d : List Byte) (port : Nat) (b : Buf) (hb : tabFind s.bufs.table k = some b)
    (h : s.dram.ErrorFree) : ∃ dr op, dr.ErrorFree ∧ s.writeBuf k off d port =
      { s with
        mem := Memory.writeN s.mem (b.base + off) d, dram := dr, nextOp := op
        bufs := { s.bufs with table := tabPut s.bufs.table k { b with mapChecked := false } } } := by
  have w := State.writeDram_cleanWrite s (b.base + off) d port h
  refine ⟨_, (s.writeDram (b.base + off) d port).nextOp, w.errorFree, ?_⟩
  simp only [State.writeBuf, State.buf?, hb]
  rw [w.frame]

end Sys2Proof.Machine
end

section
/-! SUPPORT. The lines of a hogel row that leaves the weave buffer (R173-R175). -/

namespace Sys2Proof.Machine

/-- Byte `i` of a field from offset 0 is byte `i` of the data, zero beyond its end. -/
theorem getD_bytesAt_zero (l : List Byte) (n i : Nat) (h : i < n) : (bytesAt l 0 n).getD i 0 = l.getD i 0 := by
  simp only [bytesAt, List.drop_zero, List.getD_eq_getElem?_getD]
  by_cases hl : i < l.length
  · rw [List.getElem?_append_left (by rw [List.length_take]; omega), List.getElem?_take_of_lt h]
  · rw [List.getElem?_append_right (by rw [List.length_take]; omega), List.getElem?_eq_none (Nat.not_lt.1 hl), List.getElem?_replicate]
    split <;> rfl

/-- The first `n` lines of hogel row `r` leave. -/
def State.releaseLines (s : State) (p : Plan) (r n : Nat) : State :=
  (List.range n).foldl (fun (s : State) v => s.releaseLine p (r * p.hv + v)) s

@[simp] theorem State.releaseLines_zero (s : State) (p : Plan) (r : Nat) : s.releaseLines p r 0 = s := rfl

@[simp] theorem State.releaseLines_succ (s : State) (p : Plan) (r n : Nat) :
    s.releaseLines p r (n + 1) = (s.releaseLines p r n).releaseLine p (r * p.hv + n) := by
  simp only [State.releaseLines, List.range_succ, List.foldl_append, List.foldl_cons, List.foldl_nil]

/-! ### To the lane packer -/

/-- In DIRECT mode a line joins the lines of the lane packer, unless its send line has passed (R173, R345). -/
theorem State.releaseLine_direct (s : State) (p : Plan) (py : Nat) (h : p.outMode = 0) : s.releaseLine p py =
    if s.tg0.line < p.vbl + py then { s with out := { s.out with lines := tabPut s.out.lines py (s.out.line p.width py) } } else s := by
  simp only [State.releaseLine, h]
  rfl

/-- From `s` to `u` the first `n` lines of hogel row `r` go to the lane packer and nothing else changes. -/
structure LinesSent (s u : State) (p : Plan) (r n : Nat) : Prop where
  frame : u = { s with out := { s.out with lines := u.out.lines } }
  sent : ∀ v, v < n → s.tg0.line < p.vbl + (r * p.hv + v) →
    tabFind u.out.lines (r * p.hv + v) = some (s.out.line p.width (r * p.hv + v))

theorem State.releaseLines_direct (s : State) (p : Plan) (r n : Nat) (h : p.outMode = 0) : LinesSent s (s.releaseLines p r n) p r n := by
  induction n with
  | zero => exact ⟨rfl, fun v hv => absurd hv (Nat.not_lt_zero v)⟩
  | succ n ih =>
    obtain ⟨frame, sent⟩ := ih
    rw [State.releaseLines_succ, State.releaseLine_direct _ _ _ h]
    generalize s.releaseLines p r n = u at *
    have hline : u.out.line p.width (r * p.hv + n) = s.out.line p.width (r * p.hv + n) := by rw [frame]; rfl
    have htg : u.tg0.line = s.tg0.line := by rw [frame]
    rw [htg]
    split
    · refine ⟨by rw [frame], fun v hv hs => ?_⟩
      by_cases he : v = n
      · subst he
        rw [← hline]
        exact tabFind_tabPut_same _ _ _
      · exact (tabFind_tabPut_other _ _ _ _ (by omega)).trans (sent v (by omega) hs)
    · rename_i hlate
      refine ⟨frame, fun v hv hs => ?_⟩
      by_cases he : v = n
      · subst he
        exact absurd hs hlate
      · exact sent v (by omega) hs

/-! ### To the frame store -/

/-- Where line `py` of the frame in composition lies in FS_BUF (R174). -/
def State.storeOffset (s : State) (p : Plan) (py : Nat) : Nat := (s.wallFrame % p.fsCount * p.height + py) * fsPitch p.width

theorem State.storeOffset_succ (s : State) (p : Plan) (py : Nat) : s.storeOffset p (py + 1) = s.storeOffset p py + fsPitch p.width := by
  simp only [State.storeOffset, ← Nat.add_assoc, Nat.succ_mul]

theorem State.storeOffset_mono (s : State) (p : Plan) {x y : Nat} (h : x ≤ y) : s.storeOffset p x ≤ s.storeOffset p y :=
  Nat.mul_le_mul_right _ (Nat.add_le_add_left h _)

/-- From `s` to `u` the first `n` lines of hogel row `r` enter their frame-store slot in buffer `b`, which line 0 of the panel opens. -/
structure LinesStored (s u : State) (p : Plan) (b : Buf) (r n : Nat) : Prop where
  frame : u = { s with
    mem := u.mem, dram := u.dram, nextOp := u.nextOp, bufs := u.bufs
    out := { s.out with slots := if r * p.hv = 0 ∧ 0 < n then (s.openSlot p).out.slots else s.out.slots } }
  memWf : Memory.wf u.mem = true
  errorFree : u.dram.ErrorFree
  store : ∃ c, tabFind u.bufs.table p.fsBuf = some c ∧ c.base = b.base
  written : ∀ v i, v < n → i < fsPitch p.width →
    Memory.read u.mem (b.base + s.storeOffset p (r * p.hv + v) + i) = (packCodes (s.out.line p.width (r * p.hv + v))).getD i 0
  kept : ∀ a, a < b.base + s.storeOffset p (r * p.hv) ∨ b.base + s.storeOffset p (r * p.hv + n) ≤ a →
    Memory.read u.mem a = Memory.read s.mem a

/-- In STORED mode a line is written into its slot, which line 0 opens (R174, R175). -/
theorem State.releaseLine_stored (s : State) (p : Plan) (py : Nat) (h : p.outMode = 1) : s.releaseLine p py =
    (if py = 0 then s.openSlot p else s).writeBuf p.fsBuf (s.storeOffset p py)
      (bytesAt (packCodes (s.out.line p.width py)) 0 (fsPitch p.width)) 1 := by
  simp only [State.releaseLine, h]
  rfl

/-- Line 0 of the panel opens the slot before it is written; every other line finds the slots as they are. -/
theorem LinesStored.opens {s u : State} {p : Plan} {b : Buf} {r n : Nat} (h : LinesStored s u p b r n) :
    (if r * p.hv + n = 0 then u.openSlot p else u) = { u with
      out := { s.out with slots := if r * p.hv = 0 ∧ 0 < n + 1 then (s.openSlot p).out.slots else s.out.slots } } := by
  by_cases hfirst : r * p.hv + n = 0
  · have hr : r * p.hv = 0 ∧ 0 < n + 1 := by omega
    have hn : ¬(r * p.hv = 0 ∧ 0 < n) := by omega
    have frame := h.frame
    rw [if_neg hn] at frame
    rw [if_pos hfirst, if_pos hr, frame]
    rfl
  · have hsame : (r * p.hv = 0 ∧ 0 < n + 1) ↔ (r * p.hv = 0 ∧ 0 < n) := by omega
    rw [if_neg hfirst, h.frame]
    simp only [hsame]

theorem LinesStored.step {s u : State} {p : Plan} {b : Buf} {r n : Nat} (hm : p.outMode = 1) (h : LinesStored s u p b r n) :
    LinesStored s (u.releaseLine p (r * p.hv + n)) p b r (n + 1) := by
  have hline : u.out.line p.width (r * p.hv + n) = s.out.line p.width (r * p.hv + n) := by rw [h.frame]; rfl
  have hoff : u.storeOffset p (r * p.hv + n) = s.storeOffset p (r * p.hv + n) := by rw [h.frame]; rfl
  have hend : s.storeOffset p (r * p.hv + (n + 1)) = s.storeOffset p (r * p.hv + n) + fsPitch p.width := s.storeOffset_succ p _
  have hlow : s.storeOffset p (r * p.hv) ≤ s.storeOffset p (r * p.hv + n) := s.storeOffset_mono p (Nat.le_add_right _ _)
  obtain ⟨c, hc, hbase⟩ := h.store
  rw [State.releaseLine_stored _ _ _ hm, h.opens, hline, hoff]
  generalize hd : bytesAt (packCodes (s.out.line p.width (r * p.hv + n))) 0 (fsPitch p.width) = d
  have hlen : d.length = fsPitch p.width := by rw [← hd, length_bytesAt]
  obtain ⟨dr, op, hdr, hw⟩ := State.writeBuf_errorFree { u with
      out := { s.out with slots := if r * p.hv = 0 ∧ 0 < n + 1 then (s.openSlot p).out.slots else s.out.slots } }
    p.fsBuf (s.storeOffset p (r * p.hv + n)) d 1 c hc h.errorFree
  rw [hw, hbase]
  refine ⟨by rw [h.frame], Memory.writeN_wf _ _ _ h.memWf, hdr, ⟨_, tabFind_tabPut_same _ _ _, rfl⟩, fun v i hv hi => ?_, fun a ha => ?_⟩
  · by_cases he : v = n
    · subst he
      have hi' : i < d.length := by omega
      refine (Memory.read_writeN_same _ _ i d h.memWf hi').trans ?_
      rw [← getD_bytesAt_zero _ _ _ hi, hd, List.getD_eq_getElem _ _ hi']
    · have hv' : v < n := by omega
      have hbelow : s.storeOffset p (r * p.hv + v) + fsPitch p.width ≤ s.storeOffset p (r * p.hv + n) := by
        rw [← s.storeOffset_succ]
        exact s.storeOffset_mono p (by omega)
      exact (Memory.read_writeN_other _ _ _ _ (by omega)).trans (h.written v i hv' hi)
  · exact (Memory.read_writeN_other _ _ _ _ (by omega)).trans (h.kept a (by omega))

theorem State.releaseLines_stored (s : State) (p : Plan) (b : Buf) (r n : Nat) (hm : p.outMode = 1)
    (hb : tabFind s.bufs.table p.fsBuf = some b) (hw : Memory.wf s.mem = true) (he : s.dram.ErrorFree) :
    LinesStored s (s.releaseLines p r n) p b r n := by
  induction n with
  | zero =>
    exact ⟨by simp, hw, he, ⟨b, hb, rfl⟩, fun v _ hv => absurd hv (Nat.not_lt_zero v), fun _ _ => rfl⟩
  | succ n ih => exact State.releaseLines_succ s p r n ▸ ih.step hm

end Sys2Proof.Machine
end

section
/-! SUPPORT. `WEAVE_ROW_RELEASE` (R40, R173-R175). -/

namespace Sys2Proof.Machine

theorem exec_weaveRowRelease (s : State) : exec .weaveRowRelease s = execWeaveRowRelease s := rfl

/-- A row whose graphic rows are all in the store reads none. -/
theorem State.readGfxRow_held (s : State) (p : Plan) (h : Nat) (hg : ∀ g ∈ p.gfxOn, s.gfxHeld p g h = true) : s.readGfxRow p h = s := by
  simp only [State.readGfxRow]
  split
  · rfl
  · generalize p.gfxOn = l at hg
    induction l with
    | nil => rfl
    | cons g l ih =>
      rw [List.foldl_cons, if_pos (hg g (by simp))]
      exact ih fun x hx => hg x (by simp [hx])

/-- An assigned gallery has not finished hogel row `r` (R38). -/
theorem State.busy_iff (s : State) (r : Nat) : ((s.synth.places.zip s.synth.done).any fun x => x.1.isSome && decide (x.2 ≤ r)) = true ↔
    ∃ x ∈ s.synth.places.zip s.synth.done, x.1.isSome = true ∧ x.2 ≤ r := by
  simp only [List.any_eq_true, Bool.and_eq_true, decide_eq_true_eq]

/-- A row that a gallery still computes stays, and none leaves after the last (R38). -/
theorem weaveRowRelease_unfinished (s : State) (gv : Gov) (hc : s.composing = some gv)
    (h : (∃ x ∈ s.synth.places.zip s.synth.done, x.1.isSome = true ∧ x.2 ≤ s.out.nextRow) ∨ gv.plan.nhy ≤ s.out.nextRow) :
    exec .weaveRowRelease s = .next s := by
  simp only [exec_weaveRowRelease, execWeaveRowRelease, hc]
  rw [if_pos]
  simpa only [Bool.or_eq_true, decide_eq_true_eq, State.busy_iff] using h.symm

/-- A row with a band that no gallery computes waits while two rows are held before it (R40, R529). -/
theorem weaveRowRelease_tooEarly (s : State) (gv : Gov) (hc : s.composing = some gv) (hb : s.emptyBands gv.plan s.out.nextRow ≠ [])
    (hg : ∀ g ∈ gv.plan.gfxOn, s.gfxHeld gv.plan g s.out.nextRow = true) (hw : s.weaveLow gv.plan + 1 < s.out.nextRow) :
    exec .weaveRowRelease s = .next s := by
  simp only [exec_weaveRowRelease, execWeaveRowRelease, hc, if_neg hb, State.readGfxRow_held _ _ _ hg]
  split
  · rfl
  · rw [if_pos ⟨hb, .inl hw⟩]

/-- The weave buffer drops hogel row `r`, and the last row completes the frame in its slot (R40, R175). -/
def State.dropRow (s : State) (p : Plan) (r : Nat) : State :=
  s.modOut fun o => { o with
    weave := o.weave.filter fun e => e.1 / p.hv != r
    nextRow := r + 1
    slots := if p.outMode = 1 ∧ p.nhy ≤ r + 1 then o.slots.map fun e => if e.frame = s.wallFrame then { e with full := true } else e else o.slots }

/-- A finished row leaves line by line, and the weave buffer drops it. -/
theorem weaveRowRelease_finished (s : State) (gv : Gov) (hc : s.composing = some gv) (hr : s.out.nextRow < gv.plan.nhy)
    (hd : ∀ x ∈ s.synth.places.zip s.synth.done, x.1.isSome = true → s.out.nextRow < x.2) (hb : s.emptyBands gv.plan s.out.nextRow = []) :
    exec .weaveRowRelease s = .next ((s.releaseLines gv.plan s.out.nextRow gv.plan.hv).dropRow gv.plan s.out.nextRow) := by
  have idle : ¬∃ x ∈ s.synth.places.zip s.synth.done, x.1.isSome = true ∧ x.2 ≤ s.out.nextRow :=
    fun ⟨x, hx, hsome, hle⟩ => absurd (hd x hx hsome) (Nat.not_lt.2 hle)
  have go : ¬(decide (gv.plan.nhy ≤ s.out.nextRow) ||
      (s.synth.places.zip s.synth.done).any fun x => x.1.isSome && decide (x.2 ≤ s.out.nextRow)) = true := by
    rw [Bool.or_eq_true, decide_eq_true_eq, State.busy_iff]
    exact fun h => h.elim (Nat.not_le.2 hr) idle
  simp only [exec_weaveRowRelease, execWeaveRowRelease, hc, if_neg go, hb]
  rfl

/-- In DIRECT mode nothing but the weave buffer and the lines of the lane packer change (R173). -/
theorem State.releaseRow_direct (s : State) (p : Plan) (r : Nat) (hm : p.outMode = 0) :
    let u := (s.releaseLines p r p.hv).dropRow p r
    u.out.nextRow = r + 1 ∧ u.out.weave = s.out.weave.filter (fun e => e.1 / p.hv != r) ∧
      (∀ v, v < p.hv → s.tg0.line < p.vbl + (r * p.hv + v) →
        tabFind u.out.lines (r * p.hv + v) = some (s.out.line p.width (r * p.hv + v))) ∧
      u = { s with out := { s.out with nextRow := u.out.nextRow, weave := u.out.weave, lines := u.out.lines } } := by
  obtain ⟨frame, sent⟩ := s.releaseLines_direct p r p.hv hm
  generalize s.releaseLines p r p.hv = x at *
  have hm' : ¬(p.outMode = 1 ∧ p.nhy ≤ r + 1) := by omega
  refine ⟨rfl, by rw [frame]; rfl, sent, ?_⟩
  simp only [State.dropRow, if_neg hm']
  rw [frame]
  rfl

/-- In STORED mode the lines of the row are in the slot of the frame, and its last row completes it (R174, R175). -/
theorem State.releaseRow_stored (s : State) (p : Plan) (b : Buf) (r : Nat) (hm : p.outMode = 1) (hv : 0 < p.hv)
    (hb : tabFind s.bufs.table p.fsBuf = some b) (hw : Memory.wf s.mem = true) (he : s.dram.ErrorFree) :
    let u := (s.releaseLines p r p.hv).dropRow p r
    let opened := if r = 0 then (s.openSlot p).out.slots else s.out.slots
    u.out.nextRow = r + 1 ∧
      (∀ v i, v < p.hv → i < fsPitch p.width → Memory.read u.mem (b.base + s.storeOffset p (r * p.hv + v) + i) =
        (packCodes (s.out.line p.width (r * p.hv + v))).getD i 0) ∧
      (∀ a, a < b.base + s.storeOffset p (r * p.hv) ∨ b.base + s.storeOffset p ((r + 1) * p.hv) ≤ a →
        Memory.read u.mem a = Memory.read s.mem a) ∧
      (r + 1 < p.nhy → u.out.slots = opened) ∧
      (p.nhy = r + 1 → u.out.slots = opened.map fun e => if e.frame = s.wallFrame then { e with full := true } else e) ∧
      u.out.lines = s.out.lines := by
  obtain ⟨frame, -, -, -, written, kept⟩ := s.releaseLines_stored p b r p.hv hm hb hw he
  have hfirst : (r * p.hv = 0 ∧ 0 < p.hv) ↔ r = 0 := by
    rw [Nat.mul_eq_zero]
    omega
  simp only [hfirst] at frame
  generalize s.releaseLines p r p.hv = x at *
  have hslots : x.out.slots = if r = 0 then (s.openSlot p).out.slots else s.out.slots := by rw [frame]
  have hframe : x.wallFrame = s.wallFrame := by rw [frame]; rfl
  refine ⟨rfl, written, fun a ha => kept a (by rwa [Nat.succ_mul] at ha), fun hr => ?_, fun hr => ?_, by rw [frame]; rfl⟩
  · have hmore : ¬(p.outMode = 1 ∧ p.nhy ≤ r + 1) := by omega
    simp only [State.dropRow, State.modOut, if_neg hmore, hslots]
  · have hlast : p.outMode = 1 ∧ p.nhy ≤ r + 1 := by omega
    simp only [State.dropRow, State.modOut, if_pos hlast, hslots, hframe]

end Sys2Proof.Machine
end

section
/-! SUPPORT. `CELL_FAULT`: a gallery leaves service at once (R124, R529). -/

namespace Sys2Proof.Machine

theorem exec_cellFault (gal : Fin 16) (cell : Fin 64) (s : State) : exec (.cellFault gal cell) s = execCellFault gal cell s := rfl

theorem vmod_same {α : Type} {n : Nat} (v : Vector α n) (i : Fin n) (f : α → α) : (vmod v i f)[i] = f v[i] := by
  simp [vmod]

theorem vmod_other {α : Type} {n : Nat} (v : Vector α n) (i k : Fin n) (f : α → α) (h : k ≠ i) : (vmod v i f)[k] = v[k] := by
  have hne : i.val ≠ k.val := fun e => h (Fin.ext e.symm)
  simp [vmod, hne]

theorem vmod_vmod {α : Type} {n : Nat} (v : Vector α n) (i : Fin n) (f g : α → α) : vmod (vmod v i f) i g = vmod v i (g ∘ f) := by
  simp [vmod]

theorem vmod_id {α : Type} {n : Nat} (v : Vector α n) (i : Fin n) : vmod v i (fun x => x) = v := by
  simp [vmod]

/-! ### Units -/

theorem State.modUnit_frame (s : State) (u : UnitName) (f : SvcUnit → SvcUnit) :
    s.modUnit u f = { s with svc := (s.modUnit u f).svc } := by
  simp only [State.modUnit]
  split
  · rfl
  · split <;> rfl

theorem State.loseUnit_frame (s : State) (u : UnitName) :
    s.loseUnit u = { s with svc := (s.loseUnit u).svc, plan := (s.loseUnit u).plan } := by
  simp only [State.loseUnit]
  split
  · rw [State.modUnit_frame]
  · rfl

theorem State.setUnit_frame (s : State) (u : UnitName) (x : SvcState) (dev : Bool) : s.setUnit u x dev =
    { s with
      svc := (s.setUnit u x dev).svc, threads := (s.setUnit u x dev).threads, queues := (s.setUnit u x dev).queues
      host := (s.setUnit u x dev).host, err := (s.setUnit u x dev).err } := by
  simp only [State.setUnit]
  split
  · rfl
  · rw [State.event_frame, State.report_frame, State.modUnit_frame]

/-- Block 0x18 names the galleries. -/
theorem State.unit_gallery (s : State) (g : Fin 16) : s.unit (0x18, g.val) = s.svc.gallery[g] := by
  simp [State.unit, vget]

theorem State.modUnit_gallery (s : State) (g : Fin 16) (f : SvcUnit → SvcUnit) :
    (s.modUnit (0x18, g.val) f).svc.gallery = vmod s.svc.gallery g f := by
  simp [State.modUnit, vmodN, vmod]

/-- A gallery that the selected plan needs is marked for the fall-back. -/
theorem State.loseUnit_gallery (s : State) (g : Fin 16) : (s.loseUnit (0x18, g.val)).svc.gallery =
    vmod s.svc.gallery g fun v => { v with forced := s.trigUnit (0x18, g.val) || v.forced } := by
  simp only [State.loseUnit]
  split
  · rename_i ht
    simp only [ht, Bool.true_or]
    exact State.modUnit_gallery _ _ _
  · rename_i ht
    simp only [ht, Bool.false_or]
    exact (vmod_id _ _).symm

/-- The loss of a unit that the selected plan needs is the trigger of row 1 (Table 08-10). -/
theorem State.loseUnit_plan (s : State) (u : UnitName) :
    (s.loseUnit u).plan = if s.trigUnit u then { s.plan with trig := s.plan.trig ||| 2 } else s.plan := by
  simp only [State.loseUnit]
  split <;> rfl

/-- A gallery leaves service with record 0x1705 and SERVICE (R526). -/
theorem State.setUnit_outOfService (s : State) (g : Fin 16) (h : s.svc.gallery[g].st ≠ .outOfService) :
    let u := s.setUnit (0x18, g.val) .outOfService true
    u.svc.gallery = vmod s.svc.gallery g (fun v => { v with st := .outOfService }) ∧ u.err.total = s.err.total + 1 ∧
      ∀ t : Tid, (u.thread t).evt.getLsbD 13 = true := by
  have herr : ∀ f, (s.modUnit (0x18, g.val) f).err = s.err := fun f => by rw [State.modUnit_frame]
  simp only [State.setUnit, State.unit_gallery, if_neg h]
  refine ⟨?_, ?_, State.event_sets _ 13 (by omega)⟩
  · rw [State.event_svc, State.report_svc, State.modUnit_gallery]
    rfl
  · rw [State.event_err, State.report_total, herr]

/-! ### Device removal -/

/-- Gallery `g` out of service, its passes cleared and no removal of it pending. -/
def State.retired (s : State) (g : Fin 16) : State :=
  ((s.loseUnit (0x18, g.val)).setUnit (0x18, g.val) .outOfService true).modUnit (0x18, g.val) fun v =>
    { v with logicPass := false, memPass := false, removeTo := none }

theorem State.retired_frame (s : State) (g : Fin 16) : s.retired g =
    { s with
      svc := (s.retired g).svc, plan := (s.retired g).plan, threads := (s.retired g).threads, queues := (s.retired g).queues
      host := (s.retired g).host, err := (s.retired g).err } := by
  simp only [State.retired]
  rw [State.modUnit_frame, State.setUnit_frame, State.loseUnit_frame]

theorem State.retired_facts (s : State) (g : Fin 16) (h : s.svc.gallery[g].st ≠ .outOfService) :
    (s.retired g).svc.gallery = vmod s.svc.gallery g (fun v => { v with
      st := .outOfService, logicPass := false, memPass := false, removeTo := none, forced := s.trigUnit (0x18, g.val) || v.forced }) ∧
    (s.retired g).plan = (if s.trigUnit (0x18, g.val) then { s.plan with trig := s.plan.trig ||| 2 } else s.plan) ∧
    (s.retired g).err.total = s.err.total + 1 ∧ ∀ t : Tid, ((s.retired g).thread t).evt.getLsbD 13 = true := by
  have hst : (s.loseUnit (0x18, g.val)).svc.gallery[g].st ≠ .outOfService := by
    rwa [State.loseUnit_gallery, vmod_same]
  have hlost : (s.loseUnit (0x18, g.val)).err = s.err := by rw [State.loseUnit_frame]
  obtain ⟨hgal, htotal, hevt⟩ := (s.loseUnit (0x18, g.val)).setUnit_outOfService g hst
  refine ⟨?_, ?_, ?_, ?_⟩
  · rw [State.retired, State.modUnit_gallery, hgal, State.loseUnit_gallery, vmod_vmod, vmod_vmod]
    rfl
  · rw [State.retired, State.modUnit_frame, State.setUnit_frame, ← State.loseUnit_plan]
  · rw [State.retired, State.modUnit_frame, htotal, hlost]
  · rw [State.retired, State.modUnit_frame]
    exact hevt

/-- A device removal retires the gallery, tells the thread that waits for its removal, and stops its work (R124, R526). -/
theorem State.deviceRemove_eq (s : State) (g : Fin 16) (h : s.svc.gallery[g].st = .inService ∨ s.svc.gallery[g].st = .draining) :
    ∃ told : State, s.deviceRemove (0x18, g.val) = told.stopUnit (0x18, g.val) ∧ EventsKept (s.retired g) told ∧
      told = { s.retired g with threads := told.threads, queues := told.queues, host := told.host } := by
  simp only [State.deviceRemove, State.unit_gallery, if_pos h]
  refine ⟨_, rfl, ?_, ?_⟩
  · split
    · exact State.deliver_eventsKept _ _ _
    · exact .refl _
  · split
    · exact State.deliver_frame _ _ _
    · rfl

/-- A gallery stops: its place is left without one, and the first such loss of a frame writes record 0x1706 (R124, R529). -/
theorem State.stopUnit_gallery (s : State) (g : Fin 16) :
    let u := s.stopUnit (0x18, g.val)
    u = { s with synth := u.synth, threads := u.threads, queues := u.queues, host := u.host, err := u.err } ∧ EventsKept s u ∧
      ∀ i, s.synth.places.findIdx? (· == some g.val) = some i →
        u.synth.places = s.synth.places.set i none ∧ u.synth.lost = s.synth.lost ++ [g.val] ∧
        (s.synth.logged1706 = false → u.err.total = s.err.total + 1) := by
  simp only [State.stopUnit, if_true]
  split
  · rename_i i hi
    split
    · rename_i hl
      refine ⟨rfl, .of_threads rfl, fun j hj => ?_⟩
      cases hi.symm.trans hj
      exact ⟨rfl, rfl, fun hl' => absurd hl (by simp [hl'])⟩
    · refine ⟨by rw [State.report_frame], ?_, fun j hj => ?_⟩
      · exact (State.report_eventsKept _ _ _ _).congr rfl rfl
      · cases hi.symm.trans hj
        exact ⟨rfl, rfl, fun _ => State.report_total _ _ _ _⟩
  · rename_i hi
    exact ⟨rfl, .of_threads rfl, fun j hj => absurd (hi.symm.trans hj) (by simp)⟩

/-- A fault of a gallery that does not serve changes nothing. -/
theorem cellFault_idle (s : State) (g : Fin 16) (cell : Fin 64) (hi : s.svc.gallery[g].st ≠ .inService)
    (hd : s.svc.gallery[g].st ≠ .draining) : exec (.cellFault g cell) s = .next s := by
  simp only [exec_cellFault, execCellFault, State.unit_gallery]
  rw [if_neg (not_or.2 ⟨hi, hd⟩)]

/-- A gallery that serves goes straight to OUT_OF_SERVICE (R124, R526, R529). -/
theorem cellFault_serving (s : State) (g : Fin 16) (cell : Fin 64)
    (h : s.svc.gallery[g].st = .inService ∨ s.svc.gallery[g].st = .draining) :
    ∃ u, exec (.cellFault g cell) s = .next u ∧
      u.svc.gallery = vmod s.svc.gallery g (fun v => { v with
        st := .outOfService, logicPass := false, memPass := false, removeTo := none, forced := s.trigUnit (0x18, g.val) || v.forced }) ∧
      u.plan = (if s.trigUnit (0x18, g.val) then { s.plan with trig := s.plan.trig ||| 2 } else s.plan) ∧
      (∀ i, s.synth.places.findIdx? (· == some g.val) = some i →
        u.synth.places = s.synth.places.set i none ∧ u.synth.lost = s.synth.lost ++ [g.val] ∧
        (s.synth.logged1706 = false → u.err.total = s.err.total + 3)) ∧
      (∀ t : Tid, (u.thread t).evt.getLsbD 13 = true) ∧ u.mem = s.mem := by
  generalize hx : s.report 0x0503 0x18 (g.val * 2 ^ 40 + cell.val * 2 ^ 32) = x
  have hexec : exec (.cellFault g cell) s = .next (x.deviceRemove (0x18, g.val)) := by
    simp only [exec_cellFault, execCellFault, State.unit_gallery, if_pos h, hx]
  have hsvc : x.svc = s.svc := by rw [← hx, State.report_svc]
  have hplan : x.plan = s.plan := by rw [← hx, State.report_plan]
  have hsynth : x.synth = s.synth := by rw [← hx, State.report_synth]
  have hmem : x.mem = s.mem := by rw [← hx, State.report_mem]
  have htotal : x.err.total = s.err.total + 1 := by rw [← hx, State.report_total]
  have htrig : x.trigUnit (0x18, g.val) = s.trigUnit (0x18, g.val) := by
    rw [← hx, State.report_frame]
    rfl
  have hserve : x.svc.gallery[g].st = .inService ∨ x.svc.gallery[g].st = .draining := hsvc ▸ h
  have hout : x.svc.gallery[g].st ≠ .outOfService := by
    rcases hserve with hs | hs <;> rw [hs] <;> decide
  obtain ⟨told, hremove, hevents, htold⟩ := x.deviceRemove_eq g hserve
  obtain ⟨gallery, plan, total, service⟩ := x.retired_facts g hout
  obtain ⟨hstop, hkept, hplace⟩ := told.stopUnit_gallery g
  have hts : told.synth = s.synth := by rw [htold, State.retired_frame, hsynth]
  rw [hts] at hplace
  refine ⟨_, hexec, ?_, ?_, fun i hi => ?_, fun t => ?_, ?_⟩
  · rw [hremove, hstop, htold, gallery, hsvc, htrig]
  · rw [hremove, hstop, htold, plan, hplan, htrig]
  · obtain ⟨hplaces, hlost, hlog⟩ := hplace i hi
    refine ⟨by rw [hremove, hplaces], by rw [hremove, hlost], fun hl => ?_⟩
    rw [hremove, hlog hl, htold, total, htotal, BitVec.add_assoc, BitVec.add_assoc]
    rfl
  · rw [hremove]
    exact hkept t 13 (hevents t 13 (service t))
  · rw [hremove, hstop, htold, State.retired_frame, hmem]

end Sys2Proof.Machine
end

section
/-! SUPPORT. `PIPELINE_READ_TORN`: a read of the pipeline that waited for a thread's write goes on (R228). -/

namespace Sys2Proof.Machine

theorem exec_pipelineReadTorn (r : Reader) (s : State) : exec (.pipelineReadTorn r) s = execPipelineReadTorn r s := rfl

/-- SB_TORN counts a torn read, and record 0x0909 tells of it. -/
def State.torn (s : State) (info : Nat) : State := (s.modStatus fun c => { c with sbTorn := c.sbTorn.bump }).report 0x0909 0x11 info

theorem State.torn_frame (s : State) (info : Nat) : s.torn info =
    { s with
      plan := { s.plan with status := { s.plan.status with sbTorn := s.plan.status.sbTorn.bump } }
      threads := (s.torn info).threads, queues := (s.torn info).queues, host := (s.torn info).host, err := (s.torn info).err } := by
  simp only [State.torn]
  rw [State.report_frame]
  rfl

theorem State.torn_total (s : State) (info : Nat) : (s.torn info).err.total = s.err.total + 1 := State.report_total _ _ _ _

/-! ### A graphic row -/

/-- A graphic row read from DRAM without errors is in the line store, with no record (R145). -/
theorem State.readGfx_errorFree (s : State) (p : Plan) (g h row : Nat) (b : Buf) (hrow : (p.gfxLayer g).row h = some row)
    (hb : tabFind s.bufs.table (p.gfxLayer g).buf = some b) (he : s.dram.ErrorFree) :
    (s.readGfx p g h).gfxHeld p g h = true ∧ s.readGfx p g h =
      { s with
        dram := (s.readGfx p g h).dram, nextOp := (s.readGfx p g h).nextOp, sboard := (s.readGfx p g h).sboard
        comp := (s.readGfx p g h).comp } := by
  have hbuf : s.buf? (p.gfxLayer g).buf = some b := hb
  simp only [State.readGfx, hrow, hbuf, State.readMarked_errorFree _ _ _ _ _ he, List.foldl_nil]
  refine ⟨?_, rfl⟩
  simp [State.gfxHeld]

/-- A read that waits is one of a row that the image covers. -/
theorem State.gfxBlocked_row (s : State) (p : Plan) (g h : Nat) (t : Tid) (hb : s.gfxBlocked p g h = some t) :
    ∃ row, (p.gfxLayer g).row h = some row := by
  cases hrow : (p.gfxLayer g).row h with
  | some row => exact ⟨row, rfl⟩
  | none => simp [State.gfxBlocked, hrow] at hb

/-- A graphic row that does not wait, or is in the store, is not torn. -/
theorem pipelineReadTorn_gfx_idle (s : State) (gv : Gov) (r : Reader) (hr : r.val < 8) (hc : s.composing = some gv)
    (h : s.gfxBlocked gv.plan r.val s.needRow = none ∨ s.gfxHeld gv.plan r.val s.needRow = true) :
    exec (.pipelineReadTorn r) s = .next s := by
  simp only [exec_pipelineReadTorn, execPipelineReadTorn, if_neg hr.ne, hc]
  cases hb : s.gfxBlocked gv.plan r.val s.needRow with
  | none => rfl
  | some t =>
    have hheld : s.gfxHeld gv.plan r.val s.needRow = true := h.resolve_left (by simp [hb])
    simp only [hheld, Bool.or_true, if_true]

/-- A graphic row that waited is read, with SB_TORN and record 0x0909. -/
theorem pipelineReadTorn_gfx (s : State) (gv : Gov) (r : Reader) (t : Tid) (b : Buf) (hr : r.val < 8) (hc : s.composing = some gv)
    (hg : gv.plan.gfxOn.contains r.val = true) (hb : s.gfxBlocked gv.plan r.val s.needRow = some t)
    (hh : s.gfxHeld gv.plan r.val s.needRow = false) (hbuf : tabFind s.bufs.table (gv.plan.gfxLayer r.val).buf = some b)
    (he : s.dram.ErrorFree) :
    ∃ u, exec (.pipelineReadTorn r) s = .next u ∧ u.gfxHeld gv.plan r.val s.needRow = true ∧
      u.plan.status.sbTorn = s.plan.status.sbTorn.bump ∧ u.err.total = s.err.total + 1 ∧ u.mem = s.mem ∧ u.out = s.out := by
  obtain ⟨row, hrow⟩ := s.gfxBlocked_row _ _ _ _ hb
  generalize hx : s.torn (t.val * 2 ^ 40 + r.val * 2 ^ 32 + (gv.plan.gfxLayer r.val).buf % 4096 * 2 ^ 20 + s.needRow) = x
  have hexec : exec (.pipelineReadTorn r) s = .next (x.readGfx gv.plan r.val s.needRow) := by
    simp only [exec_pipelineReadTorn, execPipelineReadTorn, if_neg hr.ne, hc, hb, hg, hh, ← hx]
    rfl
  have torn := (s.torn_frame _).symm.trans hx
  have total : x.err.total = s.err.total + 1 := hx ▸ s.torn_total _
  obtain ⟨held, frame⟩ := x.readGfx_errorFree gv.plan r.val s.needRow row b hrow (torn ▸ hbuf) (torn ▸ he)
  refine ⟨_, hexec, held, ?_, ?_, ?_, ?_⟩
  · rw [frame, ← torn]
  · rw [frame, total]
  · rw [frame, ← torn]
  · rw [frame, ← torn]

/-! ### The scan-out fetch -/

/-- With no line due there is nothing to tear. -/
theorem pipelineReadTorn_noFetch (s : State) (r : Reader) (hr : r.val = 8) (hp : s.fetchPlan = none) :
    exec (.pipelineReadTorn r) s = .next s := by
  simp only [exec_pipelineReadTorn, execPipelineReadTorn, if_pos hr, State.beginFetch, hp]

/-- A line read without errors joins the lines of the lane packer with its codes (R347). -/
theorem State.fetchLine_clean (s : State) (p : Plan) (py : Nat) (b : Buf) (hb : tabFind s.bufs.table (s.linePlace p py).1 = some b)
    (hs : s.dram.suspects (b.base + (s.linePlace p py).2.1) (fsPitch (s.linePlace p py).2.2) = []) :
    tabFind (s.fetchLine p py).out.lines py = some ((unpackCodes (Memory.readN s.mem (b.base + (s.linePlace p py).2.1)
        (fsPitch (s.linePlace p py).2.2))).take (3 * (s.linePlace p py).2.2)) ∧
      s.fetchLine p py = { s with
        dram := (s.fetchLine p py).dram, nextOp := (s.fetchLine p py).nextOp, sboard := (s.fetchLine p py).sboard
        out := (s.fetchLine p py).out } := by
  have hbuf : s.buf? (s.linePlace p py).1 = some b := hb
  simp only [State.fetchLine, hbuf, State.readBuf, State.readDram_clean _ _ _ _ hs]
  refine ⟨?_, rfl⟩
  simp only [State.endPipe, State.modOut, OutPath.nextFetch]
  split
  · exact tabFind_tabPut_same _ _ _
  · exact tabFind_tabPut_same _ _ _

/-- The write that holds up the fetch of the line that is due. -/
def State.fetchBlocked (s : State) (p : Plan) : Option Tid :=
  let place := s.linePlace p s.out.fetchLine
  s.pendingWrite (8, s.out.fetchLine) place.1 place.2.1 (fsPitch place.2.2)

section

variable (s : State) (p : Plan) (r : Reader) (hr : r.val = 8) (hp : s.fetchPlan = some p)
  (hl : 0 < s.out.fetchLine ∨ s.out.fetchAt ≠ none) (hn : s.noLine s.out.fetchLine = false)

include hr hp hl hn

/-- Within a frame the reader leaves all as it is without a write before it; past one it goes on with the line, torn. -/
theorem pipelineReadTorn_fetch : exec (.pipelineReadTorn r) s = .next ((s.fetchBlocked p).elim s fun t =>
    (s.torn (t.val * 2 ^ 40 + 8 * 2 ^ 32 + (s.linePlace p s.out.fetchLine).1 % 4096 * 2 ^ 20 + s.out.fetchLine)).fetchLine p
      s.out.fetchLine) := by
  have hstart : ¬(s.out.fetchLine = 0 ∧ s.out.fetchAt.isNone) := by
    rintro ⟨h0, hnone⟩
    exact hl.elim (by omega) fun h => h (by simpa using hnone)
  simp only [exec_pipelineReadTorn, execPipelineReadTorn, if_pos hr, State.beginFetch, hp, if_neg hstart, hn, State.fetchBlocked]
  cases s.pendingWrite (8, s.out.fetchLine) (s.linePlace p s.out.fetchLine).1 (s.linePlace p s.out.fetchLine).2.1
      (fsPitch (s.linePlace p s.out.fetchLine).2.2) with
  | none => rfl
  | some t => rfl

/-- A fetch that waits for no write is not torn. -/
theorem pipelineReadTorn_fetch_idle (hw : s.fetchBlocked p = none) : exec (.pipelineReadTorn r) s = .next s := by
  rw [pipelineReadTorn_fetch s p r hr hp hl hn, hw, Option.elim_none]

/-- A fetch that waited goes on, with SB_TORN and record 0x0909. -/
theorem pipelineReadTorn_fetch_torn (b : Buf) (t : Tid) (hb : tabFind s.bufs.table (s.linePlace p s.out.fetchLine).1 = some b)
    (hw : s.fetchBlocked p = some t)
    (hs : s.dram.suspects (b.base + (s.linePlace p s.out.fetchLine).2.1) (fsPitch (s.linePlace p s.out.fetchLine).2.2) = []) :
    ∃ u, exec (.pipelineReadTorn r) s = .next u ∧
      tabFind u.out.lines s.out.fetchLine = some ((unpackCodes (Memory.readN s.mem (b.base + (s.linePlace p s.out.fetchLine).2.1)
        (fsPitch (s.linePlace p s.out.fetchLine).2.2))).take (3 * (s.linePlace p s.out.fetchLine).2.2)) ∧
      u.plan.status.sbTorn = s.plan.status.sbTorn.bump ∧ u.err.total = s.err.total + 1 ∧ u.mem = s.mem := by
  have hexec := pipelineReadTorn_fetch s p r hr hp hl hn
  rw [hw, Option.elim_some] at hexec
  generalize hx : s.torn _ = x at hexec
  have torn := (s.torn_frame _).symm.trans hx
  have total : x.err.total = s.err.total + 1 := hx ▸ s.torn_total _
  have hplace : x.linePlace p s.out.fetchLine = s.linePlace p s.out.fetchLine := by
    rw [← torn]
    rfl
  have hmem : x.mem = s.mem := by rw [← torn]
  obtain ⟨line, frame⟩ := x.fetchLine_clean p s.out.fetchLine b (by rw [hplace, ← torn]; exact hb) (by rw [hplace, ← torn]; exact hs)
  rw [hplace, hmem] at line
  refine ⟨_, hexec, line, ?_, ?_, ?_⟩
  · rw [frame, ← torn]
  · rw [frame, total]
  · rw [frame, hmem]

end

end Sys2Proof.Machine
end

section
/-! PROOF. O58: release of a hogel row, cell faults, and reads that go on torn. -/

open Sys2Proof Sys2Proof.Machine

/-- Settles O58: an induction over the lines of the row, with what has been sent or stored of it so far as invariant, and one
lemma for each way in which a cell fault or a torn read can go. -/
theorem releaseAndTornReads : Obligations.ReleaseAndTornReads := by
  unfold Obligations.ReleaseAndTornReads
  refine ⟨fun s gv hc => ?_, fun s gal cell => ?_, fun s gv r hr hc hg => ?_, fun s r hr hp => ?_, fun s p b r hr hp hl => ?_⟩
  · refine ⟨weaveRowRelease_unfinished s gv hc, weaveRowRelease_tooEarly s gv hc, fun hr hv hd hb => ?_⟩
    have leaves := weaveRowRelease_finished s gv hc hr hd hb
    refine ⟨fun hm => ?_, fun b hm hbuf hcanon hclean => ?_⟩
    · exact ⟨_, leaves, s.releaseRow_direct gv.plan s.out.nextRow hm⟩
    · exact ⟨_, leaves, s.releaseRow_stored gv.plan b s.out.nextRow hm hv hbuf hcanon.1 hclean⟩
  · refine ⟨cellFault_idle s gal cell, fun hst => ?_⟩
    obtain ⟨u, hu, gallery, plan, place, service, mem⟩ := cellFault_serving s gal cell hst
    have self := (congrArg (fun v => v[gal]) gallery).trans (vmod_same _ _ _)
    refine ⟨u, hu, by rw [self], by rw [self], by rw [self], fun k hk => ?_, fun ht => ⟨?_, ?_⟩, fun ht => ?_, place, service, mem⟩
    · rw [gallery, vmod_other _ _ _ _ hk]
    · rw [plan, if_pos ht]
    · rw [self, ht, Bool.true_or]
    · rw [plan, ht]
      rfl
  · exact ⟨pipelineReadTorn_gfx_idle s gv r hr hc, fun t b hb hh hbuf h1 h2 h3 =>
      pipelineReadTorn_gfx s gv r t b hr hc hg hb hh hbuf ⟨h1, h2, h3⟩⟩
  · exact pipelineReadTorn_noFetch s r hr hp
  · intro py place off n hn hb
    exact ⟨pipelineReadTorn_fetch_idle s p r hr hp hl hn, fun t hw hs => pipelineReadTorn_fetch_torn s p r hr hp hl hn b t hb hw hs⟩

end

section
/-! SUPPORT. What a write into a buffer may touch, entries of a vector, and instructions whose unit is free. -/

namespace Sys2Proof.Machine

/-! ### Writes -/

/-- What a write into a buffer may touch: what a read may, memory, and the buffer table. -/
def WriteFrame (s u : State) : Prop :=
  u = { s with
    threads := u.threads, queues := u.queues, host := u.host, err := u.err, dram := u.dram, nextOp := u.nextOp
    mem := u.mem, bufs := u.bufs }

theorem WriteFrame.refl (s : State) : WriteFrame s s := rfl

theorem WriteFrame.trans {s u v : State} (h : WriteFrame s u) (k : WriteFrame u v) : WriteFrame s v := by
  rw [WriteFrame] at *
  rw [k, h]

theorem ReadFrame.writeFrame {s u : State} (h : ReadFrame s u) : WriteFrame s u := by
  rw [ReadFrame] at h
  rw [WriteFrame, h]

theorem WriteFrame.streams {s u : State} (h : WriteFrame s u) : u.streams = s.streams := by
  rw [WriteFrame] at h
  rw [h]

theorem WriteFrame.engs {s u : State} (h : WriteFrame s u) : u.engs = s.engs := by
  rw [WriteFrame] at h
  rw [h]

/-- Operations that write, one after another, touch what one may. -/
theorem WriteFrame.foldl {α : Type} (l : List α) (f : State → α → State) (s : State) (h : ∀ s a, WriteFrame s (f s a)) :
    WriteFrame s (l.foldl f s) := by
  induction l generalizing s with
  | nil => exact .refl s
  | cons a l ih => exact (h s a).trans (ih _)

theorem State.writeBurst_writeFrame (s : State) (pa : Nat) (d : List Byte) (b : Nat) : WriteFrame s (s.writeBurst pa d b) := by
  simp only [State.writeBurst]
  split
  · rfl
  · have met : WriteFrame s (s.meetBurst b) := (State.meetBurst_readFrame s b).writeFrame
    split
    · exact met
    · exact met.trans rfl

theorem State.writeDram_writeFrame (s : State) (pa : Nat) (d : List Byte) (port : Nat) : WriteFrame s (s.writeDram pa d port) := by
  unfold State.writeDram
  split
  · exact .refl s
  · extract_lets n first last s1 s2 s3 ends s4 lo hi s5
    have h1 : WriteFrame s s1 := (State.mergeRead_readFrame _ _ _ _ _).writeFrame
    have h2 : WriteFrame s1 s2 := by
      simp only [s2]
      split
      · exact .refl s1
      · exact (State.mergeRead_readFrame _ _ _ _ _).writeFrame
    have h3 : WriteFrame s2 s3 := WriteFrame.foldl _ _ _ fun _ _ => State.writeBurst_writeFrame _ _ _ _
    have h4 : WriteFrame s3 s4 := by
      simp only [s4]
      split
      · exact .refl s3
      · exact (State.burstOut_readFrame _ _ _).writeFrame
    have h5 : WriteFrame s4 s5 := by
      simp only [s5]
      split <;> rfl
    have all : WriteFrame s s5 := h1.trans (h2.trans (h3.trans (h4.trans h5)))
    split
    · exact all
    · exact all.trans (State.burstOut_readFrame _ _ _).writeFrame

theorem State.writeBuf_writeFrame (s : State) (k off : Nat) (d : List Byte) (port : Nat) : WriteFrame s (s.writeBuf k off d port) := by
  simp only [State.writeBuf]
  split
  · exact .refl s
  · exact (State.writeDram_writeFrame s _ d port).trans rfl

theorem State.clearIndex_writeFrame (s : State) (k : Nat) (b : Buf) : WriteFrame s (s.clearIndex k b) :=
  (State.writeBuf_writeFrame _ _ _ _ _).trans (WriteFrame.foldl _ _ _ fun _ _ => State.writeBuf_writeFrame _ _ _ _ _)

/-! ### Vectors -/

theorem vset_same {α : Type} {n : Nat} (v : Vector α n) (i : Fin n) (x : α) : (v.set i x)[i] = x := vmod_same v i fun _ => x

theorem vset_other {α : Type} {n : Nat} (v : Vector α n) (i k : Fin n) (x : α) (h : k ≠ i) : (v.set i x)[k] = v[k] :=
  vmod_other v i k (fun _ => x) h

/-! ### Units -/

/-- An instruction whose unit answers at once moves its own thread, and nothing else once it is registered. -/
theorem unit_answers {c : Instr} {s : State} {t : Tid} {w : IWord} {use : Use} {d : Option Done}
    (h : exec c s = .next ((s.registered t use).toUnit t w d)) : ∃ u, exec c s = .next u ∧
      ThreadTo s u t ((s.thread t).atUnit w d) ∧ u = { s.registered t use with threads := u.threads } :=
  ⟨_, h, threadTo_toUnit (s.registered t use) t w d, rfl⟩

/-- The thread of a unit instruction waits with the result that the unit gave (R249). -/
@[simp] theorem State.toUnit_thread (s : State) (t : Tid) (w : IWord) (d : Option Done) :
    (s.toUnit t w d).thread t = (s.thread t).atUnit w d := (threadTo_toUnit s t w d).1

/-- An instruction with an operand block runs when it can issue and no word of its block is uncorrectable (R218, R250). -/
theorem issueBlock_run (s : State) (t : Tid) (w : IWord) (k : State → State) (h : s.canIssue t 1) (hue : w.ue = false) :
    s.issueBlock t w k = k s := by
  rw [State.issueBlock, issue_run s t _ h, hue]
  rfl

/-- A host order on a unit that is free and that no higher level holds takes effect once it is registered (R236, R252). -/
theorem orderUnit_free (s : State) (t : Tid) (c : Instr) (u : Use) (r : Resource) (op : Nat) (k : State → State) (h : s.unitFree t u)
    (hh : s.higher r .host = none) : (s.startUnit t c u fun v => v.hostOrder t r op k) = k (s.registered t u) := by
  rw [startUnit_free _ _ _ _ _ h]
  exact hostOrder_free _ _ _ _ _ hh

end Sys2Proof.Machine
end


section
/-! SUPPORT. `SATTACH`, `SATTACH.D` and `SPAUSE` (R53, R59, R262, R264). -/

namespace Sys2Proof.Machine

/-! ### `SATTACH` -/

theorem exec_sattach (t : Tid) (w : IWord) (s : State) : exec (.sattach t w) s = execSattach t w s := rfl

/-- A handle that passes its checks is live, and none of the device's own (R250). -/
theorem State.checkHandle_ok {s : State} {t : Tid} {hd : Nat} {own : Bool} {b : Buf} (h : s.checkHandle t hd own = .ok b) :
    hd ≠ 0 ∧ s.buf? hd = some b := by
  simp only [State.checkHandle] at h
  split at h
  · cases h
  · rename_i hz
    split at h
    · cases h
    · split at h
      · cases h
      · rename_i b' hb
        split at h
        · cases h
        · split at h
          · cases h
          · cases h
            exact ⟨hz, hb⟩

/-- The checks of `SATTACH` pass once its handle is live and its fields are in range (R264). -/
theorem State.findHandle_live {s : State} {hd : Nat} (h0 : hd ≠ 0) (hlt : hd < 4032) : s.findHandle hd = .ok (s.buf? hd) := by
  rw [State.findHandle, if_neg (by omega), if_neg (by omega)]

theorem need_true {c : Bool} (n : Nat) (h : c = true) : need c n = .ok () := by rw [need, if_pos h]
theorem need_false {c : Bool} (n : Nat) (h : c = false) : need c n = .error (.state, n) := by
  rw [need, if_neg (by simp [h])]

/-- The stream that `SATTACH` makes of an operand block. -/
def attached (blk : List Byte) (hd : Nat) : Stream :=
  { st := .paused, clipId := BitVec.ofNat 16 (fieldAt blk 2 2), buf := BitVec.ofNat 12 hd, ring := fieldAt blk 1 1 == 1
    high := fieldAt blk 8 8, low := fieldAt blk 16 8 }

/-- What `SATTACH` does at its unit once the operation is registered. -/
def State.attach (s : State) (t : Tid) (w : IWord) (i : Fin 16) (blk : List Byte) (hd : Nat) (b : Buf) : State :=
  if s.streams[i].st ≠ .detached then s.toUnit t w (some (.code 0x24))
  else if b.len < 2097152 then s.toUnit t w (some (.code 0x15))
  else if 107374182400 < s.clipTotal + b.len then s.toUnit t w (some (.code 0x28))
  else ({ s.clearIndex hd b with streams := (s.clearIndex hd b).streams.set i (attached blk hd) } : State).toUnit t w (some (.code 0))

theorem State.registered_clipTotal (s : State) (t : Tid) (u : Use) : (s.registered t u).clipTotal = s.clipTotal := rfl

section
variable (s : State) (t : Tid) (w : IWord) (i : Fin 16) (blk : List Byte) (hd : Nat) (b : Buf)

theorem State.attach_busy (hst : s.streams[i].st ≠ .detached) : s.attach t w i blk hd b = s.toUnit t w (some (.code 0x24)) := if_pos hst

theorem State.attach_short (hst : s.streams[i].st = .detached) (hlen : b.len < 2097152) :
    s.attach t w i blk hd b = s.toUnit t w (some (.code 0x15)) := by
  rw [State.attach, if_neg (not_not.2 hst), if_pos hlen]

theorem State.attach_overLimit (hst : s.streams[i].st = .detached) (hlen : 2097152 ≤ b.len) (htot : 107374182400 < s.clipTotal + b.len) :
    s.attach t w i blk hd b = s.toUnit t w (some (.code 0x28)) := by
  rw [State.attach, if_neg (not_not.2 hst), if_neg (not_lt.2 hlen), if_pos htot]

/-- An attached stream takes the place of the detached one, and the instruction answers OK. -/
theorem State.attach_attached (hst : s.streams[i].st = .detached) (hlen : 2097152 ≤ b.len) (htot : s.clipTotal + b.len ≤ 107374182400) :
    ((s.attach t w i blk hd b).thread t).done = some (.code 0) ∧ (s.attach t w i blk hd b).streams[i] = attached blk hd ∧
      ∀ j, j ≠ i → (s.attach t w i blk hd b).streams[j] = s.streams[j] := by
  rw [State.attach, if_neg (not_not.2 hst), if_neg (not_lt.2 hlen), if_neg (not_lt.2 htot)]
  simp only [State.toUnit_streams, (State.clearIndex_writeFrame s hd b).streams]
  exact ⟨by rw [State.toUnit_thread]; rfl, vset_same _ _ _, fun j hj => vset_other _ _ _ _ hj⟩

end

section
variable (s : State) (t : Tid) (w : IWord) (blk : List Byte) (b : Buf) (hi : s.canIssue t 1) (hue : w.ue = false)
  (hblk : w.block (s.thread t) 32 = blk) (hlt : fieldAt blk 4 2 < 4032) (hc : s.checkHandle t (fieldAt blk 4 2) = .ok b)
include hi hue hblk hlt hc

/-- A mode above 1, or a HIGH that is not above LOW, faults the thread. -/
theorem sattach_outOfRange (hbad : 1 < fieldAt blk 1 1 ∨ fieldAt blk 8 8 ≤ fieldAt blk 16 8) :
    exec (.sattach t w) s = .next (s.faultAt t .state 0x20 (s.thread t).pc) := by
  obtain ⟨h0, hb⟩ := State.checkHandle_ok hc
  have hneed : (decide (fieldAt blk 1 1 ≤ 1) && decide (fieldAt blk 16 8 < fieldAt blk 8 8)) = false := by
    simp only [Bool.and_eq_false_iff, decide_eq_false_iff_not]
    omega
  rw [exec_sattach, execSattach, issueBlock_run s t w _ hi hue]
  simp only [hblk, State.findHandle_live h0 hlt, hb, hc, need_false _ hneed]
  rfl

/-- With its fields in range and its unit free `SATTACH` attaches on the state that has registered it. -/
theorem sattach_start (i : Fin 16) (hn : fieldAt blk 0 1 = i.val) (hm : fieldAt blk 1 1 ≤ 1) (hw : fieldAt blk 16 8 < fieldAt blk 8 8)
    (hf : s.unitFree t { units := [.stream i.val], handles := [fieldAt blk 4 2] }) : exec (.sattach t w) s =
      .next ((s.registered t { units := [.stream i.val], handles := [fieldAt blk 4 2] }).attach t w i blk (fieldAt blk 4 2) b) := by
  obtain ⟨h0, hb⟩ := State.checkHandle_ok hc
  have hneed : (decide (fieldAt blk 1 1 ≤ 1) && decide (fieldAt blk 16 8 < fieldAt blk 8 8)) = true := by simp [hm, hw]
  have hlive : (s.registered t { units := [.stream i.val], handles := [fieldAt blk 4 2] }).buf? (fieldAt blk 4 2) = some b := hb
  rw [exec_sattach, execSattach, issueBlock_run s t w _ hi hue]
  simp only [hblk, State.findHandle_live h0 hlt, hb, hc, need_true _ hneed, hn, i.isLt, dite_true, bind, Except.bind, pure, Except.pure,
    Option.isSome_some, if_true, reduceCtorEq, if_false, State.orFault]
  rw [startUnit_free _ _ _ _ _ hf]
  simp only [hlive]
  rfl

end

/-! ### `SPAUSE` and `SATTACH.D` -/

theorem exec_sattachDetach (t : Tid) (w : IWord) (s : State) : exec (.sattachDetach t w) s = execSattachDetach t w s := rfl
theorem exec_spause (t : Tid) (w : IWord) (s : State) : exec (.spause t w) s = execSpause t w s := rfl

/-- A register that holds the number of a stream. -/
theorem toNat_streamNumber (i : Fin 16) : (BitVec.ofNat 64 i.val).toNat = i.val := by
  rw [BitVec.toNat_ofNat, Nat.mod_eq_of_lt (by omega)]

/-- What `SATTACH.D` does at its unit once the operation is registered and no higher level holds the streams. -/
def State.detachOrder (s : State) (t : Tid) (w : IWord) (i : Fin 16) : State :=
  match s.streams[i].st with
  | .detached => s.toUnit t w (some (.code 0x25))
  | .playing => (s.modStream i fun x => { x with detach := some (.thread t) }).toUnit t w none
  | _ => (s.detachNow i).toUnit t w (some (.code 0))

/-- What `SPAUSE` does at its unit once the operation is registered and no higher level holds the streams. -/
def State.pauseOrder (s : State) (t : Tid) (w : IWord) (i : Fin 16) : State :=
  (s.pauseStream i (.thread t)).1.toUnit t w (s.pauseStream i (.thread t)).2

section
variable (s : State) (t : Tid) (w : IWord) (i : Fin 16)

theorem State.pauseOrder_detached (h : s.streams[i].st = .detached) : s.pauseOrder t w i = s.toUnit t w (some (.code 0x25)) := by
  simp only [State.pauseOrder, State.pauseStream, h]

theorem State.pauseOrder_still (h : s.streams[i].st = .paused ∨ s.streams[i].st = .stopped) :
    s.pauseOrder t w i = s.toUnit t w (some (.code 0)) := by
  rcases h with h | h <;> simp only [State.pauseOrder, State.pauseStream, h]

theorem State.pauseOrder_playing (h : s.streams[i].st = .playing) :
    s.pauseOrder t w i = (s.modStream i fun x => { x with pauses := x.pauses ++ [.thread t] }).toUnit t w none := by
  simp only [State.pauseOrder, State.pauseStream, h]

theorem State.detachOrder_detached (h : s.streams[i].st = .detached) : s.detachOrder t w i = s.toUnit t w (some (.code 0x25)) := by
  simp only [State.detachOrder, h]

theorem State.detachOrder_still (h : s.streams[i].st = .paused ∨ s.streams[i].st = .stopped) :
    s.detachOrder t w i = (s.detachNow i).toUnit t w (some (.code 0)) := by
  rcases h with h | h <;> simp only [State.detachOrder, h]

theorem State.detachOrder_playing (h : s.streams[i].st = .playing) :
    s.detachOrder t w i = (s.modStream i fun x => { x with detach := some (.thread t) }).toUnit t w none := by
  simp only [State.detachOrder, h]

end

section
variable (s : State) (t : Tid) (w : IWord) (i : Fin 16) (hi : s.canIssue t 1) (hh : s.higher .stream .host = none)
  (hf : s.unitFree t { units := [.stream i.val] })
include hi hh hf

/-- With its stream free `SPAUSE` pauses on the state that has registered it. -/
theorem spause_start (hr : (s.thread t).reg w.ra = BitVec.ofNat 64 i.val) : exec (.spause t w) s =
    .next ((s.registered t { units := [.stream i.val] }).pauseOrder t w i) := by
  rw [exec_spause, execSpause, issue_run s t _ hi]
  simp only [hr, toNat_streamNumber, i.isLt, dite_true]
  rw [orderUnit_free _ _ _ _ _ _ _ hf hh]
  rfl

/-- With its stream free `SATTACH.D` detaches on the state that has registered it. -/
theorem sattachDetach_start (hn : fieldAt (w.block (s.thread t) 32) 0 1 = i.val) (hue : w.ue = false) :
    exec (.sattachDetach t w) s = .next ((s.registered t { units := [.stream i.val] }).detachOrder t w i) := by
  have held : (s.registered t { units := [.stream i.val] }).higher .stream .host = none := hh
  rw [exec_sattachDetach, execSattachDetach, issueBlock_run s t w _ hi hue]
  simp only [hn, i.isLt, dite_true]
  rw [startUnit_free _ _ _ _ _ hf]
  simp only [hostOrder_free _ _ _ _ _ held]
  rfl

end

end Sys2Proof.Machine
end

section
/-! PROOF. O24: attaching, pausing and detaching a stream. -/

open Sys2Proof Sys2Proof.Machine

/-- Settles O24: each instruction runs at its unit on the state that has registered it, and the state of the stream decides what it
does there. -/
theorem streamAttachment : Obligations.StreamAttachment := by
  unfold Obligations.StreamAttachment
  refine ⟨fun s t w i b hi => ?_, fun s t w i hi hh => ?_⟩
  · intro th blk hd use hn hlt hc hue
    refine ⟨sattach_outOfRange s t w blk b hi hue rfl hlt hc, fun hm hw hf => ?_⟩
    have start := sattach_start s t w blk b hi hue rfl hlt hc i hn hm hw hf
    rw [← s.registered_clipTotal t use]
    refine ⟨fun hst => ?_, fun hst hlen => ?_, fun hst hlen htot => ?_, fun hst hlen htot => ?_⟩
    · exact unit_answers (start.trans (congrArg _ (State.attach_busy _ _ _ _ _ _ _ hst)))
    · exact unit_answers (start.trans (congrArg _ (State.attach_short _ _ _ _ _ _ _ hst hlen)))
    · exact unit_answers (start.trans (congrArg _ (State.attach_overLimit _ _ _ _ _ _ _ hst hlen htot)))
    · exact ⟨_, start, State.attach_attached _ _ _ _ _ _ _ hst hlen htot⟩
  · intro th use hf r
    refine ⟨fun hr => ?_, fun hn hue => ?_⟩
    · have start := spause_start s t w i hi hh hf hr
      refine ⟨fun hst => ?_, fun hst => ?_, fun hst => ?_⟩
      · exact unit_answers (start.trans (congrArg _ (State.pauseOrder_detached _ _ _ _ hst)))
      · exact unit_answers (start.trans (congrArg _ (State.pauseOrder_still _ _ _ _ hst)))
      · exact ⟨_, start.trans (congrArg _ (State.pauseOrder_playing _ _ _ _ hst)), threadTo_toUnit _ t w none, rfl⟩
    · have start := sattachDetach_start s t w i hi hh hf hn hue
      refine ⟨fun hst => ?_, fun hst => ?_, fun hst => ?_⟩
      · exact unit_answers (start.trans (congrArg _ (State.detachOrder_detached _ _ _ _ hst)))
      · refine ⟨_, start.trans (congrArg _ (State.detachOrder_still _ _ _ _ hst)), threadTo_toUnit _ t w _, ?_, ?_,
          fun j hj => vmod_other _ _ _ _ hj, rfl⟩
        · exact congrArg Stream.st (vmod_same _ _ _)
        · exact congrArg Stream.pkts (vmod_same _ _ _)
      · exact ⟨_, start.trans (congrArg _ (State.detachOrder_playing _ _ _ _ hst)), threadTo_toUnit _ t w none, rfl⟩

end

section
/-! SUPPORT. `SSEEK` and `SPLAY` (R65, R69, R263, R550). -/

namespace Sys2Proof.Machine

theorem exec_sseek (t : Tid) (w : IWord) (s : State) : exec (.sseek t w) s = execSseek t w s := rfl
theorem exec_splay (t : Tid) (w : IWord) (s : State) : exec (.splay t w) s = execSplay t w s := rfl

/-- Once its CLIP_START has been read a stream reads none again. -/
theorem State.retryClip_read (s : State) (i : Fin 16) (h : s.streams[i].clip ≠ none) : s.retryClip i = s := if_neg h

theorem SState.still_ne {x : SState} (h : x = .paused ∨ x = .stopped) : x ≠ .detached ∧ x ≠ .playing := by
  rcases h with rfl | rfl <;> decide

/-! ### `SSEEK` -/

@[simp] theorem State.streamEvent_streams (s : State) (i : Fin 16) (e f : Nat) : (s.streamEvent i e f).streams = s.streams :=
  State.post41_streams _ _

@[simp] theorem State.streamEvent_mem (s : State) (i : Fin 16) (e f : Nat) : (s.streamEvent i e f).mem = s.mem := State.post41_mem _ _

/-- The last stored FRAME_START lies at a frame or behind it (R69). -/
def Stream.reaches (x : Stream) (f : Nat) : Bool := ((x.pkts.filter fun p => p.ty == 2).getLast?).any fun p => f ≤ p.frame

theorem Stream.reaches_iff (x : Stream) (f : Nat) :
    x.reaches f = true ↔ ∃ p, (x.pkts.filter fun p => p.ty == 2).getLast? = some p ∧ f ≤ p.frame := by
  rw [Stream.reaches, Option.any_eq_true]
  simp only [decide_eq_true_eq]

theorem Stream.reaches_false_iff (x : Stream) (f : Nat) :
    x.reaches f = false ↔ ∀ p, (x.pkts.filter fun p => p.ty == 2).getLast? = some p → p.frame < f := by
  rw [← Bool.not_eq_true, Stream.reaches_iff]
  simp only [not_exists, not_and, not_le]

/-- The frames of the indexed landings at or before a frame (R69). -/
def Stream.landingsTo (x : Stream) (f : Nat) : List Nat := (x.pkts.filter fun p => p.entry.isSome && p.frame ≤ f).map (·.frame)

theorem Stream.mem_landingsTo (x : Stream) (f m : Nat) :
    m ∈ x.landingsTo f ↔ ∃ p ∈ x.pkts, p.entry ≠ none ∧ p.frame ≤ f ∧ p.frame = m := by
  simp [Stream.landingsTo, Option.isSome_iff_ne_none, and_assoc]

theorem Stream.landingsTo_eq_nil (x : Stream) (f : Nat) (h : ∀ p ∈ x.pkts, p.entry ≠ none → f < p.frame) : x.landingsTo f = [] := by
  refine List.eq_nil_iff_forall_not_mem.2 fun m hm => ?_
  obtain ⟨p, hp, hentry, hle, -⟩ := (x.mem_landingsTo f m).1 hm
  exact absurd hle (not_le.2 (h p hp hentry))

/-- The latest indexed landing is the one that no other at or before the frame follows. -/
theorem Stream.landingsTo_max {x : Stream} {f : Nat} {p : Pkt} (hp : p ∈ x.pkts) (hentry : p.entry ≠ none) (hle : p.frame ≤ f)
    (hmax : ∀ q ∈ x.pkts, q.entry ≠ none → q.frame ≤ f → q.frame ≤ p.frame) : (x.landingsTo f).max? = some p.frame := by
  refine List.max?_eq_some_iff.2 ⟨(x.mem_landingsTo f _).2 ⟨p, hp, hentry, hle, rfl⟩, fun m hm => ?_⟩
  obtain ⟨q, hq, hqentry, hqle, rfl⟩ := (x.mem_landingsTo f m).1 hm
  exact hmax q hq hqentry hqle

/-- A paused stream takes a landing as its POSITION. -/
def State.landOn (s : State) (i : Fin 16) (land : Nat) : State := s.putStream i { s.streams[i] with position := some land, shown := none }

section
variable (s : State) (i : Fin 16) (f : Nat) (d : Deliver) (l : Level) (op : Nat) (hclip : s.streams[i].clip ≠ none)
include hclip

theorem State.seekStream_detached (hst : s.streams[i].st = .detached) : s.seekStream i f d l op = (s, some (.code 0x25)) := by
  simp only [State.seekStream, s.retryClip_read i hclip, hst, if_true]

theorem State.seekStream_notYet (hst : s.streams[i].st ≠ .detached) (h : s.streams[i].reaches f = false) :
    s.seekStream i f d l op = ((s.streamEvent i 3 f).event 6, some (.code 0x22)) := by
  rw [Stream.reaches] at h
  simp only [State.seekStream, s.retryClip_read i hclip, hst, if_false, h, Bool.not_false, if_true]

theorem State.seekStream_noLanding (hst : s.streams[i].st ≠ .detached) (h : s.streams[i].reaches f = true)
    (hl : s.streams[i].landingsTo f = []) : s.seekStream i f d l op = ((s.streamEvent i 2 f).event 6, some (.code 0x21)) := by
  rw [Stream.reaches] at h
  rw [Stream.landingsTo] at hl
  simp only [State.seekStream, s.retryClip_read i hclip, hst, if_false, h, Bool.not_true, Bool.false_eq_true, hl]

/-- A landing turns the latest indexed one into the place that the seek goes to. -/
theorem State.seekStream_lands {m : Nat} (hst : s.streams[i].st ≠ .detached) (h : s.streams[i].reaches f = true)
    (hl : (s.streams[i].landingsTo f).max? = some m) :
    (s.streams[i].st = .playing → s.streams[i].seek = none →
      s.seekStream i f d l op = (s.modStream i fun x => { x with seek := some ⟨m, f, d⟩ }, none)) ∧
    (s.streams[i].st ≠ .playing →
      s.seekStream i f d l op = (((s.landOn i m).streamEvent i 1 m).event 6, some (.codeRc 0 m))) := by
  rw [Stream.reaches] at h
  cases hlist : s.streams[i].landingsTo f with
  | nil => rw [hlist] at hl; cases hl
  | cons a r =>
    rw [hlist, List.max?_cons', Option.some.injEq] at hl
    rw [Stream.landingsTo] at hlist
    simp only [State.seekStream, s.retryClip_read i hclip, hst, if_false, h, Bool.not_true, Bool.false_eq_true, hlist, hl]
    refine ⟨fun hp hs => ?_, fun hp => ?_⟩
    · simp only [hp, if_true, hs]
    · simp only [hp, if_false]
      rfl

end

/-- All that a seek can do while none is pending (R69, R263). -/
theorem State.seekStream_cases (s : State) (i : Fin 16) (f : Nat) (d : Deliver) (l : Level) (op : Nat) (hclip : s.streams[i].clip ≠ none)
    (hseek : s.streams[i].seek = none) : s.seekStream i f d l op = (s, some (.code 0x25)) ∨
      (∃ ev code, s.seekStream i f d l op = ((s.streamEvent i ev f).event 6, some (.code code))) ∨
      (∃ m, s.seekStream i f d l op = (s.modStream i fun x => { x with seek := some ⟨m, f, d⟩ }, none)) ∨
      ∃ m, s.seekStream i f d l op = (((s.landOn i m).streamEvent i 1 m).event 6, some (.codeRc 0 m)) := by
  by_cases hst : s.streams[i].st = .detached
  · exact .inl (s.seekStream_detached i f d l op hclip hst)
  cases hr : s.streams[i].reaches f with
  | false => exact .inr (.inl ⟨_, _, s.seekStream_notYet i f d l op hclip hst hr⟩)
  | true =>
    cases hm : (s.streams[i].landingsTo f).max? with
    | none => exact .inr (.inl ⟨_, _, s.seekStream_noLanding i f d l op hclip hst hr (List.max?_eq_none_iff.1 hm)⟩)
    | some m =>
      obtain ⟨playing, still⟩ := s.seekStream_lands i f d l op hclip hst hr hm
      by_cases hp : s.streams[i].st = .playing
      · exact .inr (.inr (.inl ⟨m, playing hp hseek⟩))
      · exact .inr (.inr (.inr ⟨m, still hp⟩))

/-- What `SSEEK` does at its unit once the operation is registered and no higher level holds the streams. -/
def State.seekOrder (s : State) (t : Tid) (w : IWord) (i : Fin 16) (f : Nat) : State :=
  (s.seekStream i f (.thread t) .host 0x39).1.toUnit t w (s.seekStream i f (.thread t) .host 0x39).2

/-- Replacing a stream replaces it but for its watermark word, and no other; a crossing sets SWM (R62). -/
theorem State.putStream_cases (s : State) (i : Fin 16) (x : Stream) :
    ∃ wm, s.putStream i x = { s with streams := s.streams.set i { x with wm := wm } } ∨
      s.putStream i x = ({ s with streams := s.streams.set i { x with wm := wm } } : State).event 5 := by
  simp only [State.putStream]
  split
  · exact ⟨x.wm, .inl rfl⟩
  · split
    · exact ⟨_, .inr rfl⟩
    · exact ⟨_, .inl rfl⟩

theorem State.putStream_same (s : State) (i : Fin 16) (x : Stream) : ∃ wm, (s.putStream i x).streams[i] = { x with wm := wm } := by
  obtain ⟨wm, h | h⟩ := s.putStream_cases i x
  · exact ⟨wm, by rw [h]; exact vset_same _ _ _⟩
  · exact ⟨wm, by rw [h]; exact vset_same _ _ _⟩

theorem State.putStream_other (s : State) (i j : Fin 16) (x : Stream) (hj : j ≠ i) : (s.putStream i x).streams[j] = s.streams[j] := by
  obtain ⟨wm, h | h⟩ := s.putStream_cases i x
  · rw [h]
    exact vset_other _ _ _ _ hj
  · rw [h]
    exact vset_other _ _ _ _ hj

@[simp] theorem State.putStream_mem (s : State) (i : Fin 16) (x : Stream) : (s.putStream i x).mem = s.mem := by
  obtain ⟨wm, h | h⟩ := s.putStream_cases i x
  · rw [h]
  · rw [h]
    rfl

/-- A seek leaves memory and every other stream. -/
theorem State.seekOrder_frame (s : State) (t : Tid) (w : IWord) (i : Fin 16) (f : Nat) (hclip : s.streams[i].clip ≠ none)
    (hseek : s.streams[i].seek = none) :
    (s.seekOrder t w i f).mem = s.mem ∧ ∀ j, j ≠ i → (s.seekOrder t w i f).streams[j] = s.streams[j] := by
  rw [State.seekOrder]
  obtain h | ⟨ev, code, h⟩ | ⟨m, h⟩ | ⟨m, h⟩ := s.seekStream_cases i f (.thread t) .host 0x39 hclip hseek
  · rw [h]
    exact ⟨rfl, fun _ _ => rfl⟩
  · rw [h]
    simp
  · rw [h]
    exact ⟨rfl, fun j hj => vmod_other _ _ _ _ hj⟩
  · rw [h]
    simp only [State.toUnit_mem, State.toUnit_streams, State.event_mem, State.event_streams, State.streamEvent_mem,
      State.streamEvent_streams, State.landOn]
    exact ⟨State.putStream_mem _ _ _, fun j hj => State.putStream_other _ _ _ _ hj⟩

section
variable (s : State) (t : Tid) (w : IWord) (i : Fin 16) (f : Nat)

/-- The thread of a seek waits for its answer, and keeps its event word. -/
theorem State.seekOrder_thread : (s.seekOrder t w i f).thread t =
    ((s.seekStream i f (.thread t) .host 0x39).1.thread t).atUnit w (s.seekStream i f (.thread t) .host 0x39).2 := State.toUnit_thread _ _ _ _

variable (hclip : s.streams[i].clip ≠ none)
include hclip

theorem State.seekOrder_detached (hst : s.streams[i].st = .detached) :
    ((s.seekOrder t w i f).thread t).done = some (.code 0x25) ∧ (s.seekOrder t w i f).streams[i] = s.streams[i] := by
  rw [State.seekOrder, s.seekStream_detached i f _ _ _ hclip hst]
  exact ⟨congrArg Thread.done (State.toUnit_thread _ _ _ _), rfl⟩

theorem State.seekOrder_notYet (hst : s.streams[i].st ≠ .detached) (h : s.streams[i].reaches f = false) :
    ((s.seekOrder t w i f).thread t).done = some (.code 0x22) ∧ (s.seekOrder t w i f).streams[i] = s.streams[i] ∧
      ((s.seekOrder t w i f).thread t).evt.getLsbD 6 = true := by
  rw [State.seekOrder, s.seekStream_notYet i f _ _ _ hclip hst h, State.toUnit_thread]
  exact ⟨rfl, by simp, (s.streamEvent i 3 f).event_sets 6 (by decide) t⟩

theorem State.seekOrder_noLanding (hst : s.streams[i].st ≠ .detached) (h : s.streams[i].reaches f = true)
    (hl : s.streams[i].landingsTo f = []) :
    ((s.seekOrder t w i f).thread t).done = some (.code 0x21) ∧ (s.seekOrder t w i f).streams[i] = s.streams[i] ∧
      ((s.seekOrder t w i f).thread t).evt.getLsbD 6 = true := by
  rw [State.seekOrder, s.seekStream_noLanding i f _ _ _ hclip hst h hl, State.toUnit_thread]
  exact ⟨rfl, by simp, (s.streamEvent i 2 f).event_sets 6 (by decide) t⟩

variable {m : Nat} (h : s.streams[i].reaches f = true) (hl : (s.streams[i].landingsTo f).max? = some m)
include h hl

theorem State.seekOrder_still (hst : s.streams[i].st = .paused ∨ s.streams[i].st = .stopped) :
    ((s.seekOrder t w i f).thread t).done = some (.codeRc 0 m) ∧ (s.seekOrder t w i f).streams[i].position = some m ∧
      ((s.seekOrder t w i f).thread t).evt.getLsbD 6 = true := by
  obtain ⟨hd, hp⟩ := SState.still_ne hst
  obtain ⟨wm, same⟩ := s.putStream_same i { s.streams[i] with position := some m, shown := none }
  rw [State.seekOrder, (s.seekStream_lands i f _ _ _ hclip hd h hl).2 hp, State.toUnit_thread]
  refine ⟨rfl, ?_, ((s.landOn i m).streamEvent i 1 m).event_sets 6 (by decide) t⟩
  simp only [State.toUnit_streams, State.event_streams, State.streamEvent_streams, State.landOn]
  exact congrArg Stream.position same

theorem State.seekOrder_playing (hst : s.streams[i].st = .playing) (hseek : s.streams[i].seek = none) :
    ((s.seekOrder t w i f).thread t).done = none ∧
      (s.seekOrder t w i f).streams[i] = { s.streams[i] with seek := some ⟨m, f, .thread t⟩ } := by
  have hd : s.streams[i].st ≠ .detached := ne_of_eq_of_ne hst (by decide)
  rw [State.seekOrder, (s.seekStream_lands i f _ _ _ hclip hd h hl).1 hst hseek, State.toUnit_thread]
  exact ⟨rfl, vmod_same _ _ _⟩

end

/-- With its stream free `SSEEK` seeks on the state that has registered it. -/
theorem sseek_start (s : State) (t : Tid) (w : IWord) (i : Fin 16) (hi : s.canIssue t 1) (hh : s.higher .stream .host = none)
    (hf : s.unitFree t { units := [.stream i.val] }) (hr : (s.thread t).reg w.ra = BitVec.ofNat 64 i.val) : exec (.sseek t w) s =
      .next ((s.registered t { units := [.stream i.val] }).seekOrder t w i ((s.thread t).reg w.rb).toNat) := by
  rw [exec_sseek, execSseek, issue_run s t _ hi]
  simp only [hr, toNat_streamNumber, i.isLt, dite_true]
  rw [orderUnit_free _ _ _ _ _ _ _ hf hh]
  rfl

/-! ### `SPLAY` -/

/-- What `SPLAY` does at its unit once the operation is registered and no higher level holds the streams. -/
def State.playOrder (s : State) (t : Tid) (w : IWord) (i : Fin 16) (wa n0 : Nat) : State :=
  (s.playStream i wa n0).1.toUnit t w (some (.code (s.playStream i wa n0).2))

theorem State.playOrder_refused (s : State) (t : Tid) (w : IWord) (i : Fin 16) (wa n0 : Nat) {r : Nat} (h : s.playStream i wa n0 = (s, r)) :
    s.playOrder t w i wa n0 = s.toUnit t w (some (.code r)) := by
  rw [State.playOrder, h]

/-- With its stream free `SPLAY` plays on the state that has registered it. -/
theorem splay_start (s : State) (t : Tid) (w : IWord) (i : Fin 16) (hi : s.canIssue t 1) (hh : s.higher .stream .host = none)
    (hf : s.unitFree t { units := [.stream i.val] }) (hr : (s.thread t).reg w.ra = BitVec.ofNat 64 i.val) : exec (.splay t w) s =
      .next ((s.registered t { units := [.stream i.val] }).playOrder t w i ((s.thread t).reg w.rb).toNat ((s.thread t).reg w.rc).toNat) := by
  rw [exec_splay, execSplay, issue_run s t _ hi]
  simp only [hr, toNat_streamNumber, i.isLt, dite_true]
  rw [orderUnit_free _ _ _ _ _ _ _ hf hh]
  rfl

section
variable (s : State) (i : Fin 16) (wa n0 : Nat) (c : Clip) (hclip : s.streams[i].clip = some c)
include hclip

theorem State.playStream_detached (hst : s.streams[i].st = .detached) : s.playStream i wa n0 = (s, 0x25) := by
  simp only [State.playStream, s.retryClip_read i (ne_of_eq_of_ne hclip (Option.some_ne_none c)), hst, if_true]

theorem State.playStream_playing (hst : s.streams[i].st = .playing) : s.playStream i wa n0 = (s, 0x24) := by
  simp only [State.playStream, s.retryClip_read i (ne_of_eq_of_ne hclip (Option.some_ne_none c)), hst, reduceCtorEq, if_false, if_true]

variable (hst : s.streams[i].st = .paused ∨ s.streams[i].st = .stopped)
include hst

/-- The checks of `SPLAY` on a stream that is paused or stopped, in their order (R263, R550). -/
theorem State.playStream_still : s.playStream i wa n0 =
    if s.streams[i].position ≠ some n0 then (s, 0x27)
    else if wa < s.wallFrame + 2 then (s, 0x26)
    else s.plan?.elim (s, 0x20) fun p =>
      if c.rateDen = 0 ∨ c.rateNum * p.rateDen ≠ p.rateNum * c.rateDen then (s, 0x20)
      else (s.modStream i fun x => { x with st := .playing, wA := wa, n0 := n0, shown := none, last := none, dec := none }, 0) := by
  obtain ⟨hd, hp⟩ := SState.still_ne hst
  simp only [State.playStream, s.retryClip_read i (ne_of_eq_of_ne hclip (Option.some_ne_none c)), hd, hp, if_false, hclip]
  cases s.plan? <;> rfl

theorem State.playStream_elsewhere (hpos : s.streams[i].position ≠ some n0) : s.playStream i wa n0 = (s, 0x27) := by
  rw [s.playStream_still i wa n0 c hclip hst, if_pos hpos]

variable (hpos : s.streams[i].position = some n0)
include hpos

theorem State.playStream_late (htime : wa < s.wallFrame + 2) : s.playStream i wa n0 = (s, 0x26) := by
  rw [s.playStream_still i wa n0 c hclip hst, if_neg (not_not.2 hpos), if_pos htime]

variable (htime : s.wallFrame + 2 ≤ wa)
include htime

theorem State.playStream_noPlan (hp : s.plan? = none) : s.playStream i wa n0 = (s, 0x20) := by
  rw [s.playStream_still i wa n0 c hclip hst, if_neg (not_not.2 hpos), if_neg (not_lt.2 htime), hp, Option.elim_none]

theorem State.playStream_otherRate (p : Plan) (hp : s.plan? = some p) (hrate : c.rateNum * p.rateDen ≠ p.rateNum * c.rateDen) :
    s.playStream i wa n0 = (s, 0x20) := by
  rw [s.playStream_still i wa n0 c hclip hst, if_neg (not_not.2 hpos), if_neg (not_lt.2 htime), hp, Option.elim_some, if_pos (.inr hrate)]

theorem State.playStream_plays (p : Plan) (hp : s.plan? = some p) (hden : c.rateDen ≠ 0)
    (hrate : c.rateNum * p.rateDen = p.rateNum * c.rateDen) : s.playStream i wa n0 =
      (s.modStream i fun x => { x with st := .playing, wA := wa, n0 := n0, shown := none, last := none, dec := none }, 0) := by
  rw [s.playStream_still i wa n0 c hclip hst, if_neg (not_not.2 hpos), if_neg (not_lt.2 htime), hp, Option.elim_some,
    if_neg (not_or.2 ⟨hden, not_not.2 hrate⟩)]

end
end Sys2Proof.Machine
end

section
/-! PROOF. O25: seeking and playing a stream. -/

open Sys2Proof Sys2Proof.Machine

/-- Settles O25: each instruction runs at its unit on the state that has registered it, where its checks go in order. -/
theorem seekAndPlay : Obligations.SeekAndPlay := by
  unfold Obligations.SeekAndPlay
  refine ⟨fun s t w i hi hh hr hclip hseek => ?_, fun s t w i c hi hh hr hclip => ?_⟩
  · intro th f use x last hf
    have start := sseek_start s t w i hi hh hf hr
    obtain ⟨mem, others⟩ := (s.registered t use).seekOrder_frame t w i f hclip hseek
    refine ⟨_, start, congrArg Thread.st (State.seekOrder_thread _ _ _ _ _), mem, others, fun hst => ?_, fun hst hlast => ?_,
      fun hst hlast hnone => ?_, fun p hp hentry hle hmax hlast => ⟨fun hst => ?_, fun hst => ?_⟩⟩
    · exact State.seekOrder_detached _ _ _ _ _ hclip hst
    · exact State.seekOrder_notYet _ _ _ _ _ hclip hst ((Stream.reaches_false_iff _ _).2 hlast)
    · exact State.seekOrder_noLanding _ _ _ _ _ hclip hst ((Stream.reaches_iff _ _).2 hlast) (Stream.landingsTo_eq_nil _ _ hnone)
    · exact (s.registered t use).seekOrder_still t w i f hclip ((x.reaches_iff f).2 hlast) (Stream.landingsTo_max hp hentry hle hmax) hst
    · exact (s.registered t use).seekOrder_playing t w i f hclip ((x.reaches_iff f).2 hlast) (Stream.landingsTo_max hp hentry hle hmax)
        hst hseek
  · intro th wa n0 use x hf gives
    have start := splay_start s t w i hi hh hf hr
    have answers : ∀ r, (s.registered t use).playStream i wa n0 = (s.registered t use, r) → gives r := fun r h =>
      unit_answers (start.trans (congrArg _ (State.playOrder_refused _ t w i wa n0 h)))
    refine ⟨fun hst => answers _ (State.playStream_detached _ _ _ _ c hclip hst),
      fun hst => answers _ (State.playStream_playing _ _ _ _ c hclip hst), fun hst => ⟨fun hpos => ?_, fun hpos hlate => ?_,
        fun hpos htime => ⟨fun hplan => ?_, fun p hplan hrate => ?_, fun p hplan hden hrate => ?_⟩⟩⟩
    · exact answers _ (State.playStream_elsewhere _ _ _ _ c hclip hst hpos)
    · exact answers _ (State.playStream_late _ _ _ _ c hclip hst hpos hlate)
    · exact answers _ (State.playStream_noPlan _ _ _ _ c hclip hst hpos htime hplan)
    · exact answers _ (State.playStream_otherRate _ _ _ _ c hclip hst hpos htime p hplan hrate)
    · have plays := State.playStream_plays (s.registered t use) i wa n0 c hclip hst hpos htime p hplan hden hrate
      rw [State.playOrder, plays] at start
      exact ⟨_, start, threadTo_toUnit _ t w _, rfl⟩

end

section
/-! SUPPORT. Which queues an item, a record or a replaced queue may touch. -/

namespace Sys2Proof.Machine

theorem State.putQueueRaw_queues (s : State) (i : Fin 64) (q : Queue) :
    ∃ wm, (s.putQueueRaw i q).1.queues = s.queues.set i { q with wm := wm } := by
  simp only [State.putQueueRaw]
  split
  · refine ⟨(q.wm.cross q.low q.high s.queues[i].level q.level).1, ?_⟩
    split
    · rw [State.raise_queues]
      rfl
    · rfl
  · exact ⟨_, rfl⟩

/-- Replacing a queue's words leaves every other queue. -/
theorem State.putQueueRaw_other (s : State) (i k : Fin 64) (q : Queue) (h : k ≠ i) : (s.putQueueRaw i q).1.queues[k] = s.queues[k] := by
  obtain ⟨wm, hq⟩ := s.putQueueRaw_queues i q
  rw [hq]
  exact vset_other _ _ _ _ h

/-- An item of Q41 touches Q41 alone. -/
theorem State.post41_other (s : State) (d : List Byte) (k : Fin 64) (h : k ≠ 41) : (s.post41 d).queues[k] = s.queues[k] := by
  have put := s.putQueueRaw_other 41 k (s.queues[41].push d) h
  have hne : (41 : Nat) ≠ k.val := fun e => h (Fin.ext e.symm)
  simp only [State.post41]
  split
  · split
    · simp only [State.raise_queues]
      exact Eq.trans (Vector.getElem_set_ne _ _ hne) put
    · simp only [State.raise_queues]
      exact put
  · exact Vector.getElem_set_ne (by decide) k.isLt hne

/-- A replaced queue holds its new contents, but for the watermark word. -/
theorem State.putQueue_same (s : State) (i : Fin 64) (q : Queue) (h : i ≠ 41) :
    ∃ wm, (s.putQueue i q).queues[i] = { q with wm := wm } := by
  obtain ⟨wm, hq⟩ := s.putQueueRaw_queues i q
  have raw : (s.putQueueRaw i q).1.queues[i] = { q with wm := wm } := by
    rw [hq]
    exact vset_same _ _ _
  refine ⟨wm, ?_⟩
  simp only [State.putQueue]
  split
  · exact (State.post41_other _ _ _ h).trans raw
  · exact raw

theorem State.putQueue_other (s : State) (i k : Fin 64) (q : Queue) (h : k ≠ i) (h' : k ≠ 41) :
    (s.putQueue i q).queues[k] = s.queues[k] := by
  have raw := s.putQueueRaw_other i k q h
  simp only [State.putQueue]
  split
  · exact (State.post41_other _ _ _ h').trans raw
  · exact raw

/-- A record touches Q40 and Q41 alone. -/
theorem State.report_other (s : State) (code block info : Nat) (k : Fin 64) (h : k ≠ 40) (h' : k ≠ 41) :
    (s.report code block info).queues[k] = s.queues[k] := by
  have posted : ∀ (v : State) (chip : Bool) (r n m : Nat), (v.post40 chip r n m).1.queues[k] = v.queues[k] := by
    intro v chip r n m
    by_cases room : (if chip = true then 32 else 1024) ≤ v.queues[40].space
    · simp only [State.post40, if_pos room, State.raise_queues]
      exact State.putQueue_other _ _ _ _ h h'
    · simp only [State.post40, if_neg room]
      exact Vector.getElem_set_ne _ _ fun e => h (Fin.ext e.symm)
  obtain ⟨e, -, hr | ⟨e', chip, r, n, m, hr⟩⟩ := State.report_cases s code block info
  · rw [hr]
  · rw [hr]
    exact posted _ _ _ _ _

/-! ### Taking an item out of a queue -/

theorem State.dramRequest_errorFree (s : State) (port pa n : Nat) (w : Bool) (d : List Byte) (wb : Bool) :
    (s.dramRequest port pa n w d wb).dram.ErrorFree ↔ s.dram.ErrorFree := Iff.rfl

/-- A read of DRAM without errors gives the bytes of its range, and only its request is new. -/
theorem State.readMarks_errorFree (s : State) (pa n port : Nat) (h : s.dram.ErrorFree) :
    s.readMarks pa n port = (s.dramRequest port pa n false, Memory.readN s.mem pa n, []) := by
  have hs : (s.dramRequest port pa n false).dram.suspects pa n = [] :=
    Dram.ErrorFree.suspects (d := (s.dramRequest port pa n false).dram) h _ _
  simp only [State.readMarks, State.meetErrors, Dram.badIn, hs, List.foldl_nil, List.filterMap_nil, List.map_nil, State.dramRequest_mem]

/-- The words of an item are read from DRAM without errors, and only requests are new (R11). -/
theorem State.readWords_errorFree (s : State) (q : Fin 64) (n port : Nat) (h : s.dram.ErrorFree) :
    (s.readWords q n port).2 = true ∧ CleanWrite s (s.readWords q n port).1 s.mem := by
  simp only [State.readWords]
  split
  · exact ⟨rfl, .refl h⟩
  · rename_i b hb
    by_cases wraps : min n (s.queues[q].cap - s.queues[q].rpos) < n
    · simp only [wraps, if_true, State.readMarks_errorFree, State.dramRequest_errorFree, h]
      exact ⟨rfl, rfl, h⟩
    · simp only [wraps, if_false, State.readMarks_errorFree, State.dramRequest_errorFree, h]
      exact ⟨rfl, rfl, h⟩

/-- The pointers of a queue of which both copies agree cause nothing at an update (R302). -/
theorem State.updQueue_agreed (s : State) (q : Fin 64) (x : Queue) (hq : q ≠ 41) (hx : x.upset = none) :
    s.updQueue q x = s.putQueue q x := by
  obtain ⟨wm, same⟩ := s.putQueue_same q x hq
  have agreed : (s.putQueue q x).queues[q].upset = none := (congrArg Queue.upset same).trans hx
  simp only [State.updQueue, State.compare, agreed]

/-- Taking the oldest item leaves the others and the agreement of the pointers (R297). -/
theorem Queue.take_cons {q : Queue} {item : List Byte} {rest : List (List Byte)} (h : q.ready = item :: rest) :
    ∃ x, q.take = some (item, x) ∧ x.ready = rest ∧ x.upset = q.upset := by
  simp only [Queue.take, h]
  exact ⟨_, rfl, rfl, rfl⟩

/-- From `s` to `u` the oldest item of queue `q` is gone, of the published ones `rest` remain, and memory, streams and DRAM's errors stay. -/
structure ItemTaken (s u : State) (q : Fin 64) (rest : List (List Byte)) : Prop where
  frame : u = { s with threads := u.threads, queues := u.queues, host := u.host, dram := u.dram, nextOp := u.nextOp }
  errorFree : u.dram.ErrorFree
  ready : u.queues[q].ready = rest

/-- The oldest item of a queue whose words lie in DRAM without errors, and whose pointers agree, is taken whole. -/
theorem State.takeItem_errorFree (s : State) (q : Fin 64) (port : Nat) (item : List Byte) (rest : List (List Byte)) (hq : q ≠ 41)
    (hr : s.queues[q].ready = item :: rest) (hu : s.queues[q].upset = none) (h : s.dram.ErrorFree) :
    ∃ u, s.takeItem q port = some (item, u, true) ∧ ItemTaken s u q rest := by
  obtain ⟨whole, read⟩ := s.readWords_errorFree q (itemSpace item) port h
  obtain ⟨x, htake, hready, hupset⟩ := Queue.take_cons hr
  simp only [State.takeItem, hr]
  generalize s.readWords q (itemSpace item) port = r at *
  have hqueue : r.1.queues[q] = s.queues[q] := by rw [read.frame]
  obtain ⟨wm, same⟩ := r.1.putQueue_same q x hq
  rw [hqueue, htake]
  simp only [r.1.updQueue_agreed q x hq (hupset.trans hu), whole]
  refine ⟨_, rfl, ?_, ?_, (congrArg Queue.ready same).trans hready⟩
  · rw [State.putQueue_frame, read.frame]
  · rw [State.putQueue_dram]
    exact read.errorFree

/-! ### Counters of a stream -/

theorem vmodN_fin {α : Type} {n : Nat} (v : Vector α n) (i : Fin n) (f : α → α) : vmodN v i.val f = v.set i (f v[i]) := dif_pos i.isLt

theorem State.countStream_same (s : State) (i : Fin 16) (c k : Nat) :
    (s.countStream i c k).streams[i] = { s.streams[i] with ctr := vmodN s.streams[i].ctr c fun n => n.bump k } := vmod_same _ _ _

theorem State.countStream_other (s : State) (i j : Fin 16) (c k : Nat) (h : j ≠ i) : (s.countStream i c k).streams[j] = s.streams[j] :=
  vmod_other _ _ _ _ h

/-! ### Ingest takes an item -/

theorem exec_ingestItem (i : Fin 16) (s : State) : exec (.ingestItem i) s = execIngestItem i s := rfl
theorem exec_ingestResume (i : Fin 16) (s : State) : exec (.ingestResume i) s = execIngestResume i s := rfl

/-- Stream `i` is attached, nothing waits for room, and `item` is the oldest of its ingest queue, whose words lie in DRAM without errors. -/
structure IngestReady (s : State) (i : Fin 16) (item : List Byte) (rest : List (List Byte)) : Prop where
  sequencing : s.sequencing = true
  isAttached : s.streams[i].st ≠ .detached
  notStalled : s.streams[i].stalled = false
  ready : s.queues[ingestQueue i].ready = item :: rest
  notMid : s.queues[ingestQueue i].rdMid = false
  agreed : s.queues[ingestQueue i].upset = none
  errorFree : s.dram.ErrorFree

theorem ingestQueue_ne (i : Fin 16) : ingestQueue i ≠ 40 ∧ ingestQueue i ≠ 41 := by
  refine ⟨fun h => ?_, fun h => ?_⟩ <;> have := congrArg Fin.val h <;> simp [ingestQueue] at this <;> omega

/-- A discarded item counts in its counter; one that must not be clear writes record 0x0301 as well (R55, R74). -/
theorem State.ingest_discard {s : State} {i : Fin 16} {item : List Byte} {c : Nat} (h : s.judge i item = .discard c) :
    s.ingest i item = (s.takeIngest i).countStream i c ∨
      ∃ info, s.ingest i item = ((s.takeIngest i).countStream i c).report 0x0301 0x10 info := by
  simp only [State.ingest, h]
  split
  · exact .inr ⟨_, rfl⟩
  · exact .inl rfl

section
variable {s : State} {i : Fin 16} {item : List Byte} {rest : List (List Byte)} (h : IngestReady s i item rest)
include h

theorem IngestReady.takeIngest : ItemTaken s (s.takeIngest i) (ingestQueue i) rest := by
  obtain ⟨u, htake, taken⟩ := s.takeItem_errorFree (ingestQueue i) (s.clipPort i) item rest (ingestQueue_ne i).2 h.ready h.agreed h.errorFree
  rw [State.takeIngest, htake]
  exact taken

/-- An item whose words can be read goes through ingest (R53, R55). -/
theorem IngestReady.exec_eq : exec (.ingestItem i) s = .next (s.ingest i item) := by
  obtain ⟨u, htake, -⟩ := s.takeItem_errorFree (ingestQueue i) (s.clipPort i) item rest (ingestQueue_ne i).2 h.ready h.agreed h.errorFree
  have goes : ¬(s.streams[i].st = .detached ∨ s.streams[i].stalled = true ∨ (!s.sequencing) = true) := by
    simp only [h.isAttached, h.notStalled, h.sequencing, Bool.not_true, Bool.false_eq_true, or_self, not_false_eq_true]
  rw [exec_ingestItem, execIngestItem]
  simp only [goes, if_false, h.ready, h.notMid, htake, Bool.false_eq_true]

/-- A discarded item leaves its queue and counts; the stream keeps its packets, and memory and every other stream stay (R55, R74). -/
theorem IngestReady.discards (c : Fin 33) (hj : s.judge i item = .discard c.val) : ∃ u, exec (.ingestItem i) s = .next u ∧
    u.queues[ingestQueue i].ready = rest ∧ u.mem = s.mem ∧ u.streams[i].pkts = s.streams[i].pkts ∧
      u.streams[i].ctr = s.streams[i].ctr.set c.val s.streams[i].ctr[c].bump ∧ ∀ j, j ≠ i → u.streams[j] = s.streams[j] := by
  obtain ⟨frame, -, ready⟩ := h.takeIngest
  obtain ⟨q40, q41⟩ := ingestQueue_ne i
  have streams : (s.takeIngest i).streams = s.streams := by rw [frame]
  have mem : (s.takeIngest i).mem = s.mem := by rw [frame]
  have counts : ((s.takeIngest i).countStream i c.val).streams[i] =
      { s.streams[i] with ctr := s.streams[i].ctr.set c.val s.streams[i].ctr[c].bump } := by
    rw [State.countStream_same, streams, vmodN_fin]
  have others : ∀ j, j ≠ i → ((s.takeIngest i).countStream i c.val).streams[j] = s.streams[j] := fun j hj => by
    rw [State.countStream_other _ _ _ _ _ hj, streams]
  refine ⟨_, h.exec_eq, ?_⟩
  obtain e | ⟨info, e⟩ := State.ingest_discard hj
  · rw [e]
    exact ⟨ready, mem, by rw [counts], by rw [counts], others⟩
  · rw [e, State.report_other _ _ _ _ _ q40 q41, State.report_mem, State.report_streams]
    exact ⟨ready, mem, by rw [counts], by rw [counts], others⟩

end

end Sys2Proof.Machine
end

section
/-! SUPPORT. The checks of ingest, in their order (R55-R57, R64, Table 03-6). -/

namespace Sys2Proof.Machine

/-! ### From SYNC to TYPE -/

section
variable {h : Cls}

theorem Cls.first4_sync (hs : h.sync ≠ 0xC15A) : h.first4 = some 0 := if_pos hs

variable (hs : h.sync = 0xC15A)
include hs

theorem Cls.first4_crc (hc : h.crcOk = false) : h.first4 = some 1 := by
  rw [Cls.first4, if_neg (not_not.2 hs), hc]
  rfl

variable (hc : h.crcOk = true)
include hc

theorem Cls.first4_afterCrc : h.first4 = if h.ver ≠ 1 then some 2 else if h.ty = 0 ∨ 10 < h.ty then some 3 else none := by
  rw [Cls.first4, if_neg (not_not.2 hs), hc]
  rfl

theorem Cls.first4_version (hv : h.ver ≠ 1) : h.first4 = some 2 := (Cls.first4_afterCrc hs hc).trans (if_pos hv)

variable (hv : h.ver = 1)
include hv

theorem Cls.first4_type (ht : h.ty = 0 ∨ 10 < h.ty) : h.first4 = some 3 := by
  rw [Cls.first4_afterCrc hs hc, if_neg (not_not.2 hv), if_pos ht]

theorem Cls.first4_passed (hlo : 1 ≤ h.ty) (hhi : h.ty ≤ 10) : h.first4 = none := by
  rw [Cls.first4_afterCrc hs hc, if_neg (not_not.2 hv), if_neg (by omega)]

end

/-! ### From the reserved fields to KEY_SLOT -/

theorem Cls.forSec_iff (h : Cls) : h.forSec = true ↔ h.ty = 7 ∨ h.ty = 8 := by simp [Cls.forSec]

theorem Cls.outside_iff (h : Cls) : h.outside = true ↔ h.ty = 7 ∨ h.ty = 8 ∨ h.ty = 10 := by
  simp [Cls.outside, Cls.forSec, or_assoc]

theorem State.addressed_iff (s : State) (h : Cls) : s.addressed h = true ↔ h.bcast = true ∨ s.node? = some h.node := by
  simp [State.addressed]

/-- The layer field names no layer of its type. -/
def Cls.badLayer (h : Cls) : Prop := if h.ty = 3 then 63 < h.layer else h.layer ≠ 0xFF

theorem Cls.badLayer_iff (h : Cls) : h.badLayer ↔ (h.ty = 3 ∧ 63 < h.layer) ∨ (h.ty ≠ 3 ∧ h.layer ≠ 0xFF) := by
  by_cases ht : h.ty = 3 <;> simp [Cls.badLayer, ht]

section
variable (s : State) {h : Cls} {n : Nat}

theorem State.clsMid_reserved (bad : h.rsvd = true ∨ (h.landing = true ∧ h.ty ≠ 2)) : s.clsMid h n = some 4 := if_pos bad

variable (flags : ¬(h.rsvd = true ∨ (h.landing = true ∧ h.ty ≠ 2)))
include flags

theorem State.clsMid_length (bad : n ≠ 64 + h.len ∨ (!lenOk h.ty h.len) = true) : s.clsMid h n = some 5 := by
  rw [State.clsMid, if_neg flags, if_pos bad]

variable (len : ¬(n ≠ 64 + h.len ∨ (!lenOk h.ty h.len) = true))
include len

theorem State.clsMid_layer (bad : h.badLayer) : s.clsMid h n = some 6 := by
  rw [State.clsMid, if_neg flags, if_neg len]
  exact if_pos bad

variable (layer : ¬h.badLayer)
include layer

theorem State.clsMid_afterLayer : s.clsMid h n =
    if 63 < h.slot ∨ (h.forSec = true ∧ h.slot ≠ 0) then some 7
    else if h.slot = 0 ∧ (!h.outside) = true ∧ (!s.clearOk) = true then some 8 else none := by
  rw [State.clsMid, if_neg flags, if_neg len]
  exact if_neg layer

theorem State.clsMid_slot (bad : 63 < h.slot ∨ (h.forSec = true ∧ h.slot ≠ 0)) : s.clsMid h n = some 7 := by
  rw [s.clsMid_afterLayer flags len layer, if_pos bad]

variable (slot : ¬(63 < h.slot ∨ (h.forSec = true ∧ h.slot ≠ 0)))
include slot

theorem State.clsMid_clear (bad : h.slot = 0 ∧ (!h.outside) = true ∧ (!s.clearOk) = true) : s.clsMid h n = some 8 := by
  rw [s.clsMid_afterLayer flags len layer, if_neg slot, if_pos bad]

theorem State.clsMid_passed (clear : ¬(h.slot = 0 ∧ (!h.outside) = true ∧ (!s.clearOk) = true)) : s.clsMid h n = none := by
  rw [s.clsMid_afterLayer flags len layer, if_neg slot, if_neg clear]

end

/-! ### The whole judgement -/

section
variable (s : State) (i : Fin 16) {item : List Byte}

theorem State.judge_short (h : item.length < 64) : s.judge i item = .discard 5 := if_pos h

variable (hlen : 64 ≤ item.length)
include hlen

theorem State.judge_first4 {c : Nat} (h : (clsOf item).first4 = some c) : s.judge i item = .discard c := by
  simp only [State.judge, if_neg (not_lt.2 hlen), h]

variable (first : (clsOf item).first4 = none)
include first

theorem State.judge_clsMid {c : Nat} (h : s.clsMid (clsOf item) item.length = some c) : s.judge i item = .discard c := by
  simp only [State.judge, if_neg (not_lt.2 hlen), first, h]

variable (mid : s.clsMid (clsOf item) item.length = none)
include mid

theorem State.judge_notHere (h : s.addressed (clsOf item) = false) (hf : s.forwards = false) : s.judge i item = .discard 9 := by
  simp only [State.judge, if_neg (not_lt.2 hlen), first, mid, h, hf, Bool.not_false, if_true]

theorem State.judge_order (h : s.addressed (clsOf item) = true) (hpad : (clsOf item).ty ≠ 10) (hsec : (clsOf item).forSec = false) :
    s.judge i item = s.streams[i].order (clsOf item) := by
  simp only [State.judge, if_neg (not_lt.2 hlen), first, mid, h, hpad, hsec, Bool.not_true, Bool.false_eq_true, if_false]

end

/-! ### The order of SEQ -/

/-- A packet of a frame that its series has left (R64). -/
def Series.stale (r : Series) (h : Cls) : Bool :=
  match r.ingest with
  | some f => if h.ty = 2 then decide (h.frame ≤ f) else decide (3 ≤ h.ty ∧ h.ty ≤ 6 ∧ h.frame < f)
  | none => false

/-- A packet of a frame whose FRAME_START has not come (R64). -/
def Series.orphan (r : Series) (h : Cls) : Bool :=
  decide (3 ≤ h.ty ∧ h.ty ≤ 6) && (match r.ingest with | some f => decide (f < h.frame) | none => true)

theorem Series.stale_iff {r : Series} {h : Cls} {f : Nat} (hr : r.ingest = some f) :
    r.stale h = true ↔ (h.ty = 2 ∧ h.frame ≤ f) ∨ (3 ≤ h.ty ∧ h.ty ≤ 6 ∧ h.frame < f) := by
  by_cases ht : h.ty = 2 <;> simp [Series.stale, hr, ht]

theorem Series.orphan_iff {r : Series} {h : Cls} {f : Nat} (hr : r.ingest = some f) :
    r.orphan h = true ↔ (3 ≤ h.ty ∧ h.ty ≤ 6) ∧ f < h.frame := by
  simp [Series.orphan, hr]

theorem Series.stale_noFrame {r : Series} {h : Cls} (hr : r.ingest = none) : r.stale h = false := by
  simp only [Series.stale, hr]

theorem Series.orphan_noFrame {r : Series} {h : Cls} (hr : r.ingest = none) : r.orphan h = true ↔ 3 ≤ h.ty ∧ h.ty ≤ 6 := by
  simp [Series.orphan, hr]

/-- How far the SEQ of a packet lies ahead of the last of its series, modulo 2^32 (R57). -/
def Series.ahead (h : Cls) (l : BitVec 32) : Nat := (h.seq + 2 ^ 32 - l.toNat) % 2 ^ 32

theorem Stream.order_otherClip (x : Stream) (h : Cls) (bad : h.clip ≠ x.clipId.toNat ∨ (h.ty ≠ 1 ∧ (!x.started) = true)) :
    x.order h = .discard 10 := if_pos bad

section
variable {x : Stream} {h : Cls} {l : BitVec 32} (hc : h.clip = x.clipId.toNat) (hst : x.started = true) (hty : h.ty ≠ 1)
  (hl : (x.series h.bcast).lastSeq = some l)
include hc hst hty hl

/-- The checks of a packet of a started clip that is no CLIP_START (R57, R64). -/
theorem Stream.order_started : x.order h =
    if Series.ahead h l = 0 ∨ 2 ^ 31 ≤ Series.ahead h l then .discard 11
    else if (x.series h.bcast).stale h = true then .discard 13
    else if (x.series h.bcast).orphan h = true then .discard 14
    else .store (Series.ahead h l - 1) := by
  have good : ¬(h.clip ≠ x.clipId.toNat ∨ (h.ty ≠ 1 ∧ (!x.started) = true)) := by simp [hc, hst]
  simp only [Stream.order, if_neg good, if_neg hty, hl]
  rfl

theorem Stream.order_repeated (hd : Series.ahead h l = 0 ∨ 2 ^ 31 ≤ Series.ahead h l) : x.order h = .discard 11 :=
  (Stream.order_started hc hst hty hl).trans (if_pos hd)

variable (hlo : 0 < Series.ahead h l) (hhi : Series.ahead h l < 2 ^ 31)
include hlo hhi

theorem Stream.order_ahead : x.order h =
    if (x.series h.bcast).stale h = true then .discard 13
    else if (x.series h.bcast).orphan h = true then .discard 14
    else .store (Series.ahead h l - 1) := (Stream.order_started hc hst hty hl).trans (if_neg (by omega))

theorem Stream.order_stale (hs : (x.series h.bcast).stale h = true) : x.order h = .discard 13 :=
  (Stream.order_ahead hc hst hty hl hlo hhi).trans (if_pos hs)

theorem Stream.order_orphan (hs : ¬(x.series h.bcast).stale h = true) (ho : (x.series h.bcast).orphan h = true) :
    x.order h = .discard 14 := by
  rw [Stream.order_ahead hc hst hty hl hlo hhi, if_neg hs, if_pos ho]

theorem Stream.order_accepted (hs : ¬(x.series h.bcast).stale h = true) (ho : ¬(x.series h.bcast).orphan h = true) :
    x.order h = .store (Series.ahead h l - 1) := by
  rw [Stream.order_ahead hc hst hty hl hlo hhi, if_neg hs, if_neg ho]

end

end Sys2Proof.Machine
end

section
/-! SUPPORT. A CLIP_START enters the clip buffer (R57, R59, R61, R550). -/

namespace Sys2Proof.Machine

/-! ### Opening a packet -/

/-- From `s` to `u` a counter of stream `i` may move and a record may be written; memory and everything else of the streams stay. -/
structure Noted (s u : State) (i : Fin 16) : Prop where
  mem : u.mem = s.mem
  streams : ∃ ctr, u.streams = vmod s.streams i fun x => { x with ctr := ctr }
  queues : ∀ k : Fin 64, k ≠ 40 → k ≠ 41 → u.queues[k] = s.queues[k]

theorem Noted.of_frame {s u : State} {i : Fin 16} (hm : u.mem = s.mem) (hs : u.streams = s.streams)
    (hq : ∀ k : Fin 64, k ≠ 40 → k ≠ 41 → u.queues[k] = s.queues[k]) : Noted s u i := ⟨hm, ⟨s.streams[i].ctr, by rw [hs]; exact (vmod_id _ i).symm⟩, hq⟩

theorem Noted.trans {s u v : State} {i : Fin 16} (h : Noted s u i) (k : Noted u v i) : Noted s v i := by
  obtain ⟨c, hc⟩ := h.streams
  obtain ⟨d, hd⟩ := k.streams
  refine ⟨k.mem.trans h.mem, ⟨d, ?_⟩, fun q h40 h41 => (k.queues q h40 h41).trans (h.queues q h40 h41)⟩
  rw [hd, hc, vmod_vmod]
  rfl

theorem State.countStream_noted (s : State) (i : Fin 16) (c k : Nat) : Noted s (s.countStream i c k) i :=
  ⟨rfl, ⟨_, rfl⟩, fun _ _ _ => rfl⟩

theorem State.clsRecord_noted (s : State) (code e : Nat) (i : Fin 16) (ty f : Nat) : Noted s (s.clsRecord code e i ty f) i :=
  .of_frame (State.report_mem _ _ _ _) (State.report_streams _ _ _ _) fun _ h40 h41 => State.report_other _ _ _ _ _ h40 h41

/-- What fails when an item is opened counts, with a record where the key or the tag fails (R49-R52, R549). -/
theorem State.openItem_noted (s : State) (e : Nat) (i : Fin 16) (only : Bool) (item : List Byte) : Noted s (s.openItem e i only item).1 i := by
  have failed : ∀ c code, Noted s ((s.countStream i c).clsRecord code e i (clsOf item).ty (clsOf item).frame) i := fun c code =>
    (s.countStream_noted i c 1).trans (State.clsRecord_noted _ _ _ _ _ _)
  have same : Noted s s i := .of_frame rfl rfl fun _ _ _ => rfl
  simp only [State.openItem]
  split
  · split
    · exact same
    · exact s.countStream_noted i 19 1
  · split
    · exact failed 17 0x0302
    · split
      · exact failed 18 0x0303
      · split
        · exact same
        · exact failed 17 0x0302

theorem State.openPkt_noted (s : State) (e : Nat) (i : Fin 16) (only : Bool) (p : Pkt) (h : s.dram.ErrorFree) :
    Noted s (s.openPkt e i only p).1 i := by
  have unread : Noted s (s.unreadPkt e i p) i := (s.countStream_noted i 17 1).trans (State.clsRecord_noted _ _ _ _ _ _)
  cases hb : s.buf? s.streams[i].buf.toNat with
  | none =>
    simp only [State.openPkt, State.readPkt, hb]
    exact unread
  | some b =>
    simp only [State.openPkt, State.readPkt, hb, State.readBuf, s.readDram_clean _ _ _ (h.suspects _ _)]
    have asked : Noted s (s.dramRequest (6 + e % 8) (b.base + p.off) p.len false) i := .of_frame rfl rfl fun _ _ _ => rfl
    exact asked.trans (State.openItem_noted _ _ _ _ _)

/-- Reading the CLIP_START changes the clip values and a counter of its stream alone. -/
theorem State.readClip_facts (s : State) (i : Fin 16) (h : s.dram.ErrorFree) : (s.readClip i).mem = s.mem ∧
    (∃ ctr clip, (s.readClip i).streams[i] = { s.streams[i] with ctr := ctr, clip := clip }) ∧
      ∀ k : Fin 64, k ≠ 40 → k ≠ 41 → (s.readClip i).queues[k] = s.queues[k] := by
  cases hp : s.streams[i].csPkt with
  | none =>
    have same : s.readClip i = s := by simp only [State.readClip, hp]
    rw [same]
    exact ⟨rfl, ⟨s.streams[i].ctr, s.streams[i].clip, rfl⟩, fun _ _ _ => rfl⟩
  | some p =>
    have reads : s.readClip i = (s.openPkt s.pickEngine.val i false p).1.modStream i fun x =>
      { x with clip := (s.openPkt s.pickEngine.val i false p).2.map clipOf } := by simp only [State.readClip, hp]
    obtain ⟨mem, ⟨ctr, streams⟩, queues⟩ := s.openPkt_noted s.pickEngine.val i false p h
    rw [reads]
    refine ⟨mem, ⟨ctr, (s.openPkt s.pickEngine.val i false p).2.map clipOf, ?_⟩, queues⟩
    simp only [State.modStream, streams, vmod_vmod]
    exact vmod_same _ _ _

/-! ### Storing it -/

/-- A packet without an index entry, stored at an offset. -/
def plainPkt (item : List Byte) (off : Nat) : Pkt :=
  let h := clsOf item
  { off := off, len := item.length, ty := h.ty, frame := h.frame, layer := h.layer, bcast := h.bcast, landing := h.landing }

/-- Both series begin at the SEQ of a CLIP_START that is stored at an offset (R57). -/
def Stream.startClip (x : Stream) (item : List Byte) (off : Nat) (kept : List Pkt) : Stream :=
  let seq := some (BitVec.ofNat 32 (clsOf item).seq)
  { x with
    serN := { lastSeq := seq }, serB := { lastSeq := seq }, started := true, csPkt := some (plainPkt item off)
    pkts := kept ++ [plainPkt item off], wpos := off + (plainPkt item off).span }

theorem State.storePkt_clipStart (s : State) (i : Fin 16) (item : List Byte) (off : Nat) (kept : List Pkt) (port : Nat)
    (ht : (clsOf item).ty = 1) : s.storePkt i item 0 off kept [] port =
      ((s.writeBuf s.streams[i].buf.toNat off item port).putStream i (s.streams[i].startClip item off kept)).readClip i := by
  have hs := (s.writeBuf_writeFrame s.streams[i].buf.toNat off item port).streams
  unfold State.storePkt
  extract_lets h x hd s1 s2 s3 ing s4 lands e full s5 p x1 seq r r' x2 s6
  have ty : h.ty = 1 := ht
  have noLanding : lands = false := by simp [lands, ty]
  have h2 : s2.streams = s.streams := hs
  have h5 : s5 = s2 := by
    simp only [s5, noLanding, Bool.false_eq_true, if_false, s4, s3, if_true, ty]
    cases ing <;> rfl
  have h1 : x1 = s.streams[i] := by simp only [x1, h5, h2]
  have hp : p = plainPkt item off := by
    simp only [p, noLanding, Bool.false_and, Bool.false_eq_true, if_false]
    rfl
  have hx : x2 = { s.streams[i] with serN := { lastSeq := seq }, serB := { lastSeq := seq }, started := true, csPkt := some p } := by
    simp only [x2, if_pos ty, h1]
  have h6 : s6 = (s.writeBuf s.streams[i].buf.toNat off item port).putStream i (s.streams[i].startClip item off kept) := by
    simp only [s6, h5, hx, noLanding, hp]
    rfl
  rw [if_pos ty, h6]

@[simp] theorem State.putStream_dram (s : State) (i : Fin 16) (x : Stream) : (s.putStream i x).dram = s.dram := by
  obtain ⟨wm, h | h⟩ := s.putStream_cases i x
  · rw [h]
  · rw [h]
    rfl

@[simp] theorem State.putStream_queues (s : State) (i : Fin 16) (x : Stream) : (s.putStream i x).queues = s.queues := by
  obtain ⟨wm, h | h⟩ := s.putStream_cases i x
  · rw [h]
  · rw [h]
    rfl

/-- The bytes of a CLIP_START go to their place; its stream takes both series from it, and the queues other than those of records stay. -/
theorem State.storePkt_clipStart_facts (s : State) (i : Fin 16) (item : List Byte) (off : Nat) (kept : List Pkt) (port : Nat) (b : Buf)
    (ht : (clsOf item).ty = 1) (hb : tabFind s.bufs.table s.streams[i].buf.toNat = some b) (he : s.dram.ErrorFree) :
    (s.storePkt i item 0 off kept [] port).mem = Memory.writeN s.mem (b.base + off) item ∧
      (∃ wm ctr clip, (s.storePkt i item 0 off kept [] port).streams[i] =
        { s.streams[i].startClip item off kept with wm := wm, ctr := ctr, clip := clip }) ∧
      ∀ k : Fin 64, k ≠ 40 → k ≠ 41 → (s.storePkt i item 0 off kept [] port).queues[k] = s.queues[k] := by
  rw [s.storePkt_clipStart i item off kept port ht]
  obtain ⟨dr, op, clean, written⟩ := s.writeBuf_errorFree s.streams[i].buf.toNat off item port b hb he
  generalize s.writeBuf s.streams[i].buf.toNat off item port = v at *
  obtain ⟨wm, same⟩ := v.putStream_same i (s.streams[i].startClip item off kept)
  obtain ⟨mem, ⟨ctr, clip, stream⟩, queues⟩ := (v.putStream i (s.streams[i].startClip item off kept)).readClip_facts i (by
    rw [State.putStream_dram, written]
    exact clean)
  refine ⟨?_, ⟨wm, ctr, clip, by rw [stream, same]⟩, fun k h40 h41 => ?_⟩
  · rw [mem, State.putStream_mem, written]
  · rw [queues k h40 h41, State.putStream_queues, written]

/-! ### Its place -/

/-- The room that an item takes in the clip buffer: whole units of 64 bytes (R59). -/
def itemUnits (item : List Byte) : Nat := (item.length + 63) / 64 * 64

/-- A HOLD buffer takes a packet at its next place as long as it fits before the end (R59, R61). -/
theorem Stream.place_hold (x : Stream) (h : x.ring = false) (len size : Nat) :
    x.place len size = if x.wpos + size ≤ len then some (x.wpos, x.pkts, []) else none := by
  simp only [Stream.place, h, Bool.not_false, Bool.true_or, if_true, Bool.false_eq_true, if_false]

theorem State.clipLen_eq {s : State} {i : Fin 16} {b : Buf} (h : tabFind s.bufs.table s.streams[i].buf.toNat = some b) :
    s.clipLen i = b.len := by
  simp only [State.clipLen, State.buf?, h]

section
variable {s : State} {i : Fin 16} {item : List Byte} {b : Buf} (hring : s.streams[i].ring = false)
  (hb : tabFind s.bufs.table s.streams[i].buf.toNat = some b)
include hring hb

theorem State.place_fits (h : s.streams[i].wpos + itemUnits item ≤ b.len) :
    s.streams[i].place (s.clipLen i) (ceilDiv item.length 64 * 64) = some (s.streams[i].wpos, s.streams[i].pkts, []) := by
  rw [State.clipLen_eq hb, Stream.place_hold _ hring]
  exact if_pos h

theorem State.place_full (h : b.len < s.streams[i].wpos + itemUnits item) :
    s.streams[i].place (s.clipLen i) (ceilDiv item.length 64 * 64) = none := by
  rw [State.clipLen_eq hb, Stream.place_hold _ hring]
  exact if_neg (not_le.2 h)

/-- A packet that this device does not forward is taken out of its queue and stored where it fits (R59). -/
theorem State.ingest_fits {gap : Nat} (hj : s.judge i item = .store gap) (hf : s.forwards = false)
    (h : s.streams[i].wpos + itemUnits item ≤ b.len) : s.ingest i item =
      (s.takeIngest i).storePkt i item gap s.streams[i].wpos s.streams[i].pkts [] (s.clipPort i) := by
  simp only [State.ingest, hj, State.place_fits hring hb h, hf, Bool.false_and, Bool.false_eq_true, if_false]

/-- A packet that does not fit waits in its queue (R61). -/
theorem State.ingest_full {gap : Nat} (hj : s.judge i item = .store gap) (h : b.len < s.streams[i].wpos + itemUnits item) :
    s.ingest i item = s.modStream i fun x => { x with stalled := true } := by
  simp only [State.ingest, hj, State.place_full hring hb h]

variable (hst : s.streams[i].stalled = true) (hr : ∃ r, s.queues[ingestQueue i].ready = item :: r)
include hst hr

theorem ingestResume_fits (h : s.streams[i].wpos + itemUnits item ≤ b.len) :
    exec (.ingestResume i) s = .next { s with streams := s.streams.set i { s.streams[i] with stalled := false } } := by
  obtain ⟨r, hr⟩ := hr
  simp only [exec_ingestResume, execIngestResume, hr, State.place_fits hring hb h, hst]
  rfl

theorem ingestResume_full (h : b.len < s.streams[i].wpos + itemUnits item) : exec (.ingestResume i) s = .next s := by
  obtain ⟨r, hr⟩ := hr
  simp only [exec_ingestResume, execIngestResume, hr, State.place_full hring hb h, hst]
  rfl

end

/-- A CLIP_START that fits goes from its queue into the clip buffer (R57, R59). -/
theorem IngestReady.clipStart_stored {s : State} {i : Fin 16} {item : List Byte} {rest : List (List Byte)} (h : IngestReady s i item rest)
    (b : Buf) (hring : s.streams[i].ring = false) (hb : tabFind s.bufs.table s.streams[i].buf.toNat = some b) (hf : s.forwards = false)
    (hj : s.judge i item = .store 0) (ht : (clsOf item).ty = 1) (hfit : s.streams[i].wpos + itemUnits item ≤ b.len) :
    ∃ u, exec (.ingestItem i) s = .next u ∧ u.mem = Memory.writeN s.mem (b.base + s.streams[i].wpos) item ∧
      (∃ wm ctr clip, u.streams[i] =
        { s.streams[i].startClip item s.streams[i].wpos s.streams[i].pkts with wm := wm, ctr := ctr, clip := clip }) ∧
      u.queues[ingestQueue i].ready = rest := by
  obtain ⟨frame, errorFree, hrest⟩ := h.takeIngest
  have mem0 : (s.takeIngest i).mem = s.mem := by rw [frame]
  have streams0 : (s.takeIngest i).streams = s.streams := by rw [frame]
  have bufs0 : (s.takeIngest i).bufs = s.bufs := by rw [frame]
  have stored := (s.takeIngest i).storePkt_clipStart_facts i item s.streams[i].wpos s.streams[i].pkts (s.clipPort i) b ht
    (by rw [bufs0, streams0]; exact hb) errorFree
  rw [mem0, streams0] at stored
  obtain ⟨mem, stream, queues⟩ := stored
  refine ⟨_, h.exec_eq.trans (congrArg _ (State.ingest_fits hring hb hj hf hfit)), mem, stream, ?_⟩
  rw [queues _ (ingestQueue_ne i).1 (ingestQueue_ne i).2]
  exact hrest

end Sys2Proof.Machine
end

section
/-! PROOF. O23: the checks of ingest, the place of a CLIP_START, and the order of SEQ. -/

open Sys2Proof Sys2Proof.Machine

/-- Settles O23: the first check that fails decides what ingest does with an item, so each clause passes the checks before its own; a
CLIP_START that passes all of them is followed from its queue into the clip buffer. -/
theorem ingestChecks : Obligations.IngestChecks := by
  unfold Obligations.IngestChecks
  refine ⟨fun s i item rest hseq hatt hstall hready hmid hagree hbad hfaults hue => ?_, ?_, fun x h l hc hst hty _ => ?_⟩
  · intro h drop
    have ready : IngestReady s i item rest := ⟨hseq, hatt, hstall, hready, hmid, hagree, hbad, hfaults, hue⟩
    have discards : ∀ c : Fin 33, s.judge i item = .discard c.val → drop c := fun c hj => ready.discards c hj
    refine ⟨fun hs => discards 5 (s.judge_short i hs), fun hlen => ?_⟩
    have checked : ∀ c : Fin 33, h.first4 = some c.val → drop c := fun c hf => discards c (s.judge_first4 i hlen hf)
    refine ⟨fun hs => checked 0 (Cls.first4_sync hs), fun hs hc => checked 1 (Cls.first4_crc hs hc),
      fun hs hc hv => checked 2 (Cls.first4_version hs hc hv), fun hs hc hv ht => checked 3 (Cls.first4_type hs hc hv ht),
      fun hs hc hv hlo hhi => ?_⟩
    have first : h.first4 = none := Cls.first4_passed hs hc hv hlo hhi
    have checkedMid : ∀ c : Fin 33, s.clsMid h item.length = some c.val → drop c := fun c hm =>
      discards c (s.judge_clsMid i hlen first hm)
    refine ⟨fun bad => checkedMid 4 (s.clsMid_reserved bad), fun hr hland => ?_⟩
    have flags : ¬(h.rsvd = true ∨ (h.landing = true ∧ h.ty ≠ 2)) := by
      rintro (e | ⟨e, ht⟩)
      · rw [hr] at e
        cases e
      · exact ht (hland e)
    refine ⟨fun bad => checkedMid 5 (s.clsMid_length flags (by simpa using bad)), fun hn hok => ?_⟩
    have len : ¬(item.length ≠ 64 + h.len ∨ (!lenOk h.ty h.len) = true) := by simp [hn, hok]
    refine ⟨fun ht hb => checkedMid 6 (s.clsMid_layer flags len (h.badLayer_iff.2 (.inl ⟨ht, hb⟩))),
      fun ht hb => checkedMid 6 (s.clsMid_layer flags len (h.badLayer_iff.2 (.inr ⟨ht, hb⟩))), fun hlay hlay' => ?_⟩
    have layer : ¬h.badLayer := by
      rw [h.badLayer_iff]
      rintro (⟨ht, hb⟩ | ⟨ht, hb⟩)
      · exact absurd (hlay ht) (not_le.2 hb)
      · exact hb (hlay' ht)
    refine ⟨fun bad => checkedMid 7 (s.clsMid_slot flags len layer (.inl bad)),
      fun ht hs0 => checkedMid 7 (s.clsMid_slot flags len layer (.inr ⟨h.forSec_iff.2 ht, hs0⟩)), fun hs0 h7 h8 h10 hclear => ?_,
      fun hs63 hclear h7 h8 h10 => ?_⟩
    · have noSec : ¬(63 < h.slot ∨ (h.forSec = true ∧ h.slot ≠ 0)) := by simp [hs0]
      have inside : h.outside = false := Bool.eq_false_iff.2 (h.outside_iff.not.2 (by omega))
      exact checkedMid 8 (s.clsMid_clear flags len layer noSec ⟨hs0, by rw [inside]; rfl, by rw [hclear]; rfl⟩)
    · have noSec : h.forSec = false := Bool.eq_false_iff.2 (h.forSec_iff.not.2 (by omega))
      have slot : ¬(63 < h.slot ∨ (h.forSec = true ∧ h.slot ≠ 0)) := by simp [noSec, hs63]
      have clear : ¬(h.slot = 0 ∧ (!h.outside) = true ∧ (!s.clearOk) = true) := by
        rintro ⟨hs0, -, hc0⟩
        rw [hclear hs0] at hc0
        cases hc0
      have mid : s.clsMid h item.length = none := s.clsMid_passed flags len layer slot clear
      refine ⟨fun hb hn hf => discards 9 (s.judge_notHere i hlen first mid ?_ hf), fun here bad => discards 10 ?_⟩
      · exact Bool.eq_false_iff.2 ((s.addressed_iff h).not.2 (not_or.2 ⟨Bool.eq_false_iff.1 hb, hn⟩))
      · rw [s.judge_order i hlen first mid ((s.addressed_iff h).2 here) h10 noSec]
        exact Stream.order_otherClip _ _ (by simpa using bad)
  · intro s i item rest b hseq hatt hstall hring hready hcanon hmid hagree hbad hfaults hue hb hf hj ht _
    have ready : IngestReady s i item rest := ⟨hseq, hatt, hstall, hready, hmid, hagree, hbad, hfaults, hue⟩
    refine ⟨fun hfit => ?_, fun hfull => ?_, fun v c hst hring' hc hr =>
      ⟨fun hfit => ingestResume_fits hring' hc hst hr hfit, fun hfull => ingestResume_full hring' hc hst hr hfull⟩⟩
    · obtain ⟨u, hexec, mem, ⟨wm, ctr, clip, stream⟩, hrest⟩ := ready.clipStart_stored b hring hb hf hj ht hfit
      refine ⟨u, hexec, ?_, fun a ha => ?_, ?_, ?_, ?_, ?_, ?_, hrest⟩
      · rw [mem]
        exact Memory.readN_writeN _ _ _ hcanon.1
      · rw [mem]
        exact Memory.read_writeN_other _ _ _ _ ha
      · rw [stream]
        rfl
      · rw [stream]
        rfl
      · rw [stream]
        rfl
      · rw [stream]
        rfl
      · rw [stream]
        exact List.length_append
    · refine ⟨_, ready.exec_eq.trans (congrArg _ (State.ingest_full hring hb hj hfull)), ?_, rfl, rfl⟩
      exact congrArg Stream.stalled (vmod_same _ _ _)
  · intro r hl d
    refine ⟨fun hd => Stream.order_repeated hc hst hty hl hd, fun hlo hhi => ⟨fun f hf => ?_, fun hf => ?_⟩⟩
    · have stale := Series.stale_iff (h := h) hf
      have orphan := Series.orphan_iff (h := h) hf
      refine ⟨fun ht hle => ?_, fun ht hlt => ?_, fun h3 h6 hlt => ?_, fun h3 h6 hlt => ?_, fun h3 h6 heq => ?_⟩
      · exact Stream.order_stale hc hst hty hl hlo hhi (stale.2 (.inl ⟨ht, hle⟩))
      · exact Stream.order_accepted hc hst hty hl hlo hhi (stale.not.2 (by omega)) (orphan.not.2 (by omega))
      · exact Stream.order_stale hc hst hty hl hlo hhi (stale.2 (.inr ⟨h3, h6, hlt⟩))
      · exact Stream.order_orphan hc hst hty hl hlo hhi (stale.not.2 (by omega)) (orphan.2 ⟨⟨h3, h6⟩, hlt⟩)
      · exact Stream.order_accepted hc hst hty hl hlo hhi (stale.not.2 (by omega)) (orphan.not.2 (by omega))
    · have fresh : ¬(x.series h.bcast).stale h = true := Bool.eq_false_iff.1 (Series.stale_noFrame hf)
      have orphan := Series.orphan_noFrame (h := h) hf
      refine ⟨fun h3 h6 => ?_, fun ht => ?_⟩
      · exact Stream.order_orphan hc hst hty hl hlo hhi fresh (orphan.2 ⟨h3, h6⟩)
      · exact Stream.order_accepted hc hst hty hl hlo hhi fresh (orphan.not.2 (by omega))

end

section
/-! SUPPORT. `DECODE_START`, `DECODER_DISPATCH` and `GROUP_REGISTRATION` (R66, R91, R93). -/

namespace Sys2Proof.Machine

theorem exec_decodeStart (i : Fin 16) (s : State) : exec (.decodeStart i) s = execDecodeStart i s := rfl
theorem exec_decoderDispatch (i : Fin 16) (s : State) : exec (.decoderDispatch i) s = execDecoderDispatch i s := rfl
theorem exec_groupRegistration (e : Fin 8) (s : State) : exec (.groupRegistration e) s = execGroupRegistration e s := rfl
theorem exec_decodePacketDone (e : Fin 8) (s : State) : exec (.decodePacketDone e) s = execDecodePacketDone e s := rfl

/-! ### `DECODE_START` -/

/-- A stream that plays and has its frame still to decode begins it once a FRAME_END of it is stored (R66). -/
theorem decodeStart_due (s : State) (i : Fin 16) (c : Nat) (hst : s.streams[i].st = .playing) (hpos : s.streams[i].position = some c)
    (hwall : s.streams[i].wA ≤ s.out.frame + 1) (htg : s.tgRuns 0 = true) (hdec : ∀ d, s.streams[i].dec = some d → d.frame ≠ c)
    (hfinal : ∀ f b, s.streams[i].finalFrame = some (f, b) → c ≤ f) : exec (.decodeStart i) s = .next
      (if (s.streams[i].framePkts c).any (·.ty == 6) = true then
        s.modStream i fun x => { x with dec := some { frame := c, follows := x.shown.any fun n => n + 1 == c } }
      else s) := by
  have notYet : (s.streams[i].dec.any fun d => d.frame == c) = false := by
    rw [Option.any_eq_false]
    exact fun d hd => beq_false_of_ne (hdec d hd)
  have notOver : (s.streams[i].finalFrame.any fun f => decide (f.1 < c)) = false := by
    rw [Option.any_eq_false]
    exact fun f hf => decide_eq_false (not_lt.2 (hfinal f.1 f.2 hf))
  rw [exec_decodeStart, execDecodeStart]
  simp only [hpos, hst, htg, notYet, notOver, State.wallFrame, hwall, Bool.not_false, true_and]
  split <;> rfl

/-! ### `DECODER_DISPATCH` -/

/-- Going through a list in ascending order and changing only to what is smaller ends at a least key, and at its first place. -/
theorem foldl_firstLeast {n : Nat} (key : Fin n → Nat) (l : List (Fin n)) (b : Fin n) (h : (b :: l).Pairwise (· ≤ ·)) :
    let r := l.foldl (fun best e => if key e < key best then e else best) b
    ∀ f ∈ b :: l, key r ≤ key f ∧ (f < r → key r < key f) := by
  induction l generalizing b with
  | nil =>
    intro r f hf
    rw [List.mem_singleton.1 hf]
    exact ⟨le_rfl, fun hlt => absurd hlt (lt_irrefl _)⟩
  | cons e l ih =>
    obtain ⟨hb, hl⟩ := List.pairwise_cons.1 h
    have hbe : b ≤ e := hb e List.mem_cons_self
    intro r f hf
    by_cases hlt : key e < key b
    · have rest := ih e hl
      simp only [r, List.foldl_cons, if_pos hlt]
      rcases List.mem_cons.1 hf with rfl | hf
      · have := (rest e List.mem_cons_self).1
        omega
      · exact rest f hf
    · have rest := ih b (List.pairwise_cons.2 ⟨fun x hx => hb x (List.mem_cons_of_mem _ hx), (List.pairwise_cons.1 hl).2⟩)
      simp only [r, List.foldl_cons, if_neg hlt]
      rcases List.mem_cons.1 hf with rfl | hf
      · exact rest f List.mem_cons_self
      · rcases List.mem_cons.1 hf with rfl | hf
        · obtain ⟨least, first⟩ := rest b List.mem_cons_self
          exact ⟨by omega, fun hfr => by have := first (lt_of_le_of_lt hbe hfr); omega⟩
        · exact rest f (List.mem_cons_of_mem _ hf)

/-- The engine picked has the fewest tiles queued, and every lower-numbered one has more (R91). -/
theorem State.pickEngine_least (s : State) (f : Fin 8) : engTiles s.engs[s.pickEngine] ≤ engTiles s.engs[f] ∧
    (f < s.pickEngine → engTiles s.engs[s.pickEngine] < engTiles s.engs[f]) :=
  foldl_firstLeast (fun e => engTiles s.engs[e]) (List.finRange 8) 0 (by decide) f (List.mem_cons_of_mem _ (List.mem_finRange f))

/-- The tiles that a packet announces at the engine: those of the header of a TILE_GROUP, as far as it can be read. -/
def State.tilesOf (s : State) (i : Fin 16) (p : Pkt) : Nat :=
  if p.ty = 3 then (s.peek (s.clearOnly (s.takers i p.layer)) (s.rawPkt i p)).elim 0 fun b => fieldAt b 4 2 else 0

theorem State.tilesOf_other (s : State) (i : Fin 16) {p : Pkt} (hty : p.ty ≠ 3) : s.tilesOf i p = 0 := if_neg hty

theorem State.tilesOf_group {s : State} {i : Fin 16} {p : Pkt} {b : List Byte} (hty : p.ty = 3)
    (hb : s.peek (s.clearOnly (s.takers i p.layer)) (s.rawPkt i p) = some b) : s.tilesOf i p = fieldAt b 4 2 := by
  rw [State.tilesOf, if_pos hty, hb]
  rfl

section
variable (s : State) (i : Fin 16) (d : SDec) (p : Pkt) (htg : s.tgRuns 0 = true) (hdec : s.streams[i].dec = some d)
  (hp : ((s.streams[i].framePkts d.frame).find? fun p => !d.sent.contains p.off) = some p)
include htg hdec hp

/-- The state once a packet has been handed out. -/
theorem decoderDispatch_next : exec (.decoderDispatch i) s = .next
    (let s' : State := { s with streams := s.streams.set i { s.streams[i] with dec := some { d with sent := d.sent ++ [p.off] } } }
     if p.ty = 3 ∧ s.takers i p.layer = [] then s'
     else { s' with engs := s.engs.set s.pickEngine (s.engs[s.pickEngine] ++ [⟨i, p, s.tilesOf i p, false, false⟩]) }) := by
  rw [exec_decoderDispatch, execDecoderDispatch, State.tilesOf]
  simp only [htg, if_true, hdec, hp]
  split
  · rfl
  · cases s.peek (s.clearOnly (s.takers i p.layer)) (s.rawPkt i p) <;> rfl

end

/-! ### `GROUP_REGISTRATION` -/

theorem State.setHead_cons {s : State} {e : Fin 8} {g : EngPkt} {r : List EngPkt} (h : s.engs[e] = g :: r) (x : EngPkt) :
    s.setHead e x = { s with engs := s.engs.set e (x :: r) } := by
  have drop : s.engs[e].drop 1 = r := by rw [h]; rfl
  rw [← drop]
  rfl

section
variable (s : State) (e : Fin 8) (g : EngPkt) (r : List EngPkt) (d : SDec) (htg : s.tgRuns 0 = true) (he : s.engs[e] = g :: r)
  (hdec : s.streams[g.stream].dec = some d) (hty : g.pkt.ty = 3) (hreg : g.registered = false) (hwait : s.regWaits g = false)
include htg he hdec hty hreg hwait

/-- A group that no engine can read yet registers and covers nothing. -/
theorem groupRegistration_unread (hb : s.peek (s.clearOnly (s.takers g.stream g.pkt.layer)) (s.rawPkt g.stream g.pkt) = none) :
    exec (.groupRegistration e) s = .next { s with engs := s.engs.set e ({ g with registered := true } :: r) } := by
  rw [← State.setHead_cons he, exec_groupRegistration, execGroupRegistration]
  simp only [he, htg, if_true, hdec, hty, hreg, hwait, hb, ne_eq, not_true_eq_false, Bool.false_eq_true, or_self, if_false]

variable (b : List Byte) (hb : s.peek (s.clearOnly (s.takers g.stream g.pkt.layer)) (s.rawPkt g.stream g.pkt) = some b)
include hb

/-- The registration of a group that can be read: its range counts once a taker has a good header and nothing overlaps. -/
theorem groupRegistration_read : exec (.groupRegistration e) s = .next
    (if !((s.takers g.stream g.pkt.layer).any (s.headerOk b)) then s.setHead e { g with registered := true }
     else if d.cov.any fun c => c.1 == g.pkt.layer && c.2.1 < fieldAt b 0 4 + fieldAt b 4 2 && fieldAt b 0 4 < c.2.1 + c.2.2 then
       s.setHead e { g with registered := true, overlap := true }
     else (s.setHead e { g with registered := true }).modDec g.stream fun d =>
       { d with cov := d.cov ++ [(g.pkt.layer, fieldAt b 0 4, fieldAt b 4 2)] }) := by
  rw [apply_ite Host.Outcome.next, apply_ite Host.Outcome.next, exec_groupRegistration, execGroupRegistration]
  simp only [he, htg, if_true, hdec, hty, hreg, hwait, hb, ne_eq, not_true_eq_false, Bool.false_eq_true, or_self, if_false, groupHeader]
  rfl

theorem groupRegistration_noTaker (hk : ∀ k ∈ s.takers g.stream g.pkt.layer, s.headerOk b k = false) :
    exec (.groupRegistration e) s = .next { s with engs := s.engs.set e ({ g with registered := true } :: r) } := by
  have noTaker : (!(s.takers g.stream g.pkt.layer).any (s.headerOk b)) = true := by
    rw [Bool.not_eq_true', List.any_eq_false]
    exact fun k hm => Bool.eq_false_iff.1 (hk k hm)
  rw [groupRegistration_read s e g r d htg he hdec hty hreg hwait b hb, if_pos noTaker, State.setHead_cons he]

variable (hk : ∃ k ∈ s.takers g.stream g.pkt.layer, s.headerOk b k = true)
include hk

theorem groupRegistration_taken : exec (.groupRegistration e) s = .next
    (if d.cov.any fun c => c.1 == g.pkt.layer && c.2.1 < fieldAt b 0 4 + fieldAt b 4 2 && fieldAt b 0 4 < c.2.1 + c.2.2 then
       s.setHead e { g with registered := true, overlap := true }
     else (s.setHead e { g with registered := true }).modDec g.stream fun d =>
       { d with cov := d.cov ++ [(g.pkt.layer, fieldAt b 0 4, fieldAt b 4 2)] }) := by
  have taken : ¬(!(s.takers g.stream g.pkt.layer).any (s.headerOk b)) = true := by
    rw [Bool.not_eq_true', Bool.not_eq_false, List.any_eq_true]
    exact hk
  rw [groupRegistration_read s e g r d htg he hdec hty hreg hwait b hb, if_neg taken]

theorem groupRegistration_overlaps (hc : ∃ c ∈ d.cov, c.1 = g.pkt.layer ∧ c.2.1 < fieldAt b 0 4 + fieldAt b 4 2 ∧
      fieldAt b 0 4 < c.2.1 + c.2.2) : exec (.groupRegistration e) s =
    .next { s with engs := s.engs.set e ({ g with registered := true, overlap := true } :: r) } := by
  rw [groupRegistration_taken s e g r d htg he hdec hty hreg hwait b hb hk, if_pos, State.setHead_cons he]
  simpa [and_assoc] using hc

theorem groupRegistration_enters (hc : ∀ c ∈ d.cov, c.1 = g.pkt.layer → fieldAt b 0 4 + fieldAt b 4 2 ≤ c.2.1 ∨
      c.2.1 + c.2.2 ≤ fieldAt b 0 4) : exec (.groupRegistration e) s = .next { s with
        engs := s.engs.set e ({ g with registered := true } :: r)
        streams := s.streams.set g.stream { s.streams[g.stream] with
          dec := some { d with cov := d.cov ++ [(g.pkt.layer, fieldAt b 0 4, fieldAt b 4 2)] } } } := by
  have enters : (s.streams[g.stream].dec.map fun d => { d with cov := d.cov ++ [(g.pkt.layer, fieldAt b 0 4, fieldAt b 4 2)] }) =
      some { d with cov := d.cov ++ [(g.pkt.layer, fieldAt b 0 4, fieldAt b 4 2)] } := by rw [hdec]; rfl
  rw [groupRegistration_taken s e g r d htg he hdec hty hreg hwait b hb hk, if_neg, State.setHead_cons he, ← enters]
  · rfl
  · simp only [List.any_eq_true, Bool.and_eq_true, beq_iff_eq, decide_eq_true_eq, not_exists, not_and]
    intro c hm hl
    have := hc c hm hl.1
    omega

end

end Sys2Proof.Machine
end

section
/-! SUPPORT. Two states that hold the same DRAM read it alike. -/

namespace Sys2Proof.Machine

/-- Two states agree in all that a read of DRAM depends on. -/
structure SameDram (s u : State) : Prop where
  dram : u.dram = s.dram
  mem : u.mem = s.mem
  nextOp : u.nextOp = s.nextOp
  now : u.now = s.now

theorem SameDram.report {s u : State} (h : SameDram s u) (c b n : Nat) : SameDram (s.report c b n) (u.report c b n) := by
  constructor
  · rw [State.report_dram, State.report_dram, h.dram]
  · rw [State.report_mem, State.report_mem, h.mem]
  · rw [State.report_nextOp, State.report_nextOp, h.nextOp]
  · rw [State.report_now, State.report_now, h.now]

theorem SameDram.modDram {s u : State} (h : SameDram s u) (f : Dram → Dram) : SameDram (s.modDram f) (u.modDram f) :=
  ⟨congrArg f h.dram, h.mem, h.nextOp, h.now⟩

theorem SameDram.modSub {s u : State} (h : SameDram s u) (n : Nat) (f : SubCh → SubCh) : SameDram (s.modSub n f) (u.modSub n f) :=
  h.modDram _

theorem SameDram.dramRequest {s u : State} (h : SameDram s u) (port pa n : Nat) (w : Bool) (d : List Byte) (wb : Bool) :
    SameDram (s.dramRequest port pa n w d wb) (u.dramRequest port pa n w d wb) := by
  refine ⟨?_, h.mem, ?_, h.now⟩ <;> simp only [State.dramRequest, h.dram, h.nextOp]

theorem SameDram.burstError {s u : State} (h : SameDram s u) (pa : Nat) (b : BurstBad) :
    SameDram (s.burstError pa b) (u.burstError pa b) := by
  cases b
  · exact (h.modSub _ _).report _ _ _
  · exact (h.modSub _ _).report _ _ _

theorem SameDram.readErrors {s u : State} (h : SameDram s u) (pa : Nat) (errs : List SymErr) :
    SameDram (s.readErrors pa errs) (u.readErrors pa errs) := by
  have counted := h.modSub (paSub (pa / 64 * 64)) fun c =>
    { c with ce := c.ce.bump ((wordReads errs false).1 + (wordReads errs true).1) }
  simp only [State.readErrors, counted.dram, counted.now]
  split
  · exact (counted.modDram _).burstError _ _
  · split
    · exact counted
    · split
      · exact (counted.modSub _ _).report _ _ _
      · exact counted

theorem SameDram.meetBurst {s u : State} (h : SameDram s u) (a : Nat) : SameDram (s.meetBurst a) (u.meetBurst a) := by
  simp only [State.meetBurst, h.dram]
  split
  · exact h.burstError _ _
  · exact h.readErrors _ _
  · exact h

theorem SameDram.writeBack {s u : State} (h : SameDram s u) (a : Nat) : SameDram (s.writeBack a) (u.writeBack a) := by
  simp only [State.writeBack, h.dram, h.mem]
  split
  · exact h
  · exact (h.modDram _).dramRequest _ _ _ _ _ _

theorem SameDram.meetErrors {s u : State} (h : SameDram s u) (pa n : Nat) : SameDram (s.meetErrors pa n) (u.meetErrors pa n) := by
  simp only [State.meetErrors, h.dram]
  generalize s.dram.suspects pa n = l
  induction l generalizing s u with
  | nil => exact h
  | cons a l ih => exact ih ((h.meetBurst a).writeBack a)

theorem SameDram.readDram {s u : State} (h : SameDram s u) (pa n port : Nat) : (u.readDram pa n port).2 = (s.readDram pa n port).2 := by
  have met := (h.dramRequest port pa n false [] false).meetErrors pa n
  simp only [State.readDram, met.dram, met.mem]

theorem State.readPkt_live {s : State} {i : Fin 16} {b : Buf} (hb : s.buf? s.streams[i].buf.toNat = some b) (p : Pkt) (port : Nat) :
    s.readPkt i p port = s.readDram (b.base + p.off) p.len port := by
  simp only [State.readPkt, hb, State.readBuf]

theorem State.readPkt_noBuffer {s : State} {i : Fin 16} (hb : s.buf? s.streams[i].buf.toNat = none) (p : Pkt) (port : Nat) :
    s.readPkt i p port = (s, none) := by
  simp only [State.readPkt, hb]

/-- A packet reads alike whatever waits at the engines. -/
theorem State.readPkt_anyEngs (s : State) (x : Vector (List EngPkt) 8) (i : Fin 16) (p : Pkt) (port : Nat) :
    (({ s with engs := x } : State).readPkt i p port).2 = (s.readPkt i p port).2 := by
  have same : SameDram s { s with engs := x } := ⟨rfl, rfl, rfl, rfl⟩
  cases hb : s.buf? s.streams[i].buf.toNat with
  | none => rw [State.readPkt_noBuffer hb, State.readPkt_noBuffer (s := { s with engs := x }) hb]
  | some b => rw [State.readPkt_live hb, State.readPkt_live (s := { s with engs := x }) hb, same.readDram]

theorem State.readPkt_readFrame (s : State) (i : Fin 16) (p : Pkt) (port : Nat) : ReadFrame s (s.readPkt i p port).1 := by
  cases hb : s.buf? s.streams[i].buf.toNat with
  | none => rw [State.readPkt_noBuffer hb]; exact .refl s
  | some b => rw [State.readPkt_live hb]; exact s.readDram_readFrame _ _ _

end Sys2Proof.Machine
end

section
/-! SUPPORT. What an engine does with a packet leaves the packets that wait at the engines (R91-R96). -/

namespace Sys2Proof.Machine

/-- What every step of a fold keeps, the fold keeps. -/
theorem foldl_keeps {σ α β : Type} (π : σ → β) (f : σ → α → σ) (h : ∀ s a, π (f s a) = π s) (l : List α) (s : σ) :
    π (l.foldl f s) = π s := by
  induction l generalizing s with
  | nil => rfl
  | cons a l ih => exact (ih _).trans (h s a)

@[simp] theorem State.countStream_engs (s : State) (i : Fin 16) (c k : Nat) : (s.countStream i c k).engs = s.engs := rfl
@[simp] theorem State.spoil_engs (s : State) (i : Fin 16) (ks : List Nat) : (s.spoil i ks).engs = s.engs := rfl
@[simp] theorem State.passed_engs (s : State) (g : EngPkt) : (s.passed g).engs = s.engs := rfl
@[simp] theorem State.clsRecord_engs (s : State) (code e : Nat) (i : Fin 16) (ty f : Nat) : (s.clsRecord code e i ty f).engs = s.engs :=
  State.report_engs _ _ _ _
@[simp] theorem State.unreadPkt_engs (s : State) (e : Nat) (i : Fin 16) (p : Pkt) : (s.unreadPkt e i p).engs = s.engs :=
  State.clsRecord_engs _ _ _ _ _ _

@[simp] theorem State.readPkt_engs (s : State) (i : Fin 16) (p : Pkt) (port : Nat) : (s.readPkt i p port).1.engs = s.engs :=
  (s.readPkt_readFrame i p port).writeFrame.engs

@[simp] theorem State.openItem_engs (s : State) (e : Nat) (i : Fin 16) (only : Bool) (item : List Byte) :
    (s.openItem e i only item).1.engs = s.engs := by
  simp only [State.openItem]
  split
  · split <;> rfl
  · split
    · exact State.clsRecord_engs _ _ _ _ _ _
    · split
      · exact State.clsRecord_engs _ _ _ _ _ _
      · split
        · rfl
        · exact State.clsRecord_engs _ _ _ _ _ _

@[simp] theorem State.settleTile_engs (s : State) (r : Rec) : (s.settleTile r).1.engs = s.engs := by
  simp only [State.settleTile]
  split
  · rfl
  · exact foldl_keeps State.engs _ (fun s a => (s.meetBurst_readFrame a).writeFrame.engs) _ s

@[simp] theorem State.writeTile_engs (s : State) (e : Fin 8) (k t : Nat) (l : List Nat) : (s.writeTile e k t l).engs = s.engs :=
  (State.writeBuf_writeFrame _ _ _ _ _).engs.trans
    (foldl_keeps State.engs _ (fun s _ => (State.writeBuf_writeFrame s _ _ _ _).engs) _ s)

@[simp] theorem State.putTile_engs (s : State) (e : Fin 8) (i : Fin 16) (d : SDec) (lands : Bool) (k t : Nat) (r : Rec) :
    (s.putTile e i d lands k t r).engs = s.engs := by
  unfold State.putTile
  extract_lets l rt usesRef s1 s2
  have h1 : s1.engs = s.engs := by
    simp only [s1]
    split <;> rfl
  have h2 : s2.engs = s.engs := by
    simp only [s2]
    split <;> exact h1
  have h3 (x : Rec) : (if (usesRef && lands && !d.follows) = true then (s2, x) else s2.settleTile r).1.engs = s.engs := by
    split
    · exact h2
    · exact (State.settleTile_engs _ _).trans h2
  split
  next s3 x heq =>
    have h4 : s3.engs = s.engs := by
      rw [← h3, heq]
    simp only [State.writeTile_engs]
    split
    · exact h4
    · exact h4

@[simp] theorem State.decodeFor_engs (s : State) (e : Fin 8) (i : Fin 16) (d : SDec) (lands : Bool) (b : List Byte) (k : Nat) :
    (s.decodeFor e i d lands b k).1.engs = s.engs := by
  simp only [State.decodeFor]
  generalize (decodeRecords _ _ _ _ _ _ _).tiles = l
  induction l generalizing s with
  | nil => rfl
  | cons x l ih => exact (ih _).trans (s.putTile_engs e i d lands k x.1 x.2)

@[simp] theorem State.applyEntry_engs (s : State) (i : Fin 16) (v k : Nat) : (s.applyEntry i v k).engs = s.engs := by
  rw [State.applyEntry, apply_ite State.engs]
  exact ite_self _

@[simp] theorem State.doneParams_engs (s : State) (i : Fin 16) (b : List Byte) : (s.doneParams i b).engs = s.engs := by
  simp only [State.doneParams]
  split
  · rfl
  · exact foldl_keeps State.engs _ (fun s v => foldl_keeps State.engs _ (fun s k => s.applyEntry_engs i v k) _ s) _ s

@[simp] theorem State.placeAudio_engs (s : State) (i : Fin 16) (p : List Byte) : (s.placeAudio i p).engs = s.engs := by
  simp only [State.placeAudio]
  split <;> rfl

@[simp] theorem State.openPkt_engs (s : State) (e : Nat) (i : Fin 16) (only : Bool) (p : Pkt) : (s.openPkt e i only p).1.engs = s.engs := by
  have kept := s.readPkt_engs i p (6 + e % 8)
  rw [State.openPkt]
  split
  next s1 item heq => rw [State.openItem_engs, ← kept, heq]
  next s1 heq => rw [State.unreadPkt_engs, ← kept, heq]

/-- The tiles of a group, decoded for the layers that it is good for, with the errors met. -/
def State.decodeAll (s : State) (e : Fin 8) (i : Fin 16) (d : SDec) (lands : Bool) (b : List Byte) (good : List Nat) :
    State × List (Nat × Nat × Nat) :=
  good.foldl (fun a k =>
    let (s, r) := a.1.decodeFor e i d lands b k
    (s, a.2 ++ match r with | some (c, t) => [(k, c, t)] | none => [])) (s, [])

theorem State.decodeAll_engs (s : State) (e : Fin 8) (i : Fin 16) (d : SDec) (lands : Bool) (b : List Byte) (good : List Nat) :
    (s.decodeAll e i d lands b good).1.engs = s.engs :=
  foldl_keeps (fun a : State × List (Nat × Nat × Nat) => a.1.engs) _ (fun a k => a.1.decodeFor_engs e i d lands b k) good (s, [])

/-- The layers that the header of a group is good for. -/
def State.goodTakers (s : State) (ks : List Nat) (body : Option (List Byte)) : List Nat :=
  match body with | some b => ks.filter (s.headerOk b) | none => []

/-- The tiles of a group, written before its tag is known, with the errors met (R91). -/
def State.decodeBody (s : State) (e : Fin 8) (g : EngPkt) (d : SDec) (lands : Bool) (ks : List Nat) (body : Option (List Byte)) :
    State × List (Nat × Nat × Nat) :=
  if g.overlap then (s, [])
  else match body with
    | none => (s, [])
    | some b => s.decodeAll e g.stream d lands b (s.goodTakers ks body)

theorem State.decodeBody_engs (s : State) (e : Fin 8) (g : EngPkt) (d : SDec) (lands : Bool) (ks : List Nat) (body : Option (List Byte)) :
    (s.decodeBody e g d lands ks body).1.engs = s.engs := by
  unfold State.decodeBody
  split
  · rfl
  · split
    · rfl
    · exact State.decodeAll_engs _ _ _ _ _ _ _

/-- The counts of a group whose check has failed go back to those before it. -/
def State.uncount (s : State) (i : Fin 16) (old : Vector Count 33) : State :=
  [26, 30, 31].foldl (fun a c => a.modStream i fun x => { x with ctr := vmodN x.ctr c fun _ => vget old c }) s

theorem State.uncount_engs (s : State) (i : Fin 16) (old : Vector Count 33) : (s.uncount i old).engs = s.engs := rfl

/-- What a group whose check has passed counts. -/
def State.countGroup (s : State) (e : Fin 8) (g : EngPkt) (b : List Byte) (good ks : List Nat) (errs : List (Nat × Nat × Nat)) : State :=
  let i := g.stream
  let s := s.passed g
  let s := if 256 < (groupHeader b 0).2.1 then s.countStream i 32 else s
  let s := if good.length < ks.length then s.countStream i 20 else s
  let s := if g.overlap then s.countStream i 21 else s
  match errs with
    | [] => s
    | (k, c, t) :: _ => (s.countStream i 23).report 0x0401 0x0F (e.val * 2 ^ 40 + c * 2 ^ 32 + k * 2 ^ 24 + t % 2 ^ 14)

theorem State.countGroup_engs (s : State) (e : Fin 8) (g : EngPkt) (b : List Byte) (good ks : List Nat) (errs : List (Nat × Nat × Nat)) :
    (s.countGroup e g b good ks errs).engs = s.engs := by
  unfold State.countGroup
  extract_lets i s0 s1 s2 s3
  have h3 : s3.engs = s.engs := by
    simp only [s3, s2, s1, s0, apply_ite State.engs, State.countStream_engs, State.passed_engs, ite_self]
  split
  · exact h3
  · rw [State.report_engs, State.countStream_engs, h3]

theorem State.doneGroup_unread {s s1 : State} {e : Fin 8} {g : EngPkt} {d : SDec} (hr : s.readPkt g.stream g.pkt (6 + e.val) = (s1, none)) :
    s.doneGroup e g d = (s1.unreadPkt e.val g.stream g.pkt).spoil g.stream (s.takers g.stream g.pkt.layer) := by
  simp only [State.doneGroup, hr]

/-- The tiles of a group are decoded before its tag is known, and what they count is kept when the tag passes (R91, R96). -/
theorem State.doneGroup_read {s s1 : State} {e : Fin 8} {g : EngPkt} {d : SDec} {item : List Byte}
    (hr : s.readPkt g.stream g.pkt (6 + e.val) = (s1, some item)) :
    let ks := s.takers g.stream g.pkt.layer
    let only := s.clearOnly ks
    let body := s1.peek only item
    let good := s1.goodTakers ks body
    let z := s1.decodeBody e g d (s.streams[g.stream].lands d.frame) ks body
    let o := z.1.openItem e.val g.stream only item
    s.doneGroup e g d = match o.2 with
      | none => (o.1.uncount g.stream s1.streams[g.stream].ctr).spoil g.stream ks
      | some b => (o.1.countGroup e g b good ks z.2).spoil g.stream
          (if g.overlap then ks else (ks.filter fun k => !good.contains k) ++ z.2.map (·.1)) := by
  simp only [State.doneGroup, hr]
  rfl

theorem State.doneGroup_engs (s : State) (e : Fin 8) (g : EngPkt) (d : SDec) : (s.doneGroup e g d).engs = s.engs := by
  have kept := s.readPkt_engs g.stream g.pkt (6 + e.val)
  rcases hr : s.readPkt g.stream g.pkt (6 + e.val) with ⟨s1, _ | item⟩
  · rw [State.doneGroup_unread hr, State.spoil_engs, State.unreadPkt_engs, ← kept, hr]
  · rw [State.doneGroup_read hr]
    have h1 : s1.engs = s.engs := by rw [← kept, hr]
    split
    · rw [State.spoil_engs, State.uncount_engs, State.openItem_engs, State.decodeBody_engs, h1]
    · rw [State.spoil_engs, State.countGroup_engs, State.openItem_engs, State.decodeBody_engs, h1]

theorem State.doneOther_engs (s : State) (e : Fin 8) (g : EngPkt) : (s.doneOther e g).engs = s.engs := by
  have kept := s.openPkt_engs e.val g.stream false g.pkt
  unfold State.doneOther
  extract_lets
  generalize s.openPkt e.val g.stream false g.pkt = z at kept ⊢
  have passed : (if z.2.isSome then z.1.passed g else z.1).engs = s.engs := by
    split
    · exact kept
    · exact kept
  dsimp only
  generalize (if z.2.isSome then z.1.passed g else z.1) = s2 at passed ⊢
  split
  · exact passed
  · exact passed
  · exact (State.doneParams_engs _ _ _).trans passed
  · split
    · exact (State.placeAudio_engs _ _ _).trans passed
    · exact passed
  · exact passed
  · exact passed

end Sys2Proof.Machine
end

section
/-! SUPPORT. What the end of a packet says to its frame, when its check passes and when it fails (R93-R95). -/

namespace Sys2Proof.Machine

/-! ### The check of an item that is not sealed (R93) -/

theorem State.modDec_dec {s : State} {i : Fin 16} {d : SDec} (h : s.streams[i].dec = some d) (f : SDec → SDec) :
    (s.modDec i f).streams[i].dec = some (f d) := by
  rw [State.modDec, State.modStream, vmod_same, h]
  rfl

theorem State.readPkt_streams (s : State) (i : Fin 16) (p : Pkt) (port : Nat) : (s.readPkt i p port).1.streams = s.streams :=
  (s.readPkt_readFrame i p port).writeFrame.streams

/-- An item of KEY_SLOT 0 opens by its CRC alone. -/
theorem State.openItem_clear {item : List Byte} (hs : (clsOf item).slot = 0) (s : State) (e : Nat) (i : Fin 16) (only : Bool) :
    s.openItem e i only item = if clearOkTrailer item then (s, some (payloadOf item)) else (s.countStream i 19, none) := by
  rw [State.openItem]
  exact if_pos hs

section
variable {s : State} {e : Fin 8} {g : EngPkt} {d : SDec} {item : List Byte} (hr : (s.readPkt g.stream g.pkt (6 + e.val)).2 = some item)
  (hs : (clsOf item).slot = 0)
include hr hs

theorem State.openPkt_clear : s.openPkt e.val g.stream false g.pkt =
    let s1 := (s.readPkt g.stream g.pkt (6 + e.val)).1
    if clearOkTrailer item then (s1, some (payloadOf item)) else (s1.countStream g.stream 19, none) := by
  have port : 6 + e.val % 8 = 6 + e.val := by omega
  rw [State.openPkt, port, ← Prod.mk.eta (p := s.readPkt g.stream g.pkt (6 + e.val)), hr]
  exact State.openItem_clear hs _ _ _ _

variable (hd : s.streams[g.stream].dec = some d)
include hd

/-- A FRAME_START that passes its check gives the frame's mask and the counts that it announces. -/
theorem State.doneOther_frameStart (hty : g.pkt.ty = 2) (ok : clearOkTrailer item = true) :
    (s.doneOther e g).streams[g.stream].dec = some
      { { d with ok := d.ok ++ [g.pkt.off] }.modSer g.pkt.bcast fun c =>
          { c with saidTg := some (fieldAt (payloadOf item) 8 4), saidPm := some (fieldAt (payloadOf item) 12 4) } with
        mask := d.mask ||| BitVec.ofNat 64 (fieldAt (payloadOf item) 0 8), media := BitVec.ofNat 64 (fieldAt (payloadOf item) 16 8) } := by
  have before : (s.readPkt g.stream g.pkt (6 + e.val)).1.streams[g.stream].dec = some d := by rw [State.readPkt_streams, hd]
  have opened := State.openPkt_clear hr hs
  simp only [ok, if_true] at opened
  simp only [State.doneOther, opened, hty, Option.isSome_some, if_true]
  exact State.modDec_dec (State.modDec_dec before _) _

theorem State.doneOther_frameEnd (hty : g.pkt.ty = 6) (ok : clearOkTrailer item = true) :
    (s.doneOther e g).streams[g.stream].dec = some
      ({ d with ok := d.ok ++ [g.pkt.off] }.modSer g.pkt.bcast fun c => { c with saidPkt := some (fieldAt (payloadOf item) 0 4) }) := by
  have before : (s.readPkt g.stream g.pkt (6 + e.val)).1.streams[g.stream].dec = some d := by rw [State.readPkt_streams, hd]
  have opened := State.openPkt_clear hr hs
  simp only [ok, if_true] at opened
  simp only [State.doneOther, opened, hty, Option.isSome_some, if_true]
  exact State.modDec_dec (State.modDec_dec before _) _

/-- A FRAME_START or FRAME_END that fails its check counts CRC_FAIL, and a FRAME_START fails the frame. -/
theorem State.doneOther_failed (hty : g.pkt.ty = 2 ∨ g.pkt.ty = 6) (bad : clearOkTrailer item = false) :
    (s.doneOther e g).streams[g.stream] = { s.streams[g.stream] with
      ctr := vmodN s.streams[g.stream].ctr 19 fun n => n.bump 1, dec := some { d with fsFail := d.fsFail || g.pkt.ty == 2 } } := by
  have counted : ((s.readPkt g.stream g.pkt (6 + e.val)).1.countStream g.stream 19).streams[g.stream] =
      { s.streams[g.stream] with ctr := vmodN s.streams[g.stream].ctr 19 fun n => n.bump 1 } := by
    rw [State.countStream_same, State.readPkt_streams]
  have opened := State.openPkt_clear hr hs
  simp only [bad, Bool.false_eq_true, if_false] at opened
  simp only [State.doneOther, opened]
  rcases hty with hty | hty
  · simp only [hty, Option.isSome_none, Bool.false_eq_true, if_false, State.modDec, State.modStream, vmod_same, counted, hd,
      beq_self_eq_true, Bool.or_true]
    rfl
  · simp only [hty, Option.isSome_none, Bool.false_eq_true, if_false, counted, hd, Nat.reduceBEq, Bool.or_false]

end

/-! ### `DECODE_PACKET_DONE` -/

/-- An engine ends the packet at its head (R93). -/
theorem decodePacketDone_next {s : State} {e : Fin 8} {g : EngPkt} {r : List EngPkt} {d : SDec} (he : s.engs[e] = g :: r)
    (hd : s.streams[g.stream].dec = some d) (htg : s.tgRuns 0 = true) (hreg : g.pkt.ty = 3 → g.registered = true) :
    exec (.decodePacketDone e) s = .next
      (let s' : State := { s with engs := s.engs.set e r }
       if g.pkt.ty = 3 then s'.doneGroup e g d else s'.doneOther e g) := by
  rw [exec_decodePacketDone, execDecodePacketDone]
  by_cases hty : g.pkt.ty = 3
  · simp only [he, hd, htg, hty, hreg hty, Bool.not_true, Bool.false_eq_true, if_false, if_true]
  · simp only [he, hd, htg, hty, Bool.not_true, Bool.false_eq_true, if_false]

theorem decodePacketDone_stray {s : State} {e : Fin 8} {g : EngPkt} {r : List EngPkt} (he : s.engs[e] = g :: r)
    (hd : s.streams[g.stream].dec = none) : exec (.decodePacketDone e) s = .next { s with engs := s.engs.set e r } := by
  rw [exec_decodePacketDone, execDecodePacketDone]
  simp only [he, hd]

/-! ### A group that finds no key (R94, R95) -/

/-- A packet that reads out of error-free DRAM costs its request. -/
theorem State.readPkt_errorFree {s : State} {i : Fin 16} {p : Pkt} {port : Nat} {item : List Byte} (h : s.dram.ErrorFree)
    (hr : (s.readPkt i p port).2 = some item) : ∃ a, s.readPkt i p port = (s.dramRequest port a p.len false, some item) := by
  cases hb : s.buf? s.streams[i].buf.toNat with
  | none =>
    rw [State.readPkt_noBuffer hb] at hr
    cases hr
  | some b =>
    have read := (State.readPkt_live hb p port).trans (State.readDram_clean _ _ _ _ (h.suspects _ _))
    rw [read] at hr
    exact ⟨b.base + p.off, hr ▸ read⟩

section
variable {s : State} {item : List Byte} (hslot : (clsOf item).slot ≠ 0) (hkey : s.keyFor (clsOf item).slot (clsOf item).frame = none)
include hslot hkey

theorem State.peek_keyAbsent : s.peek false item = none := by
  simp only [State.peek, hslot, hkey, if_false, Bool.false_eq_true, Option.map_none]

theorem State.openItem_keyAbsent (e : Nat) (i : Fin 16) : s.openItem e i false item =
    ((s.countStream i 18).clsRecord 0x0303 e i (clsOf item).ty (clsOf item).frame, none) := by
  simp only [State.openItem, hslot, hkey, if_false, Bool.false_eq_true]

end

theorem State.decodeBody_unread (s : State) (e : Fin 8) (g : EngPkt) (d : SDec) (lands : Bool) (ks : List Nat) :
    s.decodeBody e g d lands ks none = (s, []) := by
  unfold State.decodeBody
  exact ite_self _

/-- A group whose key is absent leaves what its tiles would have counted, spoils its takers and writes one record. -/
theorem State.doneGroup_keyAbsent {s : State} {e : Fin 8} {g : EngPkt} {item : List Byte} (d : SDec) (h : s.dram.ErrorFree)
    (hr : (s.readPkt g.stream g.pkt (6 + e.val)).2 = some item) (hslot : (clsOf item).slot ≠ 0)
    (hkey : s.keyFor (clsOf item).slot (clsOf item).frame = none) (hclear : s.clearOnly (s.takers g.stream g.pkt.layer) = false) :
    ∃ s1 : State, s1.streams = s.streams ∧ s1.err = s.err ∧ s.doneGroup e g d =
      (((s1.countStream g.stream 18).clsRecord 0x0303 e.val g.stream (clsOf item).ty (clsOf item).frame).uncount
        g.stream s.streams[g.stream].ctr).spoil g.stream (s.takers g.stream g.pkt.layer) := by
  obtain ⟨a, read⟩ := State.readPkt_errorFree h hr
  have hkey1 : (s.dramRequest (6 + e.val) a g.pkt.len false).keyFor (clsOf item).slot (clsOf item).frame = none := hkey
  refine ⟨s.dramRequest (6 + e.val) a g.pkt.len false, rfl, rfl, ?_⟩
  rw [State.doneGroup_read read]
  simp only [hclear, State.peek_keyAbsent hslot hkey1, State.decodeBody_unread, State.openItem_keyAbsent hslot hkey1]
  rfl

theorem vmodN_same {α : Type} {n c : Nat} (v : Vector α n) (f : α → α) (h : c < n) : (vmodN v c f)[c] = f v[c] := by
  simp only [vmodN, dif_pos h, Vector.getElem_set_self]

theorem vmodN_other {α : Type} {n c k : Nat} (v : Vector α n) (f : α → α) (h : k < n) (hck : c ≠ k) : (vmodN v c f)[k] = v[k] := by
  rw [vmodN]
  split
  · exact Vector.getElem_set_ne _ _ hck
  · rfl

/-- A counter that is taken back is the old one, and any other stays. -/
theorem foldl_takeBack (cs : List Nat) (v old : Vector Count 33) (k : Nat) (h : k < 33) :
    (cs.foldl (fun v c => vmodN v c fun _ => vget old c) v)[k] = if k ∈ cs then old[k] else v[k] := by
  induction cs generalizing v with
  | nil => simp
  | cons c cs ih =>
    rw [List.foldl_cons, ih]
    by_cases hk : k = c
    · subst hk
      simp [vmodN_same _ _ h, vget, h]
    · simp [vmodN_other v _ h (Ne.symm hk), hk]

theorem State.uncount_streams (s : State) (i : Fin 16) (old : Vector Count 33) : (s.uncount i old).streams[i] =
    { s.streams[i] with ctr := [26, 30, 31].foldl (fun v c => vmodN v c fun _ => vget old c) s.streams[i].ctr } := by
  simp only [State.uncount, List.foldl_cons, List.foldl_nil, State.modStream, vmod_same]

theorem State.uncount_err (s : State) (i : Fin 16) (old : Vector Count 33) : (s.uncount i old).err = s.err := rfl
theorem State.spoil_err (s : State) (i : Fin 16) (ks : List Nat) : (s.spoil i ks).err = s.err := rfl
theorem State.countStream_err (s : State) (i : Fin 16) (c k : Nat) : (s.countStream i c k).err = s.err := rfl

end Sys2Proof.Machine
end

section
/-! SUPPORT. The checks of a tile record in the layer profile, and its modes without a body (R82, R99, R548). -/

namespace Sys2Proof.Machine

/-- Bits 3 and 15:6 of a record header are 0, and those of the flags too in the modes that use the reference (R80, R82). -/
def plainHeader (hd : Nat) : Prop := hd / 8 % 2 = 0 ∧ hd / 64 % 1024 = 0 ∧ (hd % 8 < 2 → hd / 16 % 4 = 0)

theorem plainHeader_iff (hd : Nat) :
    plainHeader hd ↔ ¬(bitsOf hd 15 6 ≠ 0 ∨ hd.testBit 3 = true ∨ ((hd % 8 < 2 ∨ false = true) ∧ bitsOf hd 5 4 ≠ 0)) := by
  simp [plainHeader, bitsOf, Nat.testBit_eq_decide_div_mod_eq]
  omega

theorem fieldAt_lt (l : List Byte) (o n : Nat) : fieldAt l o n < 256 ^ n := by
  have h := leNat_lt ((l.drop o).take n)
  have hn : ((l.drop o).take n).length ≤ n := by rw [List.length_take]; omega
  exact lt_of_lt_of_le h (Nat.pow_le_pow_right (by decide) hn)

/-- The length field of a record header. -/
theorem bodyLen_eq (b : List Byte) : bitsOf (fieldAt b 0 4) 31 16 = fieldAt b 0 4 / 65536 := by
  have h := fieldAt_lt b 0 4
  simp only [bitsOf]
  omega

/-- A coordinate inside an image is its own clamped value (R4). -/
theorem clampInt_inside {x n : Nat} (h : x < n) : (clampInt (x : Int) 0 ((n : Int) - 1)).toNat = x := by
  simp only [clampInt]
  omega

/-- Every sample of a tile lies inside the image (R76). -/
theorem tileRect_inside (w h i j : Nat) (hj : j < (tileRect w h i).tw * (tileRect w h i).th) :
    (tileRect w h i).x0 + j % (tileRect w h i).tw < w ∧ (tileRect w h i).y0 + j / (tileRect w h i).tw < h := by
  have hx : j % (tileRect w h i).tw < (tileRect w h i).tw := Nat.mod_lt j (Nat.pos_of_mul_pos_right (Nat.zero_lt_of_lt hj))
  have hy : j / (tileRect w h i).tw < (tileRect w h i).th := Nat.div_lt_of_lt_mul hj
  generalize j % (tileRect w h i).tw = x at *
  generalize j / (tileRect w h i).tw = y at *
  simp only [tileRect] at *
  omega

theorem ok_bind {α β : Type} (x : α) (f : α → Except Nat β) : (Except.ok x >>= f) = f x := rfl

theorem padOk_noBits : padOk (bitList []) = .ok () := rfl

section
variable (w h : Nat) (r : TileRect) (ref : Nat → Nat → Nat) (b : List Byte)

theorem decodeRecord_short (hlen : b.length < 4) : decodeRecord false false w h r ref b = .error 0x04 := if_pos hlen

variable (hlen : 4 ≤ b.length)
include hlen

theorem decodeRecord_mode (hm : 6 ≤ fieldAt b 0 4 % 8) : decodeRecord false false w h r ref b = .error 0x01 := by
  have bad : (!modeOk false (fieldAt b 0 4 % 8)) = true := by simp [modeOk]; omega
  simp only [decodeRecord, if_neg (not_lt.2 hlen), bad, if_true]

variable (hm : fieldAt b 0 4 % 8 < 6)
include hm

theorem decodeRecord_header (hp : ¬plainHeader (fieldAt b 0 4)) : decodeRecord false false w h r ref b = .error 0x02 := by
  have good : ¬(!modeOk false (fieldAt b 0 4 % 8)) = true := by simp [modeOk]; omega
  rw [plainHeader_iff, not_not] at hp
  simp only [decodeRecord, if_neg (not_lt.2 hlen), if_neg good]
  exact if_pos hp

variable (hp : plainHeader (fieldAt b 0 4))
include hp

theorem decodeRecord_extent (hb : b.length < 4 + fieldAt b 0 4 / 65536) : decodeRecord false false w h r ref b = .error 0x04 := by
  have good : ¬(!modeOk false (fieldAt b 0 4 % 8)) = true := by simp [modeOk]; omega
  rw [plainHeader_iff] at hp
  simp only [decodeRecord, if_neg (not_lt.2 hlen), if_neg good, bodyLen_eq]
  exact (if_neg hp).trans (if_pos hb)

variable (hb : 4 + fieldAt b 0 4 / 65536 ≤ b.length)
include hb

theorem decodeRecord_fixed (n : Nat) (hf : fixedLen false (fieldAt b 0 4 % 8) = some n) (hn : fieldAt b 0 4 / 65536 ≠ n) :
    decodeRecord false false w h r ref b = .error 0x03 := by
  have good : ¬(!modeOk false (fieldAt b 0 4 % 8)) = true := by simp [modeOk]; omega
  have bad : ((fixedLen false (fieldAt b 0 4 % 8)).any (· != fieldAt b 0 4 / 65536)) = true := by
    simp [hf, hn.symm]
  rw [plainHeader_iff] at hp
  simp only [decodeRecord, if_neg (not_lt.2 hlen), if_neg good, bodyLen_eq]
  exact (if_neg hp).trans ((if_neg (not_lt.2 hb)).trans (if_pos bad))

variable (h0 : fieldAt b 0 4 / 65536 = 0)
include h0

omit hm hb in
/-- A SKIP record takes the samples of the reference at its own place (R82). -/
theorem decodeRecord_skip (hm : fieldAt b 0 4 % 8 = 0) (inside : ∀ j, j < r.tw * r.th → r.x0 + j % r.tw < w ∧ r.y0 + j / r.tw < h) :
    ∃ out, decodeRecord false false w h r ref b = .ok out ∧
      out.samples = (List.range (r.tw * r.th)).map fun j => ref (r.x0 + j % r.tw) (r.y0 + j / r.tw) := by
  rw [plainHeader_iff, hm] at hp
  simp only [decodeRecord, if_neg (not_lt.2 hlen), bodyLen_eq, hm, h0]
  rw [if_neg (by decide), if_neg hp, if_neg (by decide), if_neg (by decide), List.take_zero]
  simp only [ok_bind, padOk_noBits]
  refine ⟨_, rfl, ?_⟩
  simp only [bind_pure_comp, List.map_eq_map, List.map_map]
  refine List.map_congr_left fun j hj => ?_
  obtain ⟨hx, hy⟩ := inside j (List.mem_range.1 hj)
  have cx := clampInt_inside hx
  have cy := clampInt_inside hy
  push_cast at cx cy
  simp only [Function.comp_apply, add_zero, cx, cy]

omit hm hb in
/-- An EMPTY record is transparent (R82). -/
theorem decodeRecord_empty (hm : fieldAt b 0 4 % 8 = 3) :
    ∃ out, decodeRecord false false w h r ref b = .ok out ∧ out.samples = List.replicate (r.tw * r.th) 0 := by
  rw [plainHeader_iff, hm] at hp
  simp only [decodeRecord, if_neg (not_lt.2 hlen), bodyLen_eq, hm, h0]
  rw [if_neg (by decide), if_neg hp, if_neg (by decide), if_neg (by decide), List.take_zero]
  simp only [ok_bind, padOk_noBits]
  exact ⟨_, rfl, rfl⟩

end

end Sys2Proof.Machine
end

section
/-! SUPPORT. What O26 says of a packet that ends at its engine (R66, R93-R95). -/

namespace Sys2Proof.Machine

theorem packetDone_engs (s : State) (e : Fin 8) (g : EngPkt) (r : List EngPkt) (d : SDec) :
    let s' : State := { s with engs := s.engs.set e r }
    (if g.pkt.ty = 3 then s'.doneGroup e g d else s'.doneOther e g).engs = s.engs.set e r := by
  split
  · exact State.doneGroup_engs _ _ _ _
  · exact State.doneOther_engs _ _ _

/-- What the check of a FRAME_START or FRAME_END says enters the counts of its frame, and only then (R66, R93). -/
theorem doneOther_clear (s : State) (e : Fin 8) (g : EngPkt) (d : SDec) (item : List Byte) (hd : s.streams[g.stream].dec = some d)
    (hr : (s.readPkt g.stream g.pkt (6 + e.val)).2 = some item) (hs : (clsOf item).slot = 0) (hty : g.pkt.ty = 2 ∨ g.pkt.ty = 6) :
    let u := s.doneOther e g
    ∃ x, u.streams[g.stream].dec = some x ∧ x.frame = d.frame ∧ x.cov = d.cov ∧ x.bad = d.bad ∧ x.sent = d.sent ∧
      (clearOkTrailer item = true → x.ok = d.ok ++ [g.pkt.off] ∧ x.fsFail = d.fsFail ∧
        let c := if g.pkt.bcast then x.bc else x.node
        let b := payloadOf item
        (g.pkt.ty = 2 → x.mask = d.mask ||| BitVec.ofNat 64 (fieldAt b 0 8) ∧ c.saidTg = some (fieldAt b 8 4) ∧
          c.saidPm = some (fieldAt b 12 4)) ∧
        (g.pkt.ty = 6 → x.mask = d.mask ∧ c.saidPkt = some (fieldAt b 0 4))) ∧
      (clearOkTrailer item = false → x.ok = d.ok ∧ x.mask = d.mask ∧ x.fsFail = (d.fsFail || g.pkt.ty == 2) ∧
        u.streams[g.stream].ctr[19] = s.streams[g.stream].ctr[19].bump) := by
  intro u
  cases ok : clearOkTrailer item with
  | false =>
    have failed := State.doneOther_failed hr hs hd hty ok
    refine ⟨_, congrArg Stream.dec failed, rfl, rfl, rfl, rfl, fun h => absurd h (by decide), fun _ => ⟨rfl, rfl, rfl, ?_⟩⟩
    simp only [u, failed]
    exact vmodN_same _ _ _
  | true =>
    rcases hty with hty | hty
    · refine ⟨_, State.doneOther_frameStart hr hs hd hty ok, ?_⟩
      cases g.pkt.bcast <;> simp [SDec.modSer, hty]
    · refine ⟨_, State.doneOther_frameEnd hr hs hd hty ok, ?_⟩
      cases g.pkt.bcast <;> simp [SDec.modSer, hty]

theorem doneGroup_keyAbsent_counts (s : State) (e : Fin 8) (g : EngPkt) (d : SDec) (item : List Byte) (hd : s.streams[g.stream].dec = some d)
    (h : s.dram.ErrorFree) (hr : (s.readPkt g.stream g.pkt (6 + e.val)).2 = some item) (hslot : (clsOf item).slot ≠ 0)
    (hkey : s.keyFor (clsOf item).slot (clsOf item).frame = none) (hclear : s.clearOnly (s.takers g.stream g.pkt.layer) = false) :
    let u := s.doneGroup e g d
    (∃ x, u.streams[g.stream].dec = some x ∧ ∀ k ∈ s.takers g.stream g.pkt.layer, k ∈ x.bad) ∧
      u.streams[g.stream].ctr[18] = s.streams[g.stream].ctr[18].bump ∧ u.streams[g.stream].ctr[26] = s.streams[g.stream].ctr[26] ∧
      u.streams[g.stream].ctr[30] = s.streams[g.stream].ctr[30] ∧ u.err.total = s.err.total + 1 := by
  obtain ⟨s1, hstreams, herr, hu⟩ := State.doneGroup_keyAbsent d h hr hslot hkey hclear
  intro u
  have stream : u.streams[g.stream] = { s.streams[g.stream] with
      ctr := [26, 30, 31].foldl (fun v c => vmodN v c fun _ => vget s.streams[g.stream].ctr c) (vmodN s.streams[g.stream].ctr 18 fun n => n.bump 1)
      dec := some { d with bad := d.bad ++ s.takers g.stream g.pkt.layer } } := by
    simp only [u, hu, State.spoil, State.modDec, State.modStream, vmod_same, State.uncount_streams, State.clsRecord, State.report_streams,
      State.countStream_same, hstreams, hd]
    rfl
  rw [stream]
  refine ⟨⟨_, rfl, fun k hk => List.mem_append_right _ hk⟩, ?_, ?_, ?_, ?_⟩
  · exact (foldl_takeBack _ _ _ 18 (by decide)).trans (vmodN_same _ _ _)
  · exact foldl_takeBack _ _ _ 26 (by decide)
  · exact foldl_takeBack _ _ _ 30 (by decide)
  · simp only [u, hu, State.spoil_err, State.uncount_err, State.clsRecord, State.report_total, State.countStream_err, herr]

end Sys2Proof.Machine
end

section
/-! PROOF. O26: the parts of the decoding of a frame. -/

open Sys2Proof Sys2Proof.Machine

/-- Settles O26: part by part, from the equations of the decoder's instructions. -/
theorem groupDecoding : Obligations.GroupDecoding := by
  unfold Obligations.GroupDecoding
  refine ⟨⟨?_, ?_, ?_, ?_⟩, ?_, ?_⟩
  · intro s i c x hst hpos hwall htg hdec hfinal
    have due := decodeStart_due s i c hst hpos hwall htg hdec hfinal
    constructor
    · rintro ⟨p, hp, hty⟩
      have ended : ((s.streams[i].framePkts c).any (·.ty == 6)) = true := List.any_eq_true.2 ⟨p, hp, beq_iff_eq.2 hty⟩
      rw [due, if_pos ended]
      rfl
    · intro unended
      have noEnd : ((s.streams[i].framePkts c).any (·.ty == 6)) = false :=
        List.any_eq_false.2 fun p hp => Bool.eq_false_iff.1 (beq_false_of_ne (unended p hp))
      rw [due, noEnd]
      rfl
  · intro s i d p htg hdec hp handed ks
    have next := decoderDispatch_next s i d p htg hdec hp
    constructor
    · intro hty hks
      rw [next, if_pos ⟨hty, hks⟩]
    · intro h
      refine ⟨s.pickEngine, s.tilesOf i p, ?_, fun f => (s.pickEngine_least f).1, fun f => (s.pickEngine_least f).2,
        s.tilesOf_other i, fun b hty hb => State.tilesOf_group hty hb⟩
      have toEngine : ¬(p.ty = 3 ∧ s.takers i p.layer = []) := fun ⟨hty, hks⟩ => h.elim (· hty) (· hks)
      rw [next, if_neg toEngine]
  · intro s e g r d htg he hdec hty hreg hwait ks body mark
    constructor
    · intro b hb hk first n
      exact ⟨groupRegistration_enters s e g r d htg he hdec hty hreg hwait b hb hk,
        groupRegistration_overlaps s e g r d htg he hdec hty hreg hwait b hb hk⟩
    · intro h
      cases hb : body with
      | none => exact groupRegistration_unread s e g r d htg he hdec hty hreg hwait hb
      | some b => exact groupRegistration_noTaker s e g r d htg he hdec hty hreg hwait b hb (h b hb)
  · intro s e g r he
    refine ⟨decodePacketDone_stray he, fun d hd htg hreg => ⟨_, decodePacketDone_next he hd htg hreg, ?_, ?_, ?_⟩⟩
    · rw [packetDone_engs]
      exact vset_same _ _ _
    · intro f hf
      rw [packetDone_engs]
      exact vset_other _ _ _ _ hf
    · intro item hr hs hty
      have noGroup : g.pkt.ty ≠ 3 := by omega
      rw [if_neg noGroup]
      exact doneOther_clear { s with engs := s.engs.set e r } e g d item hd ((State.readPkt_anyEngs _ _ _ _ _).trans hr) hs hty
  · intro s e g r d item he hd hty hreg hr htg hbad hfaults hue hslot hkey hclear
    refine ⟨_, decodePacketDone_next he hd htg fun _ => hreg, ?_⟩
    rw [if_pos hty]
    exact doneGroup_keyAbsent_counts { s with engs := s.engs.set e r } e g d item hd ⟨hbad, hfaults, hue⟩
      ((State.readPkt_anyEngs _ _ _ _ _).trans hr) hslot hkey hclear
  · intro w h i ref b hw hh hi r hd dec plain
    refine ⟨decodeRecord_short w h r ref b, fun hlen => ⟨decodeRecord_mode w h r ref b hlen, decodeRecord_header w h r ref b hlen,
      decodeRecord_extent w h r ref b hlen, fun hp hb => ⟨?_, ?_, ?_, ?_, ?_⟩⟩⟩
    · rintro (hm | hm) hn
      · exact decodeRecord_fixed w h r ref b hlen (by omega) hp hb 0 (congrArg (fixedLen false) hm) hn
      · exact decodeRecord_fixed w h r ref b hlen (by omega) hp hb 0 (congrArg (fixedLen false) hm) hn
    · intro hm hn
      exact decodeRecord_fixed w h r ref b hlen (by omega) hp hb 4 (congrArg (fixedLen false) hm) hn
    · intro hm hn
      exact decodeRecord_fixed w h r ref b hlen (by omega) hp hb 6 (congrArg (fixedLen false) hm) hn
    · intro hm h0
      exact decodeRecord_skip w h r ref b hlen hp h0 hm (tileRect_inside w h i)
    · intro hm h0
      exact decodeRecord_empty w h r ref b hlen hp h0 hm
end

section
/-! SUPPORT. The bitstream of a tile record (R79, R89): what the encoder writes, the decoder reads back. -/

namespace Sys2Proof.Machine

theorem bitsMsb_succ (n v : Nat) : bitsMsb (n + 1) v = v.testBit n :: bitsMsb n v := by
  simp only [bitsMsb, List.range_succ_eq_map, List.map_cons, List.map_map, Nat.add_sub_cancel, Nat.sub_zero]
  congr 1
  refine List.map_congr_left fun i _ => ?_
  rw [Function.comp_apply, Nat.succ_eq_add_one, Nat.add_comm i 1, Nat.sub_add_eq]

@[simp] theorem length_bitsMsb (n v : Nat) : (bitsMsb n v).length = n := by simp [bitsMsb]

/-- The low `n` bits of `v` go behind the bits already read. -/
theorem getBits_bitsMsb_acc (n acc v : Nat) (rest : List Bool) :
    getBits n acc (bitsMsb n v ++ rest) = .ok (acc * 2 ^ n + v % 2 ^ n, rest) := by
  induction n generalizing acc with
  | zero => simp [getBits, bitsMsb, Nat.mod_one]
  | succ n ih =>
    have top : v % 2 ^ (n + 1) = (v.testBit n).toNat * 2 ^ n + v % 2 ^ n := by
      rw [Nat.mod_pow_succ, Nat.toNat_testBit, Nat.mul_comm, Nat.add_comm]
    rw [bitsMsb_succ, List.cons_append, getBits, ih, top, pow_succ]
    congr 2
    ring

theorem getBits_bitsMsb {n v : Nat} (hv : v < 2 ^ n) (rest : List Bool) : getBits n 0 (bitsMsb n v ++ rest) = .ok (v, rest) := by
  rw [getBits_bitsMsb_acc, Nat.mod_eq_of_lt hv, Nat.zero_mul, Nat.zero_add]

/-! ### Bytes of a bitstream -/

/-- The bits of a byte built from eight bits are those bits. -/
theorem bitList_byte (x : List Bool) (hx : x.length = 8) : bitList [BitVec.ofNat 8 (x.foldl (fun a b => 2 * a + b.toNat) 0)] = x := by
  obtain ⟨b7, b6, b5, b4, b3, b2, b1, b0, rfl⟩ : ∃ b7 b6 b5 b4 b3 b2 b1 b0, x = [b7, b6, b5, b4, b3, b2, b1, b0] := by
    match x, hx with
    | [b7, b6, b5, b4, b3, b2, b1, b0], _ => exact ⟨_, _, _, _, _, _, _, _, rfl⟩
  revert b7 b6 b5 b4 b3 b2 b1 b0
  decide

theorem bitList_cons (b : Byte) (r : List Byte) : bitList (b :: r) = bitList [b] ++ bitList r := by
  simp [bitList]

theorem length_packBits (n : Nat) (l : List Bool) : (packBits n l).length = n := by
  induction n generalizing l with
  | zero => rfl
  | succ n ih => rw [packBits, List.length_cons, ih]

/-- `n` bytes hold the bits they were packed from, padded with zeros. -/
theorem bitList_packBits (n : Nat) (l : List Bool) (h : l.length ≤ 8 * n) :
    bitList (packBits n l) = l ++ List.replicate (8 * n - l.length) false := by
  induction n generalizing l with
  | zero =>
    obtain rfl := List.length_eq_zero_iff.1 (Nat.le_zero.1 h)
    rfl
  | succ n ih =>
    have first := bitList_byte (l.take 8 ++ List.replicate (8 - (l.take 8).length) false) (by
      rw [List.length_append, List.length_replicate, List.length_take]
      omega)
    have others := ih (l.drop 8) (by rw [List.length_drop]; omega)
    simp only [packBits]
    rw [bitList_cons, first, others]
    rcases Nat.le_total 8 l.length with long | short
    · rw [List.length_take_of_le long, Nat.sub_self, List.replicate_zero, List.append_nil, ← List.append_assoc, List.take_append_drop,
        List.length_drop]
      congr 2
      omega
    · rw [List.take_of_length_le short, List.drop_eq_nil_of_le short, List.nil_append, List.append_assoc, List.replicate_append_replicate,
        List.length_nil]
      congr 2
      omega

theorem length_bitsToBytes (l : List Bool) : (bitsToBytes l).length = (l.length + 7) / 8 := length_packBits _ _

/-- A body holds its bits and less than a byte of padding (R79). -/
theorem bitList_bitsToBytes (l : List Bool) : ∃ p < 8, bitList (bitsToBytes l) = l ++ List.replicate p false := by
  have bytes : ceilDiv l.length 8 = (l.length + 7) / 8 := rfl
  exact ⟨8 * ceilDiv l.length 8 - l.length, by omega, bitList_packBits _ _ (by omega)⟩

theorem padOk_zeros {p : Nat} (hp : p < 8) : padOk (List.replicate p false) = .ok () := by
  simp [padOk, hp]

/-! ### The Rice code (R89) -/

theorem getOnes_stopped {q n : Nat} (h : q < n) (rest : List Bool) :
    getOnes n (List.replicate q true ++ false :: rest) = .ok (q, rest) := by
  induction q generalizing n with
  | zero =>
    obtain ⟨n, rfl⟩ := Nat.exists_eq_succ_of_ne_zero (Nat.ne_of_gt h)
    rfl
  | succ q ih =>
    obtain ⟨n, rfl⟩ := Nat.exists_eq_succ_of_ne_zero (Nat.ne_of_gt (Nat.zero_lt_of_lt h))
    rw [List.replicate_succ, List.cons_append, getOnes, ih (Nat.lt_of_succ_lt_succ h), ok_bind]
    rfl

theorem getOnes_full (n : Nat) (rest : List Bool) : getOnes n (List.replicate n true ++ rest) = .ok (n, rest) := by
  induction n with
  | zero => rfl
  | succ n ih =>
    rw [List.replicate_succ, List.cons_append, getOnes, ih, ok_bind]
    rfl

/-- Both forms of the Rice code read back as the value they carry. -/
theorem rice_riceBits (k : Nat) {m : Nat} (hm : m < 2 ^ 13) (rest : List Bool) : rice k (riceBits k m ++ rest) = .ok (m, rest) := by
  by_cases h : m / 2 ^ k < 24
  · have low := getBits_bitsMsb (Nat.mod_lt m (Nat.two_pow_pos k)) rest
    rw [riceBits, if_pos h, List.append_assoc, List.append_assoc, List.singleton_append, rice, getOnes_stopped h, ok_bind]
    simp only [Nat.ne_of_lt h, if_false, low, ok_bind, Nat.div_add_mod']
    rfl
  · rw [riceBits, if_neg h, List.append_assoc, rice, getOnes_full, ok_bind]
    exact getBits_bitsMsb hm rest

theorem length_riceBits_le {k : Nat} (hk : k ≤ 12) (m : Nat) : (riceBits k m).length ≤ 37 := by
  simp only [riceBits]
  split
  · simp; omega
  · simp

end Sys2Proof.Machine
end

section
/-! SUPPORT. The palette mode of the lossless profile (R86, R99, R100): samples, entries and indices read back. -/

namespace Sys2Proof.Machine

theorem comp_succ (v c : Nat) : comp v (c + 1) = comp (v / 4096) c := by
  have shift : (2 : Nat) ^ (12 * (c + 1)) = 4096 * 2 ^ (12 * c) := by rw [Nat.mul_succ, pow_add, Nat.mul_comm]; rfl
  rw [comp, comp, shift, Nat.div_div_eq_div_mul]

theorem comp_lt (v c : Nat) : comp v c < 4096 := Nat.mod_lt _ (by decide)

/-- The first `n` components put together again (R77). -/
theorem foldl_comps (n v : Nat) : (List.range n).foldl (fun x c => x + comp v c * 4096 ^ c) 0 = v % 4096 ^ n := by
  induction n with
  | zero => exact (Nat.mod_one v).symm
  | succ n ih =>
    have place : comp v n = v / 4096 ^ n % 4096 := by simp only [comp, pow_mul, Nat.reducePow]
    rw [List.range_succ, List.foldl_append, ih, List.foldl_cons, List.foldl_nil, place, Nat.mod_pow_succ, Nat.mul_comm (4096 ^ n)]

theorem sampleBits_succ (n v : Nat) : sampleBits (n + 1) v = bitsMsb 12 (v % 4096) ++ sampleBits n (v / 4096) := by
  have low : comp v 0 = v % 4096 := by simp [comp]
  simp only [sampleBits, List.range_succ_eq_map, List.flatMap_cons, List.flatMap_map, Nat.succ_eq_add_one, comp_succ, low]

theorem getSample_sampleBits_mod (n v : Nat) (rest : List Bool) : getSample n (sampleBits n v ++ rest) = .ok (v % 4096 ^ n, rest) := by
  induction n generalizing v with
  | zero => simp [getSample, sampleBits, Nat.mod_one]
  | succ n ih =>
    have low : v % 4096 < 2 ^ 12 := Nat.mod_lt v (by decide)
    rw [sampleBits_succ, List.append_assoc, getSample, getBits_bitsMsb low, ok_bind]
    simp only [ih, ok_bind, pow_succ', Nat.mod_mul]
    rfl

theorem getSample_sampleBits {n v : Nat} (hv : v < 4096 ^ n) (rest : List Bool) :
    getSample n (sampleBits n v ++ rest) = .ok (v, rest) := by
  rw [getSample_sampleBits_mod, Nat.mod_eq_of_lt hv]

theorem getSamples_sampleBits {nc : Nat} (l : List Nat) (hl : ∀ v ∈ l, v < 4096 ^ nc) (rest : List Bool) :
    getSamples nc l.length (l.flatMap (sampleBits nc) ++ rest) = .ok (l, rest) := by
  induction l with
  | nil => rfl
  | cons v l ih =>
    obtain ⟨hv, hl⟩ := List.forall_mem_cons.1 hl
    rw [List.flatMap_cons, List.append_assoc, List.length_cons, getSamples, getSample_sampleBits hv, ok_bind]
    simp only [ih hl, ok_bind]
    rfl

/-- Indices of entries are read back and are all in range. -/
theorem getIndices_idxOf {b : Nat} (ent l : List Nat) (hl : ∀ v ∈ l, v ∈ ent) (hb : ent.length ≤ 2 ^ b) (rest : List Bool) :
    getIndices b ent.length l.length (l.flatMap (fun v => bitsMsb b (ent.idxOf v)) ++ rest) = .ok (l.map fun v => ent.idxOf v, rest) := by
  induction l with
  | nil => rfl
  | cons v l ih =>
    obtain ⟨hv, hl⟩ := List.forall_mem_cons.1 hl
    have inRange : ent.idxOf v < ent.length := List.idxOf_lt_length_iff.2 hv
    rw [List.flatMap_cons, List.append_assoc, List.length_cons, getIndices, getBits_bitsMsb (inRange.trans_le hb), ok_bind]
    simp only [if_neg (not_le.2 inRange), ih hl, ok_bind]
    rfl

theorem map_getD_idxOf (ent l : List Nat) (hl : ∀ v ∈ l, v ∈ ent) : (l.map fun v => ent.idxOf v).map (fun i => ent.getD i 0) = l := by
  have entry : ∀ v ∈ l, ent.getD (ent.idxOf v) 0 = v := fun v hv => by
    have inRange : ent.idxOf v < ent.length := List.idxOf_lt_length_iff.2 (hl v hv)
    rw [List.getD_eq_getElem _ _ inRange, List.getElem_idxOf]
  rw [List.map_map]
  exact (List.map_congr_left entry).trans (List.map_id' l)

/-- The index bits of a palette reach each of its entries. -/
theorem le_two_pow_palBits {p : Nat} (h16 : p ≤ 16) : p ≤ 2 ^ palBits p := by
  simp only [palBits]
  split_ifs <;> omega

/-- The palette holds the samples of the tile and nothing else. -/
@[simp] theorem mem_firstSeen (l : List Nat) (v : Nat) : v ∈ firstSeen l ↔ v ∈ l := by
  induction l using List.reverseRecOn generalizing v with
  | nil => rfl
  | append_singleton l x ih =>
    have step : firstSeen (l ++ [x]) = if (firstSeen l).contains x then firstSeen l else firstSeen l ++ [x] := by
      rw [firstSeen, List.foldl_append]
      rfl
    rw [step]
    split
    · rename_i seen
      have hx : x ∈ l := (ih x).1 (List.contains_iff_mem.1 seen)
      rw [ih, List.mem_append, List.mem_singleton]
      exact ⟨.inl, fun h => h.elim id fun e => e ▸ hx⟩
    · rw [List.mem_append, List.mem_append, ih]

/-- A PAL body decodes to the samples it was made from, with padding left. -/
theorem palTile_encPal {l : List Nat} (hv : ∀ v ∈ l, v < 2 ^ 36) (h2 : 2 ≤ (firstSeen l).length) (h16 : (firstSeen l).length ≤ 16) :
    ∃ p < 8, palTile 3 l.length (bitList (encPal l)) = .ok (l, List.replicate p false) := by
  obtain ⟨p, hp, body⟩ := bitList_bitsToBytes (bitsMsb 4 ((firstSeen l).length - 1) ++ (firstSeen l).flatMap (sampleBits 3)
    ++ l.flatMap fun v => bitsMsb (palBits (firstSeen l).length) ((firstSeen l).idxOf v))
  have inPalette : ∀ v ∈ l, v ∈ firstSeen l := fun v => (mem_firstSeen l v).2
  have entries := getSamples_sampleBits (nc := 3) (firstSeen l) fun v h => hv v ((mem_firstSeen l v).1 h)
  have size : (firstSeen l).length - 1 + 1 = (firstSeen l).length := by omega
  refine ⟨p, hp, ?_⟩
  rw [show bitList (encPal l) = _ from body]
  simp only [List.append_assoc]
  rw [palTile, getBits_bitsMsb (by omega), ok_bind]
  simp only [size, entries, ok_bind, getIndices_idxOf _ _ inPalette (le_two_pow_palBits h16), map_getD_idxOf _ _ inPalette]
  rw [if_neg (by omega)]
  rfl

end Sys2Proof.Machine
end

section
/-! SUPPORT. The predictive mode of the lossless profile (R87-R90, R100): the decoder follows the encoder from sample to sample. -/

namespace Sys2Proof.Machine

/-! ### Prediction errors -/

theorem neighbours_le (tw : Nat) (done : List Nat) (i c : Nat) :
    (0 ≤ (neighbours tw done i c).1 ∧ (neighbours tw done i c).1 ≤ 4095) ∧
      0 ≤ (neighbours tw done i c).2.1 ∧ (neighbours tw done i c).2.1 ≤ 4095 := by
  have value : ∀ j, 0 ≤ (comp (done.getD j 0) c : Int) ∧ (comp (done.getD j 0) c : Int) ≤ 4095 := fun j => by
    have := comp_lt (done.getD j 0) c
    omega
  simp only [neighbours]
  split_ifs
  · decide
  · exact ⟨value _, value _⟩
  · exact ⟨value _, value _⟩
  · exact ⟨value _, value _⟩

/-- The median-edge prediction lies between the left and the above neighbour. -/
theorem predict_between (a b d : Int) : min a b ≤ predict a b d ∧ predict a b d ≤ max a b := by
  simp only [predict]
  split_ifs <;> omega

theorem unmapErr_mapErr (t : Int) : unmapErr (mapErr t) = t := by
  rcases lt_or_ge t 0 with neg | nonneg
  · rw [mapErr, if_pos neg, unmapErr, if_pos (by omega)]
    omega
  · rw [mapErr, if_neg (not_lt.2 nonneg), unmapErr, if_neg (by omega)]
    omega

theorem mapErr_lt {t : Int} (lo : -4095 ≤ t) (hi : t ≤ 4095) : mapErr t < 2 ^ 13 := by
  simp only [mapErr]
  split_ifs <;> omega

theorem PtcCtx.k_le (x : PtcCtx) : x.k ≤ 12 := by
  simp only [PtcCtx.k]
  cases found : (List.range 12).find? fun k => x.1 ≤ x.2 * 2 ^ k with
  | none => exact le_rfl
  | some k => exact (List.mem_range.1 (List.mem_of_find?_eq_some found)).le

/-! ### One component, one sample, one tile -/

/-- The state with other bits to read. -/
def PredSt.reading (s : PredSt) (l : List Bool) : PredSt := { s with bits := l }

/-- The prediction of component `c` at index `i` from the samples done. -/
def PredSt.prediction (s : PredSt) (tw i c : Nat) : Int :=
  predict (neighbours tw s.done i c).1 (neighbours tw s.done i c).2.1 (neighbours tw s.done i c).2.2

/-- The place of the context of component `c` at index `i`. -/
def PredSt.place (s : PredSt) (tw i c : Nat) : Nat :=
  4 * c + ctxOf (neighbours tw s.done i c).1 (neighbours tw s.done i c).2.1 (neighbours tw s.done i c).2.2

/-- The context of component `c` at index `i`. -/
def PredSt.context (s : PredSt) (tw i c : Nat) : PtcCtx := s.ctx.getD (s.place tw i c) (4, 1)

/-- The state after component `c` at index `i` was coded as `m`, with the code's bits behind those of `s`. -/
def PredSt.coded (s : PredSt) (tw i c m : Nat) : PredSt :=
  { s with ctx := s.ctx.set (s.place tw i c) ((s.context tw i c).put m), bits := s.bits ++ riceBits (s.context tw i c).k m }

/-- What the encoder does with component `c` of the sample `v` at index `i`. -/
def encPredComp (tw i v : Nat) (s : PredSt) (c : Nat) : PredSt := s.coded tw i c (mapErr ((comp v c : Int) - s.prediction tw i c))

/-- The encoder codes the three components of a sample one after another (R88, R100). -/
theorem encPredSample_eq (tw : Nat) (s : PredSt) (i v : Nat) : encPredSample tw s (i, v) =
    { (List.range 3).foldl (encPredComp tw i v) s with done := s.done ++ [v] } := rfl

/-- The decoder of the lossless profile adds the error that it reads to the prediction (R88). -/
theorem predComp_of_rice {tw i c m : Nat} {s : PredSt} {l rest : List Bool} (h : rice (s.context tw i c).k l = .ok (m, rest)) (cur : Nat) :
    predComp tw 1 0 i (s.reading l, cur) c =
      .ok ((s.coded tw i c m).reading rest, cur + (clampInt (s.prediction tw i c + unmapErr m) 0 4095).toNat * 4096 ^ c) := by
  have step : predComp tw 1 0 i (s.reading l, cur) c = rice (s.context tw i c).k l >>= fun x => .ok
      ((s.coded tw i c x.1).reading x.2, cur + (clampInt (s.prediction tw i c + unmapErr x.1 * 1) 0 4095).toNat * 4096 ^ c) := by
    simp only [predComp, Nat.zero_ne_one, and_false, if_false]
    rfl
  rw [step, h, ok_bind, Int.mul_one]

/-- The error of a 12-bit component fits the 13 bits of the escape form (R89). -/
theorem predErr_lt (tw i v c : Nat) (s : PredSt) : mapErr ((comp v c : Int) - s.prediction tw i c) < 2 ^ 13 := by
  have hv := comp_lt v c
  obtain ⟨⟨a0, a1⟩, b0, b1⟩ := neighbours_le tw s.done i c
  obtain ⟨lo, hi⟩ := predict_between (neighbours tw s.done i c).1 (neighbours tw s.done i c).2.1 (neighbours tw s.done i c).2.2
  simp only [PredSt.prediction]
  exact mapErr_lt (by omega) (by omega)

/-- From `s` to `u` the encoder writes at most `n` bits, and `reads` relates a decoder in the state `s` before them to one in the
state `u` behind them. -/
def Codes (n : Nat) (s u : PredSt) (reads : PredSt → PredSt → Prop) : Prop :=
  ∃ bs, u.bits = s.bits ++ bs ∧ bs.length ≤ n ∧ ∀ rest, reads (s.reading (bs ++ rest)) (u.reading rest)

/-- Codes one behind the other are read one after the other. -/
theorem Codes.trans {n m : Nat} {s u v : PredSt} {p q r : PredSt → PredSt → Prop} (h : Codes n s u p) (k : Codes m u v q)
    (both : ∀ a b c, p a b → q b c → r a c) : Codes (n + m) s v r := by
  obtain ⟨bs, hbits, hlen, hread⟩ := h
  obtain ⟨cs, kbits, klen, kread⟩ := k
  refine ⟨bs ++ cs, by rw [kbits, hbits, List.append_assoc], by rw [List.length_append]; omega, fun rest => ?_⟩
  rw [List.append_assoc]
  exact both _ _ _ (hread _) (kread _)

/-- Without loss the decoder finds each component that the encoder coded. -/
theorem encPredComp_codes (tw i v cur c : Nat) (s : PredSt) : Codes 37 s (encPredComp tw i v s c)
    fun a b => predComp tw 1 0 i (a, cur) c = .ok (b, cur + comp v c * 4096 ^ c) := by
  refine ⟨_, rfl, length_riceBits_le (PtcCtx.k_le _) _, fun rest => ?_⟩
  have hv := comp_lt v c
  have value : (clampInt (s.prediction tw i c + unmapErr (mapErr ((comp v c : Int) - s.prediction tw i c))) 0 4095).toNat = comp v c := by
    rw [unmapErr_mapErr, clampInt]
    omega
  have read := predComp_of_rice (rice_riceBits (s.context tw i c).k (predErr_lt tw i v c s) rest) cur
  rw [value] at read
  exact read

theorem encPredComps_codes (tw i v : Nat) (cs : List Nat) (cur : Nat) (s : PredSt) :
    Codes (37 * cs.length) s (cs.foldl (encPredComp tw i v) s)
      fun a b => cs.foldlM (predComp tw 1 0 i) (a, cur) = .ok (b, cs.foldl (fun n c => n + comp v c * 4096 ^ c) cur) := by
  induction cs generalizing s cur with
  | nil => exact ⟨[], (List.append_nil _).symm, le_rfl, fun _ => rfl⟩
  | cons c cs ih =>
    rw [List.length_cons, Nat.mul_succ, Nat.add_comm]
    refine (encPredComp_codes tw i v cur c s).trans (ih (cur + comp v c * 4096 ^ c) _) fun _ _ _ first others => ?_
    rw [List.foldlM_cons, first, ok_bind, others, List.foldl_cons]

theorem encPredSample_codes (tw i : Nat) {v : Nat} (hv : v < 2 ^ 36) (s : PredSt) :
    Codes 111 s (encPredSample tw s (i, v)) fun a b => predSample tw 3 1 0 a i = .ok b := by
  rw [encPredSample_eq]
  obtain ⟨bs, hbits, hlen, hread⟩ := encPredComps_codes tw i v (List.range 3) 0 s
  have sample : v % 4096 ^ 3 = v := Nat.mod_eq_of_lt hv
  rw [foldl_comps, sample] at hread
  refine ⟨bs, hbits, hlen, fun rest => ?_⟩
  simp only [predSample, hread, ok_bind]
  rfl

theorem encPredSamples_codes (tw : Nat) (l : List (Nat × Nat)) (hl : ∀ x ∈ l, x.2 < 2 ^ 36) (s : PredSt) :
    Codes (111 * l.length) s (l.foldl (encPredSample tw) s) fun a b => (l.map Prod.fst).foldlM (predSample tw 3 1 0) a = .ok b := by
  induction l generalizing s with
  | nil => exact ⟨[], (List.append_nil _).symm, le_rfl, fun _ => rfl⟩
  | cons x l ih =>
    obtain ⟨hx, hl⟩ := List.forall_mem_cons.1 hl
    rw [List.length_cons, Nat.mul_succ, Nat.add_comm]
    refine (encPredSample_codes tw x.1 hx s).trans (ih hl _) fun a b c first others => ?_
    rw [List.map_cons, List.foldlM_cons, first, ok_bind, others]

/-- The encoder's samples done are those it was given. -/
theorem foldl_encPredSample_done (tw : Nat) (l : List (Nat × Nat)) (s : PredSt) :
    (l.foldl (encPredSample tw) s).done = s.done ++ l.map Prod.snd := by
  induction l generalizing s with
  | nil => exact (List.append_nil _).symm
  | cons x l ih => exact (ih _).trans (List.append_assoc s.done [x.2] _)

/-- A PRED body is short, and decodes to the samples it was made from with padding left. -/
theorem predTile_encPred (tw : Nat) {l : List Nat} (hv : ∀ v ∈ l, v < 2 ^ 36) :
    (encPred tw l).length ≤ 3 + 14 * l.length ∧
      ∃ p < 8, predTile true tw l.length (bitList (encPred tw l)) = .ok (l, List.replicate p false) := by
  have fsts : ((List.range l.length).zip l).map Prod.fst = List.range l.length := List.map_fst_zip (by simp)
  have snds : ((List.range l.length).zip l).map Prod.snd = l := List.map_snd_zip (by simp)
  obtain ⟨bs, hbits, hlen, hread⟩ := encPredSamples_codes tw ((List.range l.length).zip l)
    (fun x hx => hv x.2 (snds ▸ List.mem_map_of_mem hx)) {}
  have done := foldl_encPredSample_done tw ((List.range l.length).zip l) {}
  have body : encPred tw l = bitsToBytes (bitsMsb 8 1 ++ bitsMsb 8 0 ++ bs) := by
    rw [encPred, hbits]
    rfl
  rw [fsts] at hread
  rw [snds] at done
  rw [body]
  constructor
  · simp only [length_bitsToBytes, List.length_append, length_bitsMsb]
    rw [← List.length_map Prod.snd, snds] at hlen
    omega
  · obtain ⟨p, hp, bits⟩ := bitList_bitsToBytes (bitsMsb 8 1 ++ bitsMsb 8 0 ++ bs)
    refine ⟨p, hp, ?_⟩
    have flags : bitsMsb 8 0 = bitsMsb 1 0 ++ bitsMsb 7 0 := by decide
    rw [bits, flags]
    simp only [List.append_assoc]
    have samples : (List.range l.length).foldlM (predSample tw 3 1 0) { bits := bs ++ List.replicate p false } = .ok _ :=
      hread (List.replicate p false)
    rw [predTile, getBits_bitsMsb (by decide), ok_bind]
    simp only [getBits_bitsMsb (show 0 < 2 ^ 1 by decide), getBits_bitsMsb (show 0 < 2 ^ 7 by decide), ok_bind, if_true, samples]
    rw [if_neg (by decide), if_neg (by decide), if_neg (by decide)]
    exact congrArg (fun done => Except.ok (done, List.replicate p false)) done

end Sys2Proof.Machine
end

section
/-! SUPPORT. The record of a lossless tile (R80-R83, R99, R548): its header passes the checks, and its body is what was coded. -/

namespace Sys2Proof.Machine

theorem fieldAt_leBytes {n x : Nat} (hx : x < 256 ^ n) (l : List Byte) : fieldAt (leBytes n x ++ l) 0 n = x := by
  rw [fieldAt, List.drop_zero, List.take_left' (length_leBytes n x), leNat_leBytes, Nat.mod_eq_of_lt hx]

@[simp] theorem length_mkRecord (mode : Nat) (body : List Byte) : (mkRecord mode body).length = 4 + body.length := by
  simp [mkRecord]

/-- The fields of the header that the encoder writes: mode and length, all other bits 0 (R80, R99). -/
theorem header_fields {n mode : Nat} (hn : n < 65536) (hm : mode < 8) :
    (n * 65536 + mode) % 8 = mode ∧ bitsOf (n * 65536 + mode) 31 16 = n ∧ bitsOf (n * 65536 + mode) 5 4 = 0 ∧
      bitsOf (n * 65536 + mode) 15 6 = 0 ∧ (n * 65536 + mode).testBit 3 = false := by
  rw [Nat.testBit_eq_decide_div_mod_eq, decide_eq_false_iff_not]
  simp only [bitsOf]
  omega

section
variable (w h : Nat) (r : TileRect) (ref : Nat → Nat → Nat)

/-- The decoding of a body in each mode of the lossless profile (R83, R86, R88, R99). -/
def losslessBody : Nat → List Bool → Except Nat (List Nat × List Bool)
  | 0, l => .ok ((List.range (r.tw * r.th)).map fun j => ref (clampInt ((r.x0 + j % r.tw : Nat) : Int) 0 ((w : Int) - 1)).toNat
      (clampInt ((r.y0 + j / r.tw : Nat) : Int) 0 ((h : Int) - 1)).toNat, l)
  | 2, l => do
    let (v, l) ← getSample 3 l
    return (List.replicate (r.tw * r.th) v, l)
  | 4, l => palTile 3 (r.tw * r.th) l
  | _, l => predTile true r.tw (r.tw * r.th) l

variable {mode : Nat} {body : List Byte}

/-- The header that the encoder writes passes every check, and the record decodes as its body does. -/
theorem decodeRecord_mkRecord (hm : mode = 0 ∨ mode = 2 ∨ mode = 4 ∨ mode = 5) (hlen : body.length < 65536)
    (hfix : ∀ n, fixedLen true mode = some n → n = body.length) :
    decodeRecord true false w h r ref (mkRecord mode body) =
      losslessBody w h r ref mode (bitList body) >>= fun x => (fun _ => ⟨x.1, 4 + body.length, mode, 0⟩) <$> padOk x.2 := by
  have hd : fieldAt (mkRecord mode body) 0 4 = body.length * 65536 + mode := fieldAt_leBytes (by omega) body
  obtain ⟨hmode, size, flags, high, bit3⟩ := header_fields (mode := mode) hlen (by omega)
  have rest : ((mkRecord mode body).drop 4).take body.length = body := by
    rw [mkRecord, List.drop_left' (length_leBytes 4 _), List.take_length]
  have long : ¬(mkRecord mode body).length < 4 := by rw [length_mkRecord]; omega
  have whole : ¬(mkRecord mode body).length < 4 + body.length := by rw [length_mkRecord]; omega
  have fixed : ((fixedLen true mode).any (· != body.length)) = false := by
    rw [Option.any_eq_false]
    simpa using hfix
  simp only [decodeRecord, if_neg long, hd, hmode, size, flags, high, bit3, if_neg whole, rest, fixed]
  rcases hm with rfl | rfl | rfl | rfl
  · simp [modeOk, losslessBody, ← List.map_eq_flatMap]
    rfl
  · simp [modeOk, losslessBody]
  · simp [modeOk, losslessBody]
  · simp [modeOk, losslessBody]

variable {l : List Nat} {p : Nat}

/-- A record is decoded without error when its body is, to padding alone. -/
theorem decodeRecord_ok (hm : mode = 0 ∨ mode = 2 ∨ mode = 4 ∨ mode = 5) (hlen : body.length < 65536)
    (hfix : ∀ n, fixedLen true mode = some n → n = body.length) (hp : p < 8)
    (hread : losslessBody w h r ref mode (bitList body) = .ok (l, List.replicate p false)) :
    decodeRecord true false w h r ref (mkRecord mode body) = .ok ⟨l, (mkRecord mode body).length, mode, 0⟩ := by
  rw [decodeRecord_mkRecord w h r ref hm hlen hfix, hread, ok_bind, padOk_zeros hp, length_mkRecord]
  rfl

end

end Sys2Proof.Machine
end

section
/-! SUPPORT. The encoder of the lossless profile (R99, R100): which record it makes of a tile, and that the record decodes to the tile. -/

namespace Sys2Proof.Machine

/-- A tile of an image covers 1 to 32 columns and rows (R76). -/
theorem tileRect_size {w h i : Nat} (hw : 0 < w) (hi : i < tilesX w * tilesY h) :
    0 < (tileRect w h i).tw * (tileRect w h i).th ∧ (tileRect w h i).tw * (tileRect w h i).th ≤ 32 * 32 := by
  have columns : 0 < tilesX w := Nat.pos_of_mul_pos_right (Nat.zero_lt_of_lt hi)
  have hx : i % tilesX w < tilesX w := Nat.mod_lt i columns
  have hy : i / tilesX w < tilesY h := Nat.div_lt_of_lt_mul hi
  simp only [tileRect]
  generalize i % tilesX w = x at *
  generalize i / tilesX w = y at *
  simp only [tilesX, tilesY, ceilDiv] at hx hy
  exact ⟨Nat.mul_pos (by omega) (by omega), Nat.mul_le_mul (by omega) (by omega)⟩

/-- Which record the encoder makes (R100). -/
theorem encodeTile_cases (tw : Nat) (same : Bool) (l : List Nat) :
    (same = true ∧ encodeTile tw same l = mkRecord 0 []) ∨
    ((firstSeen l).length = 1 ∧ encodeTile tw same l = mkRecord 2 (bitsToBytes (sampleBits 3 (l.getD 0 0)))) ∨
    ((firstSeen l).length ≠ 1 ∧ (firstSeen l).length ≤ 16 ∧ (encPal l).length ≤ (encPred tw l).length ∧
      encodeTile tw same l = mkRecord 4 (encPal l)) ∨
    encodeTile tw same l = mkRecord 5 (encPred tw l) := by
  simp only [encodeTile]
  split
  · rename_i skip
    exact .inl ⟨skip, rfl⟩
  · split
    · rename_i flat
      exact .inr (.inl ⟨flat, rfl⟩)
    · rename_i many
      split
      · rename_i few
        split
        · rename_i shorter
          exact .inr (.inr (.inl ⟨many, few, shorter, rfl⟩))
        · exact .inr (.inr (.inr rfl))
      · exact .inr (.inr (.inr rfl))

/-- A tile with a single distinct sample is that sample throughout. -/
theorem eq_replicate_of_firstSeen {l : List Nat} (h : (firstSeen l).length = 1) : l = List.replicate l.length (l.getD 0 0) := by
  obtain ⟨x, hx⟩ := List.length_eq_one_iff.1 h
  have all : ∀ v ∈ l, v = x := fun v hv => by
    rwa [← mem_firstSeen, hx, List.mem_singleton] at hv
  cases l with
  | nil => rfl
  | cons v l =>
    have head : v = x := all v List.mem_cons_self
    rw [List.getD_cons_zero]
    exact List.eq_replicate_of_mem fun u hu => (all u hu).trans head.symm

section
variable (w h : Nat) (r : TileRect) (ref : Nat → Nat → Nat) {l : List Nat}

theorem losslessBody_skip (bits : List Bool) (inside : ∀ j, j < r.tw * r.th → r.x0 + j % r.tw < w ∧ r.y0 + j / r.tw < h) :
    losslessBody w h r ref 0 bits = .ok ((List.range (r.tw * r.th)).map fun j => ref (r.x0 + j % r.tw) (r.y0 + j / r.tw), bits) := by
  rw [losslessBody]
  congr 2
  refine List.map_congr_left fun j hj => ?_
  obtain ⟨hx, hy⟩ := inside j (List.mem_range.1 hj)
  rw [clampInt_inside hx, clampInt_inside hy]

theorem losslessBody_flat {v : Nat} (hv : v < 2 ^ 36) :
    ∃ p < 8, losslessBody w h r ref 2 (bitList (bitsToBytes (sampleBits 3 v))) = .ok (List.replicate (r.tw * r.th) v, List.replicate p false) := by
  obtain ⟨p, hp, body⟩ := bitList_bitsToBytes (sampleBits 3 v)
  refine ⟨p, hp, ?_⟩
  rw [body, losslessBody, getSample_sampleBits hv, ok_bind]
  rfl

/-- Whatever record the encoder makes of a tile, it decodes to the tile. -/
theorem decodeRecord_encodeTile {same : Bool} (hn : l.length = r.tw * r.th) (hne : l ≠ []) (hmax : l.length ≤ 32 * 32)
    (hv : ∀ v ∈ l, v < 2 ^ 36) (inside : ∀ j, j < r.tw * r.th → r.x0 + j % r.tw < w ∧ r.y0 + j / r.tw < h)
    (hsame : same = true → (List.range (r.tw * r.th)).map (fun j => ref (r.x0 + j % r.tw) (r.y0 + j / r.tw)) = l) :
    ∃ mode, decodeRecord true false w h r ref (encodeTile r.tw same l) = .ok ⟨l, (encodeTile r.tw same l).length, mode, 0⟩ := by
  obtain ⟨predLen, q, hq, pred⟩ := predTile_encPred r.tw hv
  rcases encodeTile_cases r.tw same l with ⟨skip, record⟩ | ⟨flat, record⟩ | ⟨many, few, shorter, record⟩ | record
  · have body := losslessBody_skip w h r ref (bitList []) inside
    rw [hsame skip] at body
    rw [record]
    exact ⟨0, decodeRecord_ok w h r ref (by decide) (by decide) (by simp [fixedLen]) (p := 0) (by decide) body⟩
  · have hv0 : l.getD 0 0 < 2 ^ 36 := by
      rw [List.getD_eq_getElem _ _ (List.length_pos_iff.2 hne)]
      exact hv _ (List.getElem_mem _)
    obtain ⟨p, hp, body⟩ := losslessBody_flat w h r ref hv0
    have size : (bitsToBytes (sampleBits 3 (l.getD 0 0))).length = 5 := by
      rw [length_bitsToBytes]
      simp [sampleBits]
    have fixed : ∀ n, fixedLen true 2 = some n → n = (bitsToBytes (sampleBits 3 (l.getD 0 0))).length := fun n h =>
      (Option.some.inj h).symm.trans size.symm
    rw [← hn, ← eq_replicate_of_firstSeen flat] at body
    rw [record]
    exact ⟨2, decodeRecord_ok w h r ref (by decide) (by omega) fixed hp body⟩
  · have nonempty : (firstSeen l).length ≠ 0 := by
      obtain ⟨v, hvl⟩ := List.exists_mem_of_ne_nil l hne
      exact Nat.ne_of_gt (List.length_pos_of_mem ((mem_firstSeen l v).2 hvl))
    obtain ⟨p, hp, body⟩ := palTile_encPal hv (by omega) few
    rw [hn] at body
    rw [record]
    exact ⟨4, decodeRecord_ok w h r ref (by decide) (by omega) (by simp [fixedLen]) hp body⟩
  · rw [hn] at pred
    rw [record]
    exact ⟨5, decodeRecord_ok w h r ref (by decide) (by omega) (by simp [fixedLen]) hq pred⟩

end

end Sys2Proof.Machine
end

section
/-! PROOF. O27: the lossless profile loses nothing. -/

open Sys2Proof Sys2Proof.Machine

/-- Settles O27: each of the four records that the encoder can make passes the checks of its header, and its body is read back. -/
theorem losslessTileRoundTrip : Obligations.LosslessTileRoundTrip := by
  unfold Obligations.LosslessTileRoundTrip
  intro w h i l ref hw _ _ _ hi r hn hv same
  obtain ⟨pos, max⟩ := tileRect_size hw hi
  have hsame : same = true → (List.range (r.tw * r.th)).map (fun j => ref (r.x0 + j % r.tw) (r.y0 + j / r.tw)) = l := by
    intro hs
    have equal : ∀ j < l.length, l.getD j 0 = ref (r.x0 + j % r.tw) (r.y0 + j / r.tw) := fun j hj =>
      beq_iff_eq.1 (List.all_eq_true.1 hs j (List.mem_range.2 hj))
    refine List.ext_getElem (by simp [hn]) fun j _ hj => ?_
    rw [List.getElem_map, List.getElem_range, ← equal j hj, List.getD_eq_getElem _ _ hj]
  obtain ⟨mode, decoded⟩ := decodeRecord_encodeTile w h r ref hn (List.ne_nil_of_length_pos (hn ▸ pos)) (hn ▸ max) hv
    (tileRect_inside w h i) hsame
  exact ⟨_, decoded, rfl, rfl⟩
end

section
/-! SUPPORT. The first row of a gallery under a page whose buffer is gone: its word is lost, and the record of that reaches the
threads (R157, R232, R300). -/

namespace Sys2Proof.Machine

/-- A plan of one hogel and one view, which a single gallery composes on the background alone. -/
def onePixelPlan : Plan := { gReq := 1 }

/-- That plan in force. -/
def onePixelGov : Gov := { kind := .primary, prim := 0, slot := 0, plan := onePixelPlan, copies := {} }

/-- A frame of that plan in composition by gallery 0. It shows package page 0, and no package gives it a buffer. Q40, as it is configured,
holds 1,535 records of 32 bytes, one short of its HIGH of 49,152; thread 0 is subscribed to it. -/
def bufferlessPage : State :=
  { State.reset with
    plan := { cur := some onePixelGov }
    tg0 := { running := true }
    synth := { places := [some 0], done := [0] }
    comp := { page := .page 0 }
    queues := vmod State.reset.queues 40 fun q => { q with ready := List.replicate 1535 (List.replicate 32 0), subs := 1 } }

/-- No word stays uncorrectable but for the page's own. -/
def nothingLost : PixelUe := { replica := [], gfx := [], page := [], umap := [] }

/-- Rings and line store hold all that the gallery's row wants: the plan has neither depth nor graphic layers. -/
theorem bufferlessPage_ready : bufferlessPage.rowReady onePixelPlan 0 = true := by decide +kernel

/-- The row changes the threads exactly as record 0x0606 of its lost page word does. -/
theorem bufferlessPage_row : ∃ u, exec (.galleryRowStart 0 nothingLost) bufferlessPage = .next u ∧
    u.threads = (bufferlessPage.report 0x0606 0x1B 0).threads := by
  refine ⟨_, rfl, ?_⟩
  decide +kernel

/-- The record brings Q40 to its HIGH, which sets QWM in the event word of the subscribed thread. -/
theorem bufferlessPage_record : (bufferlessPage.thread 0).evt = 0 ∧ ((bufferlessPage.report 0x0606 0x1B 0).thread 0).evt = 0x10 := by
  decide +kernel

end Sys2Proof.Machine
end

section
/-! PROOF. O57 fails: a row may change the threads. -/

open Sys2Proof Sys2Proof.Machine

/-- Refutes O57: a row over a page without a buffer writes record 0x0606, and the record may bring Q40 to its HIGH, which sets QWM for a
subscribed thread (R300); the statement has every row leave the threads as they were. -/
theorem not_ringsAndGalleries : ¬ Obligations.RingsAndGalleries := by
  unfold Obligations.RingsAndGalleries
  rintro ⟨-, rows, -⟩
  obtain ⟨-, row⟩ := rows bufferlessPage onePixelGov 0 0 rfl rfl
  obtain ⟨-, starts⟩ := row (by decide) (by decide) rfl (by decide)
  obtain ⟨u, -, said, -, -, -, -, -, -, -, threads, -⟩ := starts bufferlessPage_ready (Nat.zero_le _) ⟨rfl, rfl, rfl⟩
  obtain ⟨v, made, recorded⟩ := bufferlessPage_row
  obtain ⟨before, after⟩ := bufferlessPage_record
  have same : u = v := Host.Outcome.next.inj (said.symm.trans made)
  have kept : (bufferlessPage.report 0x0606 0x1B 0).threads = bufferlessPage.threads := by rw [← recorded, ← same, threads]
  rw [State.thread, kept, ← State.thread, before] at after
  exact absurd after (by decide)

end

section
/-! SUPPORT. Samples of the pins of `NOTICE_IN`, their levels and their glitches (R149). -/

namespace Sys2Proof.Machine

/-! ### Bits and saturating counts -/

theorem ofNat_two_pow_getLsbD {n : Nat} (i k : Fin n) : (BitVec.ofNat n (2 ^ i.val)).getLsbD k.val = decide (k = i) := by
  simp only [BitVec.getLsbD_ofNat, Nat.testBit_two_pow, k.isLt, decide_true, Bool.true_and, Fin.ext_iff, eq_comm]

theorem setBit_getLsbD {n : Nat} (v : BitVec n) (i k : Fin n) (b : Bool) :
    (setBit v i.val b).getLsbD k.val = if k = i then b else v.getLsbD k.val := by
  have bit := ofNat_two_pow_getLsbD i k
  cases b
  · simp only [setBit, Bool.false_eq_true, if_false, BitVec.getLsbD_and, BitVec.getLsbD_not, k.isLt, bit]
    split <;> simp [*]
  · simp only [setBit, if_true, BitVec.getLsbD_or, bit]
    split <;> simp [*]

@[simp] theorem Count.bump_zero (c : Count) : c.bump 0 = c := by
  have := c.isLt
  apply BitVec.eq_of_toNat_eq
  simp only [Count.bump, BitVec.toNat_ofNat]
  omega

/-- A saturating count takes two steps as one. -/
theorem Count.bump_bump (c : Count) (j k : Nat) : (c.bump j).bump k = c.bump (j + k) := by
  apply BitVec.eq_of_toNat_eq
  simp only [Count.bump, BitVec.toNat_ofNat]
  omega

/-! ### One pin -/

/-- What R149 keeps of one pin: samples in a row at 1 and at 0, whether it is asserted, whether a rise waits. -/
structure PinLevel where
  up : Nat
  low : Nat
  asserted : Bool
  rising : Bool

/-- Pin `i` of the composition's state. -/
def Comp.pin (c : Comp) (i : Fin 4) : PinLevel := ⟨c.run1[i], c.run0[i], c.pins.getLsbD i.val, c.rise.getLsbD i.val⟩

/-- The pin after `n` samples of level `v`. -/
def PinLevel.sample (p : PinLevel) (v : Bool) (n : Nat) : PinLevel :=
  let up := if v then p.up + n else 0
  let low := if v then 0 else p.low + n
  let now := if p.asserted then v || decide (low < 100000) else decide (16 ≤ up)
  ⟨up, low, now, v && !now⟩

/-- A sample at 0 ends a rise of a pin that is not asserted. -/
def PinLevel.glitch (p : PinLevel) (v : Bool) : Bool := !v && !p.asserted && p.rising

theorem Comp.samplePin_frame (c : Comp) (i : Fin 4) (v : Bool) (n : Nat) : c.samplePin i v n =
    { c with
      run1 := (c.samplePin i v n).run1, run0 := (c.samplePin i v n).run0, pins := (c.samplePin i v n).pins
      rise := (c.samplePin i v n).rise, noticeGlitch := (c.samplePin i v n).noticeGlitch } := rfl

theorem Comp.samplePin_same (c : Comp) (i : Fin 4) (v : Bool) (n : Nat) : (c.samplePin i v n).pin i = (c.pin i).sample v n := by
  simp only [Comp.pin, Comp.samplePin, vmod_same, setBit_getLsbD, if_true]
  rfl

theorem Comp.samplePin_other (c : Comp) (i k : Fin 4) (v : Bool) (n : Nat) (h : k ≠ i) : (c.samplePin i v n).pin k = c.pin k := by
  simp only [Comp.pin, Comp.samplePin, vmod_other _ _ _ _ h, setBit_getLsbD, if_neg h]

theorem Comp.samplePin_glitch (c : Comp) (i : Fin 4) (v : Bool) (n : Nat) :
    (c.samplePin i v n).noticeGlitch = c.noticeGlitch.bump ((c.pin i).glitch v).toNat := rfl

/-! ### All pins -/

/-- One sample `v` of the pins in `l`. -/
def Comp.samplePins (c : Comp) (l : List (Fin 4)) (v : BitVec 4) : Comp := l.foldl (fun c i => c.samplePin i (v.getLsbD i.val) 1) c

theorem Comp.samplePins_cons (c : Comp) (i : Fin 4) (l : List (Fin 4)) (v : BitVec 4) :
    c.samplePins (i :: l) v = (c.samplePin i (v.getLsbD i.val) 1).samplePins l v := rfl

theorem Comp.samplePins_frame (c : Comp) (l : List (Fin 4)) (v : BitVec 4) : c.samplePins l v =
    { c with
      run1 := (c.samplePins l v).run1, run0 := (c.samplePins l v).run0, pins := (c.samplePins l v).pins
      rise := (c.samplePins l v).rise, noticeGlitch := (c.samplePins l v).noticeGlitch } := by
  induction l generalizing c with
  | nil => rfl
  | cons i l ih =>
    rw [Comp.samplePins_cons, ih, Comp.samplePin_frame]

theorem Comp.samplePins_other (c : Comp) (l : List (Fin 4)) (v : BitVec 4) (k : Fin 4) (h : k ∉ l) : (c.samplePins l v).pin k = c.pin k := by
  induction l generalizing c with
  | nil => rfl
  | cons i l ih =>
    obtain ⟨hne, hl⟩ := List.ne_and_not_mem_of_not_mem_cons h
    rw [Comp.samplePins_cons, ih _ hl, Comp.samplePin_other _ _ _ _ _ hne]

theorem Comp.samplePins_same (c : Comp) (l : List (Fin 4)) (v : BitVec 4) (k : Fin 4) (h : k ∈ l) (hl : l.Nodup) :
    (c.samplePins l v).pin k = (c.pin k).sample (v.getLsbD k.val) 1 := by
  induction l generalizing c with
  | nil => exact absurd h List.not_mem_nil
  | cons i l ih =>
    obtain ⟨hi, hl⟩ := List.nodup_cons.1 hl
    rw [Comp.samplePins_cons]
    by_cases hk : k = i
    · subst hk
      rw [Comp.samplePins_other _ _ _ _ hi, Comp.samplePin_same]
    · rw [ih _ ((List.mem_cons.1 h).resolve_left hk) hl, Comp.samplePin_other _ _ _ _ _ hk]

/-- Pins of which a sample `v` ends a rise before it asserts them: the glitches of R149. -/
def Comp.glitches (c : Comp) (v : BitVec 4) : BitVec 4 := c.rise &&& ~~~v &&& ~~~c.pins

theorem Comp.pin_glitch (c : Comp) (i : Fin 4) (v : BitVec 4) : (c.pin i).glitch (v.getLsbD i.val) = (c.glitches v).getLsbD i.val := by
  simp only [Comp.pin, PinLevel.glitch, Comp.glitches, BitVec.getLsbD_and, BitVec.getLsbD_not, i.isLt, decide_true, Bool.true_and]
  rw [Bool.and_comm, Bool.and_assoc]

theorem Comp.samplePins_glitch (c : Comp) (l : List (Fin 4)) (v : BitVec 4) (hl : l.Nodup) :
    (c.samplePins l v).noticeGlitch = c.noticeGlitch.bump (l.map fun i => ((c.glitches v).getLsbD i.val).toNat).sum := by
  simp only [← Comp.pin_glitch]
  induction l generalizing c with
  | nil => exact (Count.bump_zero _).symm
  | cons i l ih =>
    obtain ⟨hi, hl⟩ := List.nodup_cons.1 hl
    have rest : (l.map fun k => (((c.samplePin i (v.getLsbD i.val) 1).pin k).glitch (v.getLsbD k.val)).toNat) =
        l.map fun k => ((c.pin k).glitch (v.getLsbD k.val)).toNat :=
      List.map_congr_left fun k hk => by
        have hne : k ≠ i := fun e => hi (e ▸ hk)
        rw [Comp.samplePin_other _ _ _ _ _ hne]
    rw [Comp.samplePins_cons, ih _ hl, rest, Comp.samplePin_glitch, Count.bump_bump, List.map_cons, List.sum_cons]

end Sys2Proof.Machine
end

section
/-! SUPPORT. `NOTICE_IN` settles: the hold of a pin that asserts, and its end with the last pin (R149, R153, R236, R238). -/

namespace Sys2Proof.Machine

/-- What the pins of `NOTICE_IN` may touch beside the composition: holds, scan-out, and what a record touches. -/
def NoticeFrame (s u : State) : Prop :=
  u = { s with
    threads := u.threads, queues := u.queues, host := u.host, err := u.err, holds := u.holds, scan := u.scan }

theorem NoticeFrame.refl (s : State) : NoticeFrame s s := rfl

theorem NoticeFrame.trans {s u v : State} (h : NoticeFrame s u) (k : NoticeFrame u v) : NoticeFrame s v := by
  rw [NoticeFrame] at *
  rw [k, h]

theorem NoticeFrame.comp {s u : State} (h : NoticeFrame s u) : u.comp = s.comp := by
  rw [NoticeFrame] at h
  rw [h]

theorem NoticeFrame.mem {s u : State} (h : NoticeFrame s u) : u.mem = s.mem := by
  rw [NoticeFrame] at h
  rw [h]

theorem NoticeFrame.plan {s u : State} (h : NoticeFrame s u) : u.plan = s.plan := by
  rw [NoticeFrame] at h
  rw [h]

/-- The hold of pin `i` of `NOTICE_IN` (R236; log 16). -/
def pinHold (i : Nat) : Hold := ⟨.selfRefresh, .hardware, 0xFF02 + i⟩

theorem State.notice_holds (s : State) (i : Nat) : pinHold i ∈ (s.notice i).holds := by
  simp only [State.notice]
  rw [State.holdAt_frame]
  exact List.mem_cons_self

theorem State.notice_frame (s : State) (i : Nat) : NoticeFrame s (s.notice i) := by
  have holds : ∀ v : State, NoticeFrame v (v.holdAt .selfRefresh .hardware (0xFF02 + i)) := fun v => by
    rw [NoticeFrame, State.holdAt_frame]
  simp only [State.notice]
  split
  · refine NoticeFrame.trans ?_ (holds _)
    rw [NoticeFrame, State.overruled_frame]
  · exact holds s

theorem State.deliverAll_frame (s : State) (l : List Deliver) (n : Nat) : s.deliverAll l n =
    { s with threads := (s.deliverAll l n).threads, queues := (s.deliverAll l n).queues, host := (s.deliverAll l n).host } := by
  induction l generalizing s with
  | nil => rfl
  | cons d l ih =>
    have step : s.deliverAll (d :: l) n = (s.deliver d (.code n)).deliverAll l n := rfl
    rw [step, ih, State.deliver_frame]

/-- A request touches scan-out and what an answer to the waiting threads touches (R351, R352). -/
theorem State.request_frame (s : State) (rows : Bool) : s.request rows =
    { s with
      threads := (s.request rows).threads, queues := (s.request rows).queues, host := (s.request rows).host
      scan := (s.request rows).scan } := by
  simp only [State.request]
  split
  · rfl
  · rfl
  · split
    · rfl
    · rw [State.abandonEntry, State.deliverAll_frame]
      rfl
  · split <;> rfl
  · split <;> rfl

theorem State.pageRequest_frame (s : State) : s.pageRequest =
    { s with
      threads := s.pageRequest.threads, queues := s.pageRequest.queues, host := s.pageRequest.host, scan := s.pageRequest.scan } := by
  simp only [State.pageRequest]
  split
  · exact State.request_frame s false
  · rfl

/-- Pins that a change `f` of the composition asserts. -/
def State.risen (s : State) (f : Comp → Comp) : List Nat :=
  (List.range 4).filter fun i => (f s.comp).pins.getLsbD i && !s.comp.pins.getLsbD i

/-- Each pin that rose has taken its hold, and one that rose may ask for the end of self-refresh. -/
def State.noticed (s : State) (f : Comp → Comp) : State :=
  let v := (s.risen f).foldl State.notice (s.modComp f)
  if s.risen f = [] then v else v.pageRequest

/-- The pins settle: after those that rose, the hold ends with the last pin. -/
theorem State.settlePins_eq (s : State) (f : Comp → Comp) : s.settlePins f =
    if (s.noticed f).comp.pins = 0 ∧ s.comp.pins ≠ 0 then (s.noticed f).unhold .selfRefresh .hardware else s.noticed f := rfl

theorem State.noticed_frame (s : State) (f : Comp → Comp) : NoticeFrame (s.modComp f) (s.noticed f) := by
  have noted : NoticeFrame (s.modComp f) ((s.risen f).foldl State.notice (s.modComp f)) := by
    generalize s.modComp f = v
    induction s.risen f generalizing v with
    | nil => exact .refl v
    | cons i l ih => exact (v.notice_frame i).trans (ih _)
  simp only [State.noticed]
  split
  · exact noted
  · refine noted.trans ?_
    rw [NoticeFrame, State.pageRequest_frame]

theorem State.settlePins_frame (s : State) (f : Comp → Comp) : NoticeFrame (s.modComp f) (s.settlePins f) := by
  rw [State.settlePins_eq]
  split
  · exact (s.noticed_frame f).trans rfl
  · exact s.noticed_frame f

theorem State.settlePins_comp (s : State) (f : Comp → Comp) : (s.settlePins f).comp = f s.comp := (s.settlePins_frame f).comp

theorem State.settlePins_mem (s : State) (f : Comp → Comp) : (s.settlePins f).mem = s.mem := (s.settlePins_frame f).mem

theorem State.settlePins_plan (s : State) (f : Comp → Comp) : (s.settlePins f).plan = s.plan := (s.settlePins_frame f).plan

/-- Where no pin rises, only the last pin to fall changes a hold. -/
theorem State.settlePins_quiet (s : State) (f : Comp → Comp)
    (h : ∀ i : Fin 4, (f s.comp).pins.getLsbD i.val = true → s.comp.pins.getLsbD i.val = true) : s.settlePins f =
      if (f s.comp).pins = 0 ∧ s.comp.pins ≠ 0 then (s.modComp f).unhold .selfRefresh .hardware else s.modComp f := by
  have noRise : s.risen f = [] := by
    rw [State.risen, List.filter_eq_nil_iff]
    intro i hi
    have := h ⟨i, List.mem_range.1 hi⟩
    simpa using this
  have same : s.noticed f = s.modComp f := by rw [State.noticed, noRise]; rfl
  rw [State.settlePins_eq, same]
  rfl

/-- The only pin that rises holds self-refresh (R153, R236). -/
theorem State.settlePins_rise (s : State) (f : Comp → Comp) (i : Fin 4) (hi : (f s.comp).pins.getLsbD i.val = true)
    (hold : s.comp.pins.getLsbD i.val = false)
    (h : ∀ j : Fin 4, j ≠ i → (f s.comp).pins.getLsbD j.val = true → s.comp.pins.getLsbD j.val = true) :
    pinHold i.val ∈ (s.settlePins f).holds := by
  have one : s.risen f = [i.val] := by
    have only : ∀ i : Fin 4, (List.range 4).filter (· == i.val) = [i.val] := by decide
    rw [State.risen, ← only i]
    refine List.filter_congr fun j hj => ?_
    by_cases e : j = i.val
    · rw [e, hi, hold, beq_self_eq_true]
      rfl
    · have := h ⟨j, List.mem_range.1 hj⟩ fun x => e (congrArg Fin.val x)
      rw [beq_eq_false_iff_ne.2 e]
      simpa using this
  have pins : (f s.comp).pins ≠ 0 := fun e => by simp [e] at hi
  have asks : s.noticed f = ((s.modComp f).notice i.val).pageRequest := by rw [State.noticed, one]; rfl
  rw [State.settlePins_eq, (s.noticed_frame f).comp, if_neg fun e => pins e.1, asks, State.pageRequest_frame]
  exact State.notice_holds _ _

end Sys2Proof.Machine
end

section
/-! SUPPORT. What the commands of `NOTICE_IN` do (R149, R153; logs 16, 46). -/

namespace Sys2Proof.Machine

/-! ### `NOTICE_IN_SAMPLE` -/

/-- One sample of all four pins. -/
def Comp.sampled (c : Comp) (v : BitVec 4) : Comp := c.samplePins (List.finRange 4) v

theorem Comp.sampled_pin (c : Comp) (v : BitVec 4) (i : Fin 4) : (c.sampled v).pin i = (c.pin i).sample (v.getLsbD i.val) 1 :=
  c.samplePins_same _ v i (List.mem_finRange i) (List.nodup_finRange 4)

theorem Comp.sampled_glitch (c : Comp) (v : BitVec 4) :
    (c.sampled v).noticeGlitch = c.noticeGlitch.bump ((List.finRange 4).map fun i => ((c.glitches v).getLsbD i.val).toNat).sum :=
  c.samplePins_glitch _ v (List.nodup_finRange 4)

theorem Comp.sampled_noGlitch (c : Comp) (v : BitVec 4) (h : c.glitches v = 0) : (c.sampled v).noticeGlitch = c.noticeGlitch := by
  rw [Comp.sampled_glitch, h]
  exact Count.bump_zero _

theorem Comp.sampled_oneGlitch (c : Comp) (v : BitVec 4) (i : Fin 4) (h : c.glitches v = BitVec.ofNat 4 (2 ^ i.val)) :
    (c.sampled v).noticeGlitch = c.noticeGlitch.bump := by
  have one : ∀ i : Fin 4, ((List.finRange 4).map fun k : Fin 4 => ((BitVec.ofNat 4 (2 ^ i.val)).getLsbD k.val).toNat).sum = 1 := by decide
  rw [Comp.sampled_glitch, h, one]

theorem PinLevel.sample_one_asserted (p : PinLevel) (v : Bool) :
    (p.sample v 1).asserted = if p.asserted then v || decide (p.low + 1 < 100000) else v && decide (16 ≤ p.up + 1) := by
  cases v <;> simp [PinLevel.sample]

theorem Comp.sampled_run1 (c : Comp) (v : BitVec 4) (i : Fin 4) :
    (c.sampled v).run1[i] = if v.getLsbD i.val then c.run1[i] + 1 else 0 := congrArg PinLevel.up (c.sampled_pin v i)

theorem Comp.sampled_run0 (c : Comp) (v : BitVec 4) (i : Fin 4) :
    (c.sampled v).run0[i] = if v.getLsbD i.val then 0 else c.run0[i] + 1 := congrArg PinLevel.low (c.sampled_pin v i)

theorem Comp.sampled_pins (c : Comp) (v : BitVec 4) (i : Fin 4) : (c.sampled v).pins.getLsbD i.val =
    if c.pins.getLsbD i.val then v.getLsbD i.val || decide (c.run0[i] + 1 < 100000)
    else v.getLsbD i.val && decide (16 ≤ c.run1[i] + 1) :=
  (congrArg PinLevel.asserted (c.sampled_pin v i)).trans (PinLevel.sample_one_asserted _ _)

/-- A pin at 1 that is not asserted is rising. -/
theorem Comp.sampled_rise (c : Comp) (v : BitVec 4) (i : Fin 4) :
    (c.sampled v).rise.getLsbD i.val = (v.getLsbD i.val && !(c.sampled v).pins.getLsbD i.val) := by
  have pin := c.sampled_pin v i
  have asserted : (c.sampled v).pins.getLsbD i.val = _ := congrArg PinLevel.asserted pin
  rw [asserted]
  exact congrArg PinLevel.rising pin

theorem Comp.sampled_frame (c : Comp) (v : BitVec 4) : c.sampled v =
    { c with
      run1 := (c.sampled v).run1, run0 := (c.sampled v).run0, pins := (c.sampled v).pins
      rise := (c.sampled v).rise, noticeGlitch := (c.sampled v).noticeGlitch } := c.samplePins_frame _ v

theorem Comp.sampled_page (c : Comp) (v : BitVec 4) : (c.sampled v).page = c.page := by
  rw [Comp.sampled_frame]

/-- The state after one sample of all four pins. -/
def State.sampled (s : State) (v : BitVec 4) : State := s.settlePins fun c => c.sampled v

theorem noticeInSample_eq (v : BitVec 4) (s : State) : exec (.noticeInSample v) s = .next (s.sampled v) := rfl

theorem State.sampled_comp (s : State) (v : BitVec 4) : (s.sampled v).comp = s.comp.sampled v := s.settlePins_comp _

theorem State.sampled_mem (s : State) (v : BitVec 4) : (s.sampled v).mem = s.mem := s.settlePins_mem _

theorem State.sampled_plan (s : State) (v : BitVec 4) : (s.sampled v).plan = s.plan := s.settlePins_plan _

/-- With no pin rising and none the last to fall, a sample touches the composition alone. -/
theorem State.sampled_quiet (s : State) (v : BitVec 4)
    (hr : ∀ i : Fin 4, (s.comp.sampled v).pins.getLsbD i.val = true → s.comp.pins.getLsbD i.val = true)
    (hf : (s.comp.sampled v).pins = 0 → s.comp.pins = 0) : s.sampled v = { s with comp := s.comp.sampled v } := by
  have quiet := s.settlePins_quiet (fun c => c.sampled v) hr
  rw [if_neg fun h => h.2 (hf h.1)] at quiet
  exact quiet

/-! ### `NOTICE_IN_ASSERTED` and `NOTICE_IN_DEASSERTED` -/

/-- Samples of pin `i` alone leave the level of every other pin. -/
theorem Comp.samplePin_pins (c : Comp) (i k : Fin 4) (v : Bool) (n : Nat) : (c.samplePin i v n).pins.getLsbD k.val =
    if k = i then ((c.pin i).sample v n).asserted else c.pins.getLsbD k.val := by
  split
  · rename_i h
    rw [h]
    exact congrArg PinLevel.asserted (c.samplePin_same i v n)
  · rename_i h
    exact congrArg PinLevel.asserted (c.samplePin_other i k v n h)

/-- 16 samples at 1 assert a pin (R149). -/
theorem PinLevel.sample_asserts (p : PinLevel) : (p.sample true 16).asserted = true := by
  simp [PinLevel.sample]

/-- 100,000 samples at 0 deassert a pin (R149). -/
theorem PinLevel.sample_deasserts (p : PinLevel) : (p.sample false 100000).asserted = false := by
  simp [PinLevel.sample]

theorem Comp.assertPin_pins (c : Comp) (i k : Fin 4) :
    (c.samplePin i true 16).pins.getLsbD k.val = (c.pins.getLsbD k.val || k == i) := by
  rw [Comp.samplePin_pins, PinLevel.sample_asserts]
  split <;> simp [*]

theorem Comp.deassertPin_pins (c : Comp) (i k : Fin 4) :
    (c.samplePin i false 100000).pins.getLsbD k.val = (c.pins.getLsbD k.val && k != i) := by
  rw [Comp.samplePin_pins, PinLevel.sample_deasserts]
  split <;> simp [*]

/-- Samples at 1 end no rise. -/
theorem Comp.assertPin_glitch (c : Comp) (i : Fin 4) : (c.samplePin i true 16).noticeGlitch = c.noticeGlitch := Count.bump_zero _

/-- The state after 16 samples of pin `i` at 1. -/
def State.pinAsserted (s : State) (i : Fin 4) : State := s.settlePins fun c => c.samplePin i true 16

theorem noticeInAsserted_eq (i : Fin 4) (s : State) : exec (.noticeInAsserted i) s = .next (s.pinAsserted i) := rfl

theorem State.pinAsserted_comp (s : State) (i : Fin 4) : (s.pinAsserted i).comp = s.comp.samplePin i true 16 := s.settlePins_comp _

theorem State.pinAsserted_mem (s : State) (i : Fin 4) : (s.pinAsserted i).mem = s.mem := s.settlePins_mem _

theorem State.pinAsserted_plan (s : State) (i : Fin 4) : (s.pinAsserted i).plan = s.plan := s.settlePins_plan _

/-- A pin that asserts holds self-refresh. -/
theorem State.pinAsserted_new (s : State) (i : Fin 4) (h : s.comp.pins.getLsbD i.val = false) : pinHold i.val ∈ (s.pinAsserted i).holds := by
  refine s.settlePins_rise (fun c => c.samplePin i true 16) i ?_ h fun k hk hp => ?_
  · rw [Comp.assertPin_pins, beq_self_eq_true, Bool.or_true]
  · rwa [Comp.assertPin_pins, beq_eq_false_iff_ne.2 hk, Bool.or_false] at hp

/-- A pin that is asserted already changes no hold and writes no record. -/
theorem State.pinAsserted_already (s : State) (i : Fin 4) (h : s.comp.pins.getLsbD i.val = true) :
    s.pinAsserted i = { s with comp := s.comp.samplePin i true 16 } := by
  have asserted : (s.comp.samplePin i true 16).pins.getLsbD i.val = true := by rw [Comp.assertPin_pins, h, Bool.true_or]
  have pins : (s.comp.samplePin i true 16).pins ≠ 0 := fun e => by simp [e] at asserted
  have quiet := s.settlePins_quiet (fun c => c.samplePin i true 16) fun k hk => by
    by_cases e : k = i
    · rwa [e]
    · rwa [Comp.assertPin_pins, beq_eq_false_iff_ne.2 e, Bool.or_false] at hk
  rw [if_neg fun e => pins e.1] at quiet
  exact quiet

/-- The state after 100,000 samples of pin `i` at 0. -/
def State.pinDeasserted (s : State) (i : Fin 4) : State := s.settlePins fun c => c.samplePin i false 100000

theorem noticeInDeasserted_eq (i : Fin 4) (s : State) : exec (.noticeInDeasserted i) s = .next (s.pinDeasserted i) := rfl

theorem State.pinDeasserted_comp (s : State) (i : Fin 4) : (s.pinDeasserted i).comp = s.comp.samplePin i false 100000 := s.settlePins_comp _

/-- A pin that falls ends the hold when it was the last one asserted. -/
theorem State.pinDeasserted_eq (s : State) (i : Fin 4) : s.pinDeasserted i =
    if (s.comp.samplePin i false 100000).pins = 0 ∧ s.comp.pins ≠ 0 then
      (s.modComp fun c => c.samplePin i false 100000).unhold .selfRefresh .hardware
    else s.modComp fun c => c.samplePin i false 100000 := by
  refine s.settlePins_quiet (fun c => c.samplePin i false 100000) fun k hk => ?_
  rw [Comp.deassertPin_pins, Bool.and_eq_true] at hk
  exact hk.1

theorem State.pinDeasserted_frame (s : State) (i : Fin 4) :
    s.pinDeasserted i = { s with comp := (s.pinDeasserted i).comp, holds := (s.pinDeasserted i).holds } := by
  rw [State.pinDeasserted_eq]
  split <;> rfl

theorem State.pinDeasserted_last (s : State) (i : Fin 4) (h : (s.comp.samplePin i false 100000).pins = 0) (hs : s.comp.pins ≠ 0) :
    s.pinDeasserted i = (s.modComp fun c => c.samplePin i false 100000).unhold .selfRefresh .hardware := by
  rw [State.pinDeasserted_eq, if_pos ⟨h, hs⟩]

theorem State.pinDeasserted_others (s : State) (i : Fin 4) (h : (s.comp.samplePin i false 100000).pins ≠ 0 ∨ s.comp.pins = 0) :
    (s.pinDeasserted i).holds = s.holds := by
  rw [State.pinDeasserted_eq, if_neg fun e => h.elim (absurd e.1) (absurd · e.2)]
  rfl

/-- An ended order holds no more (R236). -/
theorem State.unhold_ends (s : State) (r : Resource) (l : Level) : ∀ h ∈ (s.unhold r l).holds, h.res = r → h.level ≠ l := by
  intro h hm hr hl
  have kept := (List.mem_filter.1 hm).2
  simp [hr, hl] at kept

/-! ### The page -/

/-- Where no pin is asserted, an activation under way that was verified last gives the page (Table 06-3). -/
theorem State.choosePage_activation (s : State) (a : Activation) (hp : s.comp.pins = 0) (ha : s.comp.acts.getLast? = some a)
    (hl : s.ftLocked = true) (hs : a.start ≤ s.fab.ft) (he : s.fab.ft < a.stop) : s.choosePage = (.page a.page, 3) := by
  obtain ⟨l, hacts⟩ := List.getLast?_eq_some_iff.1 ha
  have noPin : topPin 0 = none := by decide
  simp only [State.choosePage, hp, noPin, hacts, List.reverse_append, List.reverse_cons, List.reverse_nil, List.nil_append,
    List.singleton_append, List.find?_cons, hl, hs, he, and_self, decide_true, Bool.and_true]

end Sys2Proof.Machine
end

section
/-! SUPPORT. `PACKAGE_EXPANSION_DONE`: the page buffers of a package (R147, R151, R418; logs 11, 24). -/

namespace Sys2Proof.Machine

/-! ### Page buffers -/

/-- Every buffer of `u` is one of `s`, but for sealed ones without an owner at the handles of page buffers. -/
def OnlyPagesNew (s u : State) : Prop :=
  ∀ h b, tabFind u.bufs.table h = some b → tabFind s.bufs.table h = some b ∨ (4064 ≤ h ∧ b.isSealed = true ∧ b.owner = none)

theorem OnlyPagesNew.of_bufs {s u : State} (h : u.bufs = s.bufs) : OnlyPagesNew s u := fun _ _ hb => .inl (h ▸ hb)

theorem OnlyPagesNew.trans {s u v : State} (h : OnlyPagesNew s u) (k : OnlyPagesNew u v) : OnlyPagesNew s v :=
  fun a b hb => (k a b hb).elim (h a b) .inr

/-- From `s` to `u` page buffers were written or freed, and nothing else but what a write may touch. -/
structure PageWrite (s u : State) : Prop where
  frame : WriteFrame s u
  table : OnlyPagesNew s u

theorem PageWrite.refl (s : State) : PageWrite s s := ⟨.refl s, .of_bufs rfl⟩

theorem PageWrite.trans {s u v : State} (h : PageWrite s u) (k : PageWrite u v) : PageWrite s v :=
  ⟨h.frame.trans k.frame, h.table.trans k.table⟩

theorem PageWrite.comp {s u : State} (h : PageWrite s u) : u.comp = s.comp := by
  rw [h.frame]

theorem PageWrite.plan {s u : State} (h : PageWrite s u) : u.plan = s.plan := by
  rw [h.frame]

theorem PageWrite.plan? {s u : State} (h : PageWrite s u) : u.plan? = s.plan? := by
  rw [h.frame]
  rfl

theorem PageWrite.foldl {α : Type} (l : List α) (f : State → α → State) (s : State) (h : ∀ s a, PageWrite s (f s a)) :
    PageWrite s (l.foldl f s) := by
  induction l generalizing s with
  | nil => exact .refl s
  | cons a l ih => exact (h s a).trans (ih _)

theorem tabFind_filter_same {β : Type} (l : List (Nat × β)) (a : Nat) : tabFind (l.filter fun e => e.1 != a) a = none := by
  induction l with
  | nil => rfl
  | cons e l ih =>
    rw [List.filter_cons]
    split
    · rename_i he
      rw [tabFind, if_neg (bne_iff_ne.1 he), ih]
    · exact ih

theorem tabFind_filter_other {β : Type} (l : List (Nat × β)) (a h : Nat) (ha : h ≠ a) :
    tabFind (l.filter fun e => e.1 != a) h = tabFind l h := by
  induction l with
  | nil => rfl
  | cons e l ih =>
    rw [List.filter_cons]
    split
    · rw [tabFind, tabFind, ih]
    · rename_i he
      have hne : ¬e.1 = h := fun x => he (bne_iff_ne.2 (x ▸ ha))
      rw [ih, tabFind, if_neg hne]

/-- A freed page buffer leaves every other entry of the table (R225). -/
theorem State.dropPages_pageWrite (s : State) (set : Nat) : PageWrite s (s.dropPages set) := by
  refine PageWrite.foldl _ _ _ fun s n => ?_
  split
  · refine ⟨rfl, fun h b hb => .inl ?_⟩
    change tabFind (s.bufs.table.filter fun e => e.1 != pageHandle set n) h = some b at hb
    by_cases hh : h = pageHandle set n
    · rw [hh, tabFind_filter_same] at hb
      exact absurd hb (by simp)
    · rwa [tabFind_filter_other _ _ _ hh] at hb
  · exact .refl s

/-! ### Writing the pages -/

theorem State.writeBurst_bufs (s : State) (pa : Nat) (d : List Byte) (b : Nat) : (s.writeBurst pa d b).bufs = s.bufs := by
  simp only [State.writeBurst]
  split
  · rfl
  · have met : (s.meetBurst b).bufs = s.bufs := (State.meetBurst_readFrame s b).bufs
    split <;> exact met

/-- A write into DRAM leaves the buffer table. -/
theorem State.writeDram_bufs (s : State) (pa : Nat) (d : List Byte) (port : Nat) : (s.writeDram pa d port).bufs = s.bufs := by
  unfold State.writeDram
  split
  · rfl
  · extract_lets n first last s1 s2 s3 ends s4 lo hi s5
    have h1 : s1.bufs = s.bufs := (State.mergeRead_readFrame _ _ _ _ _).bufs
    have h2 : s2.bufs = s1.bufs := by
      simp only [s2]
      split
      · rfl
      · exact (State.mergeRead_readFrame _ _ _ _ _).bufs
    have h3 : s3.bufs = s2.bufs := foldl_keeps State.bufs _ (fun _ _ => State.writeBurst_bufs _ _ _ _) _ _
    have h4 : s4.bufs = s3.bufs := by
      simp only [s4]
      split
      · rfl
      · exact (State.burstOut_readFrame _ _ _).bufs
    have h5 : s5.bufs = s4.bufs := by
      simp only [s5]
      split <;> rfl
    have all : s5.bufs = s.bufs := h5.trans (h4.trans (h3.trans (h2.trans h1)))
    split
    · exact all
    · exact (State.burstOut_readFrame _ _ _).bufs.trans all

/-- A write into a buffer changes its own entry alone (R170). -/
theorem State.writeBuf_table (s : State) (k off : Nat) (d : List Byte) (port : Nat) (b : Buf) (hb : tabFind s.bufs.table k = some b) :
    (s.writeBuf k off d port).bufs.table = tabPut s.bufs.table k { b with mapChecked := false } := by
  simp only [State.writeBuf, State.buf?, hb, State.writeDram_bufs]

/-- Page bytes `d` stored at `a` in a sealed buffer without an owner, at handle `h` (R147, R418). -/
def State.storePage (s : State) (h a : Nat) (d : List Byte) : State :=
  ({ s with bufs := { s.bufs with
    table := tabPut s.bufs.table h { base := a, len := d.length, owner := none, isSealed := true } } } : State).writeBuf h 0 d 18

theorem State.storePage_pageWrite (s : State) (h a : Nat) (d : List Byte) (hh : 4064 ≤ h) : PageWrite s (s.storePage h a d) := by
  have opened : WriteFrame s { s with bufs := { s.bufs with
    table := tabPut s.bufs.table h { base := a, len := d.length, owner := none, isSealed := true } } } := rfl
  refine ⟨opened.trans (State.writeBuf_writeFrame _ _ _ _ _), fun k b hb => ?_⟩
  rw [State.storePage, State.writeBuf_table _ _ _ _ _ _ (tabFind_tabPut_same _ _ _)] at hb
  by_cases hk : k = h
  · rw [hk, tabFind_tabPut_same] at hb
    obtain rfl := Option.some.inj hb
    exact .inr ⟨hk ▸ hh, rfl, rfl⟩
  · rw [tabFind_tabPut_other _ _ _ _ hk, tabFind_tabPut_other _ _ _ _ hk] at hb
    exact .inl hb

theorem pageHandle_ge (set n : Nat) : 4064 ≤ pageHandle set n := by
  rw [pageHandle]
  omega

/-- Expanding a package stores its pages at the handles of page buffers (R418; log 11). The place that DRAM has for a page is generalized
before its two cases, so that nothing evaluates the allocator. -/
theorem State.expandPages_pageWrite (s : State) (p : Pkg) : PageWrite s (s.expandPages p).1 := by
  refine PageWrite.foldl _ _ _ fun s n => ?_
  extract_lets +onlyGivenNames d
  generalize s.place true d.length = o
  cases o with
  | none => exact .refl s
  | some a => exact s.storePage_pageWrite _ a d (pageHandle_ge _ _)

/-! ### The package that is complete -/

theorem exec_packageExpansionDone (s : State) : exec .packageExpansionDone s = execPackageExpansionDone s := rfl

/-- The page buffers of a package are freed. -/
def State.dropPackage (s : State) (o : Option Pkg) : State :=
  match o with
  | some p => s.dropPages p.set
  | none => s

theorem State.dropPackage_pageWrite (s : State) (o : Option Pkg) : PageWrite s (s.dropPackage o) := by
  cases o with
  | none => exact .refl s
  | some p => exact s.dropPages_pageWrite p.set

/-- The pages of package `k` are expanded in place of a complete package that has not come into force. -/
def State.expandNext (s : State) (k : Pkg) : State × Pkg :=
  ((s.dropPackage s.comp.pkgDone).modComp fun c => { c with pkgNext := none, pkgDone := none }).expandPages k

/-- The expanded package is the one that was in expansion, but for its set of page buffers. -/
theorem State.expandNext_pkg (s : State) (k : Pkg) : (s.expandNext k).2 = { k with set := (s.expandNext k).2.set } := rfl

/-- The package is complete. -/
def State.completeNext (s : State) (k : Pkg) : State :=
  (s.expandNext k).1.modComp fun c => { c with pkgDone := some (s.expandNext k).2 }

theorem packageExpansionDone_eq (s : State) (k : Pkg) (hk : s.comp.pkgNext = some k) (hs : s.stopped = false) :
    exec .packageExpansionDone s = .next (if (s.completeNext k).plan?.isNone then (s.completeNext k).swapPackage else s.completeNext k) := by
  simp only [exec_packageExpansionDone, execPackageExpansionDone, hk, hs, Bool.false_eq_true, if_false]
  cases hd : s.comp.pkgDone <;> simp only [State.completeNext, State.expandNext, State.dropPackage, hd]

/-- A package that is complete changes nothing but page buffers and its own place. -/
theorem State.completeNext_facts (s : State) (k : Pkg) : OnlyPagesNew s (s.completeNext k) ∧ (s.completeNext k).plan = s.plan ∧
    (s.completeNext k).plan? = s.plan? ∧
      (s.completeNext k).comp = { s.comp with pkgNext := none, pkgDone := some (s.expandNext k).2 } := by
  have dropped := s.dropPackage_pageWrite s.comp.pkgDone
  have written := ((s.dropPackage s.comp.pkgDone).modComp fun c => { c with pkgNext := none, pkgDone := none }).expandPages_pageWrite k
  refine ⟨(dropped.table.trans (.of_bufs rfl)).trans (written.table.trans (.of_bufs rfl)), written.plan.trans dropped.plan,
    written.plan?.trans dropped.plan?, ?_⟩
  have comp : (s.expandNext k).1.comp = { s.comp with pkgNext := none, pkgDone := none } := by
    rw [← dropped.comp]
    exact written.comp
  rw [State.completeNext, State.modComp, comp]

/-- A complete package comes into force, ends every activation of the one before, and frees its page buffers (R151, R419). -/
theorem State.swapPackage_complete (s : State) (k : Pkg) (hk : s.comp.pkgDone = some k) : s.swapPackage =
    (s.dropPackage s.comp.pkg).modComp fun c => { c with pkg := if k.pageCount = 0 then none else some k, pkgDone := none, acts := [] } := by
  simp only [State.swapPackage, hk]
  cases hp : s.comp.pkg <;> rfl

theorem State.swapPackage_facts (s : State) (k : Pkg) (hk : s.comp.pkgDone = some k) : OnlyPagesNew s s.swapPackage ∧
    s.swapPackage.plan = s.plan ∧
      s.swapPackage.comp = { s.comp with pkg := if k.pageCount = 0 then none else some k, pkgDone := none, acts := [] } := by
  have dropped := s.dropPackage_pageWrite s.comp.pkg
  rw [State.swapPackage_complete s k hk]
  refine ⟨dropped.table.trans (.of_bufs rfl), dropped.plan, ?_⟩
  rw [State.modComp, dropped.comp]

end Sys2Proof.Machine
end

section
/-! PROOF. O44: the pins of `NOTICE_IN`, the page they leave to an activation, and the expansion of a package. -/

open Sys2Proof Sys2Proof.Machine

/-- Settles O44: each command of `NOTICE_IN` lets the pins settle, pin by pin, and the package that is complete waits or comes into force. -/
theorem noticesAndPackages : Obligations.NoticesAndPackages := by
  unfold Obligations.NoticesAndPackages
  intro s c high
  refine ⟨fun v => ?_, fun i => ?_, fun i => ?_, s.choosePage_activation, fun k hk hs => ?_⟩
  · refine ⟨_, noticeInSample_eq v s, s.sampled_mem v, s.sampled_plan v, ?_⟩
    rw [s.sampled_comp v]
    refine ⟨s.comp.sampled_page v, fun i => ⟨?_, ?_, ?_, ?_⟩, ?_, fun i => ?_, fun i hi hold others => ?_, fun hr hf => ?_⟩
    · exact s.comp.sampled_run1 v i
    · exact s.comp.sampled_run0 v i
    · exact s.comp.sampled_pins v i
    · exact s.comp.sampled_rise v i
    · exact s.comp.sampled_noGlitch v
    · exact s.comp.sampled_oneGlitch v i
    · exact s.settlePins_rise (fun c => c.sampled v) i hi hold others
    · rw [s.sampled_quiet v hr hf]
      exact congrArg (fun x => { s with comp := x }) (s.comp.sampled_frame v)
  · refine ⟨_, noticeInAsserted_eq i s, ?_⟩
    rw [s.pinAsserted_comp i]
    refine ⟨fun k => s.comp.assertPin_pins i k, s.comp.assertPin_glitch i, s.pinAsserted_mem i, s.pinAsserted_plan i, rfl,
      s.pinAsserted_new i, fun hold => ?_⟩
    rw [s.pinAsserted_already i hold]
    exact ⟨rfl, rfl⟩
  · refine ⟨_, noticeInDeasserted_eq i s, ?_, ?_, ?_, s.pinDeasserted_frame i, ?_⟩
    · rw [s.pinDeasserted_comp i]
      exact fun k => s.comp.deassertPin_pins i k
    · rw [s.pinDeasserted_comp i]
      intro last any
      rw [s.pinDeasserted_last i last any]
      exact State.unhold_ends _ _ _
    · rw [s.pinDeasserted_comp i]
      exact s.pinDeasserted_others i
    · rw [s.pinDeasserted_comp i]
      rfl
  · obtain ⟨table, plan, governs, comp⟩ := s.completeNext_facts k
    have exec_eq := packageExpansionDone_eq s k hk hs
    cases hplan : s.plan? with
    | some p =>
      rw [governs, hplan, Option.isNone_some, if_neg Bool.false_ne_true] at exec_eq
      refine ⟨_, (s.expandNext k).2, exec_eq, ?_, s.expandNext_pkg k, plan, fun _ => ?_, fun h => absurd h (Option.some_ne_none p), table⟩
      · rw [comp]
      · rw [comp]
        exact ⟨rfl, rfl, rfl⟩
    | none =>
      rw [governs, hplan, Option.isNone_none, if_pos rfl] at exec_eq
      obtain ⟨swapTable, swapPlan, swapComp⟩ := (s.completeNext k).swapPackage_facts _ (congrArg Comp.pkgDone comp)
      refine ⟨_, (s.expandNext k).2, exec_eq, ?_, s.expandNext_pkg k, swapPlan.trans plan, fun h => absurd rfl h, fun _ => ?_,
        table.trans swapTable⟩
      · rw [swapComp, comp]
      · rw [swapComp]
        exact ⟨rfl, rfl, rfl⟩

end

section
/-! SUPPORT. A write over bursts without errors, whatever the rest of DRAM holds (R314, R551). -/

namespace Sys2Proof.Machine

/-! ### Bursts without errors -/

/-- No burst that the range touches holds symbol errors or reads uncorrectable. -/
def Dram.CleanRange (d : Dram) (pa n : Nat) : Prop :=
  ∀ i, pa / 64 ≤ i → i * 64 < pa + n → d.burstBad (i * 64) = none ∧ tabFind d.faults (i * 64) = none

theorem tabPut_ne_nil {β : Type} (l : List (Nat × β)) (a : Nat) (v : β) : tabPut l a v ≠ [] := by
  cases l with
  | nil => exact List.cons_ne_nil _ _
  | cons e l =>
    simp only [tabPut]
    split
    · exact List.cons_ne_nil _ _
    · split <;> exact List.cons_ne_nil _ _

theorem foldl_tabPut_eq_nil (l : List Nat) (h : l.foldl (fun (l : List (Nat × Unit)) a => tabPut l a ()) [] = []) : l = [] := by
  rcases List.eq_nil_or_concat l with rfl | ⟨r, a, rfl⟩
  · rfl
  · rw [List.concat_eq_append, List.foldl_append] at h
    exact absurd h (tabPut_ne_nil _ _ _)

/-- A table has no entry for a key exactly when it does not list the key. -/
theorem tabFind_eq_none_iff {β : Type} (l : List (Nat × β)) (a : Nat) : tabFind l a = none ↔ a ∉ l.map (·.1) := by
  induction l with
  | nil => simp [tabFind]
  | cons e l ih =>
    rw [tabFind, List.map_cons, List.mem_cons, not_or, ← ih]
    split
    · rename_i he
      simp [he]
    · rename_i he
      simp [Ne.symm he]

theorem tabFind_tabClear_none {β : Type} {l : List (Nat × β)} {a : Nat} (lo hi : Nat) (h : tabFind l a = none) :
    tabFind (tabClear l lo hi) a = none := by
  rw [tabFind_eq_none_iff] at *
  exact fun hm => h (List.map_subset _ (List.filter_subset_self _) hm)

theorem Dram.burstBad_eq_none_iff (d : Dram) (a : Nat) :
    d.burstBad a = none ↔ tabFind d.bad (a / 64 * 64) = none ∧ paGranule a ∉ d.epochUe := by
  simp only [Dram.burstBad]
  split
  · rename_i b hb
    simp [hb]
  · rename_i hb
    simp [hb]

/-- A range without suspects is clean. -/
theorem Dram.cleanRange_of_suspects {d : Dram} {pa n : Nat} (hn : 0 < n) (h : d.suspects pa n = []) : d.CleanRange pa n := by
  intro i hlo hhi
  simp only [Dram.suspects, if_neg hn.ne', List.map_eq_nil_iff] at h
  obtain ⟨listed, lost⟩ := List.append_eq_nil_iff.1 (foldl_tabPut_eq_nil _ h)
  have unlisted : i * 64 ∉ d.bad.map (·.1) ++ d.faults.map (·.1) := fun hm => by
    have := List.filter_eq_nil_iff.1 listed _ hm
    simp only [Bool.and_eq_true, decide_eq_true_eq] at this
    exact this (by omega)
  rw [List.mem_append, not_or] at unlisted
  have entry : paGranule (i * 64) ∉ d.epochUe := fun hg => by
    have := List.flatMap_eq_nil_iff.1 lost _ hg
    simp only [List.map_eq_nil_iff, List.range_eq_nil, ceilDiv, paGranule] at this
    omega
  have aligned : i * 64 / 64 * 64 = i * 64 := by omega
  rw [Dram.burstBad_eq_none_iff, aligned]
  simp only [tabFind_eq_none_iff]
  exact ⟨⟨unlisted.1, entry⟩, unlisted.2⟩

/-! ### Writing over them -/

/-- From `s` to `u` memory becomes `m`; only the DRAM controller and the numbers of its requests may change besides, and the range from
`pa` stays clean. -/
structure RangeWrite (s u : State) (m : List Host.Cell) (pa n : Nat) : Prop where
  frame : u = { s with mem := m, dram := u.dram, nextOp := u.nextOp }
  clean : u.dram.CleanRange pa n

namespace RangeWrite

variable {s u : State} {m : List Host.Cell} {pa n : Nat}

theorem mem_eq (h : RangeWrite s u m pa n) : u.mem = m := by rw [h.frame]

theorem request (h : RangeWrite s u m pa n) (port a k : Nat) (w : Bool) (d : List Byte) (wb : Bool) :
    RangeWrite s (u.dramRequest port a k w d wb) m pa n := by
  refine ⟨?_, h.clean⟩
  rw [h.frame]
  rfl

theorem mergeRead (h : RangeWrite s u m pa n) (b port : Nat) : RangeWrite s (u.mergeRead pa n b port) m pa n := by
  simp only [State.mergeRead]
  split
  · exact h
  · exact h.request _ _ _ _ _ _

theorem burstOut (h : RangeWrite s u m pa n) (b port : Nat) : RangeWrite s (u.burstOut b port) m pa n := by
  simp only [State.burstOut]
  split
  · exact h
  · exact h.request _ _ _ _ _ _

end RangeWrite

theorem State.meetBurst_clean (s : State) (i : Nat) (h : s.dram.burstBad (i * 64) = none) (f : tabFind s.dram.faults (i * 64) = none) :
    s.meetBurst (i * 64) = s := by
  have aligned : i * 64 / 64 * 64 = i * 64 := by omega
  simp only [State.meetBurst, h, aligned, f]

/-- A range stays clean while no table gains an entry. -/
theorem Dram.CleanRange.mono {d e : Dram} {pa n : Nat} (h : d.CleanRange pa n) (bad : ∀ a, tabFind d.bad a = none → tabFind e.bad a = none)
    (faults : ∀ a, tabFind d.faults a = none → tabFind e.faults a = none) (lost : e.epochUe = d.epochUe) : e.CleanRange pa n := by
  intro i hlo hhi
  obtain ⟨burst, fault⟩ := h i hlo hhi
  rw [Dram.burstBad_eq_none_iff] at burst ⊢
  exact ⟨⟨bad _ burst.1, lost ▸ burst.2⟩, faults _ fault⟩

/-- A clean burst takes the bytes of the write that fall into it (R551). -/
theorem RangeWrite.writeBurst {s u : State} {pa i : Nat} {d : List Byte}
    (h : RangeWrite s u (Memory.writeN s.mem pa (d.take (i * 64 - pa))) pa d.length) (hlo : pa / 64 ≤ i) (hhi : i * 64 < pa + d.length) :
    RangeWrite s (u.writeBurst pa d (i * 64)) (Memory.writeN s.mem pa (d.take (i * 64 + 64 - pa))) pa d.length := by
  obtain ⟨burst, fault⟩ := h.clean i hlo hhi
  rw [← Memory.writeN_nextBurst _ _ _ _ (by omega) hhi, ← h.mem_eq]
  have frame := h.frame
  simp only [State.writeBurst]
  split
  · refine ⟨?_, h.clean.mono (fun _ => tabFind_tabClear_none _ _) (fun _ => tabFind_tabClear_none _ _) rfl⟩
    rw [frame]
    rfl
  · simp only [u.meetBurst_clean i burst fault, burst, Option.isSome_none, Bool.false_eq_true, if_false]
    refine ⟨?_, h.clean.mono (fun _ => id) (fun _ => tabFind_tabClear_none _ _) rfl⟩
    rw [frame]

/-- After its first `k` bursts a write has stored its bytes up to the end of the last of them. -/
theorem RangeWrite.writeBursts {s u : State} {pa : Nat} {d : List Byte} (h : RangeWrite s u s.mem pa d.length) (k : Nat)
    (hk : k = 0 ∨ (pa / 64 + (k - 1)) * 64 < pa + d.length) :
    RangeWrite s ((List.range k).foldl (fun v i => v.writeBurst pa d ((pa / 64 + i) * 64)) u)
      (Memory.writeN s.mem pa (d.take ((pa / 64 + k) * 64 - pa))) pa d.length := by
  induction k with
  | zero =>
    have none : (pa / 64 + 0) * 64 - pa = 0 := by omega
    rwa [none]
  | succ k ih =>
    have within : (pa / 64 + k) * 64 < pa + d.length := by simpa using hk
    have next : (pa / 64 + (k + 1)) * 64 = (pa / 64 + k) * 64 + 64 := by omega
    rw [List.range_succ, List.foldl_append, List.foldl_cons, List.foldl_nil, next]
    exact (ih (by omega)).writeBurst (by omega) within

/-- A write over clean bursts stores every byte, and only requests are new (R314, R551). -/
theorem State.writeDram_clean (s : State) (pa : Nat) (d : List Byte) (port : Nat) (h : s.dram.CleanRange pa d.length) :
    RangeWrite s (s.writeDram pa d port) (Memory.writeN s.mem pa d) pa d.length := by
  unfold State.writeDram
  split
  · rename_i hd
    subst hd
    exact ⟨rfl, h⟩
  · rename_i hd
    have hn : 0 < d.length := List.length_pos_iff.2 hd
    extract_lets n first last s1 s2 s3 ends s4 lo hi s5
    have h1 : RangeWrite s s1 s.mem pa n := RangeWrite.mergeRead ⟨rfl, h⟩ _ _
    have h2 : RangeWrite s s2 s.mem pa n := by
      simp only [s2]
      split
      · exact h1
      · exact h1.mergeRead _ _
    have h3 : RangeWrite s s3 (Memory.writeN s.mem pa d) pa n := by
      have all : d.take ((pa / 64 + (last + 1 - first)) * 64 - pa) = d := List.take_of_length_le (by omega)
      exact all ▸ h2.writeBursts (last + 1 - first) (.inr (by omega))
    have h4 : RangeWrite s s4 (Memory.writeN s.mem pa d) pa n := by
      simp only [s4]
      split
      · exact h3
      · exact h3.burstOut _ _
    have h5 : RangeWrite s s5 (Memory.writeN s.mem pa d) pa n := by
      simp only [s5]
      split
      · exact h4.request _ _ _ _ _ _
      · exact h4
    split
    · exact h5
    · exact h5.burstOut _ _

end Sys2Proof.Machine
end

section
/-! SUPPORT. Fields of bytes in memory, and the fields of the plan status (R5, Table 08-11). -/

namespace Sys2Proof.Machine

/-! ### Fields -/

/-- A field within a range read from memory is the range of its own bytes. -/
theorem fieldAt_readN (m : List Host.Cell) (a : Nat) {n o k : Nat} (h : o + k ≤ n) :
    fieldAt (Memory.readN m a n) o k = leNat (Memory.readN m (a + o) k) := by
  refine congrArg leNat (List.ext_getElem ?_ fun i _ _ => ?_)
  · simp only [List.length_take, List.length_drop, Memory.length_readN]
    omega
  · simp only [Memory.readN, List.getElem_take, List.getElem_drop, List.getElem_map, List.getElem_range, Nat.add_assoc]

/-- A field of what was written reads back. -/
theorem leNat_readN_writeN {m : List Host.Cell} (hm : Memory.wf m = true) (a : Nat) (d : List Byte) {o k : Nat} (h : o + k ≤ d.length) :
    leNat (Memory.readN (Memory.writeN m a d) (a + o) k) = fieldAt d o k := by
  rw [← fieldAt_readN _ a h, Memory.readN_writeN _ _ _ hm]

theorem fieldAt_append_left (l r : List Byte) {o k : Nat} (h : o + k ≤ l.length) : fieldAt (l ++ r) o k = fieldAt l o k := by
  rw [fieldAt, List.drop_append_of_le_length (by omega), List.take_append_of_le_length (by rw [List.length_drop]; omega), fieldAt]

theorem fieldAt_append_right (l r : List Byte) (o k : Nat) : fieldAt (l ++ r) (l.length + o) k = fieldAt r o k := by
  rw [fieldAt, List.drop_length_add_append, fieldAt]

/-- Data no longer than its field stands at the beginning of it. -/
theorem fieldAt_bytesAt {l : List Byte} {n o k : Nat} (hl : l.length ≤ n) (h : o + k ≤ l.length) :
    fieldAt (bytesAt l 0 n) o k = fieldAt l o k := by
  simp only [bytesAt, List.drop_zero, List.take_of_length_le hl]
  exact fieldAt_append_left _ _ h

/-! ### Counters -/

/-- The bytes of counters of 4 bytes each. -/
def countBytes (l : List Count) : List Byte := l.flatMap fun c => leBytes 4 c.toNat

@[simp] theorem length_countBytes (l : List Count) : (countBytes l).length = 4 * l.length := by
  induction l with
  | nil => rfl
  | cons c l ih =>
    have : countBytes (c :: l) = leBytes 4 c.toNat ++ countBytes l := rfl
    rw [this, List.length_append, length_leBytes, ih, List.length_cons]
    omega

theorem fieldAt_countBytes (l : List Count) (k : Nat) (h : k < l.length) : fieldAt (countBytes l) (4 * k) 4 = l[k].toNat := by
  induction l generalizing k with
  | nil => simp at h
  | cons c l ih =>
    have hc : countBytes (c :: l) = leBytes 4 c.toNat ++ countBytes l := rfl
    rw [hc]
    cases k with
    | zero => exact fieldAt_leBytes c.isLt _
    | succ k =>
      have next : 4 * (k + 1) = (leBytes 4 c.toNat).length + 4 * k := by rw [length_leBytes]; omega
      rw [next, fieldAt_append_right]
      exact ih k (by simpa using h)

/-- The 16 counters at the beginning of the plan status, in the order of Table 08-11. -/
def PlanStatus.counts (p : PlanStatus) : List Count :=
  [p.frames, p.frameHolds, p.frameDrop, p.heldPeriods, p.culledTiles, p.cullLate, p.ringUe, p.coefUe, p.gfxClamp,
    p.gfxUe, p.mapUe, p.mapLockedWr, p.fsRepeat, p.cacheUe, p.fallbacks, p.sbTorn]

theorem PlanStatus.bytes_eq (p : PlanStatus) :
    p.bytes = bytesAt (bytesAt (countBytes p.counts) 0 0x100 ++ countBytes p.late.toList ++ countBytes p.paramLate.toList) 0 1024 := rfl

@[simp] theorem PlanStatus.length_bytes (p : PlanStatus) : p.bytes.length = 1024 := by rw [PlanStatus.bytes_eq, length_bytesAt]

section
variable (p : PlanStatus)

/-- A counter of the first 16 stands at its place. -/
theorem PlanStatus.bytes_counts (k : Fin 16) : fieldAt p.bytes (4 * k.val) 4 = (p.counts[k.val]'k.isLt).toNat := by
  have len : p.counts.length = 16 := rfl
  rw [PlanStatus.bytes_eq, fieldAt_bytesAt (by simp) (by simp; omega), List.append_assoc,
    fieldAt_append_left _ _ (by simp; omega),
    fieldAt_bytesAt (by simp [len]) (by simp; omega), fieldAt_countBytes _ _ k.isLt]

theorem PlanStatus.bytes_late (k : Fin 64) : fieldAt p.bytes (0x100 + 4 * k.val) 4 = p.late[k].toNat := by
  have len : (bytesAt (countBytes p.counts) 0 0x100).length = 0x100 := length_bytesAt _ _ _
  rw [PlanStatus.bytes_eq, fieldAt_bytesAt (by simp) (by simp; omega), List.append_assoc]
  generalize bytesAt (countBytes p.counts) 0 0x100 = l at len
  rw [← len, fieldAt_append_right, fieldAt_append_left _ _ (by simp; omega), fieldAt_countBytes _ _ (by simp)]
  rfl

theorem PlanStatus.bytes_paramLate (k : Fin 64) : fieldAt p.bytes (0x200 + 4 * k.val) 4 = p.paramLate[k].toNat := by
  have len : (bytesAt (countBytes p.counts) 0 0x100 ++ countBytes p.late.toList).length = 0x200 := by simp
  rw [PlanStatus.bytes_eq, fieldAt_bytesAt (by simp) (by simp; omega)]
  generalize bytesAt (countBytes p.counts) 0 0x100 ++ countBytes p.late.toList = l at len
  rw [← len, fieldAt_append_right, fieldAt_countBytes _ _ (by simp)]
  rfl

end

end Sys2Proof.Machine
end

section
/-! SUPPORT. `PLANSLOT` (R194, R261). -/

namespace Sys2Proof.Machine

theorem exec_planslotLoad (t : Tid) (w : IWord) (s : State) : exec (.planslotLoad t w) s = execPlanslotLoad t w s := rfl
theorem exec_planslotFree (t : Tid) (w : IWord) (s : State) : exec (.planslotFree t w) s = execPlanslotFree t w s := rfl
theorem exec_planslotState (t : Tid) (w : IWord) (s : State) : exec (.planslotState t w) s = execPlanslotState t w s := rfl
theorem exec_planslotStatus (t : Tid) (w : IWord) (s : State) : exec (.planslotStatus t w) s = execPlanslotStatus t w s := rfl

/-- A register that holds the number of a slot. -/
theorem slotOf_number (i : Fin 8) : slotOf (BitVec.ofNat 64 i.val) = .ok i := by
  have hn : (BitVec.ofNat 64 i.val).toNat = i.val := by rw [BitVec.toNat_ofNat, Nat.mod_eq_of_lt (by omega)]
  simp only [slotOf, hn, i.isLt, dite_true]

/-! ### Slots that take a load or a free -/

theorem Slot.idle_iff (x : Slot) : x.idle = true ↔ x.st = .empty ∨ x.st = .loaded := by simp [Slot.idle]

theorem Slot.not_idle {x : Slot} (he : x.st ≠ .empty) (hl : x.st ≠ .loaded) : x.idle = false := by
  rw [← Bool.not_eq_true, Slot.idle_iff]
  exact not_or.2 ⟨he, hl⟩

/-- What `PLANSLOT.FREE` does at its unit. -/
def State.freeSlot (s : State) (t : Tid) (w : IWord) (i : Fin 8) : State :=
  if !s.plan.slots[i].idle then s.fault t .state 0x1D else (s.modSlot i fun _ => {}).toUnit t w (some (.code 0))

/-- What `PLANSLOT.LOAD` does at its unit. -/
def State.loadOrder (s : State) (t : Tid) (w : IWord) (i : Fin 8) (b : Buf) (off : Nat) : State :=
  if !s.plan.slots[i].idle then s.fault t .state 0x1D
  else (s.loadSlot i b off).1.toUnit t w (some (.code (s.loadSlot i b off).2))

theorem State.freeSlot_busy (s : State) (t : Tid) (w : IWord) (i : Fin 8) (h : s.plan.slots[i].idle = false) :
    s.freeSlot t w i = s.faultAt t .state 0x1D (s.thread t).pc := by
  rw [State.freeSlot, h]
  rfl

theorem State.freeSlot_idle (s : State) (t : Tid) (w : IWord) (i : Fin 8) (h : s.plan.slots[i].idle = true) :
    s.freeSlot t w i = (s.modSlot i fun _ => {}).toUnit t w (some (.code 0)) := by
  rw [State.freeSlot, h]
  rfl

theorem State.loadOrder_busy (s : State) (t : Tid) (w : IWord) (i : Fin 8) (b : Buf) (off : Nat) (h : s.plan.slots[i].idle = false) :
    s.loadOrder t w i b off = s.faultAt t .state 0x1D (s.thread t).pc := by
  rw [State.loadOrder, h]
  rfl

theorem State.loadOrder_idle (s : State) (t : Tid) (w : IWord) (i : Fin 8) (b : Buf) (off : Nat) (h : s.plan.slots[i].idle = true) :
    s.loadOrder t w i b off = (s.loadSlot i b off).1.toUnit t w (some (.code (s.loadSlot i b off).2)) := by
  rw [State.loadOrder, h]
  rfl

/-! ### The image -/

/-- An image that `PLANSLOT.LOAD` takes from offset `off` of a buffer of `len` bytes (R189, R194). -/
def GoodImage (x : List Byte) (off len : Nat) : Prop :=
  fieldAt x 0 4 = 0x4E414C50 ∧ fieldAt x 6 1 = 1 ∧ off + x.length ≤ len ∧ x.length ≤ 16384 ∧
    x.length = (0x0C00 + 4 * fieldAt x 0x40 1 * fieldAt x 0x41 1 + 63) / 64 * 64 ∧
    fieldAt x 0x3C 4 = crc32c (x.take 0x3C ++ [0, 0, 0, 0] ++ x.drop 0x40)

/-- For an image within its bounds that says its own length these are the checks of `loadSlot`. -/
theorem goodImage_iff {x : List Byte} {off len : Nat} (short : x.length ≤ 16384) (within : off + x.length ≤ len)
    (own : fieldAt x 4 2 = x.length) : GoodImage x off len ↔
      fieldAt x 0 4 = 0x4E414C50 ∧ fieldAt x 4 2 = planLen (fieldAt x 0x40 1) (fieldAt x 0x41 1) ∧ fieldAt x 6 1 = 1 ∧
        x.length = fieldAt x 4 2 ∧ fieldAt x 0x3C 4 = crc32c (x.take 0x3C ++ [0, 0, 0, 0] ++ x.drop 0x40) := by
  rw [own]
  constructor
  · rintro ⟨magic, version, -, -, length, crc⟩
    exact ⟨magic, length, version, rfl, crc⟩
  · rintro ⟨magic, length, version, -, crc⟩
    exact ⟨magic, version, within, short, length, crc⟩

/-- The image that lies at an address: as many bytes as its header says. -/
def imageAt (m : List Host.Cell) (a : Nat) : List Byte := Memory.readN m a (fieldAt (Memory.readN m a 64) 4 2)

/-- An image is read with its header, or found too long or too short; over DRAM without errors only requests are new. -/
theorem State.loadSlot_errorFree (s : State) (i : Fin 8) (b : Buf) (off : Nat) (h : s.dram.ErrorFree) :
    ∃ u, CleanWrite s u s.mem ∧
      (GoodImage (imageAt s.mem (b.base + off)) off b.len →
        s.loadSlot i b off = (u.modSlot i fun _ => { st := .loaded, plan := planOfBytes (imageAt s.mem (b.base + off)) }, 0)) ∧
      (¬GoodImage (imageAt s.mem (b.base + off)) off b.len → s.loadSlot i b off = (u.modSlot i fun _ => {}, admGeom)) := by
  generalize ha : b.base + off = a
  obtain ⟨n, hn⟩ : ∃ n, fieldAt (Memory.readN s.mem a 64) 4 2 = n := ⟨_, rfl⟩
  have head := s.dramRequest_cleanWrite 15 a 64 false [] false h
  have image := head.trans (State.dramRequest_cleanWrite _ 15 a n false [] false head.errorFree)
  have readHead := s.readDram_clean a 64 15 (h.suspects _ _)
  have readImage := (s.dramRequest 15 a 64 false).readDram_clean a n 15 (head.errorFree.suspects _ _)
  have hx : imageAt s.mem a = Memory.readN s.mem a n := by rw [imageAt, hn]
  have len : (Memory.readN s.mem a n).length = n := Memory.length_readN _ _ _
  simp only [State.loadSlot, State.readBuf, ha, readHead, hn, hx]
  by_cases outside : 16384 < n ∨ n < 0xC00 ∨ b.len < off + n
  · rw [if_pos outside]
    refine ⟨_, head, fun good => ?_, fun _ => rfl⟩
    obtain ⟨-, -, within, short, length, -⟩ := good
    omega
  · have own : fieldAt (Memory.readN s.mem a n) 4 2 = (Memory.readN s.mem a n).length := by
      rw [len, fieldAt_readN _ _ (by omega), ← hn, fieldAt_readN _ _ (by omega)]
    have checks := goodImage_iff (off := off) (len := b.len) (by omega) (by omega) own
    rw [len] at checks
    rw [if_neg outside, readImage]
    exact ⟨_, image, fun good => if_pos (checks.1 good), fun bad => if_neg (bad ∘ checks.2)⟩

/-- An instruction that ends at its unit moves its own thread alone, whatever else its unit has changed. -/
theorem threadTo_toUnit_of_threads {s v : State} (e : v.threads = s.threads) (t : Tid) (w : IWord) (d : Option Done) :
    ThreadTo s (v.toUnit t w d) t ((s.thread t).atUnit w d) := by
  have same : ∀ n, v.thread n = s.thread n := fun n => by simp only [State.thread, e]
  obtain ⟨mine, others⟩ := threadTo_toUnit v t w d
  exact ⟨by rw [mine, same], fun n hn => by rw [others n hn, same]⟩

/-- A slot that was loaded, or found to hold no plan, is all that changes beside the thread and the requests. -/
theorem CleanWrite.modSlot {s v : State} {t : Tid} {use : Use} (h : CleanWrite (s.registered t use) v s.mem) (w : IWord) (i : Fin 8)
    (x : Slot) (d : Option Done) : ((v.modSlot i fun _ => x).toUnit t w d).mem = s.mem ∧
      (∀ j, j ≠ i → ((v.modSlot i fun _ => x).toUnit t w d).plan.slots[j] = s.plan.slots[j]) ∧
      ((v.modSlot i fun _ => x).toUnit t w d).plan.slots[i] = x ∧
      ThreadTo s ((v.modSlot i fun _ => x).toUnit t w d) t ((s.thread t).atUnit w d) := by
  have plan : v.plan = s.plan := by rw [h.frame]; rfl
  have threads : v.threads = s.threads := by rw [h.frame]; rfl
  refine ⟨h.mem_eq, fun j hj => ?_, vmod_same _ _ _, threadTo_toUnit_of_threads (v := v.modSlot i fun _ => x) threads _ _ _⟩
  rw [← plan]
  exact vmod_other _ _ _ _ hj

/-! ### The instructions -/

/-- What `PLANSLOT.LOAD` from offset `off` of a buffer of `len` bytes names. -/
def loadUse (i : Fin 8) (hd off len : Nat) : Use :=
  { units := [.slot i.val], handles := [hd], reads := [.ofBytes hd off (min 16384 (len - off))] }

/-- What `PLANSLOT.STATUS` to offset `off` of a buffer names. -/
def statusUse (hd off : Nat) : Use := { handles := [hd], writes := [.ofBytes hd off 1024] }

section
variable (s : State) (t : Tid) (w : IWord) (i : Fin 8) (hi : s.canIssue t 1) (hr : (s.thread t).reg w.ra = BitVec.ofNat 64 i.val)
include hi hr

/-- With its slot free `PLANSLOT.STATE` answers the number of the state. -/
theorem planslotState_start (hf : s.unitFree t { units := [.slot i.val] }) : exec (.planslotState t w) s =
    .next ((s.registered t { units := [.slot i.val] }).toUnit t w (some (.codeRc 0 s.plan.slots[i].st.num))) := by
  rw [exec_planslotState, execPlanslotState, issue_run s t _ hi]
  simp only [hr, slotOf_number, bind, Except.bind, pure, Except.pure, State.orFault]
  rw [startUnit_free _ _ _ _ _ hf]
  rfl

/-- With its slot free `PLANSLOT.FREE` acts on the state that has registered it. -/
theorem planslotFree_start (hh : s.higher .planSlots .host = none) (hf : s.unitFree t { units := [.slot i.val] }) :
    exec (.planslotFree t w) s = .next ((s.registered t { units := [.slot i.val] }).freeSlot t w i) := by
  rw [exec_planslotFree, execPlanslotFree, issue_run s t _ hi]
  simp only [hr, slotOf_number, bind, Except.bind, pure, Except.pure, State.orFault]
  rw [orderUnit_free _ _ _ _ _ _ _ hf hh]
  rfl

variable (b : Buf) (hd : Nat) (hb : ((s.thread t).reg w.rb).toNat % 4096 = hd) (hc : s.checkHandle t hd = .ok b)
include hb hc

/-- A header that does not lie within the buffer faults the thread. -/
theorem planslotLoad_outside (hlen : b.len < w.imm.toNat + 64) :
    exec (.planslotLoad t w) s = .next (s.faultAt t .state 0x22 (s.thread t).pc) := by
  rw [exec_planslotLoad, execPlanslotLoad, issue_run s t _ hi]
  simp only [handleOf, hb, hc, hr, slotOf_number, Buf.within, if_neg (Nat.not_le.2 hlen), bind, Except.bind, State.orFault]
  rfl

/-- With its slot free `PLANSLOT.LOAD` acts on the state that has registered it. -/
theorem planslotLoad_start (hlen : w.imm.toNat + 64 ≤ b.len) (hh : s.higher .planSlots .host = none)
    (hf : s.unitFree t (loadUse i hd w.imm.toNat b.len)) : exec (.planslotLoad t w) s =
      .next ((s.registered t (loadUse i hd w.imm.toNat b.len)).loadOrder t w i b w.imm.toNat) := by
  rw [exec_planslotLoad, execPlanslotLoad, issue_run s t _ hi]
  simp only [handleOf, hb, hc, hr, slotOf_number, Buf.within, if_pos hlen, bind, Except.bind, pure, Except.pure, State.orFault]
  exact congrArg Host.Outcome.next (orderUnit_free _ _ _ _ _ _ _ hf hh)

end

/-- A store that passes its checks goes to a live buffer (R250, R251). -/
theorem State.checkStore_ok {s : State} {t : Tid} {hd off n : Nat} {b : Buf} (h : s.checkStore t hd off n = .ok b) :
    s.buf? hd = some b := by
  simp only [State.checkStore, State.checkOpen] at h
  cases hc : s.checkHandle t hd with
  | error e =>
    rw [hc] at h
    cases h
  | ok b' =>
    obtain ⟨-, live⟩ := State.checkHandle_ok hc
    rw [hc] at h
    simp only at h
    split at h
    · cases h
    · simp only [bind, Except.bind] at h
      split at h
      · cases h
      · split at h
        · cases h
        · cases h
          exact live

section
variable (s : State) (t : Tid) (w : IWord) (b : Buf) (hd : Nat) (hb : ((s.thread t).reg w.rb).toNat % 4096 = hd)
  (hc : s.checkStore t hd w.imm.toNat 1024 = .ok b)
include hc

include hb in
/-- With no earlier operation on its range `PLANSLOT.STATUS` writes the plan status into the buffer. -/
theorem planslotStatus_start (hi : s.canIssue t 1) (hf : s.unitFree t (statusUse hd w.imm.toNat)) : exec (.planslotStatus t w) s =
    .next (((s.registered t (statusUse hd w.imm.toNat)).writeBuf hd w.imm.toNat s.plan.status.bytes).toUnit t w (some (.code 0))) := by
  rw [exec_planslotStatus, execPlanslotStatus, issue_run s t _ hi]
  simp only [handleOf, hb, hc, bind, Except.bind, pure, Except.pure, State.orFault]
  exact congrArg Host.Outcome.next (startUnit_free _ _ _ _ _ hf)

/-- Over a clean range the write stores the whole status and moves no thread. -/
theorem State.writeStatus_clean (use : Use) (hs : s.dram.suspects (b.base + w.imm.toNat) 1024 = []) :
    ((s.registered t use).writeBuf hd w.imm.toNat s.plan.status.bytes).mem =
        Memory.writeN s.mem (b.base + w.imm.toNat) s.plan.status.bytes ∧
      ((s.registered t use).writeBuf hd w.imm.toNat s.plan.status.bytes).threads = s.threads := by
  have clean : (s.registered t use).dram.CleanRange (b.base + w.imm.toNat) s.plan.status.bytes.length := by
    rw [PlanStatus.length_bytes]
    exact Dram.cleanRange_of_suspects (by omega) hs
  have written := State.writeDram_clean (s.registered t use) (b.base + w.imm.toNat) s.plan.status.bytes 15 clean
  have live : (s.registered t use).buf? hd = some b := State.checkStore_ok (s := s) hc
  simp only [State.writeBuf, live]
  exact ⟨written.mem_eq, by rw [written.frame]; rfl⟩

end

end Sys2Proof.Machine
end

section
/-! PROOF. O20: loading, freeing and reading a plan slot, and the plan status. -/

open Sys2Proof Sys2Proof.Machine

/-- Settles O20: each form runs at its unit on the state that has registered it, where the state of the slot, the checks of the image and
the layout of the status decide what it does. -/
theorem planSlots : Obligations.PlanSlots := by
  unfold Obligations.PlanSlots
  intro s t w i hi hr hh
  refine ⟨fun hf => ⟨fun hst => ?_, fun he hl => ?_, ?_⟩,
    fun b hc => ⟨fun hlen => ?_, fun hlen hf => ⟨fun he hl => ?_, fun hst hbad hfaults hlost => ?_⟩⟩,
    fun b hc hf hcanon hs => ?_⟩
  · have start := planslotFree_start s t w i hi hr hh hf
    exact ⟨_, start.trans (congrArg _ (State.freeSlot_idle _ t w i ((Slot.idle_iff _).2 hst))), congrArg Slot.st (vmod_same _ _ _),
      threadTo_toUnit_of_threads (s := s) rfl t w _, rfl⟩
  · have start := planslotFree_start s t w i hi hr hh hf
    exact start.trans (congrArg _ (State.freeSlot_busy _ t w i (Slot.not_idle he hl)))
  · exact unit_answers (planslotState_start s t w i hi hr hf)
  · exact planslotLoad_outside s t w i hi hr b _ rfl hc hlen
  · have start := planslotLoad_start s t w i hi hr b _ rfl hc hlen hh hf
    exact start.trans (congrArg _ (State.loadOrder_busy _ t w i b _ (Slot.not_idle he hl)))
  · have start := (planslotLoad_start s t w i hi hr b _ rfl hc hlen hh hf).trans
      (congrArg _ (State.loadOrder_idle _ t w i b _ ((Slot.idle_iff _).2 hst)))
    obtain ⟨v, hv, accepts, rejects⟩ := State.loadSlot_errorFree (s.registered t (loadUse i _ w.imm.toNat b.len)) i b w.imm.toNat
      ⟨hbad, hfaults, hlost⟩
    intro x good
    by_cases taken : GoodImage (imageAt s.mem (b.base + w.imm.toNat)) w.imm.toNat b.len
    · rw [accepts taken] at start
      obtain ⟨mem, others, slot, thread⟩ := hv.modSlot w i { st := .loaded, plan := planOfBytes x } (some (.code 0))
      exact ⟨_, start, mem, others, fun _ => ⟨congrArg Slot.st slot, congrArg Slot.plan slot, thread⟩, fun bad => absurd taken bad⟩
    · rw [rejects taken] at start
      obtain ⟨mem, others, slot, thread⟩ := hv.modSlot w i {} (some (.code 8))
      exact ⟨_, start, mem, others, fun g => absurd g taken, fun _ => ⟨congrArg Slot.st slot, thread⟩⟩
  · have start := planslotStatus_start s t w b _ rfl hc hi hf
    obtain ⟨mem, threads⟩ := s.writeStatus_clean t w b _ hc (statusUse _ w.imm.toNat) hs
    have field : ∀ o, o + 4 ≤ 1024 → leNat (Memory.readN (Memory.writeN s.mem (b.base + w.imm.toNat) s.plan.status.bytes)
        (b.base + w.imm.toNat + o) 4) = fieldAt s.plan.status.bytes o 4 := fun o ho =>
      leNat_readN_writeN hcanon.1 _ _ (by rw [PlanStatus.length_bytes]; exact ho)
    refine ⟨_, start, threadTo_toUnit_of_threads threads t w _, ?_⟩
    rw [State.toUnit_mem, mem]
    refine ⟨(field 0 (by omega)).trans (s.plan.status.bytes_counts 0), (field 0x38 (by omega)).trans (s.plan.status.bytes_counts 14),
      fun k => ?_, fun k => ?_, fun a ha => ?_⟩
    · rw [Nat.add_assoc, field _ (by omega)]
      exact s.plan.status.bytes_late k
    · rw [Nat.add_assoc, field _ (by omega)]
      exact s.plan.status.bytes_paramLate k
    · exact Memory.read_writeN_other _ _ _ _ (by rwa [PlanStatus.length_bytes])

end

section
/-! SUPPORT. `CAPTURE_TILE_ROW`: the tiles of a row enter the container one after another (R178-R184). -/

namespace Sys2Proof.Machine

theorem exec_captureTileRow (differs behind : Bool) (s : State) :
    exec (.captureTileRow differs behind) s = execCaptureTileRow differs behind s := rfl

/-! ### The job ends -/

theorem WriteFrame.plan {s u : State} (h : WriteFrame s u) : u.plan = s.plan := by
  rw [WriteFrame] at h
  rw [h]

theorem WriteFrame.cap {s u : State} (h : WriteFrame s u) : u.cap = s.cap := by
  rw [WriteFrame] at h
  rw [h]

theorem State.writeHeader_writeFrame (s : State) (c : Capture) : WriteFrame s (s.writeHeader c) := State.writeBuf_writeFrame _ _ _ _ _

/-- A running job fails for a reason: it keeps its frames, every thread is told, and no plan changes (R184). -/
theorem State.endCapture_failed (s : State) (c : Capture) (reason : Nat) (hc : s.cap = some c) (hs : c.state = 1) :
    ∃ x, (s.endCapture 3 reason).cap = some x ∧ x.state = 3 ∧ x.reason = BitVec.ofNat 8 reason ∧ x.frames = c.frames ∧
      (∀ t : Tid, ((s.endCapture 3 reason).thread t).evt.getLsbD 14 = true) ∧ (s.endCapture 3 reason).plan = s.plan := by
  simp only [State.endCapture, hc, hs, ne_eq, not_true_eq_false, if_false, if_true]
  refine ⟨{ c with state := 3, reason := BitVec.ofNat 8 reason, lines := [], dir := [], prevDir := [] }, ?_, rfl, rfl, rfl,
    fun t => State.event_sets _ 14 (by decide) t, ?_⟩
  · rw [State.event_cap, State.post41_cap, State.report_cap, (State.writeHeader_writeFrame _ _).cap]
    rfl
  · rw [State.event_plan, State.post41_plan, State.report_plan, (State.writeHeader_writeFrame _ _).plan]

/-! ### Coding a row -/

/-- Where record `x` of a row begins behind the first: the bytes of the records before it. -/
def codedBytes (code : Nat → List Byte) (x : Nat) : Nat := ((List.range x).map fun j => (code j).length).sum

theorem codedBytes_succ (code : Nat → List Byte) (x : Nat) : codedBytes code (x + 1) = codedBytes code x + (code x).length := by
  simp only [codedBytes, List.range_succ, List.map_append, List.map_cons, List.map_nil, List.sum_append, List.sum_cons, List.sum_nil, Nat.add_zero]

theorem codedBytes_mono (code : Nat → List Byte) {x y : Nat} (h : x ≤ y) : codedBytes code x ≤ codedBytes code y := by
  induction h with
  | refl => exact le_rfl
  | step _ ih => exact ih.trans (codedBytes_succ code _ ▸ Nat.le_add_right _ _)

/-- The record of tile `x` of the next tile row of a job in its first frame. -/
def Capture.tileCode (c : Capture) (lines : List (List Nat)) (x : Nat) : List Byte :=
  encodeTile (tileRect c.w c.h (c.rows * tilesX c.w + x)).tw false (lineTile lines (tileRect c.w c.h (c.rows * tilesX c.w + x)))

/-- A tile of the first frame that fits behind the records before it is coded there. -/
theorem CapRun.tile_first (len : Nat) (c : Capture) (lines : List (List Nat)) (a : CapRun) (x : Nat) (hf : a.fail = none) (h0 : c.frames = 0)
    (fits : a.used + (c.tileCode lines x).length ≤ len) : CapRun.tile len c lines a (c.rows * tilesX c.w + x) =
      { a with
        s := a.s.writeBuf c.buf.toNat a.used (c.tileCode lines x) 20
        used := a.used + (c.tileCode lines x).length
        dir := a.dir ++ [a.used] } := by
  have skip : ((none : Option (List Nat)) == some (lineTile lines (tileRect c.w c.h (c.rows * tilesX c.w + x)))) = false := rfl
  simp only [CapRun.tile, hf, h0, Option.isSome_none, Bool.false_eq_true, if_false, if_true, skip]
  exact if_neg (Nat.not_lt.2 fits)

/-- The first `n` tiles of a row have been coded from offset `start` of buffer `b`, and nothing else has changed. -/
structure RowCoded (s : State) (b : Buf) (k start : Nat) (dir : List Nat) (code : Nat → List Byte) (n : Nat) (a : CapRun) : Prop where
  frame : a.s = { s with mem := a.s.mem, dram := a.s.dram, nextOp := a.s.nextOp, bufs := a.s.bufs }
  memWf : Memory.wf a.s.mem = true
  errorFree : a.s.dram.ErrorFree
  buffer : ∃ b', tabFind a.s.bufs.table k = some b' ∧ b'.base = b.base
  used : a.used = start + codedBytes code n
  dir : a.dir = dir ++ (List.range n).map fun x => start + codedBytes code x
  fail : a.fail = none
  written : ∀ x i, x < n → i < (code x).length → Memory.read a.s.mem (b.base + start + codedBytes code x + i) = (code x).getD i 0
  kept : ∀ p, p < b.base + start ∨ b.base + start + codedBytes code n ≤ p → Memory.read a.s.mem p = Memory.read s.mem p

/-- The next record goes behind the others. -/
theorem RowCoded.next {s : State} {b : Buf} {k start : Nat} {dir : List Nat} {code : Nat → List Byte} {n : Nat} {a : CapRun}
    (h : RowCoded s b k start dir code n a) : RowCoded s b k start dir code (n + 1)
      { a with s := a.s.writeBuf k a.used (code n) 20, used := a.used + (code n).length, dir := a.dir ++ [a.used] } := by
  obtain ⟨b', hb', base⟩ := h.buffer
  obtain ⟨dr, op, hdr, hw⟩ := State.writeBuf_errorFree a.s k a.used (code n) 20 b' hb' h.errorFree
  rw [base, h.used, ← Nat.add_assoc] at hw
  have next := codedBytes_succ code n
  rw [h.used, hw]
  refine ⟨by rw [h.frame], Memory.writeN_wf _ _ _ h.memWf, hdr, ⟨_, tabFind_tabPut_same _ _ _, rfl⟩, by simp only [next, Nat.add_assoc], ?_,
    h.fail, fun x i hx hi => ?_, fun p hp => ?_⟩
  · simp only [h.dir, List.range_succ, List.map_append, List.map_cons, List.map_nil, List.append_assoc]
  · rcases Nat.lt_succ_iff_lt_or_eq.1 hx with before | rfl
    · have below : codedBytes code x + (code x).length ≤ codedBytes code n := codedBytes_succ code x ▸ codedBytes_mono code before
      exact (Memory.read_writeN_other _ _ _ _ (by omega)).trans (h.written x i before hi)
    · exact (Memory.read_writeN_same _ _ i (code x) h.memWf hi).trans (List.getD_eq_getElem _ _ hi).symm
  · exact (Memory.read_writeN_other _ _ _ _ (by omega)).trans (h.kept p (by omega))

/-- The tiles of a row that fit are coded one after another. -/
theorem rowCoded_tiles (s : State) (c : Capture) (lines : List (List Nat)) (b : Buf) (start n : Nat) (h0 : c.frames = 0)
    (hb : tabFind s.bufs.table c.buf.toNat = some b) (hw : Memory.wf s.mem = true) (he : s.dram.ErrorFree)
    (fits : start + codedBytes (c.tileCode lines) n ≤ b.len) : RowCoded s b c.buf.toNat start c.dir (c.tileCode lines) n
      (((List.range n).map fun x => c.rows * tilesX c.w + x).foldl (CapRun.tile b.len c lines) { s := s, used := start, dir := c.dir }) := by
  induction n with
  | zero =>
    exact ⟨rfl, hw, he, ⟨b, hb, rfl⟩, rfl, (List.append_nil _).symm, rfl, fun x _ hx => absurd hx (Nat.not_lt_zero x), fun _ _ => rfl⟩
  | succ n ih =>
    have next := codedBytes_succ (c.tileCode lines) n
    have before := ih (by omega)
    rw [List.range_succ, List.map_append, List.foldl_append, List.map_cons, List.map_nil, List.foldl_cons, List.foldl_nil,
      CapRun.tile_first _ _ _ _ _ before.fail h0 (by rw [before.used]; omega)]
    exact before.next

/-! ### The instruction -/

section
variable (s : State) (c : Capture) (differs behind : Bool) (hc : s.cap = some c) (hr : s.stopped = false)
include hc hr

/-- A job that has ended codes nothing. -/
theorem captureTileRow_ended (hs : c.state ≠ 1) : exec (.captureTileRow differs behind) s = .next s := by
  simp only [exec_captureTileRow, execCaptureTileRow, hc, hr]
  exact congrArg _ (if_pos (by rw [decide_eq_true hs]; rfl))

variable (hs : c.state = 1)
include hs

theorem captureTileRow_late (late : behind = true ∧ 64 ≤ c.lines.length) :
    exec (.captureTileRow differs behind) s = .next (s.endCapture 3 3) := by
  simp only [exec_captureTileRow, execCaptureTileRow, hc, hr, hs]
  exact congrArg _ (if_pos late)

variable (late : ¬(behind = true ∧ 64 ≤ c.lines.length))
include late

/-- A row whose lines are not all there waits, and none comes after the last. -/
theorem captureTileRow_waits (hl : c.lines.length < min 32 (c.h - 32 * c.rows) ∨ min 32 (c.h - 32 * c.rows) = 0) :
    exec (.captureTileRow differs behind) s = .next s := by
  simp only [exec_captureTileRow, execCaptureTileRow, hc, hr, hs]
  exact congrArg _ ((if_neg late).trans (if_pos hl))

/-- A row whose lines are there is coded. -/
theorem captureTileRow_codes (hl : min 32 (c.h - 32 * c.rows) ≤ c.lines.length) (hp : 0 < min 32 (c.h - 32 * c.rows)) :
    exec (.captureTileRow differs behind) s = .next (s.captureRow c (min 32 (c.h - 32 * c.rows)) differs) := by
  simp only [exec_captureTileRow, execCaptureTileRow, hc, hr, hs]
  exact congrArg _ ((if_neg late).trans (if_neg (by omega)))

end

/-- Where the next tile row of a job begins: behind the directory in the first row of a frame, else behind the records before (R179). -/
def Capture.rowStart (c : Capture) : Nat := if c.rows = 0 then c.frameStart + 8 * (tilesX c.w * tilesY c.h) else c.used

/-- The job once a tile row of `th` lines has been coded. -/
def Capture.afterRow (c : Capture) (th used : Nat) (dir : List Nat) : Capture :=
  { c with lines := c.lines.drop th, rows := c.rows + 1, used := used, dir := dir }

/-- A row that fits is coded whole; then it fails the job if it does not verify, and ends its frame if it is the last (R183, R184). -/
theorem State.captureRow_first (s : State) (c : Capture) (th : Nat) (b : Buf) (h0 : c.frames = 0)
    (hb : tabFind s.bufs.table c.buf.toNat = some b) (hw : Memory.wf s.mem = true) (he : s.dram.ErrorFree)
    (fits : c.rowStart + codedBytes (c.tileCode (c.lines.take th)) (tilesX c.w) ≤ b.len) :
    ∃ a, RowCoded s b c.buf.toNat c.rowStart c.dir (c.tileCode (c.lines.take th)) (tilesX c.w) a ∧
      ∀ differs, s.captureRow c th differs =
        let u : State := { a.s with cap := some (c.afterRow th a.used a.dir) }
        if differs then u.endCapture 3 1 else if c.rows + 1 = tilesY c.h then u.endCapFrame (c.afterRow th a.used a.dir) else u := by
  have coded := rowCoded_tiles s c (c.lines.take th) b c.rowStart (tilesX c.w) h0 hb hw he fits
  refine ⟨_, coded, fun differs => ?_⟩
  have room : ¬b.len < c.rowStart := by omega
  rw [Capture.rowStart] at coded room ⊢
  simp only [State.captureRow, State.buf?, hb, if_neg room, coded.fail]
  rfl

end Sys2Proof.Machine
end

section
/-! SUPPORT. `CACHE_TILE_ROW_DECODE`: the tiles of a row, and the lines that they make (R177, R179, R186, R187). -/

namespace Sys2Proof.Machine

theorem exec_cacheTileRowDecode (s : State) : exec .cacheTileRowDecode s = execCacheTileRowDecode s := rfl

/-! ### Reading the container -/

theorem State.cacheBytes_readFrame (s : State) (h off n : Nat) : ReadFrame s (s.cacheBytes h off n).1 := by
  simp only [State.cacheBytes]
  split
  · split
    · exact State.readDram_readFrame _ _ _ _
    · exact .refl s
  · exact .refl s

theorem State.cacheBytes_noBuffer {s : State} {h : Nat} (hb : tabFind s.bufs.table h = none) (off n : Nat) :
    s.cacheBytes h off n = (s, none) := by
  simp only [State.cacheBytes, State.buf?, hb]

/-- Bytes within the buffer read from DRAM without errors, and only a request is new. -/
theorem State.cacheBytes_errorFree {s : State} {h off n : Nat} {b : Buf} (hb : tabFind s.bufs.table h = some b) (he : s.dram.ErrorFree)
    (within : off + n ≤ b.len) : ∃ u, s.cacheBytes h off n = (u, some (Memory.readN s.mem (b.base + off) n)) ∧ CleanWrite s u s.mem := by
  simp only [State.cacheBytes, State.buf?, hb, if_pos within, State.readBuf, s.readDram_clean _ _ 20 (he.suspects _ _)]
  exact ⟨_, rfl, s.dramRequest_cleanWrite _ _ _ _ _ _ he⟩

theorem State.cacheTile_readFrame (s : State) (h w ht t off : Nat) : ReadFrame s (s.cacheTile h w ht t off).1 := by
  have head := s.cacheBytes_readFrame h off 4
  simp only [State.cacheTile]
  split
  · exact head
  · split
    · exact head.trans (State.cacheBytes_readFrame _ _ _ _)
    · split <;> exact head.trans (State.cacheBytes_readFrame _ _ _ _)

/-- The bytes of the record at an address, by the length in its header (R80, R179). -/
def tileRecordAt (m : List Host.Cell) (a : Nat) : List Byte := Memory.readN m a (4 + bitsOf (leNat (Memory.readN m a 4)) 31 16)

/-- A record within the buffer that decodes gives its samples. -/
theorem State.cacheTile_errorFree {s : State} {h w ht t off : Nat} {b : Buf} {r : Rec} (hb : tabFind s.bufs.table h = some b)
    (he : s.dram.ErrorFree) (within : off + (tileRecordAt s.mem (b.base + off)).length ≤ b.len)
    (ok : decodeRecord true true w ht (tileRect w ht t) (fun _ _ => 0) (tileRecordAt s.mem (b.base + off)) = .ok r) :
    ∃ u, s.cacheTile h w ht t off = (u, some r.samples) ∧ CleanWrite s u s.mem := by
  rw [tileRecordAt, Memory.length_readN] at within
  obtain ⟨u, head, hu⟩ := State.cacheBytes_errorFree (off := off) (n := 4) hb he (by omega)
  have hbu : tabFind u.bufs.table h = some b := by rw [hu.frame]; exact hb
  obtain ⟨v, body, hv⟩ := State.cacheBytes_errorFree hbu hu.errorFree within
  rw [hu.mem_eq] at body hv
  rw [tileRecordAt] at ok
  simp only [State.cacheTile, head, body, ok]
  exact ⟨_, rfl, hu.trans hv⟩

/-! ### A tile -/

/-- The tile that entry `t` of a frame's directory names, once the frame's index entry has been read (R179, R187). -/
def State.directoryTile (s : State) (p : Plan) (ix : Option (List Byte)) (t : Nat) : State × Option (List Nat) :=
  let x := match ix with
    | some b => s.cacheBytes p.cpBuf (bitsOf (leNat b) 39 0 + 8 * t) 8
    | none => (s, none)
  match x.2 with
  | some e => x.1.cacheTile p.cpBuf p.width p.height t (bitsOf (leNat e) 39 0)
  | none => (x.1, none)

/-- A tile that cannot be decoded counts in CACHE_UE and writes a record (R187). -/
def State.tileLost (s : State) (f row : Nat) : State :=
  (s.report 0x0703 0x1D (f % 2 ^ 18 * 2 ^ 14 + row)).modStatus fun c => { c with cacheUe := c.cacheUe.bump }

/-- The samples of a tile that cannot be decoded. -/
def zeroTile (p : Plan) (t : Nat) : List Nat :=
  List.replicate ((tileRect p.width p.height t).tw * (tileRect p.width p.height t).th) 0

/-- The state and the samples after tile `t` has been played. -/
def State.playTile (s : State) (p : Plan) (f row : Nat) (ix : Option (List Byte)) (t : Nat) : State × List Nat :=
  match (s.directoryTile p ix t).2 with
  | some x => ((s.directoryTile p ix t).1, x)
  | none => ((s.directoryTile p ix t).1.tileLost f row, zeroTile p t)

/-- Playing tiles one after another, from the state and the samples so far. -/
def playTiles (p : Plan) (f row : Nat) (ix : Option (List Byte)) (ts : List Nat) (a : State × List (List Nat)) : State × List (List Nat) :=
  ts.foldl (fun a t => ((a.1.playTile p f row ix t).1, a.2 ++ [(a.1.playTile p f row ix t).2])) a

theorem State.cacheTiles_eq (s : State) (p : Plan) (f row : Nat) (ts : List Nat) : s.cacheTiles p f row ts =
    playTiles p f row (s.cacheBytes p.cpBuf (4096 + 16 * f) 16).2 ts ((s.cacheBytes p.cpBuf (4096 + 16 * f) 16).1, []) := by
  simp only [State.cacheTiles, playTiles]
  generalize s.cacheBytes p.cpBuf (4096 + 16 * f) 16 = x
  obtain ⟨u, ix⟩ := x
  congr 1
  funext a t
  cases ix with
  | none => rfl
  | some b =>
    simp only [State.playTile, State.directoryTile]
    generalize a.1.cacheBytes p.cpBuf (bitsOf (leNat b) 39 0 + 8 * t) 8 = y
    obtain ⟨v, e⟩ := y
    cases e with
    | none => rfl
    | some e =>
      dsimp only
      generalize v.cacheTile p.cpBuf p.width p.height t (bitsOf (leNat e) 39 0) = z
      obtain ⟨z, o⟩ := z
      cases o <;> rfl

section
variable (p : Plan) (f row : Nat) (ix : Option (List Byte))

theorem playTiles_cons (t : Nat) (ts : List Nat) (a : State × List (List Nat)) : playTiles p f row ix (t :: ts) a =
    playTiles p f row ix ts ((a.1.playTile p f row ix t).1, a.2 ++ [(a.1.playTile p f row ix t).2]) := rfl

/-! ### Whatever the container holds -/

/-- What playing tiles may touch: what a read may, and the plan status. -/
def PlayFrame (s u : State) : Prop :=
  u = { s with
    threads := u.threads, queues := u.queues, host := u.host, err := u.err, dram := u.dram, nextOp := u.nextOp, plan := u.plan }

theorem PlayFrame.trans {s u v : State} (h : PlayFrame s u) (k : PlayFrame u v) : PlayFrame s v := by
  rw [PlayFrame] at *
  rw [k, h]

theorem ReadFrame.playFrame {s u : State} (h : ReadFrame s u) : PlayFrame s u := by
  rw [ReadFrame] at h
  rw [PlayFrame, h]

theorem State.directoryTile_readFrame (s : State) (t : Nat) : ReadFrame s (s.directoryTile p ix t).1 := by
  cases ix with
  | none => exact .refl s
  | some b =>
    have entry := s.cacheBytes_readFrame p.cpBuf (bitsOf (leNat b) 39 0 + 8 * t) 8
    simp only [State.directoryTile]
    split
    · exact entry.trans (State.cacheTile_readFrame _ _ _ _ _ _)
    · exact entry

theorem State.tileLost_playFrame (s : State) : PlayFrame s (s.tileLost f row) :=
  (State.report_readFrame s _ _ _).playFrame.trans rfl

theorem State.playTile_playFrame (s : State) (t : Nat) : PlayFrame s (s.playTile p f row ix t).1 := by
  have read := (s.directoryTile_readFrame p ix t).playFrame
  simp only [State.playTile]
  split
  · exact read
  · exact read.trans (State.tileLost_playFrame _ _ _)

theorem playTiles_playFrame (ts : List Nat) (a : State × List (List Nat)) : PlayFrame a.1 (playTiles p f row ix ts a).1 := by
  induction ts generalizing a with
  | nil => exact rfl
  | cons t ts ih => exact (a.1.playTile_playFrame p f row ix t).trans (ih _)

/-! ### A container without its buffer -/

theorem State.playTile_noBuffer {s : State} (hb : tabFind s.bufs.table p.cpBuf = none) (t : Nat) :
    s.playTile p f row ix t = (s.tileLost f row, zeroTile p t) := by
  cases ix <;> simp only [State.playTile, State.directoryTile, State.cacheBytes_noBuffer hb]

/-- Every tile is lost: each counts in ERR_TOTAL, and all samples are 0. -/
theorem playTiles_noBuffer (ts : List Nat) (a : State × List (List Nat)) (hb : tabFind a.1.bufs.table p.cpBuf = none) :
    (playTiles p f row ix ts a).1.err.total = a.1.err.total + BitVec.ofNat 64 ts.length ∧
      (playTiles p f row ix ts a).2 = a.2 ++ ts.map (zeroTile p) := by
  induction ts generalizing a with
  | nil => simp [playTiles]
  | cons t ts ih =>
    have lost : (a.1.tileLost f row).err.total = a.1.err.total + 1 := State.report_total _ _ _ _
    have bufs : (a.1.tileLost f row).bufs = a.1.bufs := State.report_bufs _ _ _ _
    obtain ⟨total, tiles⟩ := ih (a.1.tileLost f row, a.2 ++ [zeroTile p t]) (by rw [bufs]; exact hb)
    rw [playTiles_cons, State.playTile_noBuffer p f row ix hb, total, tiles, lost]
    refine ⟨?_, by simp⟩
    rw [List.length_cons, BitVec.add_assoc, Nat.add_comm ts.length 1, BitVec.ofNat_add]
    rfl

end

/-! ### A container that reads whole -/

theorem bitsOf_low (x n : Nat) : bitsOf x n 0 = x % 2 ^ (n + 1) := by rw [bitsOf, pow_zero, Nat.div_one, Nat.sub_zero]

/-- The offset that the entry of a tile holds, in the directory at `dir` of a container at `base` (R179). -/
def tileEntry (m : List Host.Cell) (base dir t : Nat) : Nat := leNat (Memory.readN m (base + dir + 8 * t) 8) % 2 ^ 40

/-- Tile `t` of the directory at `dir` lies within the buffer and decodes. -/
def TileReads (m : List Host.Cell) (p : Plan) (b : Buf) (dir t : Nat) (r : Rec) : Prop :=
  dir + 8 * t + 8 ≤ b.len ∧ tileEntry m b.base dir t + (tileRecordAt m (b.base + tileEntry m b.base dir t)).length ≤ b.len ∧
    decodeRecord true true p.width p.height (tileRect p.width p.height t) (fun _ _ => 0)
      (tileRecordAt m (b.base + tileEntry m b.base dir t)) = .ok r

/-- Such a tile gives its samples, and only requests are new. -/
theorem State.playTile_errorFree {s : State} (p : Plan) (f row : Nat) {b : Buf} {x : List Byte} {t : Nat} {r : Rec}
    (hb : tabFind s.bufs.table p.cpBuf = some b) (he : s.dram.ErrorFree) (h : TileReads s.mem p b (leNat x % 2 ^ 40) t r) :
    ∃ u, s.playTile p f row (some x) t = (u, r.samples) ∧ CleanWrite s u s.mem := by
  obtain ⟨entryWithin, recordWithin, ok⟩ := h
  obtain ⟨u, entry, hu⟩ := State.cacheBytes_errorFree (n := 8) hb he entryWithin
  have hbu : tabFind u.bufs.table p.cpBuf = some b := by rw [hu.frame]; exact hb
  rw [← hu.mem_eq] at recordWithin ok
  obtain ⟨v, tile, hv⟩ := State.cacheTile_errorFree hbu hu.errorFree recordWithin ok
  rw [hu.mem_eq] at tile hv
  rw [tileEntry, Nat.add_assoc] at tile
  simp only [State.playTile, State.directoryTile, bitsOf_low, entry, tile]
  exact ⟨_, rfl, hu.trans hv⟩

/-- Tiles that all decode give their samples in order. -/
theorem playTiles_errorFree (p : Plan) (f row : Nat) {b : Buf} {x : List Byte} (m : List Host.Cell) (g : Nat → Rec) (ts : List Nat)
    (a : State × List (List Nat)) (hm : a.1.mem = m) (hb : tabFind a.1.bufs.table p.cpBuf = some b) (he : a.1.dram.ErrorFree)
    (h : ∀ t ∈ ts, TileReads m p b (leNat x % 2 ^ 40) t (g t)) :
    CleanWrite a.1 (playTiles p f row (some x) ts a).1 m ∧ (playTiles p f row (some x) ts a).2 = a.2 ++ ts.map fun t => (g t).samples := by
  subst hm
  induction ts generalizing a with
  | nil => exact ⟨.refl he, (List.append_nil _).symm⟩
  | cons t ts ih =>
    obtain ⟨u, played, hu⟩ := State.playTile_errorFree p f row hb he (h t List.mem_cons_self)
    have later := ih (u, a.2 ++ [(g t).samples]) (by rw [hu.frame]; exact hb) hu.errorFree
      (fun y hy => by rw [hu.mem_eq]; exact h y (List.mem_cons_of_mem _ hy))
    obtain ⟨clean, tiles⟩ := later
    rw [hu.mem_eq] at clean
    rw [playTiles_cons, played, tiles]
    exact ⟨hu.trans clean, by simp⟩

end Sys2Proof.Machine
end

section
/-! SUPPORT. The lines of a tile row of the frame cache, and the row as a whole (R77, R177, R186). -/

namespace Sys2Proof.Machine

/-! ### Lines -/

/-- Three codes for each of `n` pixels. -/
def codeTriples (g : Nat → Nat → Nat) (n : Nat) : List Nat := (List.range n).flatMap fun x => (List.range 3).map (g x)

theorem codeTriples_succ (g : Nat → Nat → Nat) (n : Nat) : codeTriples g (n + 1) = codeTriples g n ++ [g n 0, g n 1, g n 2] := by
  simp only [codeTriples, List.range_succ, List.flatMap_append, List.flatMap_singleton]
  rfl

@[simp] theorem length_codeTriples (g : Nat → Nat → Nat) (n : Nat) : (codeTriples g n).length = 3 * n := by
  induction n with
  | zero => rfl
  | succ n ih => rw [codeTriples_succ, List.length_append, ih]; rfl

theorem getD_codeTriples (g : Nat → Nat → Nat) {n x c : Nat} (hx : x < n) (hc : c < 3) : (codeTriples g n).getD (3 * x + c) 0 = g x c := by
  induction n with
  | zero => omega
  | succ n ih =>
    rw [codeTriples_succ]
    rcases Nat.lt_succ_iff_lt_or_eq.1 hx with before | rfl
    · rw [List.getD_append _ _ _ _ (by rw [length_codeTriples]; omega)]
      exact ih before
    · rw [List.getD_append_right _ _ _ _ (by rw [length_codeTriples]; omega), length_codeTriples, Nat.add_sub_cancel_left]
      match c, hc with
      | 0, _ => rfl
      | 1, _ => rfl
      | 2, _ => rfl

/-- The sample of pixel `x` in line `y` of a tile row. -/
def rowSample (p : Plan) (row : Nat) (tiles : List (List Nat)) (y x : Nat) : Nat :=
  (tiles.getD (x / 32) []).getD (y * (tileRect p.width p.height (row * tilesX p.width + x / 32)).tw + x % 32) 0

theorem rowLine_eq (p : Plan) (row : Nat) (tiles : List (List Nat)) (y : Nat) :
    rowLine p row tiles y = codeTriples (fun x c => comp (rowSample p row tiles y x) c) p.width := rfl

theorem getD_of_zeros {l : List Nat} (h : ∀ v ∈ l, v = 0) (i : Nat) : l.getD i 0 = 0 := by
  rw [List.getD_eq_getElem?_getD]
  cases hi : l[i]? with
  | none => rfl
  | some v => exact h v (List.mem_of_getElem? hi)

/-- Tiles without light make lines without light. -/
theorem rowLine_zero (p : Plan) (row : Nat) (tiles : List (List Nat)) (y : Nat) (h : ∀ l ∈ tiles, ∀ v ∈ l, v = 0) :
    ∀ v ∈ rowLine p row tiles y, v = 0 := by
  have zero : ∀ x, rowSample p row tiles y x = 0 := by
    intro x
    refine getD_of_zeros (fun v hv => ?_) _
    rw [List.getD_eq_getElem?_getD] at hv
    cases hx : tiles[x / 32]? with
    | none => simp [hx] at hv
    | some l =>
      rw [hx] at hv
      exact h l (List.mem_of_getElem? hx) v hv
  intro v hv
  simp only [rowLine_eq, zero, codeTriples, List.mem_flatMap, List.mem_map] at hv
  obtain ⟨x, -, c, -, rfl⟩ := hv
  simp [comp]

/-- Lines put into a table are found there, and none else is new. -/
theorem tabFind_putLines (g : Nat → List Nat) (k : Nat) (ys : List Nat) (l : List (Nat × List Nat)) (y : Nat) :
    tabFind (ys.foldl (fun l y => tabPut l (k + y) (g y)) l) (k + y) = if y ∈ ys then some (g y) else tabFind l (k + y) := by
  induction ys generalizing l with
  | nil => simp
  | cons z ys ih =>
    rw [List.foldl_cons, ih]
    by_cases hz : y = z
    · subst hz
      simp
    · rw [tabFind_tabPut_other _ _ _ _ (by omega)]
      simp [hz]

/-! ### The row -/

/-- The next tile row of the frame that plays: the state after its tiles, and their samples. -/
def State.playRow (s : State) (p : Plan) : State × List (List Nat) :=
  s.cacheTiles p (p.cacheFrame (s.plan.w0.getD s.wallFrame) s.wallFrame) s.out.cacheRow
    ((List.range (tilesX p.width)).map fun x => s.out.cacheRow * tilesX p.width + x)

/-- The lines of a tile row whose send line is still to come. -/
def rowYs (p : Plan) (row line : Nat) : List Nat :=
  (List.range (min 32 (p.height - 32 * row))).filter fun y => decide (line < p.vbl + (32 * row + y))

theorem mem_rowYs (p : Plan) (row line y : Nat) :
    y ∈ rowYs p row line ↔ y < min 32 (p.height - 32 * row) ∧ line < p.vbl + (32 * row + y) := by
  rw [rowYs, List.mem_filter, List.mem_range, decide_eq_true_eq]

/-- The state once the row has been played and its lines wait for the lane packer. -/
def State.rowPlayed (s : State) (p : Plan) : State :=
  (s.playRow p).1.modOut fun o => { o with
    cacheRow := s.out.cacheRow + 1
    lines := (rowYs p s.out.cacheRow (s.playRow p).1.tg0.line).foldl
      (fun l y => tabPut l (32 * s.out.cacheRow + y) (rowLine p s.out.cacheRow (s.playRow p).2 y)) o.lines }

section
variable (s : State) (p : Plan)

theorem State.playRow_playFrame : PlayFrame s (s.playRow p).1 := by
  rw [State.playRow, State.cacheTiles_eq]
  exact (s.cacheBytes_readFrame _ _ _).playFrame.trans (playTiles_playFrame _ _ _ _ _ _)

theorem State.rowPlayed_frame : (s.rowPlayed p).mem = s.mem ∧ (s.rowPlayed p).tg0 = s.tg0 ∧ (s.rowPlayed p).out.frame = s.out.frame := by
  have frame := s.playRow_playFrame p
  rw [PlayFrame] at frame
  rw [State.rowPlayed, frame]
  exact ⟨rfl, rfl, rfl⟩

/-- With no line held before, exactly the lines of the row are held whose send line is still to come. -/
theorem State.rowPlayed_line (hl : s.out.lines = []) (y : Nat) : tabFind (s.rowPlayed p).out.lines (32 * s.out.cacheRow + y) =
    if y < min 32 (p.height - 32 * s.out.cacheRow) ∧ s.tg0.line < p.vbl + (32 * s.out.cacheRow + y) then
      some (rowLine p s.out.cacheRow (s.playRow p).2 y) else none := by
  have frame := s.playRow_playFrame p
  have hout : (s.playRow p).1.out = s.out := by rw [frame]
  have htg : (s.playRow p).1.tg0 = s.tg0 := by rw [frame]
  simp only [State.rowPlayed, State.modOut, hout, htg, hl, tabFind_putLines, mem_rowYs, tabFind]

/-- Over a container without its buffer every tile of the row is lost. -/
theorem State.playRow_noBuffer (hb : tabFind s.bufs.table p.cpBuf = none) :
    (s.playRow p).1.err.total = s.err.total + BitVec.ofNat 64 (tilesX p.width) ∧ ∀ l ∈ (s.playRow p).2, ∀ v ∈ l, v = 0 := by
  rw [State.playRow, State.cacheTiles_eq, State.cacheBytes_noBuffer hb]
  obtain ⟨total, tiles⟩ := playTiles_noBuffer p (p.cacheFrame (s.plan.w0.getD s.wallFrame) s.wallFrame) s.out.cacheRow none
    ((List.range (tilesX p.width)).map fun x => s.out.cacheRow * tilesX p.width + x) (s, []) hb
  rw [total, tiles, List.length_map, List.length_range]
  refine ⟨rfl, fun l hl => ?_⟩
  obtain ⟨t, -, rfl⟩ := List.mem_map.1 hl
  exact fun v hv => List.eq_of_mem_replicate hv

/-- Where the directory of the frame that plays lies in the container at `base`, by its index entry (R179). -/
def State.playedDir (s : State) (p : Plan) (base : Nat) : Nat :=
  leNat (Memory.readN s.mem (base + (4096 + 16 * p.cacheFrame (s.plan.w0.getD s.wallFrame) s.wallFrame)) 16) % 2 ^ 40

/-- Tiles that all decode give the samples of the row, and only requests are new. -/
theorem State.playRow_errorFree (b : Buf) (hb : tabFind s.bufs.table p.cpBuf = some b) (he : s.dram.ErrorFree)
    (index : 4096 + 16 * p.cacheFrame (s.plan.w0.getD s.wallFrame) s.wallFrame + 16 ≤ b.len)
    (h : ∀ x, x < tilesX p.width → ∃ r, TileReads s.mem p b (s.playedDir p b.base) (s.out.cacheRow * tilesX p.width + x) r) :
    CleanWrite s (s.playRow p).1 s.mem ∧ ∀ x r, x < tilesX p.width →
      TileReads s.mem p b (s.playedDir p b.base) (s.out.cacheRow * tilesX p.width + x) r → (s.playRow p).2.getD x [] = r.samples := by
  choose! g reads using h
  obtain ⟨u, entry, hu⟩ := State.cacheBytes_errorFree hb he index
  obtain ⟨clean, tiles⟩ := playTiles_errorFree p (p.cacheFrame (s.plan.w0.getD s.wallFrame) s.wallFrame) s.out.cacheRow s.mem
    (fun t => g (t - s.out.cacheRow * tilesX p.width))
    ((List.range (tilesX p.width)).map fun x => s.out.cacheRow * tilesX p.width + x) (u, []) hu.mem_eq (by rw [hu.frame]; exact hb)
    hu.errorFree (fun t ht => by
      obtain ⟨x, hx, rfl⟩ := List.mem_map.1 ht
      rw [Nat.add_sub_cancel_left]
      exact reads x (List.mem_range.1 hx))
  rw [State.playRow, State.cacheTiles_eq, entry]
  refine ⟨hu.trans clean, fun x r hx hr => ?_⟩
  have same : g x = r := by
    obtain ⟨-, -, one⟩ := reads x hx
    obtain ⟨-, -, other⟩ := hr
    exact Except.ok.inj (one.symm.trans other)
  rw [tiles, List.nil_append, List.map_map, List.getD_eq_getElem _ _ (by simpa using hx)]
  simp [same]

end

/-! ### The instruction -/

section
variable (s : State) (g : Gov) (hrun : s.tgRuns 0 = true) (hcur : s.plan.cur = some g) (hmode : g.plan.outMode = 2)
include hrun hcur

/-- After the last tile row of the frame none is decoded. -/
theorem cacheTileRowDecode_end (hrow : tilesY g.plan.height ≤ s.out.cacheRow) : exec .cacheTileRowDecode s = .next s := by
  simp only [exec_cacheTileRowDecode, execCacheTileRowDecode, hrun, if_true, hcur]
  exact congrArg _ (if_pos (.inr (.inl hrow)))

include hmode

/-- With no lines held the next tile row is decoded. -/
theorem cacheTileRowDecode_next (hrow : s.out.cacheRow < tilesY g.plan.height) (hl : s.out.lines = []) :
    exec .cacheTileRowDecode s = .next (s.rowPlayed g.plan) := by
  simp only [exec_cacheTileRowDecode, execCacheTileRowDecode, hrun, if_true, hcur, hl]
  exact congrArg _ (if_neg (by omega))

end

end Sys2Proof.Machine
end

section
/-! PROOF. O59: a tile row of a capture job, and a tile row of the frame that plays. -/

open Sys2Proof Sys2Proof.Machine

/-- Settles O59: the tiles of a captured row are coded one behind the other, by induction over them; the tiles of a played row each read
their directory entry and record, or count as lost. -/
theorem frameCache : Obligations.FrameCache := by
  unfold Obligations.FrameCache
  refine ⟨fun s c differs behind hc hr => ⟨fun hs => captureTileRow_ended s c differs behind hc hr hs, fun hs => ?_⟩,
    fun s g hrun hcur hmode => ⟨fun hrow => cacheTileRowDecode_end s g hrun hcur hrow, fun hrow hl =>
      ⟨?_, fun b hb hbad hfaults hlost index => ?_⟩⟩⟩
  · refine ⟨fun late => ?_, fun late hl => captureTileRow_waits s c differs behind hc hr hs late hl,
      fun b late hl hp hb h0 hcanon hbad hfaults hlost fits => ?_⟩
    · obtain ⟨x, facts⟩ := s.endCapture_failed c 3 hc hs
      exact ⟨_, x, captureTileRow_late s c differs behind hc hr hs late, facts⟩
    · have codes := captureTileRow_codes s c differs behind hc hr hs late hl hp
      obtain ⟨a, coded, eq⟩ := s.captureRow_first c (min 32 (c.h - 32 * c.rows)) b h0 hb hcanon.1 ⟨hbad, hfaults, hlost⟩ fits
      rw [eq] at codes
      have plan : a.s.plan = s.plan := by rw [coded.frame]
      have err : a.s.err = s.err := by rw [coded.frame]
      refine ⟨fun hd => ?_, fun hd more => ?_⟩
      · subst hd
        obtain ⟨x, cap, state, reason, frames, told, kept⟩ := State.endCapture_failed
          { a.s with cap := some (c.afterRow (min 32 (c.h - 32 * c.rows)) a.used a.dir) } _ 1 rfl hs
        exact ⟨_, x, codes, cap, state, reason, frames, told, kept.trans plan⟩
      · subst hd
        exact ⟨_, codes.trans (congrArg _ (if_neg more.ne)), congrArg₂ (fun u d => some (c.afterRow _ u d)) coded.used coded.dir,
          coded.written, coded.kept, plan, err⟩
  · refine ⟨_, cacheTileRowDecode_next s g hrun hcur hmode hrow hl, rfl, ?_⟩
    obtain ⟨mem, tg0, frame⟩ := s.rowPlayed_frame g.plan
    refine ⟨mem, tg0, frame, fun y hy hsend => ⟨_, (s.rowPlayed_line g.plan hl y).trans (if_pos ⟨hy, hsend⟩), ?_⟩, fun hb => ?_⟩
    · rw [rowLine_eq, length_codeTriples]
    · obtain ⟨total, zero⟩ := s.playRow_noBuffer g.plan hb
      refine ⟨total, fun y l found => ?_⟩
      rw [s.rowPlayed_line g.plan hl y] at found
      split at found
      · cases found
        exact rowLine_zero _ _ _ _ zero
      · cases found
  · intro entry record base tiles
    have dir : s.playedDir g.plan b.base = base := by rw [State.playedDir, ← Nat.add_assoc]; rfl
    obtain ⟨clean, samples⟩ := s.playRow_errorFree g.plan b hb ⟨hbad, hfaults, hlost⟩ index fun x hx => by
      obtain ⟨entryWithin, recordWithin, r, ok⟩ := tiles x hx
      exact ⟨r, dir ▸ ⟨entryWithin, recordWithin, ok⟩⟩
    have err : (s.playRow g.plan).1.err = s.err := by rw [clean.frame]
    refine ⟨_, cacheTileRowDecode_next s g hrun hcur hmode hrow hl, err, fun y x r hy hx hsend hr =>
      ⟨_, (s.rowPlayed_line g.plan hl y).trans (if_pos ⟨hy, hsend⟩), fun c hc => ?_⟩⟩
    have inside : x / 32 < tilesX g.plan.width := by simp only [tilesX, ceilDiv]; omega
    obtain ⟨entryWithin, recordWithin, -⟩ := tiles (x / 32) inside
    rw [rowLine_eq, getD_codeTriples _ hx hc, rowSample, samples (x / 32) r inside (dir ▸ ⟨entryWithin, recordWithin, hr⟩)]

end

section
/-! SUPPORT. The states of the plan slots by the roles of their plans (Table 08-4), and the choice at an arming point (R200, R207, R209). -/

namespace Sys2Proof.Machine

/-! ### Roles of slots -/

/-- The slot of the fall-back of the plan in a slot. -/
def State.fbOf (s : State) (i : Option (Fin 8)) : Option (Fin 8) :=
  i.bind fun i =>
    let p := s.plan.slots[i].plan
    if p.hasFb then (if h : p.fbSlot < 8 then some ⟨p.fbSlot, h⟩ else none) else none

theorem State.fbOf_eq_some_iff (s : State) (i j : Fin 8) :
    s.fbOf (some i) = some j ↔ s.plan.slots[i].plan.hasFb = true ∧ s.plan.slots[i].plan.fbSlot = j.val := by
  have hj := j.isLt
  simp only [State.fbOf, Option.bind_some]
  generalize s.plan.slots[i].plan = p
  split
  · rename_i has
    split
    · simp [has, Fin.ext_iff]
    · simp only [reduceCtorEq, false_iff]
      omega
  · rename_i none
    simp [none]

/-- The state that the roles of the plans give the slot of a plan. -/
def State.role (s : State) (i : Fin 8) : SlotState :=
  if s.plan.prim = some i then .inForce
  else if s.fbOf s.plan.prim = some i then (if s.plan.next.any fun g => g.kind == .fallback then .fbInForce else .standby)
  else if s.plan.armed = some i then .armed
  else if s.fbOf s.plan.armed = some i then .standby
  else .loaded

theorem State.restate_slot (s : State) (i : Fin 8) : s.restate.plan.slots[i] =
    if s.plan.slots[i].st = .empty then s.plan.slots[i] else { s.plan.slots[i] with st := s.role i } := by
  simp only [State.restate, Fin.getElem_fin, Vector.getElem_ofFn]
  rfl

theorem State.restate_frame (s : State) : s.restate = { s with plan := { s.plan with slots := s.restate.plan.slots } } := rfl

/-- A slot with a plan has the state of its role. -/
theorem State.restate_st {s : State} {i : Fin 8} (h : s.plan.slots[i].st ≠ .empty) : s.restate.plan.slots[i].st = s.role i := by
  rw [State.restate_slot, if_neg h]

theorem State.restate_inForce {s : State} {i : Fin 8} (h : s.plan.prim = some i) (hst : s.plan.slots[i].st ≠ .empty) :
    s.restate.plan.slots[i].st = .inForce := (State.restate_st hst).trans (if_pos h)

/-! ### What a choice may touch -/

/-- What the choice of a plan may touch: the selected plan, the plan of the next frame, the marks of the trigger episode and of lost units,
and what a record touches. -/
def SelectFrame (s u : State) : Prop :=
  u = { s with
    threads := u.threads, queues := u.queues, host := u.host, err := u.err, svc := u.svc
    plan := { s.plan with prim := u.plan.prim, next := u.plan.next, episode := u.plan.episode, trig := u.plan.trig } }

theorem SelectFrame.trans {s u v : State} (h : SelectFrame s u) (k : SelectFrame u v) : SelectFrame s v := by
  rw [SelectFrame] at *
  rw [k, h]

theorem SelectFrame.plan {s u : State} (h : SelectFrame s u) : u.plan =
    { s.plan with prim := u.plan.prim, next := u.plan.next, episode := u.plan.episode, trig := u.plan.trig } := congrArg State.plan h

theorem SelectFrame.armed {s u : State} (h : SelectFrame s u) : u.plan.armed = s.plan.armed := by
  rw [h.plan]

theorem State.planItem_frame (s : State) (e : Nat) (t : Option Nat) (i : Fin 8) (a : Nat) (id : BitVec 32) (n : Nat) :
    s.planItem e t i a id n = { s with
      threads := (s.planItem e t i a id n).threads, queues := (s.planItem e t i a id n).queues
      host := (s.planItem e t i a id n).host } := State.post41_frame _ _

theorem State.planItem_eventsKept (s : State) (e : Nat) (t : Option Nat) (i : Fin 8) (a : Nat) (id : BitVec 32) (n : Nat) :
    EventsKept s (s.planItem e t i a id n) := State.post41_eventsKept _ _

theorem State.event_eventsKept (s : State) (b : Nat) : EventsKept s (s.event b) := State.eventFor_eventsKept _ _ _

/-! ### The use of another plan than the selected one -/

theorem State.useOther_frame (s : State) (k : GovKind) (t : Option Nat) (i : Fin 8) (a n : Nat) : s.useOther k t i a n = { s with
    threads := (s.useOther k t i a n).threads, queues := (s.useOther k t i a n).queues
    host := (s.useOther k t i a n).host, err := (s.useOther k t i a n).err } := by
  cases k with
  | primary => rfl
  | fallback => simp only [State.useOther]; rw [State.planItem_frame, State.report_frame]
  | minimal => simp only [State.useOther]; rw [State.event_frame, State.planItem_frame, State.report_frame]

theorem State.useOther_eventsKept (s : State) (k : GovKind) (t : Option Nat) (i : Fin 8) (a n : Nat) :
    EventsKept s (s.useOther k t i a n) := by
  cases k with
  | primary => exact .refl s
  | fallback => exact (State.report_eventsKept _ _ _ _).trans (State.planItem_eventsKept _ _ _ _ _ _ _)
  | minimal =>
    exact ((State.report_eventsKept _ _ _ _).trans (State.planItem_eventsKept _ _ _ _ _ _ _)).trans (State.event_eventsKept _ _)

/-- A fall-back or minimal plan that begins has its record (R207, R530). -/
theorem State.useOther_total (s : State) (k : GovKind) (t : Option Nat) (i : Fin 8) (a n : Nat) (h : k ≠ .primary) :
    (s.useOther k t i a n).err.total = s.err.total + 1 := by
  cases k with
  | primary => exact absurd rfl h
  | fallback => simp only [State.useOther]; rw [State.planItem_frame]; exact State.report_total _ _ _ _
  | minimal => simp only [State.useOther]; rw [State.event_frame, State.planItem_frame]; exact State.report_total _ _ _ _

/-- A plan of kind `k` in slot `slot` is the choice for frame `n`, in place of one of kind `was` (R200, R209). -/
def State.useAs (s : State) (sel : Fin 8) (t : Option Nat) (was : GovKind) (newly : Bool) (n : Nat) (k : GovKind) (slot : Fin 8)
    (adm : Nat) : State :=
  let s := { s with plan := { s.plan with prim := some sel, next := some (s.govOf k sel slot newly) } }
  if k = was then s
  else (if was = .primary then { s with plan := { s.plan with episode := false } } else s).useOther k t sel adm n

theorem State.useFallback_eq (s : State) (sel : Fin 8) (t : Option Nat) (was : GovKind) (newly : Bool) (n : Nat) :
    s.useFallback sel t was newly n =
      match s.fbSlot s.plan.slots[sel].plan with
      | some f =>
        if s.recheck true f.plan = 0 then s.useAs sel t was newly n .fallback (Fin.ofNat 8 s.plan.slots[sel].plan.fbSlot) 0
        else s.useAs sel t was newly n .minimal sel (s.recheck true f.plan)
      | none =>
        if s.recheck false s.plan.slots[sel].plan = 0 then s.useAs sel t was newly n .primary sel 0
        else s.useAs sel t was newly n .minimal sel 0 := rfl

/-- From `s` to `u` slot `sel` is selected, within the frame of a choice, and no event bit is cleared. -/
structure Selected (s u : State) (sel : Fin 8) : Prop where
  frame : SelectFrame s u
  prim : u.plan.prim = some sel
  events : EventsKept s u

theorem Selected.after {s u v : State} {sel : Fin 8} (h : SelectFrame s u) (e : EventsKept s u) (k : Selected u v sel) :
    Selected s v sel := ⟨h.trans k.frame, k.prim, e.trans k.events⟩

section
variable (s : State) (sel : Fin 8) (t : Option Nat) (was : GovKind) (newly : Bool) (n : Nat)

theorem State.useAs_selected (k : GovKind) (slot : Fin 8) (adm : Nat) : Selected s (s.useAs sel t was newly n k slot adm) sel := by
  simp only [State.useAs]
  split
  · exact ⟨rfl, rfl, .of_threads rfl⟩
  · split
    · refine ⟨?_, ?_, .congr (State.useOther_eventsKept _ _ _ _ _ _) rfl rfl⟩
      · rw [State.useOther_frame]; rfl
      · rw [State.useOther_frame]
    · refine ⟨?_, ?_, .congr (State.useOther_eventsKept _ _ _ _ _ _) rfl rfl⟩
      · rw [State.useOther_frame]; rfl
      · rw [State.useOther_frame]

theorem State.useAs_next (k : GovKind) (slot : Fin 8) (adm : Nat) :
    (s.useAs sel t was newly n k slot adm).plan.next = some (s.govOf k sel slot newly) := by
  simp only [State.useAs]
  split
  · rfl
  · rw [State.useOther_frame]
    split <;> rfl

/-- The use of a fall-back or minimal plan that begins under a plan of its own has its record. -/
theorem State.useAs_total (k : GovKind) (slot : Fin 8) (adm : Nat) (hk : k ≠ .primary) :
    (s.useAs sel t .primary newly n k slot adm).err.total = s.err.total + 1 := by
  simp only [State.useAs, if_neg hk, if_true]
  exact State.useOther_total _ _ _ _ _ _ hk

/-- The minimal plan that begins sets PLAN_REFUSED in every thread's event word (Table 09-2). -/
theorem State.useAs_minimal_event (slot : Fin 8) (adm : Nat) (v : Tid) :
    ((s.useAs sel t .primary newly n .minimal slot adm).thread v).evt.getLsbD 3 = true := by
  simp only [State.useAs, reduceCtorEq, if_false, if_true, State.useOther]
  exact State.event_sets _ 3 (by decide) v

theorem State.useFallback_selected : Selected s (s.useFallback sel t was newly n) sel := by
  rw [State.useFallback_eq]
  split
  · split <;> exact State.useAs_selected _ _ _ _ _ _ _ _ _
  · split <;> exact State.useAs_selected _ _ _ _ _ _ _ _ _

end

/-! ### The choice once the selected plan is known -/

/-- Without a trigger a primary plan runs on (R200). -/
theorem State.useSelected_untriggered {s : State} {sel : Fin 8} {g : Gov} (hn : s.plan.next = some g) (hk : g.kind = .primary)
    (ht : s.trigger s.plan.slots[sel].plan = none) (n : Nat) : s.useSelected sel false n =
      { s with plan := { s.plan with prim := some sel, next := some (s.govOf .primary sel sel false) } } := by
  simp only [State.useSelected, hn, hk, ht, Bool.false_eq_true, if_false, if_true]

/-- Under a trigger the choice is among the fall-back of a primary plan, the plan itself and the minimal plan (R200, R207). -/
theorem State.useSelected_triggered {s : State} {sel : Fin 8} {g : Gov} {t : Nat} (hn : s.plan.next = some g) (hk : g.kind = .primary)
    (ht : s.trigger s.plan.slots[sel].plan = some t) (n : Nat) :
    s.useSelected sel false n = s.useFallback sel (some t) .primary false n := by
  simp only [State.useSelected, hn, hk, ht, Bool.false_eq_true, if_false]

/-- A newly selected plan runs when no trigger but those of lost units is active (R200, Table 08-10). -/
theorem State.useSelected_newly (s : State) (sel : Fin 8) (n : Nat) (h : s.clearLost.trigger s.plan.slots[sel].plan = none) :
    s.useSelected sel true n =
      { s.clearLost with plan := { s.clearLost.plan with prim := some sel, next := some (s.govOf .primary sel sel true) } } := by
  simp only [State.useSelected, if_true, h]
  rfl

theorem State.clearLost_selectFrame (s : State) : SelectFrame s s.clearLost := rfl

/-- Record 0x0802 of a trigger episode: the plan selected may not take over again (R209). -/
def State.refuseReturn (s : State) (c : Nat) (id : BitVec 32) : State :=
  if s.plan.episode then s
  else { s.report 0x0802 0x11 (c * 2 ^ 32 + id.toNat) with plan := { s.plan with episode := true } }

theorem State.refuseReturn_selectFrame (s : State) (c : Nat) (id : BitVec 32) : SelectFrame s (s.refuseReturn c id) := by
  simp only [State.refuseReturn]
  split
  · rfl
  · rw [State.report_frame]; rfl

theorem State.refuseReturn_eventsKept (s : State) (c : Nat) (id : BitVec 32) : EventsKept s (s.refuseReturn c id) := by
  simp only [State.refuseReturn]
  split
  · exact .refl s
  · exact (State.report_eventsKept s _ _ _).congr rfl rfl

/-- The choice of the plan for a frame selects the plan. -/
theorem State.useSelected_selected (s : State) (sel : Fin 8) (newly : Bool) (n : Nat) : Selected s (s.useSelected sel newly n) sel := by
  simp only [State.useSelected]
  generalize (if newly = true then GovKind.primary else match s.plan.next with | some g => g.kind | none => .primary) = was
  generalize hs : (if newly = true then s.clearLost else s) = u
  have cleared : SelectFrame s u ∧ EventsKept s u := by
    rw [← hs]
    split
    · exact ⟨rfl, .of_threads rfl⟩
    · exact ⟨rfl, .refl s⟩
  refine Selected.after cleared.1 cleared.2 ?_
  split
  · exact u.useFallback_selected _ _ _ _ _
  · have runs : Selected u { u with plan := { u.plan with prim := some sel, next := some (u.govOf .primary sel sel newly) } } sel :=
      ⟨rfl, rfl, .of_threads rfl⟩
    split
    · exact runs
    · split
      · refine ⟨runs.frame.trans ?_, ?_, runs.events.trans (State.planItem_eventsKept _ _ _ _ _ _ _)⟩
        · rw [State.planItem_frame]; rfl
        · rw [State.planItem_frame]
      · exact Selected.after (u.refuseReturn_selectFrame _ _) (u.refuseReturn_eventsKept _ _) (State.useFallback_selected _ _ _ _ _ _)

/-! ### The arming point -/

/-- No plan is armed any more. -/
def State.disarm (s : State) : State := { s with plan := { s.plan with armed := none, armedAt := none } }

/-- The plan selected, if there is one, stays selected. -/
def State.staySelected (s : State) (n : Nat) : State :=
  match s.plan.prim with
  | some i => s.useSelected i false n
  | none => s

/-- The armed plan in slot `a` is refused with code `c` and is armed no more (R200). -/
def State.refuseArmed (s : State) (a : Fin 8) (c n : Nat) : State :=
  let x := s.plan.slots[a].plan
  ((s.disarm.report 0x0801 0x11 (c * 2 ^ 32 + x.planId.toNat)).planItem 1 none a c x.planId n).event 3

/-- The armed plan is due for frame `n`. -/
def PlanSt.due (p : PlanSt) (n : Nat) : Bool := match p.armedAt with | some f => decide (f ≤ n) | none => true

theorem PlanSt.due_iff (p : PlanSt) (n : Nat) : p.due n = true ↔ ∀ f, p.armedAt = some f → f ≤ n := by
  simp only [PlanSt.due]
  cases p.armedAt <;> simp

/-- The choice of the plan for frame `n` (R200). -/
def State.choosePlan (s : State) (n : Nat) : State :=
  match s.plan.armed with
  | none => s.staySelected n
  | some a =>
    if s.plan.due n then
      if s.recheckArmed s.plan.slots[a].plan = 0 then s.disarm.useSelected a true n
      else (s.refuseArmed a (s.recheckArmed s.plan.slots[a].plan) n).staySelected n
    else s.staySelected n

/-- An arming point chooses the plan, and then the slots take the states of their roles. -/
theorem State.armingPoint_eq (s : State) (n : Nat) : s.armingPoint n = (s.choosePlan n).restate := by
  refine congrArg State.restate ?_
  simp only [State.choosePlan]
  cases ha : s.plan.armed with
  | none => rfl
  | some a =>
    cases hd : s.plan.due n with
    | false => exact if_pos (show (!s.plan.due n) = true by rw [hd]; rfl)
    | true => exact if_neg (show ¬(!s.plan.due n) = true by rw [hd]; decide)

/-- Without an armed plan the selected one stays selected. -/
theorem State.choosePlan_unarmed {s : State} {i : Fin 8} (h : s.plan.armed = none) (hp : s.plan.prim = some i) (n : Nat) :
    s.choosePlan n = s.useSelected i false n := by
  simp only [State.choosePlan, h, State.staySelected, hp]

section
variable {s : State} {a : Fin 8} {n : Nat} (h : s.plan.armed = some a) (hd : s.plan.due n = true)
include h hd

theorem State.choosePlan_passes (hc : s.recheckArmed s.plan.slots[a].plan = 0) : s.choosePlan n = s.disarm.useSelected a true n := by
  simp only [State.choosePlan, h, hd, hc, if_true]

theorem State.choosePlan_refuses (hc : s.recheckArmed s.plan.slots[a].plan ≠ 0) :
    s.choosePlan n = (s.refuseArmed a (s.recheckArmed s.plan.slots[a].plan) n).staySelected n := by
  simp only [State.choosePlan, h, hd, hc, if_true, if_false]

end

theorem State.staySelected_facts (s : State) (n : Nat) : SelectFrame s (s.staySelected n) ∧ EventsKept s (s.staySelected n) ∧
    (s.staySelected n).plan.prim = s.plan.prim := by
  simp only [State.staySelected]
  split
  · rename_i i hi
    obtain ⟨frame, prim, events⟩ := s.useSelected_selected i false n
    exact ⟨frame, events, prim.trans hi.symm⟩
  · exact ⟨rfl, .refl s, rfl⟩

theorem State.refuseArmed_plan (s : State) (a : Fin 8) (c n : Nat) : (s.refuseArmed a c n).plan = s.disarm.plan := by
  simp only [State.refuseArmed]
  rw [State.event_frame, State.planItem_frame, State.report_frame]

/-- A refused plan sets PLAN_REFUSED in every thread's event word (Table 09-2). -/
theorem State.refuseArmed_event (s : State) (a : Fin 8) (c n : Nat) (t : Tid) : ((s.refuseArmed a c n).thread t).evt.getLsbD 3 = true :=
  State.event_sets _ 3 (by decide) t

/-! ### What the choice under a trigger gives the next frame -/

theorem State.fbSlot_some (s : State) {p : Plan} {j : Fin 8} (h : p.hasFb = true) (hj : p.fbSlot = j.val) :
    s.fbSlot p = some s.plan.slots[j] := by
  simp only [State.fbSlot, h, if_true, hj, dif_pos j.isLt, Fin.getElem_fin]

theorem State.fbSlot_none (s : State) {p : Plan} (h : p.hasFb = false) : s.fbSlot p = none := by
  simp only [State.fbSlot, h, Bool.false_eq_true, if_false]

section
variable (s : State) (i : Fin 8) (t n : Nat)

/-- A fall-back that passes is used, with its record (R207). -/
theorem State.useFallback_fallback {j : Fin 8} (h : s.plan.slots[i].plan.hasFb = true) (hj : s.plan.slots[i].plan.fbSlot = j.val)
    (hc : s.recheck true s.plan.slots[j].plan = 0) : let u := s.useFallback i (some t) .primary false n
    u.plan.next = some (s.govOf .fallback i j false) ∧ u.err.total = s.err.total + 1 := by
  have slot : Fin.ofNat 8 s.plan.slots[i].plan.fbSlot = j := Fin.ext (by rw [hj]; exact Nat.mod_eq_of_lt j.isLt)
  simp only [State.useFallback_eq, s.fbSlot_some h hj, hc, if_true, slot]
  exact ⟨State.useAs_next _ _ _ _ _ _ _ _ _, State.useAs_total _ _ _ _ _ _ _ _ (by decide)⟩

/-- The minimal plan is used where the fall-back fails, with its record and PLAN_REFUSED (R207, R530). -/
theorem State.useFallback_minimal {j : Fin 8} (h : s.plan.slots[i].plan.hasFb = true) (hj : s.plan.slots[i].plan.fbSlot = j.val)
    (hc : s.recheck true s.plan.slots[j].plan ≠ 0) : let u := s.useFallback i (some t) .primary false n
    u.plan.next = some (s.govOf .minimal i i false) ∧ u.err.total = s.err.total + 1 ∧
      ∀ v : Tid, (u.thread v).evt.getLsbD 3 = true := by
  simp only [State.useFallback_eq, s.fbSlot_some h hj, hc, if_false]
  exact ⟨State.useAs_next _ _ _ _ _ _ _ _ _, State.useAs_total _ _ _ _ _ _ _ _ (by decide),
    State.useAs_minimal_event _ _ _ _ _ _ _⟩

/-- Without a fall-back the plan itself runs if it passes, else the minimal plan (R200). -/
theorem State.useFallback_alone (h : s.plan.slots[i].plan.hasFb = false) : (s.useFallback i (some t) .primary false n).plan.next =
    some (s.govOf (if s.recheck false s.plan.slots[i].plan = 0 then .primary else .minimal) i i false) := by
  simp only [State.useFallback_eq, s.fbSlot_none h]
  split <;> exact State.useAs_next _ _ _ _ _ _ _ _ _

end

/-! ### The minimal plan (R530) -/

theorem Plan.minimal_enabled (p : Plan) : p.minimal.enabled = [] := by
  have off : ∀ k, (p.minimal.layer k).en = false := fun k => by
    simp only [Plan.layer, Plan.minimal, List.getD_eq_getElem?_getD, List.getElem?_map]
    cases p.layers[k]? <;> rfl
  simp only [Plan.enabled, off, List.filter_false]

theorem Plan.minimal_gfxOn (p : Plan) : p.minimal.gfxOn = [] := by
  simp [Plan.gfxOn, Plan.minimal]

end Sys2Proof.Machine
end

section
/-! PROOF. O22: what the arming point of a frame chooses. -/

open Sys2Proof Sys2Proof.Machine

/-- Settles O22: an arming point with no armed plan keeps the selected one, whose choice is that of `useSelected`; one with a plan that is
due selects that plan, or refuses it and keeps the selected one. -/
theorem armingPoints : Obligations.ArmingPoints := by
  unfold Obligations.ArmingPoints
  refine ⟨fun s i g n ha hp hn hk => ?_, fun s a n ha hd hst _ => ?_, fun p => ?_⟩
  · have chosen : s.armingPoint n = (s.useSelected i false n).restate := by rw [s.armingPoint_eq n, State.choosePlan_unarmed ha hp]
    simp only [chosen]
    refine ⟨(s.useSelected_selected i false n).prim, fun ht => ?_, fun t j ht hfb hj => ⟨fun hc => ?_, fun hc => ?_⟩, fun t ht hfb =>
      ⟨fun hc => ?_, fun hc => ?_⟩⟩
    · rw [State.useSelected_untriggered hn hk ht]
      exact ⟨rfl, rfl⟩
    · obtain ⟨next, total⟩ := s.useFallback_fallback i t n hfb hj hc
      rw [State.useSelected_triggered hn hk ht]
      exact ⟨_, next, rfl, rfl, rfl, total⟩
    · obtain ⟨next, total, events⟩ := s.useFallback_minimal i t n hfb hj hc
      rw [State.useSelected_triggered hn hk ht]
      exact ⟨_, next, rfl, rfl, total, events⟩
    · have next := s.useFallback_alone i t n hfb
      rw [if_pos hc] at next
      rw [State.useSelected_triggered hn hk ht]
      exact ⟨_, next, rfl, rfl⟩
    · have next := s.useFallback_alone i t n hfb
      rw [if_neg hc] at next
      rw [State.useSelected_triggered hn hk ht]
      exact ⟨_, next, rfl, rfl⟩
  · have due := (s.plan.due_iff n).2 hd
    have eq := s.armingPoint_eq n
    by_cases hc : s.recheckArmed s.plan.slots[a].plan = 0
    · rw [State.choosePlan_passes ha due hc] at eq
      simp only [eq]
      refine ⟨(s.disarm.useSelected_selected a true n).frame.armed, fun _ ht => ?_, fun fails => absurd hc fails⟩
      simp only [State.useSelected_newly s.disarm a n ht]
      exact ⟨rfl, State.restate_inForce rfl hst, _, rfl, rfl, rfl, rfl⟩
    · rw [State.choosePlan_refuses ha due hc] at eq
      simp only [eq]
      obtain ⟨frame, events, prim⟩ := (s.refuseArmed a (s.recheckArmed s.plan.slots[a].plan) n).staySelected_facts n
      have plan := s.refuseArmed_plan a (s.recheckArmed s.plan.slots[a].plan) n
      exact ⟨frame.armed.trans (congrArg PlanSt.armed plan), fun passes => absurd passes hc, fun _ =>
        ⟨prim.trans ((congrArg PlanSt.prim plan).trans rfl), fun t => events t 3 (s.refuseArmed_event a _ n t)⟩⟩
  · exact ⟨rfl, p.minimal_enabled, p.minimal_gfxOn, rfl, rfl, rfl, rfl, rfl, rfl, rfl, rfl, rfl, rfl, rfl, rfl, rfl, rfl, rfl, rfl, rfl,
      rfl, rfl, rfl, rfl, rfl, rfl, rfl, rfl, rfl, rfl⟩

end

section
/-! SUPPORT. What a read of DRAM leaves of the threads: all but event bits. -/

namespace Sys2Proof.Machine

/-- From `s` to `u` no thread has changed but for its event word. -/
def OnlyEvents (s u : State) : Prop := ∀ t : Tid, u.thread t = { s.thread t with evt := (u.thread t).evt }

theorem OnlyEvents.of_threads {s u : State} (h : u.threads = s.threads) : OnlyEvents s u := fun t => by
  rw [show u.thread t = s.thread t by rw [State.thread, h]; rfl]

theorem OnlyEvents.refl (s : State) : OnlyEvents s s := .of_threads rfl

theorem OnlyEvents.trans {s u v : State} (h : OnlyEvents s u) (k : OnlyEvents u v) : OnlyEvents s v := fun t => by
  rw [k t, h t]

/-- Only the threads of the second state count. -/
theorem OnlyEvents.congr {s u v : State} (h : OnlyEvents s u) (e : v.threads = u.threads) : OnlyEvents s v := h.trans (.of_threads e)

theorem State.eventFor_onlyEvents (s : State) (p : Tid → Bool) (b : BitVec 32) : OnlyEvents s (s.eventFor p b) := fun t => by
  rw [State.eventFor_thread]
  split <;> rfl

theorem State.putQueueRaw_onlyEvents (s : State) (i : Fin 64) (q : Queue) : OnlyEvents s (s.putQueueRaw i q).1 := by
  simp only [State.putQueueRaw]
  split
  · refine (s.eventFor_onlyEvents (fun t => q.subs.getLsbD t) 0x10).congr ?_
    split
    · exact State.raise_threads _ _
    · rfl
  · exact .of_threads rfl

theorem State.post41_onlyEvents (s : State) (item : List Byte) : OnlyEvents s (s.post41 item) := by
  simp only [State.post41]
  split
  · have h := (s.putQueueRaw_onlyEvents 41 (s.queues[41].push item)).congr (State.raise_threads _ 9)
    split
    · exact h.congr rfl
    · exact h
  · exact .of_threads rfl

theorem State.putQueue_onlyEvents (s : State) (i : Fin 64) (q : Queue) : OnlyEvents s (s.putQueue i q) := by
  simp only [State.putQueue]
  split
  · exact (s.putQueueRaw_onlyEvents i q).trans (State.post41_onlyEvents _ _)
  · exact s.putQueueRaw_onlyEvents i q

theorem State.post40_onlyEvents (s : State) (chip : Bool) (r n k : Nat) : OnlyEvents s (s.post40 chip r n k).1 := by
  simp only [State.post40]
  generalize (if chip = true then 32 else 1024) = room
  split
  · exact (s.putQueue_onlyEvents _ _).congr (State.raise_threads _ 8)
  · exact .of_threads rfl

theorem State.report_onlyEvents (s : State) (code block info : Nat) : OnlyEvents s (s.report code block info) := by
  obtain ⟨e, -, h | ⟨e', chip, r, n, k, h⟩⟩ := State.report_cases s code block info
  · rw [h]
    exact .of_threads rfl
  · rw [h]
    exact (State.post40_onlyEvents { s with err := e' } chip r n k).congr rfl

/-! ### Reads -/

/-- From `s` to `u` DRAM was read: within the frame of a read, and no thread has changed but for its event word. -/
structure Reads (s u : State) : Prop where
  frame : ReadFrame s u
  threads : OnlyEvents s u

theorem Reads.refl (s : State) : Reads s s := ⟨.refl s, .refl s⟩

theorem Reads.trans {s u v : State} (h : Reads s u) (k : Reads u v) : Reads s v := ⟨h.frame.trans k.frame, h.threads.trans k.threads⟩

theorem State.modSub_threads (s : State) (n : Nat) (f : SubCh → SubCh) : (s.modSub n f).threads = s.threads := rfl

theorem State.burstError_onlyEvents (s : State) (pa : Nat) (b : BurstBad) : OnlyEvents s (s.burstError pa b) := by
  cases b <;> exact State.report_onlyEvents _ _ _ _

theorem State.readErrors_onlyEvents (s : State) (pa : Nat) (errs : List SymErr) : OnlyEvents s (s.readErrors pa errs) := by
  simp only [State.readErrors]
  split
  · exact State.burstError_onlyEvents _ _ _
  · split
    · exact .of_threads rfl
    · split
      · exact State.report_onlyEvents _ _ _ _
      · exact .of_threads rfl

theorem State.meetBurst_onlyEvents (s : State) (a : Nat) : OnlyEvents s (s.meetBurst a) := by
  simp only [State.meetBurst]
  split
  · exact State.burstError_onlyEvents _ _ _
  · exact State.readErrors_onlyEvents _ _ _
  · exact .refl s

theorem State.writeBack_threads (s : State) (a : Nat) : (s.writeBack a).threads = s.threads := by
  simp only [State.writeBack]
  split <;> rfl

theorem State.meetErrors_onlyEvents (s : State) (pa n : Nat) : OnlyEvents s (s.meetErrors pa n) := by
  simp only [State.meetErrors]
  generalize s.dram.suspects pa n = l
  induction l generalizing s with
  | nil => exact .refl s
  | cons a l ih => exact ((s.meetBurst_onlyEvents a).congr (State.writeBack_threads _ a)).trans (ih _)

/-- A read into the pipeline or a unit (R309). -/
theorem State.readBuf_reads (s : State) (b : Buf) (off n port : Nat) : Reads s (s.readBuf b off n port).1 :=
  ⟨State.readDram_readFrame _ _ _ _, State.meetErrors_onlyEvents (s.dramRequest port (b.base + off) n false) _ _⟩

end Sys2Proof.Machine
end

section
/-! SUPPORT. Admission: its checks read and change nothing else, and run in order (R195, R202). -/

namespace Sys2Proof.Machine

/-! ### Each check -/

theorem State.containerOk_reads (s : State) (p : Plan) : Reads s (s.containerOk p).1 := by
  simp only [State.containerOk]
  split
  · exact .refl s
  · rename_i b _
    have read := s.readBuf_reads b 0 64 15
    split <;> exact read

/-- The header of a map is read; its body only where it is to be checked. -/
theorem State.mapOk_reads (s : State) (p : Plan) : Reads s (s.mapOk p false).1 := by
  simp only [State.mapOk]
  split
  · exact .refl s
  · split
    · exact .refl s
    · rename_i b _
      have read := s.readBuf_reads b 0 4096 15
      split
      · exact read
      · split
        · exact read
        · simpa using read

theorem checkGeom_reads (p : Plan) (s : State) : Reads s (checkGeom p s).1 := by
  simp only [checkGeom]
  split
  · exact .refl s
  · split
    · exact .refl s
    · split
      · exact .refl s
      · have read : Reads s (if p.outMode = 2 then s.containerOk p else (s, true)).1 := by
          split
          · exact s.containerOk_reads p
          · exact .refl s
        generalize (if p.outMode = 2 then s.containerOk p else (s, true)) = x at read
        split
        · exact read
        · split <;> exact read

theorem checkSeal_reads (p : Plan) (s : State) : Reads s (checkSeal p s).1 := by
  simp only [checkSeal]
  split
  · exact .refl s
  · split <;> exact .refl s

theorem checkProt_reads (p : Plan) (s : State) : Reads s (checkProt p s).1 := by
  simp only [checkProt]
  split
  · exact .refl s
  · split
    · exact .refl s
    · split
      · exact .refl s
      · rename_i b _
        have read := s.readBuf_reads b 0 2050 15
        split <;> exact read

theorem checkMap_reads (p : Plan) (s : State) : Reads s (checkMap p s).1 := by
  simp only [checkMap]
  split
  · exact .refl s
  · exact s.mapOk_reads p

theorem checkTiming_reads (p : Plan) (s : State) : Reads s (checkTiming p s).1 := by
  unfold checkTiming
  extract_lets f n d lines a b t c r
  split
  · exact .refl s
  · split <;> exact .refl s

/-- The other checks look at the state alone. -/
theorem allChecks_reads (asFb slotBad fbCache : Bool) (p : Plan) : ∀ e ∈ allChecks asFb slotBad fbCache p, ∀ s, Reads s (e.2 s).1 := by
  simp only [allChecks, List.forall_mem_cons, List.not_mem_nil, false_implies, implies_true, and_true]
  exact ⟨checkGeom_reads p, .refl, checkSeal_reads p, checkProt_reads p, .refl, .refl, checkMap_reads p, checkTiming_reads p, .refl, .refl,
    .refl, .refl, .refl, .refl, .refl, .refl⟩

/-! ### The checks in order -/

/-- The codes of the checks, in the order of Table 08-6. -/
theorem allChecks_codes (asFb slotBad fbCache : Bool) (p : Plan) : (allChecks asFb slotBad fbCache p).map Prod.fst =
    [0x08, 0x08, 0x0D, 0x0B, 0x0B, 0x09, 0x0A, 0x0E, 0x05, 0x01, 0x02, 0x06, 0x03, 0x04, 0x07, 0x0C] := rfl

theorem runChecks_cons (c : Nat) (f : Check) (l : List (Nat × Check)) (s : State) : runChecks ((c, f) :: l) s =
    match (f s).2 with
    | some d => ((f s).1, c, d)
    | none => runChecks l (f s).1 := by
  rw [runChecks]
  rcases f s with ⟨u, _ | d⟩ <;> rfl

theorem runChecks_reads (l : List (Nat × Check)) (h : ∀ e ∈ l, ∀ s, Reads s (e.2 s).1) (s : State) : Reads s (runChecks l s).1 := by
  induction l generalizing s with
  | nil => exact .refl s
  | cons e l ih =>
    obtain ⟨c, f⟩ := e
    obtain ⟨here, rest⟩ := List.forall_mem_cons.1 h
    rw [runChecks_cons]
    split
    · exact here s
    · exact (here s).trans (ih rest _)

/-- Checks that all pass leave the next one to decide. -/
theorem runChecks_first (pre post : List (Nat × Check)) (c d : Nat) (f : Check) (s x y : State) (hp : runChecks pre s = (x, 0, noDetail))
    (hc : ∀ e ∈ pre, e.1 ≠ 0) (hf : f x = (y, some d)) : runChecks (pre ++ (c, f) :: post) s = (y, c, d) := by
  induction pre generalizing s with
  | nil =>
    obtain rfl : s = x := congrArg Prod.fst hp
    rw [List.nil_append, runChecks_cons, hf]
  | cons e pre ih =>
    obtain ⟨k, g⟩ := e
    obtain ⟨here, rest⟩ := List.forall_mem_cons.1 hc
    rw [runChecks_cons] at hp
    rw [List.cons_append, runChecks_cons]
    cases hg : (g s).2 with
    | some d' =>
      rw [hg] at hp
      exact absurd (congrArg (fun r => r.2.1) hp) here
    | none =>
      rw [hg] at hp
      exact ih _ hp rest

/-- Admission reads, and changes nothing else (R195, R202). -/
theorem State.admission_reads (s : State) (p : Plan) : Reads s (s.admission p).1 := by
  have own := runChecks_reads _ (allChecks_reads false (s.fbSlotBad p) (s.fbCache p) p) s
  simp only [State.admission]
  split
  · exact own
  · split
    · exact own
    · split
      · exact own
      · rename_i f _
        split
        · exact own
        · have both := own.trans (runChecks_reads _ (allChecks_reads true false false f.plan) _)
          split <;> exact both

end Sys2Proof.Machine
end

section
/-! SUPPORT. A commit: its checks and loads, and the plan that it arms (R196, R199). -/

namespace Sys2Proof.Machine

/-! ### Loads -/

theorem State.loadBanks_readFrame (s : State) (p : Plan) (l : List Nat) : ReadFrame s (s.loadBanks p l).1 := by
  induction l generalizing s with
  | nil => exact .refl s
  | cons b l ih =>
    simp only [State.loadBanks]
    split
    · exact .refl s
    · rename_i x _
      have read := (s.readBuf_reads x 0 1024 15).frame
      split
      · exact read
      · split
        · exact read
        · exact read.trans (ih _)

/-- A buffer of a plan is read from its beginning, where it can be. -/
def State.readPlanBuf (s : State) (h n : Nat) : State × Option (List Byte) :=
  match s.planBuf h n with
  | some b => s.readBuf b 0 n
  | none => (s, none)

theorem State.readPlanBuf_readFrame (s : State) (h n : Nat) : ReadFrame s (s.readPlanBuf h n).1 := by
  simp only [State.readPlanBuf]
  split
  · exact (s.readBuf_reads _ 0 n 15).frame
  · exact .refl s

/-- The palette of an indexed graphic layer is read; other layers have none. -/
def State.readPalette (s : State) (e : GfxEntry) : State × Option (List Byte) :=
  if e.fmt = 1 then s.readPlanBuf e.pal 1024 else (s, some [])

theorem State.readPalette_readFrame (s : State) (e : GfxEntry) : ReadFrame s (s.readPalette e).1 := by
  simp only [State.readPalette]
  split
  · exact s.readPlanBuf_readFrame _ _
  · exact .refl s

/-- A graphic layer loads its palette and its mask before the layers after it. -/
theorem State.loadGfx_cons (s : State) (p : Plan) (g : Nat) (l : List Nat) : (s.loadGfx p (g :: l)).1 =
    let x := s.readPalette (p.gfxLayer g)
    let y := x.1.readPlanBuf (p.gfxLayer g).mask 128
    if x.2.isNone then x.1 else if y.2.isNone then y.1 else (y.1.loadGfx p l).1 := by
  extract_lets x y
  change (match x.2 with
    | none => (x.1, none)
    | some pal =>
      match y.2 with
      | none => (y.1, none)
      | some mask => ((y.1.loadGfx p l).1, (y.1.loadGfx p l).2.map fun l =>
          ((if (p.gfxLayer g).fmt = 1 then [(g, (List.range 256).map fun i => BitVec.ofNat 32 (fieldAt pal (4 * i) 4))] else []) ++ l.1,
            (g, mask) :: l.2)) : State × Option _).1 = _
  cases x.2 with
  | none => rfl
  | some pal => cases y.2 <;> rfl

theorem State.loadGfx_readFrame (s : State) (p : Plan) (l : List Nat) : ReadFrame s (s.loadGfx p l).1 := by
  induction l generalizing s with
  | nil => exact .refl s
  | cons g l ih =>
    have palette := s.readPalette_readFrame (p.gfxLayer g)
    have mask := palette.trans (State.readPlanBuf_readFrame _ (p.gfxLayer g).mask 128)
    rw [State.loadGfx_cons]
    simp only
    split
    · exact palette
    · split
      · exact mask
      · exact mask.trans (ih _)

/-- The map of a plan is read, and found checked or marked so (R170). -/
theorem State.mapOk_writeFrame (s : State) (p : Plan) (body : Bool) : WriteFrame s (s.mapOk p body).1 := by
  simp only [State.mapOk]
  split
  · exact .refl s
  · split
    · exact .refl s
    · rename_i b _
      have head := (s.readBuf_reads b 0 4096 15).frame.writeFrame
      split
      · exact head
      · split
        · exact head
        · split
          · exact head
          · have all := head.trans (State.readBuf_reads (s.readBuf b 0 4096 15).1 b 4096 p.mapBody 21).frame.writeFrame
            split
            · exact all
            · split
              · exact all.trans rfl
              · exact all

/-- The code of a failed load: that of what failed (R196). -/
def IsLoadCode (c : Nat) : Prop := c = admCoef ∨ c = admGeom ∨ c = admMap

theorem IsLoadCode.ne_zero {c : Nat} (h : IsLoadCode c) : c ≠ 0 := by
  rcases h with rfl | rfl | rfl <;> decide

/-- The loads of a plan write nothing but the mark of a checked map, and fail with a code of their own. -/
theorem State.loadCopies_facts (s : State) (p : Plan) :
    WriteFrame s (s.loadCopies p).1 ∧ ∀ c, (s.loadCopies p).2 = .error c → IsLoadCode c := by
  have banks := (s.loadBanks_readFrame p p.loads).writeFrame
  simp only [State.loadCopies]
  split
  · exact ⟨banks, fun c h => .inl (Except.error.inj h).symm⟩
  · have gfx := banks.trans (State.loadGfx_readFrame (s.loadBanks p p.loads).1 p p.gfxOn).writeFrame
    split
    · exact ⟨gfx, fun c h => .inr (.inl (Except.error.inj h).symm)⟩
    · split
      · exact ⟨gfx, fun c h => .inr (.inr (Except.error.inj h).symm)⟩
      · rename_i b _
        have table := gfx.trans (State.readBuf_reads _ b 0 2050 15).frame.writeFrame
        split
        · exact ⟨table, fun c h => .inr (.inr (Except.error.inj h).symm)⟩
        · have map := table.trans (State.mapOk_writeFrame _ p true)
          split
          · exact ⟨map, fun c h => nomatch h⟩
          · exact ⟨map, fun c h => .inr (.inr (Except.error.inj h).symm)⟩

/-! ### The commit -/

/-- The loads of the fall-back of a plan, if it has one. -/
def State.loadFallback (s : State) (p : Plan) : State × Except Nat (Option (Copies × List (Nat × CoefBank))) :=
  match s.fbSlot p with
  | some f => (match s.loadCopies f.plan with | (s, .error c) => (s, .error c) | (s, .ok c) => (s, .ok (some c)))
  | none => (s, .ok none)

theorem State.loadFallback_facts (s : State) (p : Plan) :
    WriteFrame s (s.loadFallback p).1 ∧ ∀ c, (s.loadFallback p).2 = .error c → IsLoadCode c := by
  simp only [State.loadFallback]
  split
  · rename_i f _
    have facts := s.loadCopies_facts f.plan
    generalize s.loadCopies f.plan = x at facts ⊢
    rcases x with ⟨u, d | v⟩
    · exact ⟨facts.1, fun c h => facts.2 c (congrArg Except.error (Except.error.inj h))⟩
    · exact ⟨facts.1, fun c h => nomatch h⟩
  · exact ⟨.refl s, fun c h => nomatch h⟩

/-- A plan whose checks and loads have passed is armed, unless the frame that it names has passed (R196, R199). -/
def State.commitLoaded (s : State) (i : Fin 8) (at' : Option Nat) (l : Level) (op : Nat) (c : Copies × List (Nat × CoefBank))
    (fb : Option (Copies × List (Nat × CoefBank))) : State × Nat :=
  if s.plan.prim ≠ none ∧ at'.any (· ≤ s.wallFrame + 1) then (s, 0x40)
  else ((s.putCopies i c (match fb with | some f => f.1 | none => {})).arm i at' l op, 0)

/-- A plan whose checks have passed is loaded. -/
def State.commitChecked (s : State) (p : Plan) (i : Fin 8) (at' : Option Nat) (l : Level) (op : Nat) : State × Nat :=
  match s.loadCopies p with
  | (s, .error c) => (s, c)
  | (s, .ok c) =>
    match (s.loadFallback p).2 with
    | .error d => ((s.loadFallback p).1, d)
    | .ok fb => (s.loadFallback p).1.commitLoaded i at' l op c fb

theorem State.commit_eq (s : State) (i : Fin 8) (at' : Option Nat) (l : Level) (op : Nat) : s.commit i at' l op =
    if (s.admission s.plan.slots[i].plan).2.1 ≠ 0 then
      ((s.admission s.plan.slots[i].plan).1, (s.admission s.plan.slots[i].plan).2.1)
    else (s.admission s.plan.slots[i].plan).1.commitChecked s.plan.slots[i].plan i at' l op := by
  simp only [State.commit]
  split
  · rfl
  · simp only [State.commitChecked]
    rcases (s.admission s.plan.slots[i].plan).1.loadCopies s.plan.slots[i].plan with ⟨u, d | c⟩ <;> rfl

/-- What a commit can come to from a state with the plans of `s`: a code and no plan changed, or its plan armed with copies of its own
(R196, R199). -/
def Commits (s : State) (i : Fin 8) (at' : Option Nat) (l : Level) (op : Nat) (r : State × Nat) : Prop :=
  (r.2 ≠ 0 ∧ r.1.plan = s.plan) ∨
    ∃ (v : State) (c : Copies × List (Nat × CoefBank)) (fb : Copies), v.plan = s.plan ∧ r = ((v.putCopies i c fb).arm i at' l op, 0)

section
variable (s : State) (i : Fin 8) (at' : Option Nat) (l : Level) (op : Nat)

theorem State.commitChecked_commits (p : Plan) : Commits s i at' l op (s.commitChecked p i at' l op) := by
  simp only [State.commitChecked]
  have facts := s.loadCopies_facts p
  generalize s.loadCopies p = x at facts ⊢
  rcases x with ⟨u, d | c⟩
  · exact .inl ⟨(facts.2 d rfl).ne_zero, facts.1.plan⟩
  · obtain ⟨frame, codes⟩ := u.loadFallback_facts p
    have plan : (u.loadFallback p).1.plan = s.plan := frame.plan.trans facts.1.plan
    simp only
    split
    · rename_i d hd
      exact .inl ⟨(codes d hd).ne_zero, plan⟩
    · simp only [State.commitLoaded]
      split
      · exact .inl ⟨Nat.succ_ne_zero 63, plan⟩
      · exact .inr ⟨_, _, _, plan, rfl⟩

theorem State.commit_commits : Commits s i at' l op (s.commit i at' l op) := by
  have admitted := (s.admission_reads s.plan.slots[i].plan).frame.plan
  rw [State.commit_eq]
  split
  · rename_i fails
    exact .inl ⟨fails, admitted⟩
  · have commits := (s.admission s.plan.slots[i].plan).1.commitChecked_commits i at' l op s.plan.slots[i].plan
    rwa [Commits, admitted] at commits

end

/-! ### The plan that is armed -/

/-- A copy of its own changes neither the state of a slot nor its plan. -/
theorem State.putCopies_slot (s : State) (i : Fin 8) (c : Copies × List (Nat × CoefBank)) (fb : Copies) (k : Fin 8) :
    (s.putCopies i c fb).plan.slots[k].st = s.plan.slots[k].st ∧ (s.putCopies i c fb).plan.slots[k].plan = s.plan.slots[k].plan := by
  by_cases hk : k = i
  · subst hk
    have slot : (s.putCopies k c fb).plan.slots[k] = { s.plan.slots[k] with copies := c.1, banks := c.2, fbCopies := fb } := vmod_same _ _ _
    rw [slot]
    exact ⟨rfl, rfl⟩
  · have slot : (s.putCopies i c fb).plan.slots[k] = s.plan.slots[k] := vmod_other _ _ _ _ hk
    rw [slot]
    exact ⟨rfl, rfl⟩

/-- The plan armed before is superseded, with its item and its record (R196, R238). -/
def State.supersede (s : State) (l : Level) (op : Nat) : State :=
  match s.plan.armed with
  | some a =>
    (s.planItem 0 none a 0 s.plan.slots[a].plan.planId (s.plan.armedAt.getD (s.nextFrame + 1))).overruled .planSlots l op
      s.plan.armedBy.1 s.plan.armedBy.2
  | none => s

theorem State.supersede_plan (s : State) (l : Level) (op : Nat) : (s.supersede l op).plan = s.plan := by
  simp only [State.supersede]
  split
  · rw [State.overruled_plan, State.planItem_frame]
  · rfl

/-- While a plan is in force, a commit arms its slot and gives the slots the states of their roles (R196, Table 08-4). -/
theorem State.arm_second {s : State} {r : Fin 8} (h : s.plan.prim = some r) (i : Fin 8) (at' : Option Nat) (l : Level) (op : Nat) :
    ∃ u : State, s.arm i at' l op = u.restate ∧ u.plan = { s.plan with armed := some i, armedAt := at', armedBy := (l, op) } := by
  have plan := s.supersede_plan l op
  have prim : (s.supersede l op).plan.prim ≠ none := by rw [plan, h]; exact Option.some_ne_none r
  refine ⟨{ s.supersede l op with plan := { (s.supersede l op).plan with armed := some i, armedAt := at', armedBy := (l, op) } }, ?_, ?_⟩
  · change (if (s.supersede l op).plan.prim = none then _ else State.restate { s.supersede l op with plan := { (s.supersede l op).plan with
      armed := some i, armedAt := if (s.supersede l op).plan.prim = none then none else at', armedBy := (l, op) } }) = _
    rw [if_neg prim, if_neg prim]
  · simp only [plan]

theorem State.role_armed {s : State} {r i : Fin 8} (hp : s.plan.prim = some r) (ha : s.plan.armed = some i) (hr : r ≠ i)
    (hf : s.fbOf (some r) ≠ some i) : s.role i = .armed := by
  simp only [State.role, hp, ha, Option.some.injEq, if_neg hr, if_neg hf, if_true]

theorem State.role_standby {s : State} {r i j : Fin 8} (hp : s.plan.prim = some r) (ha : s.plan.armed = some i) (hr : r ≠ j) (hi : i ≠ j)
    (hf : s.fbOf (some r) ≠ some j) (hj : s.fbOf (some i) = some j) : s.role j = .standby := by
  simp only [State.role, hp, ha, hj, Option.some.injEq, if_neg hr, if_neg hf, if_neg hi, if_true]

section
variable {s v : State} {r i : Fin 8} {c : Copies × List (Nat × CoefBank)} {fb : Copies} (plan : v.plan = s.plan)
  (hp : s.plan.prim = some r) (hi : s.plan.slots[i].st = .loaded) (hr : r ≠ i)
  (hf : s.plan.slots[r].plan.hasFb = true → s.plan.slots[r].plan.fbSlot ≠ i.val) (at' : Option Nat) (l : Level) (op : Nat)
include plan hp hi hr hf

/-- A commit under a plan in force arms its slot, and the slot of its fall-back becomes STANDBY. -/
theorem State.arm_facts : let u := (v.putCopies i c fb).arm i at' l op
    u.plan.armed = some i ∧ u.plan.prim = s.plan.prim ∧ u.plan.slots[i].st = .armed ∧
      ∀ j : Fin 8, s.plan.slots[i].plan.hasFb = true → s.plan.slots[i].plan.fbSlot = j.val → r ≠ j → j ≠ i →
        s.plan.slots[j].st = .loaded → (s.plan.slots[r].plan.hasFb = true → s.plan.slots[r].plan.fbSlot ≠ j.val) →
        u.plan.slots[j].st = .standby := by
  have prim : (v.putCopies i c fb).plan.prim = some r := by rw [← hp, ← plan]; rfl
  obtain ⟨u, eq, after⟩ := State.arm_second prim i at' l op
  have slot : ∀ k : Fin 8, u.plan.slots[k].st = s.plan.slots[k].st ∧ u.plan.slots[k].plan = s.plan.slots[k].plan := fun k => by
    rw [after, ← plan]
    exact v.putCopies_slot i c fb k
  have uprim : u.plan.prim = some r := by rw [after, ← prim]
  have uarmed : u.plan.armed = some i := by rw [after]
  have foreign : ∀ k : Fin 8, (s.plan.slots[r].plan.hasFb = true → s.plan.slots[r].plan.fbSlot ≠ k.val) → u.fbOf (some r) ≠ some k :=
    fun k no is => by
      rw [State.fbOf_eq_some_iff, (slot r).2] at is
      exact no is.1 is.2
  rw [eq]
  refine ⟨uarmed, uprim.trans hp.symm, ?_, fun j hfb hj hrj hji hst no => ?_⟩
  · rw [State.restate_st (by rw [(slot i).1, hi]; decide)]
    exact State.role_armed uprim uarmed hr (foreign i hf)
  · rw [State.restate_st (by rw [(slot j).1, hst]; decide)]
    refine State.role_standby uprim uarmed hrj hji.symm (foreign j no) ?_
    rw [State.fbOf_eq_some_iff, (slot i).2]
    exact ⟨hfb, hj⟩

end

end Sys2Proof.Machine
end

section
/-! SUPPORT. `PLANCHK` and `PLANCOMMIT` at their units (R195, R196, R261). -/

namespace Sys2Proof.Machine

theorem exec_planchk (t : Tid) (w : IWord) (s : State) : exec (.planchk t w) s = execPlanchk t w s := rfl
theorem exec_plancommit (t : Tid) (w : IWord) (s : State) : exec (.plancommit t w) s = execPlancommit t w s := rfl

/-- What `PLANCHK` without a report does at its unit. -/
def State.checkOrder (s : State) (t : Tid) (w : IWord) (i : Fin 8) : State :=
  if s.plan.slots[i].st ≠ .loaded then s.fault t .state 0x26
  else (s.admission s.plan.slots[i].plan).1.toUnit t w (some (.code (s.admission s.plan.slots[i].plan).2.1))

/-- What `PLANCOMMIT` does at its unit. -/
def State.commitOrder (s : State) (t : Tid) (w : IWord) (i : Fin 8) (at' : Option Nat) : State :=
  if s.plan.slots[i].st ≠ .loaded then s.fault t .state 0x26
  else (s.commit i at' .host 0x31).1.toUnit t w (some (commitDone (w.fn.getLsbD 6) (s.commit i at' .host 0x31).2))

/-- What `PLANCOMMIT` of a slot names. -/
def State.commitUse (s : State) (i : Fin 8) : Use :=
  s.slotUse i ([.slot i.val] ++ if s.plan.slots[i].plan.hasFb then [.slot s.plan.slots[i].plan.fbSlot] else [])

/-- The frame that `PLANCOMMIT` names in its AT form. -/
def commitFrame (w : IWord) (th : Thread) : Option Nat := if w.fn.getLsbD 0 then some (th.reg w.rb).toNat else none

section
variable (s : State) (t : Tid) (w : IWord) (i : Fin 8) (hi : s.canIssue t 1) (hr : (s.thread t).reg w.ra = BitVec.ofNat 64 i.val)
include hi hr

/-- With its slot free `PLANCHK` without a report checks on the state that has registered it. -/
theorem planchk_start (h0 : ((s.thread t).reg w.rb).toNat % 4096 = 0) (hf : s.unitFree t (s.slotUse i [.slot i.val])) :
    exec (.planchk t w) s = .next ((s.registered t (s.slotUse i [.slot i.val])).checkOrder t w i) := by
  rw [exec_planchk, execPlanchk, issue_run s t _ hi]
  simp only [handleOf, h0, hr, slotOf_number, ne_eq, not_true_eq_false, if_false, if_true, bind, Except.bind, pure, Except.pure,
    State.orFault]
  exact congrArg Host.Outcome.next (startUnit_free _ _ _ _ _ hf)

/-- With its slots free and none of a higher level on them `PLANCOMMIT` commits on the state that has registered it. -/
theorem plancommit_start (hs : w.fn.getLsbD 7 = false) (hh : s.higher .planSlots .host = none) (hf : s.unitFree t (s.commitUse i)) :
    exec (.plancommit t w) s =
      .next ((s.registered t (s.commitUse i)).commitOrder t w i (commitFrame w (s.thread t))) := by
  rw [exec_plancommit, execPlancommit, issue_run s t _ hi]
  simp only [hr, slotOf_number, bind, Except.bind, pure, Except.pure, State.orFault, IWord.isAsync, hs, Bool.false_eq_true, if_false]
  refine congrArg Host.Outcome.next ((startUnit_free s t (.plancommit t w) (s.commitUse i) _ hf).trans ?_)
  have held : (s.registered t (s.commitUse i)).higher .planSlots .host = none := hh
  simp only [State.commitOrder]
  split
  · rfl
  · rename_i loaded
    simp only [hostOrder_free _ _ _ _ _ held, State.commitJob, if_neg loaded]
    rfl

end

theorem commitDone_ne_zero (f : Bool) {c : Nat} (h : c ≠ 0) :
    commitDone f c = if f then { wrRd := false, flt := some (.admission, 0) } else .code c := by
  cases f <;> simp [commitDone, h]

@[simp] theorem commitDone_zero (f : Bool) : commitDone f 0 = .code 0 := by
  simp [commitDone]

section
variable (s : State) (t : Tid) (w : IWord) (i : Fin 8)

theorem State.checkOrder_busy (h : s.plan.slots[i].st ≠ .loaded) : s.checkOrder t w i = s.faultAt t .state 0x26 (s.thread t).pc := if_pos h

theorem State.commitOrder_busy (at' : Option Nat) (h : s.plan.slots[i].st ≠ .loaded) :
    s.commitOrder t w i at' = s.faultAt t .state 0x26 (s.thread t).pc := if_pos h

theorem State.commitOrder_loaded (at' : Option Nat) (h : s.plan.slots[i].st = .loaded) : s.commitOrder t w i at' =
    (s.commit i at' .host 0x31).1.toUnit t w (some (commitDone (w.fn.getLsbD 6) (s.commit i at' .host 0x31).2)) :=
  if_neg (not_not.2 h)

/-- A commit that is refused changes no plan; one that passes arms its slot (R196). -/
theorem State.commitOrder_facts (at' : Option Nat) (h : s.plan.slots[i].st = .loaded) : let u := s.commitOrder t w i at'
    let code := (s.commit i at' .host 0x31).2
    (code ≠ 0 → u.plan = s.plan ∧
      (u.thread t).done = some (if w.fn.getLsbD 6 then { wrRd := false, flt := some (.admission, 0) } else .code code)) ∧
    (code = 0 → (u.thread t).done = some (.code 0) ∧ ∃ (v : State) (c : Copies × List (Nat × CoefBank)) (fb : Copies),
      v.plan = s.plan ∧ u.plan = ((v.putCopies i c fb).arm i at' .host 0x31).plan) := by
  simp only [State.commitOrder_loaded s t w i at' h, State.toUnit_thread, State.toUnit_plan, Thread.atUnit]
  refine ⟨fun refused => ?_, fun passed => ?_⟩
  · obtain ⟨-, plan⟩ | ⟨_, _, _, -, eq⟩ := s.commit_commits i at' .host 0x31
    · exact ⟨plan, congrArg some (commitDone_ne_zero _ refused)⟩
    · exact absurd (congrArg Prod.snd eq) refused
  · obtain ⟨refused, -⟩ | ⟨v, c, fb, plan, eq⟩ := s.commit_commits i at' .host 0x31
    · exact absurd passed refused
    · refine ⟨?_, v, c, fb, plan, by rw [eq]⟩
      rw [passed, commitDone_zero]

/-- A check answers the code of admission and changes neither plans nor memory nor buffers. -/
theorem State.checkOrder_loaded (h : s.plan.slots[i].st = .loaded) : let u := s.checkOrder t w i
    (u.thread t).done = some (.code (s.admission s.plan.slots[i].plan).2.1) ∧ (u.thread t).st = .waiting ∧
      (u.thread t).g = (s.thread t).g ∧ u.plan = s.plan ∧ u.mem = s.mem ∧ u.bufs = s.bufs := by
  obtain ⟨frame, threads⟩ := s.admission_reads s.plan.slots[i].plan
  simp only [State.checkOrder, if_neg (not_not.2 h), State.toUnit_thread]
  refine ⟨rfl, rfl, ?_, frame.plan, frame.mem, frame.bufs⟩
  rw [Thread.atUnit_g, threads t]

end

end Sys2Proof.Machine
end

section
/-! PROOF. O21: the check and the commit of a plan. -/

open Sys2Proof Sys2Proof.Machine

/-- Settles O21: at their units the check reads alone, and the commit comes to a code with no plan changed or arms its slot; a check of
admission decides once those before it have passed. -/
theorem planCheckAndCommit : Obligations.PlanCheckAndCommit := by
  unfold Obligations.PlanCheckAndCommit
  refine ⟨fun s t w i hi hr hh hs => ⟨fun hf h0 => ?_, fun hf => ?_⟩, runChecks_first, fun a b c p => ?_⟩
  · have start := planchk_start s t w i hi hr h0 hf
    refine ⟨fun busy => start.trans (congrArg _ (State.checkOrder_busy _ t w i busy)), fun loaded => ⟨_, start, ?_⟩⟩
    exact State.checkOrder_loaded (s.registered t (s.slotUse i [.slot i.val])) t w i loaded
  · have start := plancommit_start s t w i hi hr hs hh hf
    refine ⟨fun busy => start.trans (congrArg _ (State.commitOrder_busy _ t w i _ busy)), fun loaded => ⟨_, start, ?_⟩⟩
    obtain ⟨refused, passed⟩ := State.commitOrder_facts (s.registered t (s.commitUse i)) t w i (commitFrame w (s.thread t)) loaded
    refine ⟨refused, fun zero r hp hne hno => ?_⟩
    obtain ⟨done, v, c, fb, plan, after⟩ := passed zero
    obtain ⟨armed, prim, st, standby⟩ := State.arm_facts plan hp loaded hne hno (commitFrame w (s.thread t)) .host 0x31 (c := c) (fb := fb)
    rw [after]
    exact ⟨armed, prim, st, done, standby⟩
  · rw [allChecks_codes]
    decide

end

section
/-! SUPPORT. What a write of a capture job and its end may touch (R178, R184). -/

namespace Sys2Proof.Machine

/-- What a capture job that ends may touch: what a write into a buffer may, and the job. -/
def CaptureFrame (s u : State) : Prop :=
  u = { s with
    threads := u.threads, queues := u.queues, host := u.host, err := u.err, dram := u.dram, nextOp := u.nextOp
    mem := u.mem, bufs := u.bufs, cap := u.cap }

theorem CaptureFrame.refl (s : State) : CaptureFrame s s := rfl

theorem CaptureFrame.trans {s u v : State} (h : CaptureFrame s u) (k : CaptureFrame u v) : CaptureFrame s v := by
  rw [CaptureFrame] at *
  rw [k, h]

theorem WriteFrame.captureFrame {s u : State} (h : WriteFrame s u) : CaptureFrame s u := by
  rw [WriteFrame] at h
  rw [CaptureFrame, h]

theorem CaptureFrame.plan {s u : State} (h : CaptureFrame s u) : u.plan = s.plan := by
  rw [h]

theorem CaptureFrame.out {s u : State} (h : CaptureFrame s u) : u.out = s.out := by
  rw [h]

theorem CaptureFrame.comp {s u : State} (h : CaptureFrame s u) : u.comp = s.comp := by
  rw [h]

theorem State.report_writeFrame (s : State) (c b i : Nat) : WriteFrame s (s.report c b i) := (s.report_readFrame c b i).writeFrame

theorem State.post41_writeFrame (s : State) (d : List Byte) : WriteFrame s (s.post41 d) := by
  rw [WriteFrame, State.post41_frame]

theorem State.event_writeFrame (s : State) (b : Nat) : WriteFrame s (s.event b) := rfl

theorem State.endCapture_captureFrame (s : State) (state reason : Nat) : CaptureFrame s (s.endCapture state reason) := by
  have named : ∀ c, CaptureFrame s { s with cap := c } := fun _ => rfl
  simp only [State.endCapture]
  split
  · split
    · exact .refl s
    · refine CaptureFrame.trans ?_ ((State.post41_writeFrame _ _).trans (State.event_writeFrame _ 14)).captureFrame
      split
      · exact (named _).trans ((State.writeHeader_writeFrame _ _).trans (State.report_writeFrame _ _ _ _)).captureFrame
      · exact (named _).trans (State.writeHeader_writeFrame _ _).captureFrame
  · exact .refl s

end Sys2Proof.Machine
end

section
/-! SUPPORT. `FRAME_END_CHECKS` (R157-R160, R175, R207). -/

namespace Sys2Proof.Machine

theorem exec_frameEndChecks (s : State) : exec .frameEndChecks s = execFrameEndChecks s := rfl

theorem State.protItem_frame (s : State) (e n : Nat) : s.protItem e n = { s with
    threads := (s.protItem e n).threads, queues := (s.protItem e n).queues, host := (s.protItem e n).host } := by
  simp only [State.protItem]
  rw [State.raise_frame, State.post41_frame]

theorem State.protItem_writeFrame (s : State) (e n : Nat) : WriteFrame s (s.protItem e n) := by
  rw [WriteFrame, State.protItem_frame]

/-! ### The page check -/

/-- The frame composed passes its page check (R157). -/
def State.pagePasses (s : State) (p : Plan) : Bool := p.outMode == 2 || (s.comp.psum == s.expectSum p && !s.comp.pageUe)

theorem State.pagePasses_iff (s : State) (p : Plan) :
    s.pagePasses p = true ↔ p.outMode = 2 ∨ (s.comp.psum = s.expectSum p ∧ s.comp.pageUe = false) := by
  simp [State.pagePasses]

/-- A page check that fails counts, with its record. -/
def State.countPage (s : State) (ok : Bool) : State :=
  if ok then s
  else (s.report 0x0601 0x1B (s.comp.page.num * 2 ^ 32 + s.comp.alive.toNat)).modComp fun c => { c with pageFail := c.pageFail.bump }

/-- The outcome of a page check goes with its frame (R160). -/
def markPage (frame : Nat) (ok : Bool) (e : FsFrame) : FsFrame := if e.frame = frame then { e with pageOk := ok } else e

/-- In STORED mode the outcome of a page check goes to the store. -/
def State.markPages (s : State) (p : Plan) (ok : Bool) : State :=
  if p.outMode = 1 then
    s.modOut fun o => { o with slots := o.slots.map (markPage s.wallFrame ok), scan := markPage s.wallFrame ok o.scan }
  else s

theorem State.pageCheck_eq (s : State) (p : Plan) : s.pageCheck p =
    ((((s.countPage (s.pagePasses p)).markPages p (s.pagePasses p)).modComp fun c => { c with psum := 0, pageUe := false, ended := true }),
      s.pagePasses p) := rfl

@[simp] theorem State.pageCheck_passes (s : State) (p : Plan) : (s.pageCheck p).2 = s.pagePasses p := rfl

/-- A count that stays where a check passes. -/
def countUnless (ok : Bool) (c : Count) : Count := if ok then c else c.bump

/-- A check that fails counts in composition, with its record, and changes nothing else but what a record may. -/
structure Counted (s u : State) (ok : Bool) (f : Comp → Comp) : Prop where
  comp : u.comp = f s.comp
  plan : u.plan = s.plan
  out : u.out = s.out
  tg0 : u.tg0 = s.tg0
  err : ok = true → u.err = s.err

theorem State.countPage_counted (s : State) (ok : Bool) :
    Counted s (s.countPage ok) ok fun c => { c with pageFail := countUnless ok c.pageFail } := by
  cases ok with
  | true => exact ⟨rfl, rfl, rfl, rfl, fun _ => rfl⟩
  | false =>
    simp only [State.countPage, Bool.false_eq_true, if_false, State.modComp]
    exact ⟨by rw [State.report_comp]; rfl, State.report_plan _ _ _ _, State.report_out _ _ _ _, State.report_tg0 _ _ _ _, fun h => nomatch h⟩

section
variable (s : State) (p : Plan)

theorem State.pageCheck_comp : (s.pageCheck p).1.comp =
    { s.comp with pageFail := countUnless (s.pagePasses p) s.comp.pageFail, psum := 0, pageUe := false, ended := true } := by
  have comp := (s.countPage_counted (s.pagePasses p)).comp
  simp only [State.pageCheck_eq, State.modComp, State.markPages]
  split <;> simp only [State.modOut, comp]

theorem State.pageCheck_plan : (s.pageCheck p).1.plan = s.plan := by
  rw [← (s.countPage_counted (s.pagePasses p)).plan]
  simp only [State.pageCheck_eq, State.modComp, State.markPages]
  split <;> rfl

theorem State.pageCheck_tg0 : (s.pageCheck p).1.tg0 = s.tg0 := by
  rw [← (s.countPage_counted (s.pagePasses p)).tg0]
  simp only [State.pageCheck_eq, State.modComp, State.markPages]
  split <;> rfl

theorem State.pageCheck_out : (s.pageCheck p).1.out = if p.outMode = 1 then { s.out with
    slots := s.out.slots.map (markPage s.wallFrame (s.pagePasses p)), scan := markPage s.wallFrame (s.pagePasses p) s.out.scan }
    else s.out := by
  have out := (s.countPage_counted (s.pagePasses p)).out
  simp only [State.pageCheck_eq, State.modComp, State.markPages]
  split <;> simp only [State.modOut, State.wallFrame, out]

theorem State.pageCheck_err (h : s.pagePasses p = true) : (s.pageCheck p).1.err = s.err := by
  rw [← (s.countPage_counted (s.pagePasses p)).err h]
  simp only [State.pageCheck_eq, State.modComp, State.markPages]
  split <;> rfl

/-- The frame at the lanes is not the frame composed, whose outcome goes to the store. -/
theorem State.pageCheck_lane : (s.pageCheck p).1.out.lane = s.out.lane := by
  rw [State.pageCheck_out]
  split <;> rfl

/-- In the store the frame composed has the outcome of its page check. -/
theorem State.pageCheck_slots (hm : p.outMode = 1) : ∀ e ∈ (s.pageCheck p).1.out.slots, e.frame = s.out.frame →
    e.pageOk = s.pagePasses p := by
  rw [State.pageCheck_out, if_pos hm]
  intro e he hf
  obtain ⟨x, -, rfl⟩ := List.mem_map.1 he
  by_cases hx : x.frame = s.wallFrame
  · rw [markPage, if_pos hx]
  · rw [markPage, if_neg hx] at hf
    exact absurd hf hx

end

/-! ### The three checks together -/

/-- A code check that fails counts, with its record (R158). -/
def State.countCode (s : State) (ok : Bool) : State :=
  if ok then s
  else (s.report 0x0602 0x2F s.comp.laneAlive.toNat).modComp fun c => { c with codeFail := c.codeFail.bump }

/-- An alive check of composition `c` that fails counts, with its record (R159). -/
def State.countAlive (s : State) (c : Comp) (ok : Bool) : State :=
  if ok then s
  else (s.report 0x0603 0x2F ((c.expectAlive.getD 0).toNat * 256 + c.laneAlive.toNat)).modComp fun c =>
    { c with aliveFail := c.aliveFail.bump }

/-- FAIL_RUN, the failing frames in a row that show a page, and the passing frames in a row, after a frame (R160). -/
def Comp.failsAfter (c : Comp) (ok : Bool) : Nat := if ok then 0 else min 255 (c.failRun.toNat + 1)
def Comp.pagesAfter (c : Comp) (ok : Bool) (page : Page) : Nat := if ok || !(page != .none) then 0 else c.pageRun + 1
def Comp.passesAfter (c : Comp) (ok : Bool) : Nat := if ok then c.passRun + 1 else 0

/-- The runs of composition `c` after a frame, and the count that the next alive check expects (R159, R160). -/
def State.countRuns (s : State) (c : Comp) (ok sent : Bool) (page : Page) : State :=
  s.modComp fun d => { d with
    failRun := BitVec.ofNat 8 (c.failsAfter ok), verified := ok, pageRun := c.pagesAfter ok page, passRun := c.passesAfter ok
    expectAlive := if sent then some (d.laneAlive + 1) else d.expectAlive
    crcSeen := 0xFFFFFFFF, crcMade := 0xFFFFFFFF, sent := false }

/-- The second failing page frame in a row is trigger 2 (R207). -/
def State.triggerPage (s : State) (pageRun : Nat) : State :=
  if pageRun = 2 then { s with plan := { s.plan with trig := s.plan.trig ||| 4 } } else s

/-- The fourth failing page frame in a row turns the light off (R160). -/
def State.holdLight (s : State) (pageRun fails frame : Nat) (page : Page) : State :=
  if pageRun = 4 ∧ !s.comp.lightHeld then
    (((s.modComp fun c => { c with lightHeld := true, passRun := 0 }).report 0x0604 0x2F (fails * 65536 + page.num)).protItem 1 frame).endCapture
      3 7
  else s

/-- The sixteenth passing frame in a row ends both (R160, R207). -/
def State.restoreLight (s : State) (passRun frame : Nat) : State :=
  if 16 ≤ passRun then
    let s := { s with plan := { s.plan with trig := s.plan.trig &&& 0xB } }
    if s.comp.lightHeld then (s.modComp fun c => { c with lightHeld := false }).protItem 2 frame else s
  else s

theorem State.settleChecks_eq (s : State) (page : Page) (sent pageOk codeOk aliveOk : Bool) :
    let ok := pageOk && codeOk && aliveOk
    s.settleChecks page sent pageOk codeOk aliveOk =
      (((((((s.countCode codeOk).countAlive s.comp aliveOk).countRuns s.comp ok sent page).triggerPage (s.comp.pagesAfter ok page)).holdLight
        (s.comp.pagesAfter ok page) (s.comp.failsAfter ok) s.wallFrame page).restoreLight (s.comp.passesAfter ok) s.wallFrame)) := rfl

theorem State.countCode_counted (s : State) (ok : Bool) :
    Counted s (s.countCode ok) ok fun c => { c with codeFail := countUnless ok c.codeFail } := by
  cases ok with
  | true => exact ⟨rfl, rfl, rfl, rfl, fun _ => rfl⟩
  | false =>
    simp only [State.countCode, Bool.false_eq_true, if_false, State.modComp]
    exact ⟨by rw [State.report_comp]; rfl, State.report_plan _ _ _ _, State.report_out _ _ _ _, State.report_tg0 _ _ _ _, fun h => nomatch h⟩

theorem State.countAlive_counted (s : State) (c : Comp) (ok : Bool) :
    Counted s (s.countAlive c ok) ok fun c => { c with aliveFail := countUnless ok c.aliveFail } := by
  cases ok with
  | true => exact ⟨rfl, rfl, rfl, rfl, fun _ => rfl⟩
  | false =>
    simp only [State.countAlive, Bool.false_eq_true, if_false, State.modComp]
    exact ⟨by rw [State.report_comp]; rfl, State.report_plan _ _ _ _, State.report_out _ _ _ _, State.report_tg0 _ _ _ _, fun h => nomatch h⟩

theorem State.triggerPage_frame (s : State) (n : Nat) : s.triggerPage n =
    { s with plan := { s.plan with trig := if n = 2 then s.plan.trig ||| 4 else s.plan.trig } } := by
  simp only [State.triggerPage]
  split <;> rfl

/-- The light goes off and stays off; beside it only the running capture job ends. -/
theorem State.holdLight_facts (s : State) (n fails frame : Nat) (page : Page) : let u := s.holdLight n fails frame page
    u.plan = s.plan ∧ u.out = s.out ∧ (n ≠ 4 → u.err = s.err) ∧
      ∃ k, u.comp = { s.comp with lightHeld := s.comp.lightHeld || n == 4, passRun := k } := by
  simp only [State.holdLight]
  split
  · rename_i h
    have told : CaptureFrame (s.modComp fun c => { c with lightHeld := true, passRun := 0 }) _ :=
      ((State.report_writeFrame _ 0x0604 0x2F (fails * 65536 + page.num)).trans (State.protItem_writeFrame _ 1 frame)).captureFrame
    have ended := told.trans (State.endCapture_captureFrame _ 3 7)
    exact ⟨ended.plan, ended.out, fun no => absurd h.1 no, 0, by rw [ended.comp]; simp [State.modComp, h.1]⟩
  · rename_i h
    refine ⟨rfl, rfl, fun _ => rfl, s.comp.passRun, ?_⟩
    have light : (s.comp.lightHeld || n == 4) = s.comp.lightHeld := by
      cases hl : s.comp.lightHeld with
      | true => rfl
      | false => exact beq_eq_false_iff_ne.2 fun h4 => h ⟨h4, by rw [hl]; rfl⟩
    rw [light]

theorem State.restoreLight_facts (s : State) (n frame : Nat) : let u := s.restoreLight n frame
    u.plan = { s.plan with trig := if 16 ≤ n then s.plan.trig &&& 0xB else s.plan.trig } ∧ u.out = s.out ∧ u.err = s.err ∧
      u.comp = { s.comp with lightHeld := if 16 ≤ n then false else s.comp.lightHeld } := by
  simp only [State.restoreLight]
  split
  · split
    · rw [State.protItem_frame]
      exact ⟨rfl, rfl, rfl, rfl⟩
    · rename_i off
      have off : s.comp.lightHeld = false := by simpa using off
      exact ⟨rfl, rfl, rfl, by rw [← off]⟩
  · exact ⟨rfl, rfl, rfl, rfl⟩

/-- The triggers after a frame at the lanes: trigger 2 from the second failing page frame until the sixteenth passing frame (R160, R207). -/
def State.trigAfter (s : State) (ok : Bool) (page : Page) : BitVec 4 :=
  let trig := if s.comp.pagesAfter ok page = 2 then s.plan.trig ||| 4 else s.plan.trig
  if 16 ≤ s.comp.passesAfter ok then trig &&& 0xB else trig

/-- What the three checks of a frame at the lanes come to, `ok` for all three (R160, R207). -/
structure Settled (s u : State) (page : Page) (sent codeOk aliveOk ok : Bool) : Prop where
  plan : u.plan = { s.plan with trig := s.trigAfter ok page }
  out : u.out = s.out
  err : ok = true → u.err = s.err
  comp : ∃ k, u.comp = { s.comp with
    codeFail := countUnless codeOk s.comp.codeFail, aliveFail := countUnless aliveOk s.comp.aliveFail
    failRun := BitVec.ofNat 8 (s.comp.failsAfter ok), verified := ok, pageRun := s.comp.pagesAfter ok page, passRun := k
    lightHeld := if 16 ≤ s.comp.passesAfter ok then false else s.comp.lightHeld || s.comp.pagesAfter ok page == 4
    expectAlive := if sent then some (s.comp.laneAlive + 1) else s.comp.expectAlive
    crcSeen := 0xFFFFFFFF, crcMade := 0xFFFFFFFF, sent := false }

theorem State.settleChecks_settled (s : State) (page : Page) (sent pageOk codeOk aliveOk : Bool) :
    Settled s (s.settleChecks page sent pageOk codeOk aliveOk) page sent codeOk aliveOk (pageOk && codeOk && aliveOk) := by
  rw [State.settleChecks_eq]
  generalize hok : (pageOk && codeOk && aliveOk) = ok
  have code := s.countCode_counted codeOk
  have alive := (s.countCode codeOk).countAlive_counted s.comp aliveOk
  obtain ⟨plan, out, err, k, comp⟩ := ((((s.countCode codeOk).countAlive s.comp aliveOk).countRuns s.comp ok sent page).triggerPage
    (s.comp.pagesAfter ok page)).holdLight_facts (s.comp.pagesAfter ok page) (s.comp.failsAfter ok) s.wallFrame page
  generalize (((((s.countCode codeOk).countAlive s.comp aliveOk).countRuns s.comp ok sent page).triggerPage
    (s.comp.pagesAfter ok page)).holdLight (s.comp.pagesAfter ok page) (s.comp.failsAfter ok) s.wallFrame page) = x at *
  obtain ⟨plan', out', err', comp'⟩ := x.restoreLight_facts (s.comp.passesAfter ok) s.wallFrame
  rw [State.triggerPage_frame] at plan out err comp
  refine ⟨?_, ?_, fun passed => ?_, k, ?_⟩
  · rw [plan', plan]
    simp only [State.countRuns, State.modComp, alive.plan, code.plan, State.trigAfter]
  · rw [out', out]
    simp only [State.countRuns, State.modComp, alive.out, code.out]
  · obtain ⟨⟨-, hc⟩, ha⟩ : (pageOk = true ∧ codeOk = true) ∧ aliveOk = true := by simpa [passed] using hok
    have none4 : s.comp.pagesAfter ok page ≠ 4 := by simp [Comp.pagesAfter, passed]
    rw [err', err none4]
    simp only [State.countRuns, State.modComp, alive.err ha, code.err hc]
  · rw [comp', comp]
    simp only [State.countRuns, State.modComp, alive.comp, code.comp]

end Sys2Proof.Machine
end

section
/-! SUPPORT. The instruction `FRAME_END_CHECKS` (R157-R160). -/

namespace Sys2Proof.Machine

variable (s : State) (p : Plan)

theorem State.aliveFails_iff (sent : Bool) : (!s.aliveFails sent) = true ↔
    sent = false ∨ s.comp.expectAlive = none ∨ s.comp.expectAlive = some s.comp.laneAlive := by
  simp only [State.aliveFails]
  cases sent <;> cases s.comp.expectAlive <;> simp

/-- The three checks are done once in a frame (R157). -/
theorem execFrameEndChecks_ended (h : s.comp.ended = true) : execFrameEndChecks s = .next s := by
  simp [execFrameEndChecks, h]

/-- The page that the frame at the lanes shows, and the outcome of its page check: in STORED mode it brings both (R175). -/
def State.pageAtLanes : Page := if p.outMode = 1 then s.out.lane.page else s.comp.page
def State.pageOkAtLanes : Bool := if p.outMode = 1 then s.out.lane.pageOk else s.pagePasses p

/-- A frame that ends, all its checks still to do, under plan `p` in force. -/
structure State.EndsFrame : Prop where
  runs : s.tgRuns 0 = true
  once : s.comp.ended = false
  plan : s.plan? = some p

section
variable {s p} (h : s.EndsFrame p)
include h

theorem execFrameEndChecks_holding (hn : s.tg0.noFrame = true) (hm : p.outMode ≠ 1) :
    execFrameEndChecks s = .next { s with comp := { s.comp with ended := true } } := by
  simp [execFrameEndChecks, h.runs, h.once, h.plan, hn, hm, State.modComp]

/-- In STORED mode a period that sends no frame has the page check alone. -/
theorem execFrameEndChecks_unsent (hm : p.outMode = 1) (hn : s.tg0.noFrame = true ∨ s.comp.sent = false) :
    execFrameEndChecks s = .next (s.pageCheck p).1 := by
  have skip : ((s.pageCheck p).1.tg0.noFrame || !(s.pageCheck p).1.comp.sent) = true := by
    rw [State.pageCheck_comp, State.pageCheck_tg0]
    simpa using hn
  simp only [execFrameEndChecks, h.runs, h.once, h.plan, hm]
  simp [skip]

theorem execFrameEndChecks_sent (hs : p.outMode = 1 → s.comp.sent = true) (hn : s.tg0.noFrame = false) :
    execFrameEndChecks s = .next ((s.pageCheck p).1.settleChecks (s.pageAtLanes p) s.comp.sent (s.pageOkAtLanes p)
      (s.comp.crcSeen == s.comp.crcMade) (!s.aliveFails s.comp.sent)) := by
  have fails : (s.pageCheck p).1.aliveFails s.comp.sent = s.aliveFails s.comp.sent := by
    simp only [State.aliveFails, State.pageCheck_comp]
  simp only [execFrameEndChecks, h.runs, h.once, h.plan, hn, State.pageAtLanes, State.pageOkAtLanes]
  by_cases hm : p.outMode = 1
  · have sent := hs hm
    rw [sent] at fails
    simp [hm, State.pageCheck_tg0, State.pageCheck_lane, State.pageCheck_comp, hn, sent, fails]
  · simp [hm, State.pageCheck_comp, fails]


end

/-- What `FRAME_END_CHECKS` says of the frame composed (R157): the part of the page check alone. -/
structure PageChecked (u : State) : Prop where
  ended : u.comp.ended = true
  fails : u.comp.pageFail = countUnless (s.pagePasses p) s.comp.pageFail
  slots : p.outMode = 1 → ∀ e ∈ u.out.slots, e.frame = s.out.frame → e.pageOk = s.pagePasses p

theorem State.pageCheck_pageChecked : PageChecked s p (s.pageCheck p).1 where
  ended := by rw [State.pageCheck_comp]
  fails := by rw [State.pageCheck_comp]
  slots := s.pageCheck_slots p

variable {s p}

theorem Settled.pageChecked {v u : State} {page : Page} {sent codeOk aliveOk ok : Bool} (h : Settled v u page sent codeOk aliveOk ok)
    (hv : PageChecked s p v) : PageChecked s p u := by
  obtain ⟨k, comp⟩ := h.comp
  exact ⟨by rw [comp]; exact hv.ended, by rw [comp]; exact hv.fails, fun hm => h.out ▸ hv.slots hm⟩

/-! ### What a frame at the lanes does to the counters, the triggers and the light -/

section
variable {u : State} {page : Page} {sent codeOk aliveOk ok : Bool} (h : Settled s u page sent codeOk aliveOk ok)
include h

/-- Sixteen passing frames in a row end trigger 2 and give the light back. -/
theorem Settled.passed (hok : ok = true) : u.comp.failRun = 0 ∧ u.comp.verified = true ∧
    (s.comp.passRun < 15 → u.comp.lightHeld = s.comp.lightHeld ∧ u.plan = s.plan) ∧
    (15 ≤ s.comp.passRun → u.comp.lightHeld = false ∧ u.plan.trig = s.plan.trig &&& 0xB) := by
  obtain ⟨k, comp⟩ := h.comp
  rw [comp, h.plan]
  subst hok
  refine ⟨rfl, rfl, fun few => ?_, fun many => ?_⟩
  · have few : ¬16 ≤ s.comp.passRun + 1 := by omega
    simp [State.trigAfter, Comp.passesAfter, Comp.pagesAfter, few]
  · have many : 16 ≤ s.comp.passRun + 1 := by omega
    simp [State.trigAfter, Comp.passesAfter, Comp.pagesAfter, many]

/-- The second failing page frame in a row is trigger 2, the fourth turns the light off. -/
theorem Settled.failed (hok : ok = false) : u.comp.failRun.toNat = min 255 (s.comp.failRun.toNat + 1) ∧ u.comp.verified = false ∧
    (page ≠ .none → s.comp.pageRun = 1 → u.plan.trig = s.plan.trig ||| 4) ∧
    (page ≠ .none → s.comp.pageRun = 3 → u.comp.lightHeld = true) ∧
    (page = .none → u.comp.lightHeld = s.comp.lightHeld ∧ u.plan.trig = s.plan.trig) := by
  obtain ⟨k, comp⟩ := h.comp
  rw [comp, h.plan]
  subst hok
  refine ⟨?_, rfl, fun hp run => ?_, fun hp run => ?_, fun hp => ?_⟩
  · simp only [Comp.failsAfter, Bool.false_eq_true, if_false, BitVec.toNat_ofNat]
    omega
  · simp [State.trigAfter, Comp.passesAfter, Comp.pagesAfter, hp, run]
  · simp [Comp.passesAfter, Comp.pagesAfter, hp, run]
  · simp [State.trigAfter, Comp.passesAfter, Comp.pagesAfter, hp]

end

/-! ### The checks that the frame at the lanes has, in the words of the rules -/

theorem State.pageOkAtLanes_iff : s.pageOkAtLanes p = true ↔
    if p.outMode = 1 then s.out.lane.pageOk = true else p.outMode = 2 ∨ (s.comp.psum = s.expectSum p ∧ s.comp.pageUe = false) := by
  rw [State.pageOkAtLanes]
  split
  · rfl
  · exact s.pagePasses_iff p

theorem countUnless_pass {ok : Bool} {P : Prop} (h : ok = true ↔ P) (c : Count) :
    (P → countUnless ok c = c) ∧ (¬P → countUnless ok c = c.bump) := by
  rw [← h]
  cases ok <;> simp [countUnless]

theorem State.allChecksPass_iff : (s.pageOkAtLanes p && (s.comp.crcSeen == s.comp.crcMade) && !s.aliveFails s.comp.sent) = true ↔
    (if p.outMode = 1 then s.out.lane.pageOk = true else p.outMode = 2 ∨ (s.comp.psum = s.expectSum p ∧ s.comp.pageUe = false)) ∧
      s.comp.crcSeen = s.comp.crcMade ∧
      (s.comp.sent = false ∨ s.comp.expectAlive = none ∨ s.comp.expectAlive = some s.comp.laneAlive) := by
  rw [Bool.and_eq_true, Bool.and_eq_true, State.pageOkAtLanes_iff, State.aliveFails_iff, beq_iff_eq, and_assoc]

/-- The counter of page checks and the frames in the store, in the words of R157 and R160. -/
theorem PageChecked.counts {u : State} (h : PageChecked s p u) :
    let page := p.outMode = 2 ∨ (s.comp.psum = s.expectSum p ∧ s.comp.pageUe = false)
    (page → u.comp.pageFail = s.comp.pageFail) ∧ (¬page → u.comp.pageFail = s.comp.pageFail.bump) ∧
      (p.outMode = 1 → ∀ e ∈ u.out.slots, e.frame = s.out.frame → (e.pageOk = true ↔ page)) := by
  obtain ⟨pass, fail⟩ := countUnless_pass (s.pagePasses_iff p) s.comp.pageFail
  rw [← h.fails] at pass fail
  exact ⟨pass, fail, fun hm e he hf => by rw [h.slots hm e he hf]; exact s.pagePasses_iff p⟩

/-- All three checks of the frame at the lanes pass. -/
def State.allPass (s : State) (p : Plan) : Bool :=
  s.pageOkAtLanes p && (s.comp.crcSeen == s.comp.crcMade) && !s.aliveFails s.comp.sent

theorem State.allPass_iff : s.allPass p = true ↔
    (if p.outMode = 1 then s.out.lane.pageOk = true else p.outMode = 2 ∨ (s.comp.psum = s.expectSum p ∧ s.comp.pageUe = false)) ∧
      s.comp.crcSeen = s.comp.crcMade ∧
      (s.comp.sent = false ∨ s.comp.expectAlive = none ∨ s.comp.expectAlive = some s.comp.laneAlive) := by
  rw [State.allPass, Bool.and_eq_true, Bool.and_eq_true, State.pageOkAtLanes_iff, State.aliveFails_iff, beq_iff_eq, and_assoc]

/-- A frame whose end leaves `u` had all three checks: what they come to, from the state `s` before them. -/
structure EndChecked (s : State) (p : Plan) (u : State) : Prop where
  page : PageChecked s p u
  code : u.comp.codeFail = countUnless (s.comp.crcSeen == s.comp.crcMade) s.comp.codeFail
  alive : u.comp.aliveFail = countUnless (!s.aliveFails s.comp.sent) s.comp.aliveFail
  passed : s.allPass p = true → u.comp.failRun = 0 ∧ u.comp.verified = true ∧ (s.pagePasses p = true → u.err = s.err) ∧
    (s.comp.passRun < 15 → u.comp.lightHeld = s.comp.lightHeld ∧ u.plan = s.plan) ∧
    (15 ≤ s.comp.passRun → u.comp.lightHeld = false ∧ u.plan.trig = s.plan.trig &&& 0xB)
  failed : s.allPass p = false → u.comp.failRun.toNat = min 255 (s.comp.failRun.toNat + 1) ∧ u.comp.verified = false ∧
    (s.pageAtLanes p ≠ .none → s.comp.pageRun = 1 → u.plan.trig = s.plan.trig ||| 4) ∧
    (s.pageAtLanes p ≠ .none → s.comp.pageRun = 3 → u.comp.lightHeld = true) ∧
    (s.pageAtLanes p = .none → u.comp.lightHeld = s.comp.lightHeld ∧ u.plan.trig = s.plan.trig)
  expects : u.comp.expectAlive = if s.comp.sent then some (s.comp.laneAlive + 1) else s.comp.expectAlive

theorem Settled.endChecked {u : State} (h : Settled (s.pageCheck p).1 u (s.pageAtLanes p) s.comp.sent
    (s.comp.crcSeen == s.comp.crcMade) (!s.aliveFails s.comp.sent) (s.allPass p)) : EndChecked s p u := by
  have passed := h.passed
  have failed := h.failed
  have page := h.pageChecked (s.pageCheck_pageChecked p)
  obtain ⟨k, comp⟩ := h.comp
  rw [State.pageCheck_comp, State.pageCheck_plan] at passed failed
  rw [State.pageCheck_comp] at comp
  refine ⟨page, by rw [comp], by rw [comp], fun pass => ?_, failed, by rw [comp]⟩
  obtain ⟨run, verified, few, many⟩ := passed pass
  exact ⟨run, verified, fun own => (h.err pass).trans (s.pageCheck_err p own), few, many⟩

/-- A frame that the lanes send in this period has all three checks (R157-R160, R175). -/
theorem execFrameEndChecks_endChecked (h : s.EndsFrame p) (hs : p.outMode = 1 → s.comp.sent = true) (hn : s.tg0.noFrame = false) :
    ∃ u, execFrameEndChecks s = .next u ∧ EndChecked s p u :=
  ⟨_, execFrameEndChecks_sent h hs hn, Settled.endChecked (State.settleChecks_settled _ _ _ _ _ _)⟩

end Sys2Proof.Machine
end

section
/-! SUPPORT. What the start of a frame period leaves of the schedule that TG0 counts (R339, R341): no step of it but its own touches that. -/

namespace Sys2Proof.Machine

/-- What the start of a period sets, and what that depends on: the plan that governs, TG0's place in its schedule, the frames and periods
counted, whether the period clears, and whether fabric time is known. -/
structure PeriodClock where
  cur : Option Gov
  running : Bool
  line : Nat
  line0 : Nat
  period : Nat
  corr : Int
  stepNext : Bool
  count : Nat
  frame : Nat
  clearing : Bool
  locked : Bool

def State.clock (s : State) : PeriodClock where
  cur := s.plan.cur
  running := s.tg0.running
  line := s.tg0.line
  line0 := s.tg0.line0
  period := s.tg0.period
  corr := s.tg0.corr
  stepNext := s.tg0.stepNext
  count := s.out.count
  frame := s.out.frame
  clearing := s.scan.clearing
  locked := s.ftLocked

/-- The schedule is a part of five of the state's blocks. -/
theorem State.clock_congr {s u : State} (cur : u.plan.cur = s.plan.cur) (tg0 : u.tg0 = s.tg0)
    (out : u.out.count = s.out.count ∧ u.out.frame = s.out.frame) (clearing : u.scan.clearing = s.scan.clearing)
    (fab : u.fab.tstate = s.fab.tstate) : u.clock = s.clock := by
  simp only [State.clock, State.ftLocked, cur, tg0, out.1, out.2, clearing, fab]

theorem WriteFrame.clock {s u : State} (h : WriteFrame s u) : u.clock = s.clock := by
  rw [h]
  rfl

theorem CaptureFrame.clock {s u : State} (h : CaptureFrame s u) : u.clock = s.clock := by
  rw [h]
  rfl

section
variable (s : State)

@[simp] theorem State.event_clock (b : Nat) : (s.event b).clock = s.clock := rfl

@[simp] theorem State.report_clock (c b i : Nat) : (s.report c b i).clock = s.clock := (s.report_writeFrame c b i).clock

@[simp] theorem State.post41_clock (d : List Byte) : (s.post41 d).clock = s.clock := (s.post41_writeFrame d).clock

@[simp] theorem State.protItem_clock (e n : Nat) : (s.protItem e n).clock = s.clock := (s.protItem_writeFrame e n).clock

@[simp] theorem State.raise_clock (v : Nat) : (s.raise v).clock = s.clock := by
  rw [State.raise_frame]
  rfl

@[simp] theorem State.deliver_clock (d : Deliver) (x : Done) : (s.deliver d x).clock = s.clock := by
  rw [State.deliver_frame]
  rfl

@[simp] theorem State.deliverAll_clock (l : List Deliver) (n : Nat) : (s.deliverAll l n).clock = s.clock := by
  rw [State.deliverAll_frame]
  rfl

@[simp] theorem State.endCapture_clock (state reason : Nat) : (s.endCapture state reason).clock = s.clock :=
  (s.endCapture_captureFrame state reason).clock

/-! ### The state's blocks that the schedule is no part of -/

@[simp] theorem State.modPair_clock (n : Nat) (f : Pair → Pair) : (s.modPair n f).clock = s.clock := rfl

@[simp] theorem State.modStream_clock (i : Fin 16) (f : Stream → Stream) : (s.modStream i f).clock = s.clock := rfl

@[simp] theorem State.modPort_clock (p : Fin 8) (f : Port → Port) : (s.modPort p f).clock = s.clock := rfl

@[simp] theorem State.modComp_clock (f : Comp → Comp) : (s.modComp f).clock = s.clock := rfl

@[simp] theorem State.rowsLow_clock : s.rowsLow.clock = s.clock := rfl

@[simp] theorem State.modTg_clock (g : Bool) (f : Tg → Tg) : (s.modTg g f).clock = s.clock := by
  cases g <;> rfl

theorem State.modScan_clock (f : Scan → Scan) (h : (f s.scan).clearing = s.scan.clearing) : (s.modScan f).clock = s.clock := by
  simp only [State.clock, State.modScan, h]
  rfl

theorem State.modTg0_clock (f : Tg0 → Tg0) (h : (f s.tg0).running = s.tg0.running ∧ (f s.tg0).line = s.tg0.line ∧
    (f s.tg0).line0 = s.tg0.line0 ∧ (f s.tg0).period = s.tg0.period ∧ (f s.tg0).corr = s.tg0.corr ∧
    (f s.tg0).stepNext = s.tg0.stepNext) : (s.modTg0 f).clock = s.clock := by
  obtain ⟨running, line, line0, period, corr, step⟩ := h
  simp only [State.clock, State.modTg0, running, line, line0, period, corr, step]
  rfl

/-! ### Units and streams -/

@[simp] theorem State.modUnit_clock (u : UnitName) (f : SvcUnit → SvcUnit) : (s.modUnit u f).clock = s.clock := by
  rw [State.modUnit_frame]
  rfl

@[simp] theorem State.setUnit_clock (u : UnitName) (x : SvcState) (d : Bool) : (s.setUnit u x d).clock = s.clock := by
  rw [State.setUnit_frame]
  rfl

@[simp] theorem State.setPort_clock (p : Fin 8) (x : PortState) : (s.setPort p x).clock = s.clock := by
  simp only [State.setPort]
  split <;> simp

@[simp] theorem State.leaveService_clock (u : UnitName) : (s.leaveService u).clock = s.clock := by
  simp only [State.leaveService]
  cases (s.unit u).removeTo with
  | none => split <;> [simp; (split <;> simp)]
  | some who => split <;> [simp; (split <;> simp)]

@[simp] theorem State.settleUnit_clock (p : Option Plan) (u : UnitName) : (s.settleUnit p u).clock = s.clock := by
  simp only [State.settleUnit]
  split
  · split <;> simp
  · split
    · simp
    · split <;> simp
  · rfl

@[simp] theorem State.settleUnits_clock (p : Plan) : (s.settleUnits p).clock = s.clock :=
  foldl_keeps State.clock _ (fun s u => s.settleUnit_clock (some p) u) _ s

@[simp] theorem State.dropQueued_clock (i : Fin 16) : (s.dropQueued i).clock = s.clock := rfl

@[simp] theorem State.detachNow_clock (i : Fin 16) : (s.detachNow i).clock = s.clock := rfl

@[simp] theorem State.putStream_clock (i : Fin 16) (x : Stream) : (s.putStream i x).clock = s.clock := by
  obtain ⟨wm, h | h⟩ := s.putStream_cases i x <;> rw [h] <;> rfl

@[simp] theorem State.streamEvent_clock (i : Fin 16) (e f : Nat) : (s.streamEvent i e f).clock = s.clock := State.post41_clock _ _

theorem State.deliverEach_clock (l : List Deliver) (x : Done) : (l.foldl (fun (s : State) d => s.deliver d x) s).clock = s.clock :=
  foldl_keeps State.clock _ (fun s d => s.deliver_clock d x) l s

@[simp] theorem State.pauseNow_clock (i : Fin 16) : (s.pauseNow i).clock = s.clock := by
  simp only [State.pauseNow]
  split <;> simp [State.deliverEach_clock]

@[simp] theorem State.applySeek_clock (i : Fin 16) (n : Nat) : (s.applySeek i n).clock = s.clock := by
  simp only [State.applySeek]
  split <;> split <;> simp [State.deliverEach_clock]

@[simp] theorem State.presentFrame_clock (i : Fin 16) (n c : Nat) : (s.presentFrame i n c).clock = s.clock := by
  simp only [State.presentFrame, State.putStream_clock, State.dropQueued_clock]
  split
  · split <;> simp [State.countStream]
  · simp

@[simp] theorem State.streamBoundary_clock (i : Fin 16) (n : Nat) : (s.streamBoundary i n).clock = s.clock := by
  simp only [State.streamBoundary, apply_ite State.clock, State.pauseNow_clock, State.applySeek_clock, State.presentFrame_clock,
    State.event_clock, State.streamEvent_clock, State.modStream_clock, ite_self]

end

end Sys2Proof.Machine
end

section
/-! SUPPORT. The scan state, the plan that comes into force and the references leave the schedule alone (R198, R343, R349-R353). -/

namespace Sys2Proof.Machine

section
variable (s : State)

/-! ### Requests and the scan state -/

@[simp] theorem State.holdLanes_clock : s.holdLanes.clock = s.clock :=
  foldl_keeps State.clock _ (fun s n => s.modPair_clock n Pair.hold) _ s

@[simp] theorem State.request_clock (rows : Bool) : (s.request rows).clock = s.clock := by
  simp only [State.request, State.abandonEntry]
  split
  case h_3 => split <;> [exact s.modScan_clock _ rfl; exact (State.deliverAll_clock _ _ _).trans (s.modScan_clock _ rfl)]
  case h_4 | h_5 => split <;> [rfl; exact s.modScan_clock _ rfl]
  all_goals rfl

@[simp] theorem State.pageRequest_clock : s.pageRequest.clock = s.clock := by
  simp only [State.pageRequest]
  split <;> simp

@[simp] theorem State.entryPoint_clock : s.entryPoint.clock = s.clock := by
  have pause : ∀ (s : State) (i : Fin 16), (if s.streams[i].st = .playing then s.pauseNow i else s).clock = s.clock := by
    intro s i
    split <;> simp
  calc s.entryPoint.clock = (s.holdLanes.rowsLow.modScan fun c => { c with pastEntry := true }).clock := foldl_keeps State.clock _ pause _ _
    _ = s.holdLanes.rowsLow.clock := State.modScan_clock _ _ rfl
    _ = s.clock := by simp

@[simp] theorem State.endRequests_clock : s.endRequests.clock = s.clock := by
  have told : ((s.modScan fun c => { c with reqs := c.reqs.filter fun r => !r.active }).deliverAll
      ((s.scan.reqs.filter (·.active)).map (·.who)) 0).clock = s.clock := (State.deliverAll_clock _ _ _).trans (s.modScan_clock _ rfl)
  simp only [State.endRequests]
  split <;> exact told

@[simp] theorem State.endScan_clock : s.endScan.clock = s.clock := by
  have ended : (if s.tg0.noFrame ∨ s.scan.st = .holding then s else s.endRequests).clock = s.clock := by
    split <;> simp
  rw [← ended, State.endScan]
  generalize (if s.tg0.noFrame ∨ s.scan.st = .holding then s else s.endRequests) = v
  simp only
  split
  · exact (State.deliverAll_clock _ _ _).trans ((State.modScan_clock _ _ rfl).trans (by simp))
  · have scans : ((v.modScan fun c => { c with st := .scanning, exitTo := [], wantExit := false }).deliverAll v.scan.exitTo 0).clock =
        v.clock := (State.deliverAll_clock _ _ _).trans (v.modScan_clock _ rfl)
    split
    · exact scans
    · exact (State.entryPoint_clock _).trans ((State.modScan_clock _ _ rfl).trans scans)
  · split <;> simp
  · rfl

@[simp] theorem State.realignHeld_clock : s.realignHeld.clock = s.clock := by
  refine foldl_keeps State.clock _ (fun s n => ?_) _ s
  split
  · split <;> simp
  · rfl

/-- A period start leaves HOLDING for what has been asked (R350-R352). -/
def State.leaveHolding (s : State) : State :=
  match s.scan.st with
  | .holding =>
    if s.scan.wantExit then (s.modScan fun c => { c with st := .exiting }).realignHeld
    else if !s.scan.reqs.isEmpty then (s.modScan fun c => { c with st := .updating }).realignHeld
    else s
  | _ => s

/-- The requests that a period with a frame serves. -/
def State.activateRequests (s : State) (frame : Bool) : State :=
  match s.scan.st with
  | .scanning | .exiting | .updating =>
    if frame then s.modScan fun c => { c with reqs := c.reqs.map fun r => { r with active := true } } else s
  | _ => s

theorem State.startScan_eq (frame : Bool) :
    s.startScan frame = ((s.modScan fun c => { c with activeBegun := false }).leaveHolding).activateRequests frame := rfl

theorem State.leaveHolding_clock : s.leaveHolding.clock = s.clock := by
  have leaves : ∀ st, ((s.modScan fun c => { c with st := st }).realignHeld).clock = s.clock := fun st =>
    (State.realignHeld_clock _).trans (s.modScan_clock _ rfl)
  simp only [State.leaveHolding]
  split
  · split
    · exact leaves _
    · split
      · exact leaves _
      · rfl
  · rfl

theorem State.activateRequests_clock (frame : Bool) : (s.activateRequests frame).clock = s.clock := by
  simp only [State.activateRequests]
  split
  case h_4 => rfl
  all_goals split <;> [exact s.modScan_clock _ rfl; rfl]

@[simp] theorem State.startScan_clock (frame : Bool) : (s.startScan frame).clock = s.clock := by
  rw [State.startScan_eq, State.activateRequests_clock, State.leaveHolding_clock]
  exact s.modScan_clock _ rfl

/-! ### References and the plan that comes into force -/

@[simp] theorem State.setDisc_clock (d : Disc) : (s.setDisc d).clock = s.clock := by
  simp only [State.setDisc]
  split
  · rfl
  · exact (s.modTg0 _).event_clock 15

@[simp] theorem State.tg0Lose_clock (code info : Nat) : (s.tg0Lose code info).clock = s.clock := by
  simp only [State.tg0Lose]
  split
  case h_3 => rfl
  all_goals exact (State.report_clock _ _ _ _).trans (State.setDisc_clock _ _)

@[simp] theorem State.tg0Regain_clock : s.tg0Regain.clock = s.clock := by
  simp only [State.tg0Regain]
  split <;> simp

@[simp] theorem State.tgLose_clock (g : Bool) (n : Nat) : (s.tgLose g n).clock = s.clock := by
  simp only [State.tgLose]
  split <;> simp

@[simp] theorem State.tgRegain_clock (g : Bool) : (s.tgRegain g).clock = s.clock := by
  simp only [State.tgRegain]
  split
  · rfl
  · split <;> simp

@[simp] theorem State.refInvalid_clock (n : Nat) : (s.refInvalid n).clock = s.clock := by
  have unlocked : (s.modTg0 fun g => { g with refValid := false, refK := 0 }).clock = s.clock := rfl
  simp only [State.refInvalid]
  split <;> simp [unlocked]

@[simp] theorem State.refFound_clock (t k : Nat) : (s.refFound t k).clock = s.clock := by
  have found : (s.modTg0 fun g => { g with refValid := true, tRef := t, refK := k }).clock = s.clock := rfl
  simp only [State.refFound]
  split <;> simp [found]

@[simp] theorem State.judgeRef_clock (p : Plan) : (s.judgeRef p).clock = s.clock := by
  simp only [State.judgeRef]
  split
  · split
    · rfl
    · simp
  · split <;> simp

@[simp] theorem State.takeBanks_clock (l : List (Nat × CoefBank)) : (s.takeBanks l).clock = s.clock := by
  simp only [State.takeBanks]
  split <;> rfl

@[simp] theorem State.intoForce_clock (old : Option Gov) (g : Gov) : (s.intoForce old g).clock = s.clock := by
  have ports : ∀ (s : State) (f : Fin 8 → Port → Port), ((List.finRange 8).foldl (fun (s : State) q => s.modPort q (f q)) s).clock = s.clock :=
    fun s f => foldl_keeps State.clock _ (fun s q => s.modPort_clock q (f q)) _ s
  have pin : ∀ s : State, (s.modOut fun o => { o with pin := none }).clock = s.clock := fun _ => rfl
  have src : ∀ s : State, (s.modTg0 fun t => { t with src := g.plan.tg0Src }).clock = s.clock := fun _ => rfl
  have status : ∀ (s : State) (c : PlanStatus), ({ s with plan := { s.plan with status := c } } : State).clock = s.clock := fun _ _ => rfl
  simp only [State.intoForce, ports, apply_ite State.clock, State.request_clock, State.judgeRef_clock, State.setDisc_clock, src, pin,
    State.event_clock, status, ite_self]

/-! ### The pictures of the period -/

@[simp] theorem State.startFetches_clock (b : Bool) : (s.startFetches b).clock = s.clock := by
  refine State.clock_congr rfl rfl ?_ rfl rfl
  simp only [State.startFetches]
  split <;> exact ⟨rfl, rfl⟩

@[simp] theorem State.planLayers_clock (p : Plan) : (s.planLayers p).clock = s.clock := by
  simp only [State.clock, State.planLayers, State.ftLocked]

@[simp] theorem State.layerBoundary_clock (p : Plan) (b : Bool) (n : Nat) : (s.layerBoundary p b n).clock = s.clock := by
  simp only [State.clock, State.layerBoundary, State.ftLocked]

@[simp] theorem State.streamBoundaries_clock (n : Nat) :
    ((List.finRange 16).foldl (fun (s : State) i => s.streamBoundary i n) s).clock = s.clock :=
  foldl_keeps State.clock _ (fun s i => s.streamBoundary_clock i n) _ s

@[simp] theorem State.startCapture_clock (p : Plan) (n : Nat) : (s.startCapture p n).clock = s.clock :=
  (State.writeHeader_writeFrame _ _).clock

@[simp] theorem State.swapPackage_clock : s.swapPackage.clock = s.clock := by
  simp only [State.swapPackage]
  split
  · rfl
  · rw [State.modComp_clock]
    split
    · exact (State.dropPages_pageWrite _ _).frame.clock
    · rfl

@[simp] theorem State.setPage_clock (n : Nat) : (s.setPage n).clock = s.clock := by
  simp only [State.setPage]
  split
  · exact (State.event_clock _ _).trans (State.protItem_clock _ _ _)
  · rfl

@[simp] theorem State.startSynth_clock (p : Plan) : (s.startSynth p).clock = s.clock := by
  simp only [State.startSynth]
  split
  · exact State.report_clock _ _ _ _
  · rfl

@[simp] theorem State.startFrame_clock (p : Plan) (n : Nat) (first : Bool) : (s.startFrame p n first).clock = s.clock := by
  have paged : (if p.outMode = 2 then
      (if s.swapPackage.comp.page = .none then s.swapPackage
        else (s.swapPackage.modComp fun c => { c with page := .none, source := 0 }).protItem 0 n |>.event 7)
    else s.swapPackage.setPage n).clock = s.clock := by
    split
    · split <;> simp
    · simp
  exact (State.startSynth_clock _ p).trans paged

@[simp] theorem State.lineStarts_clock (g : Fin 3) (line : Nat) : (s.lineStarts g line).clock = s.clock := rfl

@[simp] theorem State.rowOutputs_clock (line : Nat) (write : Option Nat) : (s.rowOutputs line write).clock = s.clock := by
  simp only [State.rowOutputs]
  generalize (s.pwr.st == PState.up && _) = on
  cases on
  · rfl
  · exact s.modScan_clock _ rfl

@[simp] theorem State.trainPairs_clock : s.trainPairs.clock = s.clock := rfl

@[simp] theorem State.startPicture_clock (old : Option Gov) (g : Gov) (n : Nat) (b : Bool) : (s.startPicture old g n b).clock = s.clock := by
  simp only [State.startPicture, State.trainPairs_clock, State.rowOutputs_clock, State.lineStarts_clock, State.event_clock,
    State.startFrame_clock, State.streamBoundaries_clock, State.layerBoundary_clock]
  split <;> rfl

/-! ### The next arming point -/

theorem SelectFrame.clock {s u : State} (h : SelectFrame s u) : u.clock = s.clock := by
  rw [h]
  rfl

@[simp] theorem State.staySelected_clock (n : Nat) : (s.staySelected n).clock = s.clock := (s.staySelected_facts n).1.clock

@[simp] theorem State.refuseArmed_clock (a : Fin 8) (c n : Nat) : (s.refuseArmed a c n).clock = s.clock := by
  simp only [State.refuseArmed, State.event_clock, State.planItem, State.post41_clock, State.report_clock]
  rfl

@[simp] theorem State.armingPoint_clock (n : Nat) : (s.armingPoint n).clock = s.clock := by
  rw [State.armingPoint_eq]
  refine Eq.trans (b := (s.choosePlan n).clock) rfl ?_
  simp only [State.choosePlan]
  split
  · simp
  · split
    · split
      · exact (State.useSelected_selected _ _ _ _).frame.clock
      · simp
    · simp

/-- The discipline of TG0 settles the correction of the next period, and whether it is a phase step (R341, R343). -/
theorem State.discipline_clock (err : Int) (len : Nat) :
    ∃ c b, (s.discipline err len).clock = { s.clock with corr := c, stepNext := b } := by
  have locks : ∀ (v : State) (P : Prop) [Decidable P], (if P then v.setDisc .locked else v).clock = v.clock := by
    intro v P _
    split <;> simp
  simp only [State.discipline]
  split
  · exact ⟨_, _, rfl⟩
  · exact ⟨_, _, rfl⟩
  · split
    · exact ⟨_, _, rfl⟩
    · split
      · exact ⟨_, _, State.report_clock _ _ _ _⟩
      · exact ⟨_, _, locks _ _⟩

@[simp] theorem State.applyDue_clock : s.applyDue.clock = s.clock := by
  simp only [State.applyDue]
  split
  · rw [State.deliver_clock]
    simp only [State.applyTrim]
    split <;> rfl
  · rfl

@[simp] theorem State.audPeriod_clock : s.audPeriod.clock = s.clock := by
  simp only [State.audPeriod]
  split
  · split
    · split
      · rfl
      · split
        · exact (State.event_clock _ _).trans (State.report_clock _ _ _ _)
        · split
          · rfl
          · split <;> rfl
    · split <;> rfl
  · split <;> rfl

end

end Sys2Proof.Machine
end

section
/-! SUPPORT. A period of a plan starts: its phases, and the schedule after them (R166, R198, R339, R341). -/

namespace Sys2Proof.Machine

/-- The plan of the next frame comes into force in the place of the one that governed. -/
def State.takePlan (s : State) (g : Gov) : State :=
  let old := s.plan.cur
  let isNew := !(old.any fun o => o.same g)
  let s := (s.endScan).modScan fun c => { c with clearing := false }
  let s := { s with plan := { s.plan with cur := some g, prev := old } }
  let s := if isNew then s.intoForce old g else s
  (s.takeBanks g.banks).pageRequest

/-- The wall frame number of the period, after plan `old` (R166). -/
def State.periodNumber (s : State) (old : Option Gov) (p : Plan) : Nat :=
  let byTime := p.tg0Src == 0 && s.ftLocked && (old.isNone || s.tg0.stepNext)
  if byTime then s.frameByTime p else if old.isNone then s.out.count else s.out.frame + 1

/-- The period is counted and line 0 begins (R166, R339). -/
def State.countPeriod (s : State) (old : Option Gov) (g : Gov) (oldMode n : Nat) : State :=
  let p := g.plan
  let turn := old.isSome && oldMode != p.outMode
  let c := s.plan.status
  let s := { s with plan := { s.plan with
    status := { c with
      heldPeriods := if turn && p.outMode = 1 then c.heldPeriods.bump else c.heldPeriods
      frameDrop := if turn && oldMode = 1 then c.frameDrop.bump else c.frameDrop }
    w0 := if g.first then some n else s.plan.w0 } }
  let s := s.modOut fun o => { o with frame := n, prevFrame := o.frame, count := o.count + 1 }
  let s := s.modTg0 fun t => { t with
    line := 0, period := if old.isNone then t.period else t.period + 1
    noFrame := t.stepNext || (p.outMode == 1 && (old.isNone || turn)), stepNext := false, sym := 0 }
  s.modTg0 fun t => { t with line0 := p.lineZero t.period t.corr }

/-- Capture, scan-out, the units in service, streams and composition begin the period. -/
def State.beginPicture (s : State) (old : Option Gov) (g : Gov) (oldMode n : Nat) (holding : Bool) : State :=
  let p := g.plan
  let isNew := !(old.any fun o => o.same g)
  let turn := old.isSome && oldMode != p.outMode
  let s := if holding || s.tg0.noFrame || turn then s.modComp fun c => { c with expectAlive := none } else s
  let s := if isNew then s.endCapture 3 5 else s
  let s := if isNew && p.capEn then s.startCapture p n else s
  let s := s.startScan (!s.tg0.noFrame)
  let s := s.startFetches (!s.tg0.noFrame && s.scan.st != .holding)
  let s := s.settleUnits p
  if s.scan.st = .holding then
    let s := if isNew then s.planLayers p else s
    (List.finRange 16).foldl (fun (s : State) i => s.streamBoundary i n) s
  else s.startPicture old g n isNew

/-- The arming point of the next frame, the correction of the next period, and the bandwidth of this one. -/
def State.aimNext (s : State) (p : Plan) (n : Nat) (err : Int) : State :=
  let s := ({ s with synth := { s.synth with lost := [] } } : State)
  let s := (s.armingPoint (n + 1)).discipline err (p.start (s.tg0.period + 2) - p.start (s.tg0.period + 1))
  let s := ({ s with dram := { s.dram with spent := Vector.replicate 6 0 }, blt := { s.blt with spent := 0 } } : State)
  s.applyDue.audPeriod

section
variable (s : State) (old : Option Gov) (g : Gov) (oldMode n : Nat)

theorem State.startPeriod_eq (err : Int) : s.startPeriod g err =
    let v := s.takePlan g
    let n := v.periodNumber s.plan.cur g.plan
    ((v.countPeriod s.plan.cur g s.outMode n).beginPicture s.plan.cur g s.outMode n (s.scan.st == .holding)).aimNext g.plan n err := by
  simp only [State.startPeriod, State.takePlan, State.periodNumber, State.countPeriod, State.beginPicture, State.aimNext]

theorem State.takePlan_clock : (s.takePlan g).clock = { s.clock with cur := some g, clearing := false } := by
  have taken : ({ s.endScan.modScan (fun c => { c with clearing := false }) with
      plan := { s.endScan.plan with cur := some g, prev := s.plan.cur } } : State).clock =
      { s.endScan.clock with cur := some g, clearing := false } := rfl
  rw [s.endScan_clock] at taken
  rw [State.takePlan, State.pageRequest_clock, State.takeBanks_clock]
  split
  · exact (State.intoForce_clock _ _ _).trans taken
  · exact taken

/-- The number that TG0's schedule has for the period after plan `old`. -/
def PeriodClock.nextPeriod (c : PeriodClock) (old : Option Gov) : Nat := if old.isNone then c.period else c.period + 1

theorem State.countPeriod_clock : (s.countPeriod old g oldMode n).clock = { s.clock with
    line := 0, period := s.clock.nextPeriod old, line0 := g.plan.lineZero (s.clock.nextPeriod old) s.clock.corr, stepNext := false
    count := s.clock.count + 1, frame := n } := rfl

theorem State.beginPicture_clock (holding : Bool) : (s.beginPicture old g oldMode n holding).clock = s.clock := by
  simp only [State.beginPicture, apply_ite State.clock, State.startPicture_clock, State.streamBoundaries_clock, State.planLayers_clock,
    State.settleUnits_clock, State.startFetches_clock, State.startScan_clock, State.startCapture_clock, State.endCapture_clock,
    State.modComp_clock, ite_self]

theorem State.aimNext_clock (p : Plan) (err : Int) :
    ∃ c b, (s.aimNext p n err).clock = { s.clock with corr := c, stepNext := b } := by
  simp only [State.aimNext, State.audPeriod_clock, State.applyDue_clock]
  generalize hv : ({ s with synth := { s.synth with lost := [] } } : State) = v
  have kept : v.clock = s.clock := by
    rw [← hv]
    rfl
  generalize p.start _ - p.start _ = len
  obtain ⟨c, b, h⟩ := (v.armingPoint (n + 1)).discipline_clock err len
  rw [State.armingPoint_clock, kept] at h
  exact ⟨c, b, h⟩

/-! ### The period as it has begun -/

theorem State.startPeriod_clock (err : Int) : ∃ c b, (s.startPeriod g err).clock = { s.clock with
    cur := some g, clearing := false, line := 0, period := s.clock.nextPeriod s.plan.cur
    line0 := g.plan.lineZero (s.clock.nextPeriod s.plan.cur) s.clock.corr, corr := c, stepNext := b
    count := s.clock.count + 1, frame := (s.takePlan g).periodNumber s.plan.cur g.plan } := by
  rw [State.startPeriod_eq]
  simp only
  generalize (s.takePlan g).periodNumber s.plan.cur g.plan = n
  obtain ⟨c, b, aimed⟩ := (((s.takePlan g).countPeriod s.plan.cur g s.outMode n).beginPicture s.plan.cur g s.outMode n
    (s.scan.st == .holding)).aimNext_clock n g.plan err
  refine ⟨c, b, ?_⟩
  rw [aimed, State.beginPicture_clock, State.countPeriod_clock, State.takePlan_clock]
  rfl

/-- Wall frames count on, but for a phase step (R166). -/
theorem State.periodNumber_next (hc : s.plan.cur ≠ none) (hstep : s.tg0.stepNext = false) :
    (s.takePlan g).periodNumber s.plan.cur g.plan = s.out.frame + 1 := by
  have taken := s.takePlan_clock g
  have step : (s.takePlan g).tg0.stepNext = false := (congrArg PeriodClock.stepNext taken).trans hstep
  have frame : (s.takePlan g).out.frame = s.out.frame := congrArg PeriodClock.frame taken
  have old : s.plan.cur.isNone = false := Option.isNone_eq_false_iff.2 (Option.isSome_iff_ne_none.2 hc)
  simp [State.periodNumber, old, step, frame]

/-- Without fabric time the first wall frame has the number of the periods that have been. -/
theorem State.periodNumber_first (hc : s.plan.cur = none) (ht : g.plan.tg0Src ≠ 0 ∨ s.ftLocked = false) :
    (s.takePlan g).periodNumber s.plan.cur g.plan = s.out.count := by
  have taken := s.takePlan_clock g
  have locked : (s.takePlan g).ftLocked = s.ftLocked := congrArg PeriodClock.locked taken
  have count : (s.takePlan g).out.count = s.out.count := congrArg PeriodClock.count taken
  have time : (g.plan.tg0Src == 0 && s.ftLocked) = false := by simpa [← imp_iff_not_or] using ht
  simp [State.periodNumber, hc, locked, count, time]

/-! ### The bandwidth of the period -/

theorem State.applyDue_spends : s.applyDue.dram = s.dram ∧ s.applyDue.blt = s.blt := by
  simp only [State.applyDue]
  split
  · rw [State.deliver_dram, State.deliver_blt]
    simp only [State.applyTrim]
    split <;> exact ⟨rfl, rfl⟩
  · exact ⟨rfl, rfl⟩

theorem State.audPeriod_spends : s.audPeriod.dram = s.dram ∧ s.audPeriod.blt = s.blt := by
  simp only [State.audPeriod]
  split
  · split
    · split
      · exact ⟨rfl, rfl⟩
      · split
        · exact ⟨State.report_dram _ _ _ _, State.report_blt _ _ _ _⟩
        · split
          · exact ⟨rfl, rfl⟩
          · split <;> exact ⟨rfl, rfl⟩
    · split <;> exact ⟨rfl, rfl⟩
  · split <;> exact ⟨rfl, rfl⟩

theorem State.startPeriod_spends (err : Int) : (s.startPeriod g err).blt.spent = 0 ∧ (s.startPeriod g err).dram.spent = Vector.replicate 6 0 := by
  rw [State.startPeriod_eq]
  simp only [State.aimNext]
  constructor
  · rw [(State.audPeriod_spends _).2, (State.applyDue_spends _).2]
  · rw [(State.audPeriod_spends _).1, (State.applyDue_spends _).1]

end

end Sys2Proof.Machine
end

section
/-! SUPPORT. A clearing period ends without a plan (R383): those who wait for its rows are told. -/

namespace Sys2Proof.Machine

section
variable (s : State)

/-! ### Those who wait -/

theorem State.modThread_other (t v : Tid) (f : Thread → Thread) (h : v ≠ t) : (s.modThread t f).thread v = s.thread v := by
  rw [State.modThread_eq, State.setThread_thread_other _ _ _ _ h]

theorem State.modThread_self (t : Tid) (f : Thread → Thread) : (s.modThread t f).thread t = f (s.thread t) := by
  rw [State.modThread_eq, State.setThread_thread]

theorem State.deliver_told (x : Done) (t : Tid) (h : (s.thread t).wait = .unit) : ((s.deliver (.thread t) x).thread t).done = some x := by
  rw [State.deliver, State.modThread_self, if_pos h]

/-- An answer ends no wait, and what a thread has been told is still the same after the same answer to another. -/
theorem State.deliver_waits (d : Deliver) (x : Done) (t : Tid) : ((s.deliver d x).thread t).wait = (s.thread t).wait ∧
    ((s.thread t).done = some x → ((s.deliver d x).thread t).done = some x) := by
  have changed : ∀ (v : Tid) (f : Thread → Thread), ((f (s.thread v)).wait = (s.thread v).wait ∧
      ((s.thread v).done = some x → (f (s.thread v)).done = some x)) → ((s.modThread v f).thread t).wait = (s.thread t).wait ∧
      ((s.thread t).done = some x → ((s.modThread v f).thread t).done = some x) := by
    intro v f h
    by_cases ht : t = v
    · subst ht
      rwa [State.modThread_self]
    · rw [State.modThread_other _ _ _ _ ht]
      exact ⟨rfl, id⟩
  cases d with
  | thread v =>
    refine changed v _ ?_
    split
    · exact ⟨rfl, fun _ => rfl⟩
    · exact ⟨rfl, id⟩
  | async v op => exact changed v _ ⟨rfl, id⟩
  | group gop src =>
    have told := (s.eventFor_onlyEvents (fun _ => true) (BitVec.ofNat 32 (2 ^ 10))).trans (State.post41_onlyEvents (s.event 10)
      (leBytes 16 (0x30 + 256 * (x.val.toNat % 256) + 65536 * gop.toNat + 2 ^ 32 * src.toNat))) t
    rw [State.deliver, State.groupResult, told]
    exact ⟨rfl, id⟩
  | nobody => exact ⟨rfl, id⟩

theorem State.deliverAll_kept (l : List Deliver) (n : Nat) (t : Tid) (h : (s.thread t).done = some (.code n)) :
    ((s.deliverAll l n).thread t).done = some (.code n) := by
  induction l generalizing s with
  | nil => exact h
  | cons d l ih => exact ih _ ((s.deliver_waits d (.code n) t).2 h)

theorem State.deliverAll_told (l : List Deliver) (n : Nat) (t : Tid) (hl : .thread t ∈ l) (h : (s.thread t).wait = .unit) :
    ((s.deliverAll l n).thread t).done = some (.code n) := by
  induction l generalizing s with
  | nil => exact absurd hl List.not_mem_nil
  | cons d l ih =>
    rcases List.mem_cons.1 hl with rfl | hl
    · exact State.deliverAll_kept _ l n t (s.deliver_told (.code n) t h)
    · exact ih _ hl (((s.deliver_waits d (.code n) t).1).trans h)

/-! ### The requests that the period has served -/

theorem State.endRequests_frame : s.endRequests = { s with
    threads := s.endRequests.threads, queues := s.endRequests.queues, host := s.endRequests.host, pwr := s.endRequests.pwr
    scan := { s.scan with reqs := s.scan.reqs.filter fun r => !r.active } } := by
  simp only [State.endRequests]
  rw [State.deliverAll_frame]
  split <;> rfl

theorem State.endRequests_thread (t : Tid) : s.endRequests.thread t = ((s.modScan fun c => { c with
    reqs := c.reqs.filter fun r => !r.active }).deliverAll ((s.scan.reqs.filter (·.active)).map (·.who)) 0).thread t := by
  simp only [State.endRequests]
  split <;> rfl

theorem State.endScan_scanning (hn : s.tg0.noFrame = false) (hst : s.scan.st = .scanning) : s.endScan = s.endRequests := by
  have stays : s.endRequests.scan.st = .scanning := by
    rw [State.endRequests_frame]
    exact hst
  simp [State.endScan, hn, hst, stays]

/-! ### The end of a clearing period -/

/-- The last rows have been cleared: TG0 stops. -/
theorem State.endClearing_eq (hn : s.tg0.noFrame = false) (hst : s.scan.st = .scanning) (hr : ∀ r ∈ s.scan.reqs, r.active = true) :
    s.endClearing = ((s.endRequests.modScan fun c => { c with clearing := false }).modTg0 fun g => { g with running := false }).rowsLow := by
  have served : s.endRequests.scan.reqs = [] := by
    rw [State.endRequests_frame]
    exact List.filter_eq_nil_iff.2 fun r hm => by simp [hr r hm]
  simp [State.endClearing, s.endScan_scanning hn hst, State.modScan, served]

theorem State.endClearing_facts (hn : s.tg0.noFrame = false) (hst : s.scan.st = .scanning) (hr : ∀ r ∈ s.scan.reqs, r.active = true) :
    let u := s.endClearing
    u.tg0 = { s.tg0 with running := false } ∧ u.scan.reqs = [] ∧ u.scan.clearing = false ∧
      (∀ r n, r ∈ s.scan.reqs → r.who = .thread n → (s.thread n).wait = .unit → (u.thread n).done = some (.code 0)) ∧
      u.mem = s.mem ∧ u.plan = s.plan := by
  rw [s.endClearing_eq hn hst hr]
  refine ⟨?_, ?_, rfl, fun r n hm hw wait => ?_, ?_, ?_⟩
  · rw [State.endRequests_frame]
    rfl
  · rw [State.endRequests_frame]
    exact List.filter_eq_nil_iff.2 fun r hm => by simp [hr r hm]
  · have waits : Deliver.thread n ∈ (s.scan.reqs.filter (·.active)).map (·.who) :=
      List.mem_map.2 ⟨r, List.mem_filter.2 ⟨hm, hr r hm⟩, hw⟩
    have told := State.deliverAll_told (s.modScan fun c => { c with reqs := c.reqs.filter fun r => !r.active }) _ 0 n waits wait
    rw [← State.endRequests_thread] at told
    simpa only [State.thread, State.rowsLow, State.modTg0, State.modScan] using told
  · rw [State.endRequests_frame]
    rfl
  · rw [State.endRequests_frame]
    rfl

/-! ### The instruction -/

theorem exec_framePeriodStart (err : Int) : exec (.framePeriodStart err) s = execFramePeriodStart err s := rfl

section
variable {s} (err : Int) (hr : s.tg0.running = true) (ht : s.therm.tripped = false) (hs : s.safe = false)
include hr ht hs

theorem exec_framePeriodStart_plan {g : Gov} (h : s.plan.next = some g) : exec (.framePeriodStart err) s = .next (s.startPeriod g err) := by
  simp only [exec_framePeriodStart, execFramePeriodStart, hr, ht, hs, h]
  rfl

theorem exec_framePeriodStart_none (h : s.plan.next = none) :
    exec (.framePeriodStart err) s = .next (if s.scan.clearing then s.endClearing else s) := by
  simp only [exec_framePeriodStart, execFramePeriodStart, hr, ht, hs, h]
  rfl

end

end

end Sys2Proof.Machine
end

section
/-! O43: the start of a frame period, and the three checks at the end of a frame. -/

open Sys2Proof Sys2Proof.Machine

/-- Settles O43: the phases of a period start leave the schedule alone but for the one that counts, and the checks of a frame at the lanes
come to one change of the counters, the triggers and the light. -/
theorem framePeriodsAndChecks : Obligations.FramePeriodsAndChecks := by
  refine ⟨fun s err running cool safe => ?_, fun s p runs once plan => ?_⟩
  · refine ⟨fun g hg => ?_, fun hg hc => ?_, fun hg hc hn hst hr => ⟨s.endClearing, ?_, s.endClearing_facts hn hst hr⟩⟩
    · have starts := exec_framePeriodStart_plan err running cool safe hg
      obtain ⟨c, b, clock⟩ := s.startPeriod_clock g err
      obtain ⟨blits, bandwidth⟩ := s.startPeriod_spends g err
      generalize s.startPeriod g err = u at starts clock blits bandwidth
      have period : u.tg0.period = s.clock.nextPeriod s.plan.cur := congrArg PeriodClock.period clock
      have frame : u.out.frame = (s.takePlan g).periodNumber s.plan.cur g.plan := congrArg PeriodClock.frame clock
      refine ⟨_, starts, congrArg PeriodClock.cur clock, congrArg PeriodClock.line clock, (congrArg PeriodClock.running clock).trans running,
        congrArg PeriodClock.count clock, congrArg PeriodClock.clearing clock, ?_, ?_, fun hc step => frame.trans (s.periodNumber_next g hc step),
        fun hc time => frame.trans (s.periodNumber_first g hc time), blits, fun i => ?_⟩
      · rw [period, PeriodClock.nextPeriod]
        cases s.plan.cur <;> rfl
      · rw [period]
        exact congrArg PeriodClock.line0 clock
      · simp [bandwidth]
    · rw [exec_framePeriodStart_none err running cool safe hg, hc]
      rfl
    · rw [exec_framePeriodStart_none err running cool safe hg, hc]
      rfl
  intro c page own shown code alive
  have h : s.EndsFrame p := ⟨runs, once, plan⟩
  refine ⟨execFrameEndChecks_holding h, fun frame => ?_⟩
  by_cases sent : (p.outMode = 1 → c.sent = true) ∧ s.tg0.noFrame = false
  · obtain ⟨hs, hn⟩ := sent
    obtain ⟨u, run, k⟩ := execFrameEndChecks_endChecked h hs hn
    obtain ⟨pass, fail, slots⟩ := k.page.counts
    refine ⟨u, run, k.page.ended, pass, fail, slots, fun hm none => ?_, fun _ _ => ⟨?_, ?_, ?_, ?_, fun all => ?_, fun all => ?_, k.expects⟩,
      execFrameEndChecks_ended u k.page.ended⟩
    · rw [hn] at none
      exact absurd (hs hm) (by simpa using none)
    · exact fun hp => k.code.trans ((countUnless_pass beq_iff_eq _).1 hp)
    · exact fun hp => k.code.trans ((countUnless_pass beq_iff_eq _).2 hp)
    · exact fun hp => k.alive.trans ((countUnless_pass (s.aliveFails_iff _) _).1 hp)
    · exact fun hp => k.alive.trans ((countUnless_pass (s.aliveFails_iff _) _).2 hp)
    · obtain ⟨run, verified, quiet, light⟩ := k.passed (s.allPass_iff.2 all)
      exact ⟨run, verified, fun hp => by rw [quiet ((s.pagePasses_iff p).2 hp)], light⟩
    · exact k.failed (Bool.eq_false_iff.2 fun pass => all (s.allPass_iff.1 pass))
  · obtain ⟨hm, none⟩ : p.outMode = 1 ∧ (s.tg0.noFrame = true ∨ c.sent = false) := by
      cases hn : s.tg0.noFrame with
      | true => exact ⟨frame.resolve_right (by simp [hn]), .inl rfl⟩
      | false =>
        obtain ⟨hm, hs⟩ := Classical.not_imp.1 fun hs => sent ⟨hs, hn⟩
        exact ⟨hm, .inr (by simpa using hs)⟩
    have k := s.pageCheck_pageChecked p
    obtain ⟨pass, fail, slots⟩ := k.counts
    refine ⟨_, execFrameEndChecks_unsent h hm none, k.ended, pass, fail, slots, fun _ _ => ⟨s.pageCheck_plan p, ?_⟩, fun hs hn => ?_,
      execFrameEndChecks_ended _ k.ended⟩
    · rw [State.pageCheck_comp]
      exact ⟨rfl, rfl, rfl, rfl, rfl⟩
    · exact absurd ⟨hs, hn⟩ sent

end

section

namespace Sys2Proof.Machine

/-! Canonical form through the operations. `canonical` speaks of memory, the threads' scratch, the flash, the flash buffer, the MSI-X table
and the buffer table alone, so a change of any other field keeps it. -/

theorem State.canonical.frame {s : State} (hs : s.canonical)
    {pending now free nextOp sboard holds dram queues plan layers synth comp cap out streams engs blt cus tg0 tg1 tg2 scan pairs pwr sec
      fab aud therm life trim boot err svc safe} :
    State.canonical { s with
      pending, now, free, nextOp, sboard, holds, dram, queues, plan, layers, synth, comp, cap, out, streams, engs, blt, cus, tg0, tg1, tg2
      scan, pairs, pwr, sec, fab, aud, therm, life, trim, boot, err, svc, safe } := hs

theorem State.canonical.setMem {s : State} (hs : s.canonical) {m : List Host.Cell} (hm : Memory.wf m = true) :
    State.canonical { s with mem := m } := ⟨hm, hs.2⟩

theorem State.canonical.setThreads {s : State} (hs : s.canonical) {v : Vector Thread 8}
    (hv : ∀ t : Tid, tabWf 0 v[t].scratch = true) : State.canonical { s with threads := v } := ⟨hs.1, hv, hs.2.2⟩

theorem State.canonical.setFlash {s : State} (hs : s.canonical) {f : Flash} (hf : tabWf 0xFF f.bytes = true) :
    State.canonical { s with flash := f } := by
  obtain ⟨hmem, hscratch, _, hrest⟩ := hs
  exact ⟨hmem, hscratch, hf, hrest⟩

theorem State.canonical.setHost {s : State} (hs : s.canonical) {x : HostIf} (hb : tabWf 0 x.flashBuf = true)
    (hx : tabWf 0 x.msix = true) : State.canonical { s with host := x } := by
  obtain ⟨hmem, hscratch, hflash, _, _, htable⟩ := hs
  exact ⟨hmem, hscratch, hflash, hb, hx, htable⟩

theorem State.canonical.setBufs {s : State} (hs : s.canonical) {b : Bufs} (hb : b.table.Pairwise fun x y => x.1 < y.1) :
    State.canonical { s with bufs := b } := by
  obtain ⟨hmem, hscratch, hflash, hbuf, hmsix, _⟩ := hs
  exact ⟨hmem, hscratch, hflash, hbuf, hmsix, hb⟩

theorem State.canonical.wf {s : State} (hs : s.canonical) : Memory.wf s.mem = true := hs.1

theorem State.canonical.scratch {s : State} (hs : s.canonical) (t : Tid) : tabWf 0 (s.thread t).scratch = true := hs.2.1 t

theorem State.canonical.table {s : State} (hs : s.canonical) : s.bufs.table.Pairwise fun x y => x.1 < y.1 := hs.2.2.2.2.2

theorem State.canonical.foldl {α : Type} {l : List α} {f : State → α → State} {s : State} (hs : s.canonical)
    (hf : ∀ s a, s.canonical → (f s a).canonical) : (l.foldl f s).canonical := by
  induction l generalizing s with
  | nil => exact hs
  | cons a l ih => exact ih (hf s a hs)

/-- A fold that carries other values beside the state. -/
theorem State.canonical.foldl_fst {α β : Type} {l : List α} {f : State × β → α → State × β} {p : State × β} (hp : p.1.canonical)
    (hf : ∀ p a, p.1.canonical → (f p a).1.canonical) : (l.foldl f p).1.canonical := by
  induction l generalizing p with
  | nil => exact hp
  | cons a l ih => exact ih (hf p a hp)

theorem State.canonical.of_fst {β : Type} {p : State × β} {u : State} {b : β} (hp : p.1.canonical) (e : p = (u, b)) : u.canonical := by
  subst e; exact hp

/-- The state that an answer gives, where it gives one, is canonical. -/
def Answer.canonical (a : Answer) : Prop := ∀ u, a = .next u → u.canonical

theorem Answer.canonical.next {u : State} (hu : u.canonical) : Answer.canonical (.next u) := by
  rintro _ ⟨⟩; exact hu

/-- The state that checks of R250 let through, where they do, is canonical. -/
def Checked.canonical {ε : Type} (r : Except ε State) : Prop := ∀ u, r = .ok u → u.canonical

theorem Checked.canonical.ok {ε : Type} {u : State} (hu : u.canonical) : Checked.canonical (.ok u : Except ε State) := by
  rintro _ ⟨⟩; exact hu

theorem Checked.canonical.error {ε : Type} {e : ε} : Checked.canonical (.error e : Except ε State) := by
  rintro _ ⟨⟩

theorem Checked.canonical.bind {ε α : Type} {x : Except ε α} {f : α → Except ε State}
    (hf : ∀ a, x = .ok a → Checked.canonical (f a)) : Checked.canonical (x >>= f) := by
  cases x with
  | error e => exact .error
  | ok a => exact hf a rfl

theorem State.canonical.ite {c : Prop} [Decidable c] {a b : State} (ha : a.canonical) (hb : b.canonical) :
    (if c then a else b).canonical := by
  split
  · exact ha
  · exact hb

theorem State.canonical.ite_fst {β : Type} {c : Prop} [Decidable c] {p q : State × β} (hp : p.1.canonical) (hq : q.1.canonical) :
    (if c then p else q).1.canonical := by
  split
  · exact hp
  · exact hq

theorem Answer.canonical.ite {c : Prop} [Decidable c] {a b : Answer} (ha : Answer.canonical a) (hb : Answer.canonical b) :
    Answer.canonical (if c then a else b) := by
  split
  · exact ha
  · exact hb

theorem Checked.canonical.ite {ε : Type} {c : Prop} [Decidable c] {a b : Except ε State} (ha : Checked.canonical a)
    (hb : Checked.canonical b) : Checked.canonical (if c then a else b) := by
  split
  · exact ha
  · exact hb

theorem State.canonical.mk_fst {β : Type} {u : State} {b : β} (hu : u.canonical) : (u, b).1.canonical := hu

/-- A change of the host's side that leaves the flash buffer and the MSI-X table. -/
theorem State.canonical.frameHost {s : State} (hs : s.canonical)
    {flashAddr flashCmd busy flashRun flashAt result cause pba sentMsg rdata poisoned aer}
    {pending now free nextOp sboard holds dram queues plan layers synth comp cap out streams engs blt cus tg0 tg1 tg2 scan pairs pwr sec
      fab aud therm life trim boot err svc safe} :
    State.canonical { s with
      pending, now, free, nextOp, sboard, holds, dram, queues, plan, layers, synth, comp, cap, out, streams, engs, blt, cus, tg0, tg1, tg2
      scan, pairs, pwr, sec, fab, aud, therm, life, trim, boot, err, svc, safe
      host := ⟨flashAddr, flashCmd, busy, flashRun, flashAt, result, s.host.flashBuf, cause, s.host.msix, pba, sentMsg, rdata, poisoned,
        aer⟩ } := hs

/-- A change of the buffers' lists that leaves the table. -/
theorem State.canonical.frameBufs {s : State} (hs : s.canonical) {freed fresh zeroing}
    {pending now free nextOp sboard holds dram queues plan layers synth comp cap out streams engs blt cus tg0 tg1 tg2 scan pairs pwr sec
      fab aud therm life trim boot err svc safe} :
    State.canonical { s with
      pending, now, free, nextOp, sboard, holds, dram, queues, plan, layers, synth, comp, cap, out, streams, engs, blt, cus, tg0, tg1, tg2
      scan, pairs, pwr, sec, fab, aud, therm, life, trim, boot, err, svc, safe
      bufs := ⟨s.bufs.table, freed, fresh, zeroing⟩ } := hs

theorem Checked.canonical.map_bind {ε α β : Type} {x : Except ε α} {f : α → Except ε (State × β)}
    (hf : ∀ a, x = .ok a → Checked.canonical ((f a).map Prod.fst)) : Checked.canonical ((x >>= f).map Prod.fst) := by
  cases x with
  | error e => exact .error
  | ok a => exact hf a rfl

theorem State.canonical.getD {s : State} (hs : s.canonical) {o : Option State} (ho : ∀ u, o = some u → u.canonical) :
    (o.getD s).canonical := by
  cases o with
  | none => exact hs
  | some u => exact ho u rfl

theorem State.canonical.flash {s : State} (hs : s.canonical) : tabWf 0xFF s.flash.bytes = true := hs.2.2.1

theorem State.canonical.flashBuf {s : State} (hs : s.canonical) : tabWf 0 s.host.flashBuf = true := hs.2.2.2.1

theorem State.canonical.msix {s : State} (hs : s.canonical) : tabWf 0 s.host.msix = true := hs.2.2.2.2.1

/-- The MSI-X table after reset holds the mask bit of each vector and nothing else (R513). -/
theorem msixReset_wf : tabWf 0 ({} : HostIf).msix = true := by decide

theorem State.reset_canonical : State.reset.canonical := by
  refine ⟨rfl, fun t => ?_, rfl, rfl, msixReset_wf, List.Pairwise.nil⟩
  simp [State.thread, State.reset, tabWf]

/-- An entry put into the buffer table. -/
theorem State.canonical.putBuf {s : State} (hs : s.canonical) {h : Nat} {b : Buf} {freed fresh zeroing}
    {pending now free nextOp sboard holds dram queues plan layers synth comp cap out streams engs blt cus tg0 tg1 tg2 scan pairs pwr sec
      fab aud therm life trim boot err svc safe} :
    State.canonical { s with
      pending, now, free, nextOp, sboard, holds, dram, queues, plan, layers, synth, comp, cap, out, streams, engs, blt, cus, tg0, tg1, tg2
      scan, pairs, pwr, sec, fab, aud, therm, life, trim, boot, err, svc, safe
      bufs := ⟨tabPut s.bufs.table h b, freed, fresh, zeroing⟩ } := hs.setBufs (tabPut_sorted _ _ _ hs.table)

theorem Answer.canonical.refused {r : Refusal} : Answer.canonical (.refused r) := by
  rintro _ ⟨⟩

/-! ### Ops -/

theorem State.canonical.modThread_wf {s : State} (hs : s.canonical) {t : Tid} {f : Thread → Thread}
    (hf : ∀ th, tabWf 0 th.scratch = true → tabWf 0 (f th).scratch = true) : (s.modThread t f).canonical := by
  refine hs.setThreads fun v => ?_
  have hv : tabWf 0 (s.threads[v.val]).scratch = true := hs.scratch v
  by_cases e : v = t
  · subst e; simpa [vmod] using hf _ hv
  · have : t.val ≠ v.val := fun k => e (Fin.ext k).symm
    simpa [vmod, Vector.getElem_set, this] using hv

theorem State.canonical.modThread {s : State} (hs : s.canonical) {t : Tid} {f : Thread → Thread}
    (hf : ∀ th, (f th).scratch = th.scratch) : (s.modThread t f).canonical :=
  hs.modThread_wf fun th h => by rw [hf]; exact h

theorem Thread.setWord_wf {th : Thread} (h : tabWf 0 th.scratch = true) (i : Nat) (v : Reg) : tabWf 0 (th.setWord i v).scratch = true :=
  tabSet_wf _ _ _ _ h

theorem Thread.scratchWrite_wf {th : Thread} (h : tabWf 0 th.scratch = true) (a : Nat) (l : List Byte) :
    tabWf 0 (th.scratchWrite a l).scratch = true := by
  induction l generalizing th a with
  | nil => exact h
  | cons b l ih => exact ih (Thread.setWord_wf h _ _) _

theorem State.canonical.eventFor {s : State} (hs : s.canonical) {p : Tid → Bool} {bits : BitVec 32} : (s.eventFor p bits).canonical := by
  refine hs.setThreads fun v => ?_
  simp only [Fin.getElem_fin, Vector.getElem_ofFn]
  split <;> exact hs.scratch v

theorem State.canonical.event {s : State} (hs : s.canonical) {bit : Nat} : (s.event bit).canonical := hs.eventFor

theorem State.canonical.raise {s : State} (hs : s.canonical) {v : Nat} : (s.raise v).canonical := .ite hs (.ite hs.frameHost hs.frameHost)

theorem State.canonical.putQueueRaw {s : State} (hs : s.canonical) {i : Fin 64} {q : Queue} : (s.putQueueRaw i q).1.canonical := by
  simp only [State.putQueueRaw]
  refine .ite_fst ?_ ?_
  · refine .mk_fst ?_
    split
    · exact hs.frame.eventFor.raise
    · exact hs.frame.eventFor
  · exact .mk_fst hs.frame

theorem State.canonical.post41 {s : State} (hs : s.canonical) {item : List Byte} : (s.post41 item).canonical :=
  .ite (.ite hs.putQueueRaw.raise.frame hs.putQueueRaw.raise) hs.frame

theorem State.canonical.putQueue {s : State} (hs : s.canonical) {i : Fin 64} {q : Queue} : (s.putQueue i q).canonical :=
  .ite hs.putQueueRaw.post41 hs.putQueueRaw

theorem State.canonical.post40 {s : State} (hs : s.canonical) {chip : Bool} {r rseq rep : Nat} :
    (s.post40 chip r rseq rep).1.canonical := by
  simp only [State.post40]
  generalize (if chip = true then 32 else 1024) = room
  split
  · exact hs.putQueue.raise
  · exact hs.frame

theorem State.canonical.report {s : State} (hs : s.canonical) {code block info : Nat} : (s.report code block info).canonical := by
  simp only [State.report]
  split
  · exact .ite hs.frame hs.frame.post40.frame
  · exact .ite hs.frame.post40.frame hs.frame.post40

theorem State.canonical.faultAt {s : State} (hs : s.canonical) {t : Tid} {f : Flt} {sub addr : Nat} : (s.faultAt t f sub
    addr).canonical := (hs.modThread fun _ => by rfl).frame.report.eventFor.raise

theorem State.canonical.fault {s : State} (hs : s.canonical) {t : Tid} {f : Flt} {sub : Nat} : (s.fault t f sub).canonical := hs.faultAt

theorem State.canonical.restart {s : State} (hs : s.canonical) {t : Tid} : (s.restart t).canonical := .ite (hs.modThread fun _ => by rfl) hs

theorem State.canonical.issue {s : State} (hs : s.canonical) {t : Tid} {words : Nat} {k : State → State}
    (hk : ∀ u, u.canonical → (k u).canonical) : (s.issue t words k).canonical := by
  simp only [State.issue]
  split
  · exact hs
  · split
    · exact hs.fault
    · split
      · exact hs.faultAt
      · exact hk _ hs

theorem State.canonical.hold {s : State} (hs : s.canonical) {t : Tid} {i : Instr} : (s.hold t i).canonical := hs.modThread fun _ => by rfl

theorem State.canonical.wakeDram {s : State} (hs : s.canonical) {u : Use} : (s.wakeDram u).1.canonical := by
  simp only [State.wakeDram]
  refine .ite_fst hs ?_
  split
  · exact hs
  · exact .mk_fst hs.frame
  · exact hs

theorem State.canonical.startUnit {s : State} (hs : s.canonical) {t : Tid} {i : Instr} {u : Use} {k : State → State}
    (hk : ∀ u, u.canonical → (k u).canonical) : (s.startUnit t i u k).canonical := by
  simp only [State.startUnit]
  split
  · split
    · exact hs.wakeDram.hold
    · exact hk _ hs.wakeDram
  · split
    · exact hs.hold
    · split
      · exact hs.frame.wakeDram.hold
      · exact hk _ hs.frame.wakeDram

theorem State.canonical.toUnit {s : State} (hs : s.canonical) {t : Tid} {w : IWord} {d : Option Done} : (s.toUnit t w d).canonical :=
  hs.modThread fun _ => by rfl

theorem State.canonical.groupResult {s : State} (hs : s.canonical) {gop : BitVec 16} {src : BitVec 12} {res : Nat} : (s.groupResult gop
    src res).canonical := hs.event.post41

theorem State.canonical.deliver {s : State} (hs : s.canonical) {d : Deliver} {x : Done} : (s.deliver d x).canonical := by
  simp only [State.deliver]
  split
  · exact hs.modThread fun th => by split <;> rfl
  · exact hs.modThread fun _ => by rfl
  · exact hs.groupResult
  · exact hs

theorem State.canonical.overruled {s : State} (hs : s.canonical) {r : Resource} {win : Level} {winOp : Nat} {lose : Level} {loseOp :
    Nat} : (s.overruled r win winOp lose loseOp).canonical := hs.report

theorem State.canonical.holdAt {s : State} (hs : s.canonical) {r : Resource} {l : Level} {op : Nat} : (s.holdAt r l op).canonical :=
  .frame (hs.foldl fun _ _ hs => hs.overruled)

theorem State.canonical.hostOrder {s : State} (hs : s.canonical) {t : Tid} {r : Resource} {op : Nat} {k : State → State}
    (hk : ∀ u, u.canonical → (k u).canonical) : (s.hostOrder t r op k).canonical := by
  simp only [State.hostOrder]
  split
  · exact hs.overruled.fault
  · exact hk _ hs

theorem State.canonical.groupOrder {s : State} (hs : s.canonical) {r : Resource} {op : Nat} {k : State → State}
    (hk : ∀ u, u.canonical → (k u).canonical) : (s.groupOrder r op k).canonical := by
  simp only [State.groupOrder]
  split
  · exact hs.overruled
  · exact hk _ hs

/-! ### Basis -/

theorem State.canonical.setDisc {s : State} (hs : s.canonical) {d : Disc} : (s.setDisc d).canonical := .ite hs hs.frame.event

/-! ### Operands -/

theorem State.canonical.orFault {s : State} (hs : s.canonical) {t : Tid} {r : Except Refused State} (hr : Checked.canonical r) :
    (s.orFault t r).canonical := by
  simp only [State.orFault]
  split
  · exact hr _ rfl
  · exact hs.fault

theorem State.canonical.issueBlock {s : State} (hs : s.canonical) {t : Tid} {w : IWord} {k : State → State}
    (hk : ∀ u, u.canonical → (k u).canonical) : (s.issueBlock t w k).canonical := by
  refine hs.issue fun s hs => ?_
  split
  · exact hs.fault
  · exact hk _ hs

/-! ### Mem -/

theorem State.canonical.burstError {s : State} (hs : s.canonical) {pa : Nat} {b : BurstBad} : (s.burstError pa b).canonical := by
  simp only [State.burstError]
  split
  · exact hs.frame.report
  · exact hs.frame.report

theorem State.canonical.readErrors {s : State} (hs : s.canonical) {pa : Nat} {errs : List SymErr} : (s.readErrors pa errs).canonical := by
  simp only [State.readErrors]
  split
  · exact hs.frame.frame.burstError
  · exact .ite hs.frame (.ite hs.frame.frame.report hs.frame)

theorem State.canonical.meetBurst {s : State} (hs : s.canonical) {a : Nat} : (s.meetBurst a).canonical := by
  simp only [State.meetBurst]
  split
  · exact hs.burstError
  · exact hs.readErrors
  · exact hs

theorem State.canonical.writeBack {s : State} (hs : s.canonical) {a : Nat} : (s.writeBack a).canonical := by
  simp only [State.writeBack]
  split
  · exact hs
  · exact hs.frame.frame

theorem State.canonical.meetErrors {s : State} (hs : s.canonical) {pa n : Nat} : (s.meetErrors pa n).canonical :=
  hs.foldl fun _ _ hs => hs.meetBurst.writeBack

theorem State.canonical.meetFirst {s : State} (hs : s.canonical) {l : List Nat} : (s.meetFirst l).1.canonical := by
  induction l generalizing s with
  | nil => exact hs
  | cons a l ih =>
    simp only [State.meetFirst]
    split
    · exact hs.meetBurst.writeBack
    · exact ih hs.meetBurst.writeBack

theorem State.canonical.readDram {s : State} (hs : s.canonical) {pa n port : Nat} : (s.readDram pa n port).1.canonical :=
  hs.frame.meetErrors

theorem State.canonical.readMarks {s : State} (hs : s.canonical) {pa n port : Nat} : (s.readMarks pa n port).1.canonical :=
  hs.frame.meetErrors

theorem State.canonical.readUntil {s : State} (hs : s.canonical) {pa n port : Nat} : (s.readUntil pa n port).1.canonical :=
  hs.frame.meetFirst

theorem State.canonical.writeBurst {s : State} (hs : s.canonical) {pa : Nat} {data : List Byte} {b : Nat} :
    (s.writeBurst pa data b).canonical := by
  simp only [State.writeBurst]
  split
  · exact (hs.setMem (Memory.writeN_wf _ _ _ hs.wf)).frame
  · split
    · exact hs.meetBurst
    · exact (hs.meetBurst.setMem (Memory.writeN_wf _ _ _ hs.meetBurst.wf)).frame

theorem State.canonical.mergeRead {s : State} (hs : s.canonical) {pa n b port : Nat} : (s.mergeRead pa n b port).canonical :=
  .ite hs hs.frame

theorem State.canonical.burstOut {s : State} (hs : s.canonical) {b port : Nat} : (s.burstOut b port).canonical := .ite hs hs.frame

theorem State.canonical.writeDram {s : State} (hs : s.canonical) {pa : Nat} {data : List Byte} {port : Nat} : (s.writeDram pa data
    port).canonical := by
  simp only [State.writeDram]
  refine .ite hs (.ite ?_ ?_)
  · refine .ite ?_ ?_
    · refine .frame (.ite ?_ ?_)
      · refine .foldl ?_ ?_
        · exact .ite hs.mergeRead hs.mergeRead.mergeRead
        · intro s a hs
          exact hs.writeBurst
      · refine .burstOut (.foldl ?_ ?_)
        · exact .ite hs.mergeRead hs.mergeRead.mergeRead
        · intro s a hs
          exact hs.writeBurst
    · refine .ite ?_ ?_
      · refine .foldl ?_ ?_
        · exact .ite hs.mergeRead hs.mergeRead.mergeRead
        · intro s a hs
          exact hs.writeBurst
      · refine .burstOut (.foldl ?_ ?_)
        · exact .ite hs.mergeRead hs.mergeRead.mergeRead
        · intro s a hs
          exact hs.writeBurst
  · refine .burstOut (.ite ?_ ?_)
    · refine .frame (.ite ?_ ?_)
      · refine .foldl ?_ ?_
        · exact .ite hs.mergeRead hs.mergeRead.mergeRead
        · intro s a hs
          exact hs.writeBurst
      · refine .burstOut (.foldl ?_ ?_)
        · exact .ite hs.mergeRead hs.mergeRead.mergeRead
        · intro s a hs
          exact hs.writeBurst
    · refine .ite ?_ ?_
      · refine .foldl ?_ ?_
        · exact .ite hs.mergeRead hs.mergeRead.mergeRead
        · intro s a hs
          exact hs.writeBurst
      · refine .burstOut (.foldl ?_ ?_)
        · exact .ite hs.mergeRead hs.mergeRead.mergeRead
        · intro s a hs
          exact hs.writeBurst

theorem State.canonical.readBuf {s : State} (hs : s.canonical) {b : Buf} {off n port : Nat} : (s.readBuf b off n port).1.canonical :=
  hs.readDram

theorem State.canonical.writeBuf {s : State} (hs : s.canonical) {h off : Nat} {data : List Byte} {port : Nat} :
    (s.writeBuf h off data port).canonical := by
  simp only [State.writeBuf]
  split
  · exact hs
  · exact hs.writeDram.setBufs (tabPut_sorted _ _ _ hs.writeDram.table)

theorem State.canonical.freeRange {s : State} (hs : s.canonical) {b : Buf} : (s.freeRange b).canonical := hs.frameBufs

theorem State.canonical.release {s : State} (hs : s.canonical) {h : Nat} : (s.release h).canonical := by
  simp only [State.release]
  split
  · exact hs
  · exact (hs.setBufs (hs.table.filter _)).freeRange

theorem State.canonical.endZeroing {s : State} (hs : s.canonical) {j : ZeroJob} : (s.endZeroing j).canonical := by
  unfold State.endZeroing
  exact (hs.setMem (Memory.zero_wf _ j.lo j.hi hs.wf)).frameBufs

theorem State.canonical.loseEpoch {s : State} (hs : s.canonical) {g : Nat} : (s.loseEpoch g).canonical := by
  unfold State.loseEpoch
  refine .ite hs (.report ?_)
  exact hs.frameBufs

theorem State.canonical.freshValue {s : State} (hs : s.canonical) : (s.freshValue).1.canonical := hs.frame

theorem State.canonical.freshValues {s : State} (hs : s.canonical) {n : Nat} : (s.freshValues n).1.canonical := hs.frame

/-! ### Crc -/

theorem execCrcset_canonical {s : State} (hs : s.canonical) {t : Tid} {w : IWord} : Answer.canonical (execCrcset t w s) := by
  simp only [execCrcset]
  refine .next (hs.issueBlock fun s hs => ?_)
  refine hs.orFault (.bind fun b _ => ?_)
  split
  · exact .error
  · refine .ok (hs.startUnit fun s hs => ?_)
    exact hs.frame.toUnit

theorem State.canonical.crcJob {s : State} (hs : s.canonical) {c : Fin 7} {h off n : Nat} : (s.crcJob c h off n).1.canonical := by
  simp only [State.crcJob]
  split
  · exact hs
  · refine .ite_fst hs ?_
    split
    · next e1 => exact .mk_fst ((hs.readUntil.of_fst e1).frame)
    · next e1 => exact .mk_fst ((hs.readUntil.of_fst e1).frame)

theorem State.canonical.startAsync {s : State} (hs : s.canonical) {t : Tid} {w : IWord} {u : Use} {job : Job}
    {k : Nat → State → State × Option Done} (hk : ∀ n u, u.canonical → (k n u).1.canonical) : (s.startAsync t w u job k).canonical := by
  simp only [State.startAsync]
  refine .modThread ?_ fun th => by simp
  split
  · exact hs.frame.wakeDram
  · exact hk _ _ hs.frame.wakeDram

theorem execCrcrun_canonical {s : State} (hs : s.canonical) {t : Tid} {w : IWord} : Answer.canonical (execCrcrun t w s) := by
  simp only [execCrcrun]
  refine .next (hs.issue fun s hs => ?_)
  refine hs.orFault (.bind fun b _ => ?_)
  refine .bind fun b _ => .bind fun _ _ => .ite ?_ ?_
  · refine .ite (.ok hs.hold) (.ok ?_)
    exact hs.startAsync fun n s hs => hs.crcJob
  · refine .ok (hs.startUnit fun s hs => ?_)
    exact hs.crcJob.toUnit

theorem execCrcget_canonical {s : State} (hs : s.canonical) {t : Tid} {w : IWord} : Answer.canonical (execCrcget t w s) := by
  simp only [execCrcget]
  refine .next (hs.issue fun s hs => ?_)
  refine hs.orFault (.bind fun b _ => ?_)
  refine .ok (hs.startUnit fun s hs => ?_)
  exact .ite hs.toUnit hs.frame.toUnit

theorem execCrcput_canonical {s : State} (hs : s.canonical) {t : Tid} {w : IWord} : Answer.canonical (execCrcput t w s) := by
  simp only [execCrcput]
  refine .next (hs.issue fun s hs => ?_)
  refine hs.orFault (.bind fun b _ => ?_)
  refine .ok (hs.startUnit fun s hs => ?_)
  exact .ite hs.frame.toUnit hs.freshValue.frame.toUnit

/-! ### QueueOps -/

theorem State.canonical.writeWords {s : State} (hs : s.canonical) {b : Buf} {pos : Nat} {d : List Byte} {last : Bool} {port : Nat} :
    (s.writeWords b pos d last port).canonical := .ite hs hs.writeDram.writeDram

theorem State.canonical.storeWords {s : State} (hs : s.canonical) {q : Fin 64} {item : List Byte} {port : Nat} : (s.storeWords q item
    port).canonical := by
  simp only [State.storeWords]
  split
  · exact hs
  · exact hs.writeWords.writeWords.writeDram

theorem State.canonical.readWords {s : State} (hs : s.canonical) {q : Fin 64} {n port : Nat} : (s.readWords q n port).1.canonical := by
  simp only [State.readWords]
  split
  · exact hs
  · refine .mk_fst (.readMarks ?_)
    exact .ite_fst hs.readMarks.readMarks (.mk_fst hs.readMarks)

theorem State.canonical.countAbort {s : State} (hs : s.canonical) {q : Fin 64} : (s.countAbort q).canonical := .ite hs.frame hs

theorem State.canonical.flushQueue {s : State} (hs : s.canonical) {q : Fin 64} : (s.flushQueue q).canonical :=
  .putQueue (.ite hs.countAbort hs)

theorem State.canonical.pointerReset {s : State} (hs : s.canonical) {q : Fin 64} {f : PtrField} : (s.pointerReset q f).canonical :=
  hs.flushQueue.frame.report.post41

theorem State.canonical.compare {s : State} (hs : s.canonical) {q : Fin 64} : (s.compare q).canonical := by
  simp only [State.compare]
  split
  · exact hs
  · exact hs.pointerReset

theorem State.canonical.disturb {s : State} (hs : s.canonical) {u : Option (Fin 64 × PtrField)} : (s.disturb u).canonical := by
  simp only [State.disturb]
  split
  · exact hs
  · exact hs.frame

theorem State.canonical.updQueue {s : State} (hs : s.canonical) {q : Fin 64} {x : Queue} : (s.updQueue q x).canonical := hs.putQueue.compare

theorem State.canonical.pushItem {s : State} (hs : s.canonical) {q : Fin 64} {item : List Byte} {port : Nat} {tag : Bool} : (s.pushItem
    q item port tag).canonical := .updQueue (.ite hs.storeWords hs)

theorem State.canonical.takeItem {s : State} (hs : s.canonical) {q : Fin 64} {port : Nat} {item : List Byte} {u : State} {ok : Bool}
    (e : s.takeItem q port = some (item, u, ok)) : u.canonical := by
  simp only [State.takeItem] at e
  split at e
  · cases e
  · split at e
    · cases e
    · cases e
      exact hs.readWords.updQueue

/-! ### FabBase -/

theorem State.canonical.sendOwn {s : State} (hs : s.canonical) {p : Fin 8} {x : TxItem} : (s.sendOwn p x).canonical := hs.updQueue.frame

theorem State.canonical.forwardCls {s : State} (hs : s.canonical) {control bcast : Bool} {dst : Nat} {item : List Byte} {u : State}
    (e : s.forwardCls control bcast dst item = some u) : u.canonical := by
  simp only [State.forwardCls, Option.ite_none_right_eq_some] at e
  obtain ⟨_, e⟩ := e
  cases e
  exact hs.foldl fun s p hs => hs.sendOwn

/-! ### Admission -/

theorem State.canonical.containerOk {s : State} (hs : s.canonical) {p : Plan} : (s.containerOk p).1.canonical := by
  simp only [State.containerOk]
  split
  · exact hs
  · split
    · exact .mk_fst hs.readBuf
    · exact .mk_fst hs.readBuf

theorem State.canonical.mapOk {s : State} (hs : s.canonical) {p : Plan} {body : Bool} : (s.mapOk p body).1.canonical := by
  simp only [State.mapOk]
  refine .ite_fst hs ?_
  split
  · exact hs
  · split
    · exact .mk_fst hs.readBuf
    · refine .ite_fst (.mk_fst hs.readBuf) (.ite_fst (.mk_fst hs.readBuf) ?_)
      split
      · exact .mk_fst hs.readBuf.readBuf
      · refine .ite_fst (.mk_fst ?_) (.mk_fst hs.readBuf.readBuf)
        exact hs.readBuf.readBuf.setBufs (tabPut_sorted _ _ _ hs.readBuf.readBuf.table)

theorem checkGeom_canonical {s : State} (hs : s.canonical) {p : Plan} : (checkGeom p s).1.canonical := by
  simp only [checkGeom]
  refine .ite_fst hs (.ite_fst hs (.ite_fst hs ?_))
  have hr : (if p.outMode = 2 then s.containerOk p else (s, true)).1.canonical := .ite_fst hs.containerOk hs
  refine .ite_fst (.mk_fst hr) ?_
  split <;> exact .mk_fst hr

theorem checkProt_canonical {s : State} (hs : s.canonical) {p : Plan} : (checkProt p s).1.canonical := by
  simp only [checkProt]
  refine .ite_fst hs (.ite_fst hs ?_)
  split
  · exact hs
  · split <;> exact .mk_fst hs.readBuf

theorem checkMap_canonical {s : State} (hs : s.canonical) {p : Plan} : (checkMap p s).1.canonical := by
  simp only [checkMap]
  exact .ite_fst hs (.mk_fst hs.mapOk)

/-- A check of Table 08-6 keeps the canonical form. -/
def Check.Keeps (f : Check) : Prop := ∀ s : State, s.canonical → (f s).1.canonical

theorem runChecks_canonical {s : State} (hs : s.canonical) {l : List (Nat × Check)} (hl : ∀ x ∈ l, Check.Keeps x.2) :
    (runChecks l s).1.canonical := by
  induction l generalizing s with
  | nil => exact hs
  | cons x l ih =>
    have hx := hl x List.mem_cons_self s hs
    simp only [runChecks]
    split
    · next e => exact .mk_fst (hx.of_fst e)
    · next e => exact ih (hx.of_fst e) fun y hy => hl y (List.mem_cons_of_mem _ hy)

theorem allChecks_keep (asFb slotBad fbCache : Bool) (p : Plan) : ∀ x ∈ allChecks asFb slotBad fbCache p, Check.Keeps x.2 := by
  have readOnly : ∀ f : State → Option Nat, Check.Keeps fun s => (s, f s) := fun _ _ hs => hs
  have sealed : Check.Keeps (checkSeal p) := fun s hs => by
    simp only [checkSeal]
    exact .ite_fst hs (.ite_fst hs hs)
  have timing : Check.Keeps (checkTiming p) := fun s hs => by
    simp only [checkTiming]
    refine .ite_fst hs ?_
    split <;> exact hs
  simp only [allChecks, List.forall_mem_cons, List.not_mem_nil, false_implies, implies_true, and_true]
  exact ⟨fun _ hs => checkGeom_canonical hs, readOnly _, sealed, fun _ hs => checkProt_canonical hs, readOnly _, readOnly _,
    fun _ hs => checkMap_canonical hs, timing, readOnly _, readOnly _, readOnly _, readOnly _, readOnly _, readOnly _, readOnly _,
    readOnly _⟩

theorem State.canonical.admission {s : State} (hs : s.canonical) {p : Plan} : (s.admission p).1.canonical := by
  simp only [State.admission]
  have hr : ∀ {u : State} {x y z : Bool} {q : Plan}, u.canonical → (runChecks (allChecks x y z q) u).1.canonical :=
    fun hu => runChecks_canonical hu (allChecks_keep _ _ _ _)
  refine .ite_fst (.mk_fst (hr hs)) (.ite_fst (.mk_fst (hr hs)) ?_)
  split
  · exact .mk_fst (hr hs)
  · exact .ite_fst (.mk_fst (hr hs)) (.ite_fst (.mk_fst (hr (hr hs))) (.mk_fst (hr (hr hs))))

theorem State.canonical.reportBody {s : State} (hs : s.canonical) {l : List (Option Nat)} : (s.reportBody l).1.canonical := by
  induction l generalizing s with
  | nil => exact hs
  | cons v l ih =>
    cases v with
    | none => exact ih hs.freshValue
    | some v => exact ih hs

theorem State.canonical.admReport {s : State} (hs : s.canonical) {p : Plan} {code det fb : Nat} : (s.admReport p code det
    fb).1.canonical := hs.reportBody

/-! ### Alu -/

theorem State.canonical.alu {s : State} (hs : s.canonical) {t : Tid} {w : IWord} {f : Flags → Reg → Reg → Reg × Flags} : (s.alu t w
    f).canonical := hs.issue fun _ hs => hs.modThread fun th => by simp

theorem execAdd_canonical {s : State} (hs : s.canonical) {t : Tid} {w : IWord} : Answer.canonical (execAdd t w s) := .next hs.alu

theorem execSub_canonical {s : State} (hs : s.canonical) {t : Tid} {w : IWord} : Answer.canonical (execSub t w s) := .next hs.alu

theorem execAnd_canonical {s : State} (hs : s.canonical) {t : Tid} {w : IWord} : Answer.canonical (execAnd t w s) := .next hs.alu

theorem execOr_canonical {s : State} (hs : s.canonical) {t : Tid} {w : IWord} : Answer.canonical (execOr t w s) := .next hs.alu

theorem execXor_canonical {s : State} (hs : s.canonical) {t : Tid} {w : IWord} : Answer.canonical (execXor t w s) := .next hs.alu

theorem execShl_canonical {s : State} (hs : s.canonical) {t : Tid} {w : IWord} : Answer.canonical (execShl t w s) := .next hs.alu

theorem execShr_canonical {s : State} (hs : s.canonical) {t : Tid} {w : IWord} : Answer.canonical (execShr t w s) := .next hs.alu

theorem execMovi_canonical {s : State} (hs : s.canonical) {t : Tid} {w : IWord} : Answer.canonical (execMovi t w s) := .next hs.alu

theorem execCmp_canonical {s : State} (hs : s.canonical) {t : Tid} {w : IWord} : Answer.canonical (execCmp t w s) :=
  .next (hs.issue fun _ hs => hs.modThread fun _ => by rfl)

theorem execLd_canonical {s : State} (hs : s.canonical) {t : Tid} {w : IWord} {ue : Bool} : Answer.canonical (execLd t w ue s) :=
  .next (hs.issue fun _ hs => .ite hs.fault (hs.modThread fun th => by simp))

theorem execSt_canonical {s : State} (hs : s.canonical) {t : Tid} {w : IWord} : Answer.canonical (execSt t w s) :=
  .next (hs.issue fun _ hs => hs.modThread_wf fun _ h => Thread.setWord_wf h _ _)

/-! ### Audio -/

theorem execAset_canonical {s : State} (hs : s.canonical) {t : Tid} {w : IWord} : Answer.canonical (execAset t w s) := by
  simp only [execAset]
  refine .next (hs.issueBlock fun s hs => ?_)
  refine hs.startUnit fun s hs => ?_
  split
  · exact hs.toUnit
  · exact .ite hs.toUnit hs.frame.toUnit

theorem State.canonical.applyAset {s : State} (hs : s.canonical) : (s.applyAset).canonical := by
  simp only [State.applyAset]
  split
  · exact hs
  · exact .deliver (.ite hs.frame.event hs.frame)

theorem State.canonical.placeAudio {s : State} (hs : s.canonical) {i : Fin 16} {p : List Byte} : (s.placeAudio i p).canonical :=
  .ite hs hs.frame

theorem execAudioSampleFrame_canonical {s : State} (hs : s.canonical) {ue : Bool} : Answer.canonical (execAudioSampleFrame ue s) :=
  .ite (.next hs) (.next hs.applyAset.frame)

theorem State.canonical.audPeriod {s : State} (hs : s.canonical) : (s.audPeriod).canonical := by
  simp only [State.audPeriod]
  split
  · refine .ite ?_ ?_
    · split
      · exact hs.frame
      · exact .ite hs.frame.report.event (.ite hs.frame.event (.ite hs.frame.event hs.frame))
    · exact .ite hs.frame hs
  · exact .ite hs.frame hs

theorem State.canonical.audLoss {s : State} (hs : s.canonical) {interval : Nat} : (s.audLoss interval).canonical :=
  .ite hs.frame hs.frame.report.event

theorem execAudioRefEdge_canonical {s : State} (hs : s.canonical) {interval : Nat} : Answer.canonical (execAudioRefEdge interval s) := by
  simp only [execAudioRefEdge]
  refine .ite (.next hs) (.ite (.next hs.frame) ?_)
  refine .ite (.next hs.audLoss) ?_
  split
  · exact .next hs
  · refine .ite (.next hs.frame.report.event) (.next ?_)
    exact .ite hs.frame hs.frame.event

theorem execAudioRefLoss_canonical {s : State} (hs : s.canonical) {interval : Nat} : Answer.canonical (execAudioRefLoss interval s) :=
  .ite (.next hs) (.next hs.audLoss)

theorem execAes3InputFrame_canonical {s : State} (hs : s.canonical) {i : Fin 2} {f : AesFrame} : Answer.canonical (execAes3InputFrame i
    f s) := by
  simp only [execAes3InputFrame]
  refine .ite (.next hs) ?_
  split
  · exact .next hs.frame
  · exact .next (.ite hs.frame.audLoss hs.frame)

/-! ### Control -/

theorem execBr_canonical {s : State} (hs : s.canonical) {t : Tid} {w : IWord} : Answer.canonical (execBr t w s) :=
  .next (hs.issue fun _ hs => hs.modThread fun _ => by rfl)

theorem execBrc_canonical {s : State} (hs : s.canonical) {t : Tid} {w : IWord} : Answer.canonical (execBrc t w s) := by
  simp only [execBrc]
  refine .next (hs.issue fun s hs => ?_)
  split
  · exact hs.fault
  · exact hs.modThread fun _ => by rfl
  · exact hs.modThread fun _ => by rfl

theorem execCall_canonical {s : State} (hs : s.canonical) {t : Tid} {w : IWord} : Answer.canonical (execCall t w s) :=
  .next (hs.issue fun _ hs => .ite hs.fault (hs.modThread fun _ => by rfl))

theorem State.canonical.halt {s : State} (hs : s.canonical) {t : Tid} : (s.halt t).canonical := hs.modThread fun _ => by rfl

theorem execRet_canonical {s : State} (hs : s.canonical) {t : Tid} {_w : IWord} : Answer.canonical (execRet t _w s) := by
  simp only [execRet]
  refine .next (hs.issue fun s hs => ?_)
  split
  · exact hs.halt
  · exact hs.modThread fun _ => by rfl

theorem execLoop_canonical {s : State} (hs : s.canonical) {t : Tid} {w : IWord} : Answer.canonical (execLoop t w s) :=
  .next (hs.issue fun s hs => hs.modThread fun th => by dsimp only; split <;> simp [Thread.branch])

theorem execHalt_canonical {s : State} (hs : s.canonical) {t : Tid} {_w : IWord} : Answer.canonical (execHalt t _w s) :=
  .next (hs.issue fun _ hs => hs.halt)

theorem execHaltCompletion_canonical {s : State} (hs : s.canonical) {t : Tid} : Answer.canonical (execHaltCompletion t s) := by
  simp only [execHaltCompletion]
  refine .ite ?_ ?_
  · refine .next (.ite ?_ ?_)
    · exact .raise (.ite (hs.modThread fun _ => by rfl).post41 (hs.modThread fun _ => by rfl))
    · exact .ite (hs.modThread fun _ => by rfl).post41 (hs.modThread fun _ => by rfl)
  · exact .next hs

theorem execThreadLaunch_canonical {s : State} (hs : s.canonical) {t : Tid} : Answer.canonical (execThreadLaunch t s) := by
  simp only [execThreadLaunch]
  refine .ite ?_ ?_
  · split
    · exact .next hs
    · next e =>
        exact .ite (.next ((hs.takeItem e).modThread fun _ => by rfl)) (.next (hs.takeItem e).report)
  · exact .next hs

theorem execSignal_canonical {s : State} (hs : s.canonical) {t : Tid} {w : IWord} : Answer.canonical (execSignal t w s) :=
  .next (hs.issue fun _ hs => hs.eventFor.modThread fun _ => by rfl)

theorem execInt_canonical {s : State} (hs : s.canonical) {t : Tid} {_w : IWord} : Answer.canonical (execInt t _w s) :=
  .next (hs.issue fun _ hs => hs.raise.modThread fun _ => by rfl)

theorem execDbRestart_canonical {s : State} (hs : s.canonical) {v : BitVec 32} : Answer.canonical (execDbRestart v s) := by
  simp only [execDbRestart]
  refine .ite ?_ ?_
  · refine .next (hs.foldl fun s a hs => ?_)
    exact .ite hs.restart hs
  · exact .next hs

theorem execDbSignal_canonical {s : State} (hs : s.canonical) {v : BitVec 32} : Answer.canonical (execDbSignal v s) :=
  .ite (.next hs.eventFor) (.next hs)

theorem execSvcRestart_canonical {s : State} (hs : s.canonical) {t : Tid} {w : IWord} : Answer.canonical (execSvcRestart t w s) := by
  simp only [execSvcRestart]
  refine .next (hs.issue fun s hs => ?_)
  split
  · exact hs.startUnit fun s hs => .ite hs.restart.toUnit hs.toUnit
  · exact hs.fault

/-! ### Queues -/

theorem State.canonical.markOp {s : State} (hs : s.canonical) {t : Tid} {w : IWord} {i : Instr} {f : Queue → Bool → Except Refused
    Queue} : (s.markOp t w i f).canonical := by
  simp only [State.markOp]
  refine hs.issue fun s hs => hs.startUnit fun s hs => hs.orFault (.bind fun _ _ => ?_)
  refine .bind fun b _ => .ok (.toUnit ?_)
  exact .updQueue (.ite hs.countAbort hs)

theorem execQmark_canonical {s : State} (hs : s.canonical) {t : Tid} {w : IWord} : Answer.canonical (execQmark t w s) := .next hs.markOp

theorem execQrewind_canonical {s : State} (hs : s.canonical) {t : Tid} {w : IWord} : Answer.canonical (execQrewind t w s) := .next hs.markOp

theorem execQrelease_canonical {s : State} (hs : s.canonical) {t : Tid} {w : IWord} : Answer.canonical (execQrelease t w s) :=
  .next hs.markOp

theorem execQflush_canonical {s : State} (hs : s.canonical) {t : Tid} {w : IWord} : Answer.canonical (execQflush t w s) := by
  simp only [execQflush]
  refine .next (hs.issue fun s hs => ?_)
  refine hs.startUnit fun s hs => hs.orFault (.bind fun _ _ => ?_)
  refine .bind fun _ _ => .ok (.toUnit ?_)
  exact .ite hs.flushQueue.compare.frame hs.flushQueue.compare

theorem State.canonical.post {s : State} (hs : s.canonical) {t : Tid} {q : Fin 64} {item : List Byte} {p : State × Nat}
    (e : s.post t q item = .ok p) : p.1.canonical := by
  have h : Checked.canonical ((s.post t q item).map Prod.fst) := by
    simp only [State.post]
    refine .map_bind fun _ _ => ?_
    split
    · split
      · exact .error
      · exact .ok hs.frame
    · refine .map_bind fun _ _ => ?_
      split
      · exact .ok hs
      · exact .ok hs.pushItem
  exact h _ (by rw [e]; rfl)

theorem State.canonical.postBytes {s : State} (hs : s.canonical) {t : Tid} {h off n : Nat} {ue : Bool}
    {p : State × Option (List Byte)} (e : s.postBytes t h off n ue = .ok p) : p.1.canonical := by
  have hc : Checked.canonical ((s.postBytes t h off n ue).map Prod.fst) := by
    simp only [State.postBytes]
    split
    · exact .ok hs
    · exact .map_bind fun _ _ => .map_bind fun _ _ => .ok hs.readBuf
  exact hc _ (by rw [e]; rfl)

theorem execSvcQpost_canonical {s : State} (hs : s.canonical) {t : Tid} {w : IWord} {upset : Option (Fin 64 × PtrField)} :
    Answer.canonical (execSvcQpost t w upset s) := by
  simp only [execSvcQpost]
  refine .next (hs.issue fun s hs => ?_)
  refine hs.orFault (.ite ?_ ?_)
  · refine .bind fun b _ => ?_
    split
    · exact .error
    · refine .bind fun _ _ => .ok (hs.startUnit fun s hs => ?_)
      refine hs.disturb.orFault (.bind fun b1 e1 => ?_)
      split
      · exact .error
      · next e2 =>
          exact .bind fun b2 e2 => .ok ((hs.disturb.postBytes e1).post e2).toUnit
  · split
    · exact .error
    · refine .bind fun _ _ => .ok (hs.startUnit fun s hs => ?_)
      refine hs.disturb.orFault (.bind fun b0 e0 => ?_)
      split
      · exact .error
      · next e1 =>
          exact .bind fun b1 e1 => .ok ((hs.disturb.postBytes e0).post e1).toUnit

theorem execSvcQtake_canonical {s : State} (hs : s.canonical) {t : Tid} {w : IWord} {upset : Option (Fin 64 × PtrField)} :
    Answer.canonical (execSvcQtake t w upset s) := by
  simp only [execSvcQtake]
  refine .next (hs.issue fun s hs => ?_)
  refine hs.orFault (.ite (.bind fun _ _ => ?_) ?_)
  all_goals
    split
    · exact .error
    · refine .bind fun _ _ => .ok (hs.startUnit fun s hs => ?_)
      refine hs.disturb.orFault (.bind fun _ _ => ?_)
      split
      · exact .ok hs.disturb.toUnit
      · refine .ite (.ok hs.disturb.toUnit) ?_
        split
        · next e =>
            have hu := hs.disturb.takeItem e
            exact .ok (.toUnit (.ite (hu.modThread_wf fun _ h => Thread.scratchWrite_wf h _ _) hu.writeBuf))
        · exact .ok hs.disturb.readWords.fault

theorem execSvcQsub_canonical {s : State} (hs : s.canonical) {t : Tid} {w : IWord} : Answer.canonical (execSvcQsub t w s) := by
  simp only [execSvcQsub]
  refine .next (hs.issue fun s hs => ?_)
  split
  · exact hs.fault
  · exact hs.frame.modThread fun th => by simp

theorem execSvcLaunch_canonical {s : State} (hs : s.canonical) {t : Tid} {w : IWord} : Answer.canonical (execSvcLaunch t w s) := by
  simp only [execSvcLaunch]
  refine .next (hs.issueBlock fun s hs => ?_)
  split
  · exact hs.startUnit fun s hs => .ite hs.toUnit hs.pushItem.toUnit
  · exact hs.fault

theorem execQueueDataWrite_canonical {s : State} (hs : s.canonical) {q : Fin 64} {d : List Byte} : Answer.canonical (execQueueDataWrite
    q d s) := by
  simp only [execQueueDataWrite]
  refine .ite ?_ ?_
  · refine .next (.frame ?_)
    exact .ite hs.countAbort hs
  · exact .next hs

theorem State.canonical.hostItem {s : State} (hs : s.canonical) {q : Fin 64} {item : List Byte} : (s.hostItem q item).canonical :=
  .ite hs.storeWords.updQueue hs.frame.pushItem

theorem execQueueEndWrite_canonical {s : State} (hs : s.canonical) {q : Fin 64} {d : List Byte} {upset : Option (Fin 64 × PtrField)} :
    Answer.canonical (execQueueEndWrite q d upset s) := by
  simp only [execQueueEndWrite]
  refine .ite ?_ ?_
  · refine .ite ?_ ?_
    · refine .next (.frame ?_)
      exact .ite hs.disturb.countAbort hs.disturb
    · refine .ite ?_ ?_
      · exact .next (.ite hs.disturb.countAbort hs.disturb)
      · refine .next (.hostItem ?_)
        exact .frame (.ite hs.disturb.countAbort hs.disturb)
  · exact .ite (.next hs.disturb.frame) (.next hs.disturb)

theorem execQueuePop_canonical {s : State} (hs : s.canonical) {q : Fin 64} : Answer.canonical (execQueuePop q s) := by
  simp only [execQueuePop]
  refine .ite ?_ ?_
  · split
    · exact .next hs
    · next e => exact .next (hs.takeItem e)
  · exact .next hs

theorem execItemBaseWrite_canonical {s : State} (hs : s.canonical) {q : Fin 64} {v : BitVec 64} : Answer.canonical (execItemBaseWrite q
    v s) := .ite (.next hs.frame) (.next hs)

theorem execQueueStatusClear_canonical {s : State} (hs : s.canonical) {q : Fin 64} {v : BitVec 32} : Answer.canonical
    (execQueueStatusClear q v s) := .ite (.next hs.frame) (.next hs)

/-! ### Streams -/

theorem State.canonical.clsRecord {s : State} (hs : s.canonical) {code e : Nat} {i : Fin 16} {ty frame : Nat} : (s.clsRecord code e i ty
    frame).canonical := hs.report

theorem State.canonical.openItem {s : State} (hs : s.canonical) {e : Nat} {i : Fin 16} {clearOnly : Bool} {item : List Byte} :
    (s.openItem e i clearOnly item).1.canonical := by
  simp only [State.openItem]
  refine .ite_fst (.ite_fst hs (.mk_fst hs.frame)) (.ite_fst (.mk_fst hs.frame.clsRecord) ?_)
  split
  · exact .mk_fst hs.frame.clsRecord
  · exact .ite_fst hs (.mk_fst hs.frame.clsRecord)

theorem State.canonical.readPkt {s : State} (hs : s.canonical) {i : Fin 16} {p : Pkt} {port : Nat} : (s.readPkt i p
    port).1.canonical := by
  simp only [State.readPkt]
  split
  · exact hs
  · exact hs.readBuf

theorem State.canonical.unreadPkt {s : State} (hs : s.canonical) {e : Nat} {i : Fin 16} {p : Pkt} : (s.unreadPkt e i p).canonical :=
  hs.frame.clsRecord

theorem State.canonical.openPkt {s : State} (hs : s.canonical) {e : Nat} {i : Fin 16} {clearOnly : Bool} {p : Pkt} : (s.openPkt e i
    clearOnly p).1.canonical := by
  simp only [State.openPkt]
  split
  · next e1 => exact (hs.readPkt.of_fst e1).openItem
  · next e1 => exact .mk_fst ((hs.readPkt.of_fst e1).unreadPkt)

theorem State.canonical.putStream {s : State} (hs : s.canonical) {i : Fin 16} {x : Stream} : (s.putStream i x).canonical :=
  .ite hs.frame (.ite hs.frame.event hs.frame)

theorem State.canonical.dropEntries {s : State} (hs : s.canonical) {h : Nat} {gone : List Pkt} : (s.dropEntries h gone).canonical := by
  simp only [State.dropEntries]
  refine hs.foldl fun s a hs => ?_
  split
  · exact hs.writeBuf
  · exact hs

theorem State.canonical.readClip {s : State} (hs : s.canonical) {i : Fin 16} : (s.readClip i).canonical := by
  simp only [State.readClip]
  split
  · exact hs
  · exact hs.openPkt.frame

theorem State.canonical.retryClip {s : State} (hs : s.canonical) {i : Fin 16} : (s.retryClip i).canonical := .ite hs.readClip hs

theorem State.canonical.readClipEnd {s : State} (hs : s.canonical) {i : Fin 16} {p : Pkt} : (s.readClipEnd i p).canonical := by
  simp only [State.readClipEnd]
  split
  · exact .ite hs.openPkt.frame hs.openPkt.putStream.frame
  · exact hs.openPkt

theorem State.canonical.toSecurity {s : State} (hs : s.canonical) {stream : Option (Fin 16)} {item : List Byte} : (s.toSecurity stream
    item).canonical := by
  simp only [State.toSecurity]
  refine .ite hs.frame ?_
  split
  · exact hs.frame
  · exact hs

theorem State.canonical.storePkt {s : State} (hs : s.canonical) {i : Fin 16} {item : List Byte} {gap off : Nat} {kept gone : List Pkt}
    {port : Nat} : (s.storePkt i item gap off kept gone port).canonical := by
  simp only [State.storePkt]
  refine .ite ?_ ?_
  · refine .readClip (.putStream ?_)
    refine .ite ?_ ?_
    · refine .ite ?_ ?_
      · refine .frame ?_
        split
        · refine .ite ?_ ?_
          · exact .frame (.ite hs.dropEntries.writeBuf hs.dropEntries.writeBuf.frame)
          · exact .ite hs.dropEntries.writeBuf hs.dropEntries.writeBuf.frame
        · exact .ite hs.dropEntries.writeBuf hs.dropEntries.writeBuf.frame
      · refine .writeBuf ?_
        split
        · refine .ite ?_ ?_
          · exact .frame (.ite hs.dropEntries.writeBuf hs.dropEntries.writeBuf.frame)
          · exact .ite hs.dropEntries.writeBuf hs.dropEntries.writeBuf.frame
        · exact .ite hs.dropEntries.writeBuf hs.dropEntries.writeBuf.frame
    · split
      · refine .ite ?_ ?_
        · exact .frame (.ite hs.dropEntries.writeBuf hs.dropEntries.writeBuf.frame)
        · exact .ite hs.dropEntries.writeBuf hs.dropEntries.writeBuf.frame
      · exact .ite hs.dropEntries.writeBuf hs.dropEntries.writeBuf.frame
  · refine .ite ?_ ?_
    · refine .readClipEnd (.putStream ?_)
      refine .ite ?_ ?_
      · refine .ite ?_ ?_
        · refine .frame ?_
          split
          · refine .ite ?_ ?_
            · exact .frame (.ite hs.dropEntries.writeBuf hs.dropEntries.writeBuf.frame)
            · exact .ite hs.dropEntries.writeBuf hs.dropEntries.writeBuf.frame
          · exact .ite hs.dropEntries.writeBuf hs.dropEntries.writeBuf.frame
        · refine .writeBuf ?_
          split
          · refine .ite ?_ ?_
            · exact .frame (.ite hs.dropEntries.writeBuf hs.dropEntries.writeBuf.frame)
            · exact .ite hs.dropEntries.writeBuf hs.dropEntries.writeBuf.frame
          · exact .ite hs.dropEntries.writeBuf hs.dropEntries.writeBuf.frame
      · split
        · refine .ite ?_ ?_
          · exact .frame (.ite hs.dropEntries.writeBuf hs.dropEntries.writeBuf.frame)
          · exact .ite hs.dropEntries.writeBuf hs.dropEntries.writeBuf.frame
        · exact .ite hs.dropEntries.writeBuf hs.dropEntries.writeBuf.frame
    · refine .putStream (.ite ?_ ?_)
      · refine .ite ?_ ?_
        · refine .frame ?_
          split
          · refine .ite ?_ ?_
            · exact .frame (.ite hs.dropEntries.writeBuf hs.dropEntries.writeBuf.frame)
            · exact .ite hs.dropEntries.writeBuf hs.dropEntries.writeBuf.frame
          · exact .ite hs.dropEntries.writeBuf hs.dropEntries.writeBuf.frame
        · refine .writeBuf ?_
          split
          · refine .ite ?_ ?_
            · exact .frame (.ite hs.dropEntries.writeBuf hs.dropEntries.writeBuf.frame)
            · exact .ite hs.dropEntries.writeBuf hs.dropEntries.writeBuf.frame
          · exact .ite hs.dropEntries.writeBuf hs.dropEntries.writeBuf.frame
      · split
        · refine .ite ?_ ?_
          · exact .frame (.ite hs.dropEntries.writeBuf hs.dropEntries.writeBuf.frame)
          · exact .ite hs.dropEntries.writeBuf hs.dropEntries.writeBuf.frame
        · exact .ite hs.dropEntries.writeBuf hs.dropEntries.writeBuf.frame

theorem State.canonical.takeIngest {s : State} (hs : s.canonical) {i : Fin 16} : (s.takeIngest i).canonical := by
  simp only [State.takeIngest]
  split
  · next e => exact hs.takeItem e
  · exact hs

theorem State.canonical.ingest {s : State} (hs : s.canonical) {i : Fin 16} {item : List Byte} : (s.ingest i item).canonical := by
  have hf : ∀ {c : Prop} [Decidable c] {x : Bool} {u : State}, (if c then s.forwardCls x true 0 item else some s) = some u →
      u.canonical := fun {c} _ {x u} e => by
    split at e
    · exact hs.forwardCls e
    · cases e; exact hs
  simp only [State.ingest]
  split
  · exact .ite hs.takeIngest.frame.report hs.takeIngest.frame
  · exact hs.takeIngest
  · split
    · next e => exact (hs.forwardCls e).takeIngest
    · exact hs
  · split
    · next e => exact (hf e).takeIngest.toSecurity
    · exact hs
  · split
    · exact hs.frame
    · split
      · next e => exact (hf e).takeIngest.storePkt
      · exact hs

theorem execIngestItem_canonical {s : State} (hs : s.canonical) {i : Fin 16} : Answer.canonical (execIngestItem i s) := by
  simp only [execIngestItem]
  refine .ite (.next hs) ?_
  split
  · refine .ite (.next hs) ?_
    split
    · next e1 => exact .next (hs.takeItem e1)
    · exact .next hs.ingest
  · exact .ite (.next hs.frame) (.next hs)

theorem execIngestResume_canonical {s : State} (hs : s.canonical) {i : Fin 16} : Answer.canonical (execIngestResume i s) :=
  .ite (.next hs.frame) (.next hs)

theorem State.canonical.streamEvent {s : State} (hs : s.canonical) {i : Fin 16} {ev frame : Nat} : (s.streamEvent i ev
    frame).canonical := hs.post41

theorem State.canonical.clearIndex {s : State} (hs : s.canonical) {h : Nat} {b : Buf} : (s.clearIndex h b).canonical :=
  hs.writeBuf.foldl fun _ _ hs => hs.writeBuf

theorem execSattach_canonical {s : State} (hs : s.canonical) {t : Tid} {w : IWord} : Answer.canonical (execSattach t w s) := by
  simp only [execSattach]
  refine .next (hs.issueBlock fun s hs => ?_)
  refine hs.orFault (.bind fun b _ => ?_)
  refine .ite (.bind fun _ _ => ?_) ?_
  all_goals
    refine .ite ?_ ?_
    · refine .ok (hs.startUnit fun s hs => ?_)
      exact hs.toUnit
    · refine .bind fun _ _ => ?_
      split
      · refine .ok (hs.startUnit fun s hs => ?_)
        split
        · exact hs.toUnit
        · exact .ite hs.toUnit (.ite hs.toUnit (.ite hs.toUnit hs.clearIndex.frame.toUnit))
      · exact .error

theorem execSattachDetach_canonical {s : State} (hs : s.canonical) {t : Tid} {w : IWord} : Answer.canonical (execSattachDetach t w
    s) := by
  simp only [execSattachDetach]
  refine .next (hs.issueBlock fun s hs => ?_)
  split
  · refine hs.startUnit fun s hs => ?_
    split
    · exact hs.toUnit
    · exact hs.hostOrder fun s hs => hs.frame.toUnit
    · exact hs.frame.toUnit
  · exact hs.fault

theorem State.canonical.seekStream {s : State} (hs : s.canonical) {i : Fin 16} {frame : Nat} {who : Deliver} {l : Level} {op : Nat} :
    (s.seekStream i frame who l op).1.canonical := by
  simp only [State.seekStream]
  refine .ite_fst (.mk_fst hs.retryClip) (.ite_fst (.mk_fst hs.retryClip.streamEvent.event) ?_)
  split
  · exact .mk_fst hs.retryClip.streamEvent.event
  · refine .ite_fst ?_ ?_
    · refine .mk_fst (.frame ?_)
      split
      · exact hs.retryClip.streamEvent.overruled.frame
      · exact hs.retryClip
    · exact .mk_fst hs.retryClip.putStream.streamEvent.event

theorem execSseek_canonical {s : State} (hs : s.canonical) {t : Tid} {w : IWord} : Answer.canonical (execSseek t w s) := by
  simp only [execSseek]
  refine .next (hs.issue fun s hs => ?_)
  split
  · exact hs.startUnit fun s hs => hs.hostOrder fun s hs => hs.seekStream.toUnit
  · exact hs.fault

theorem State.canonical.playStream {s : State} (hs : s.canonical) {i : Fin 16} {wa n0 : Nat} : (s.playStream i wa n0).1.canonical := by
  simp only [State.playStream]
  refine .ite_fst (.mk_fst hs.retryClip) (.ite_fst (.mk_fst hs.retryClip) ?_)
  refine .ite_fst (.mk_fst hs.retryClip) (.ite_fst (.mk_fst hs.retryClip) ?_)
  split
  · exact .ite_fst (.mk_fst hs.retryClip) (.mk_fst hs.retryClip.frame)
  · exact .mk_fst hs.retryClip

theorem execSplay_canonical {s : State} (hs : s.canonical) {t : Tid} {w : IWord} : Answer.canonical (execSplay t w s) := by
  simp only [execSplay]
  refine .next (hs.issue fun s hs => ?_)
  split
  · exact hs.startUnit fun s hs => hs.hostOrder fun s hs => hs.playStream.toUnit
  · exact hs.fault

theorem State.canonical.pauseStream {s : State} (hs : s.canonical) {i : Fin 16} {who : Deliver} : (s.pauseStream i who).1.canonical := by
  simp only [State.pauseStream]
  split
  · exact hs
  · exact .mk_fst hs.frame
  · exact hs

theorem execSpause_canonical {s : State} (hs : s.canonical) {t : Tid} {w : IWord} : Answer.canonical (execSpause t w s) := by
  simp only [execSpause]
  refine .next (hs.issue fun s hs => ?_)
  split
  · exact hs.startUnit fun s hs => hs.hostOrder fun s hs => hs.pauseStream.toUnit
  · exact hs.fault

/-! ### Decoders -/

theorem execDecodeStart_canonical {s : State} (hs : s.canonical) {i : Fin 16} : Answer.canonical (execDecodeStart i s) := by
  simp only [execDecodeStart]
  split
  · exact .next hs
  · exact .ite (.next hs.frame) (.next hs)

theorem execDecoderDispatch_canonical {s : State} (hs : s.canonical) {i : Fin 16} : Answer.canonical (execDecoderDispatch i s) := by
  simp only [execDecoderDispatch]
  split
  · exact .next hs
  · split
    · exact .next hs
    · exact .ite (.next hs.frame) (.next hs.frame.frame)

theorem execGroupRegistration_canonical {s : State} (hs : s.canonical) {e : Fin 8} : Answer.canonical (execGroupRegistration e s) := by
  simp only [execGroupRegistration]
  split
  · exact .next hs
  · split
    · exact .next hs
    · refine .ite (.next hs) ?_
      split
      · exact .next hs.frame
      · refine .ite (.next hs.frame) (.ite (.next hs.frame) ?_)
        exact .next hs.frame.frame

theorem State.canonical.settleTile {s : State} (hs : s.canonical) {r : Rec} : (s.settleTile r).1.canonical := by
  simp only [State.settleTile]
  refine .ite_fst hs (.mk_fst ?_)
  refine .freshValues (hs.foldl fun s a hs => ?_)
  exact hs.meetBurst

theorem State.canonical.writeTile {s : State} (hs : s.canonical) {e : Fin 8} {k t : Nat} {samples : List Nat} : (s.writeTile e k t
    samples).canonical := .writeBuf (hs.foldl fun _ _ hs => hs.writeBuf)

theorem State.canonical.putTile {s : State} (hs : s.canonical) {e : Fin 8} {i : Fin 16} {d : SDec} {lands : Bool} {k t : Nat} {r : Rec}
    : (s.putTile e i d lands k t r).canonical := by
  simp only [State.putTile]
  refine .writeTile (.ite ?_ ?_)
  · refine .frame (.ite_fst ?_ ?_)
    · refine .mk_fst (.ite ?_ ?_)
      · exact .frame (.ite hs.frame hs)
      · exact .ite hs.frame hs
    · refine .settleTile (.ite ?_ ?_)
      · exact .frame (.ite hs.frame hs)
      · exact .ite hs.frame hs
  · refine .ite_fst ?_ ?_
    · refine .mk_fst (.ite ?_ ?_)
      · exact .frame (.ite hs.frame hs)
      · exact .ite hs.frame hs
    · refine .settleTile (.ite ?_ ?_)
      · exact .frame (.ite hs.frame hs)
      · exact .ite hs.frame hs

theorem State.canonical.decodeFor {s : State} (hs : s.canonical) {e : Fin 8} {i : Fin 16} {d : SDec} {lands : Bool} {b : List Byte} {k :
    Nat} : (s.decodeFor e i d lands b k).1.canonical := hs.foldl fun _ _ hs => hs.putTile

theorem State.canonical.doneGroup {s : State} (hs : s.canonical) {e : Fin 8} {g : EngPkt} {d : SDec} : (s.doneGroup e g d).canonical := by
  simp only [State.doneGroup]
  split
  · exact hs.readPkt.unreadPkt.frame
  · split
    · refine .frame (.foldl ?_ ?_)
      · refine .openItem (.ite_fst (.mk_fst hs.readPkt) ?_)
        split
        · exact .mk_fst hs.readPkt
        · refine .foldl_fst ?_ ?_
          · exact .mk_fst hs.readPkt
          · intro p a hs
            exact .mk_fst hs.decodeFor
      · intro s a hs
        exact hs.frame
    · refine .frame ?_
      split
      · refine .ite ?_ ?_
        · refine .frame (.ite ?_ ?_)
          · refine .frame (.ite ?_ ?_)
            · refine .frame (.frame ?_)
              refine .openItem (.ite_fst (.mk_fst hs.readPkt) ?_)
              split
              · exact .mk_fst hs.readPkt
              · refine .foldl_fst ?_ ?_
                · exact .mk_fst hs.readPkt
                · intro p a hs
                  exact .mk_fst hs.decodeFor
            · refine .frame (.openItem ?_)
              refine .ite_fst (.mk_fst hs.readPkt) ?_
              split
              · exact .mk_fst hs.readPkt
              · refine .foldl_fst ?_ ?_
                · exact .mk_fst hs.readPkt
                · intro p a hs
                  exact .mk_fst hs.decodeFor
          · refine .ite ?_ ?_
            · refine .frame (.frame ?_)
              refine .openItem (.ite_fst (.mk_fst hs.readPkt) ?_)
              split
              · exact .mk_fst hs.readPkt
              · refine .foldl_fst ?_ ?_
                · exact .mk_fst hs.readPkt
                · intro p a hs
                  exact .mk_fst hs.decodeFor
            · refine .frame (.openItem ?_)
              refine .ite_fst (.mk_fst hs.readPkt) ?_
              split
              · exact .mk_fst hs.readPkt
              · refine .foldl_fst ?_ ?_
                · exact .mk_fst hs.readPkt
                · intro p a hs
                  exact .mk_fst hs.decodeFor
        · refine .ite ?_ ?_
          · refine .frame (.ite ?_ ?_)
            · refine .frame (.frame ?_)
              refine .openItem (.ite_fst (.mk_fst hs.readPkt) ?_)
              split
              · exact .mk_fst hs.readPkt
              · refine .foldl_fst ?_ ?_
                · exact .mk_fst hs.readPkt
                · intro p a hs
                  exact .mk_fst hs.decodeFor
            · refine .frame (.openItem ?_)
              refine .ite_fst (.mk_fst hs.readPkt) ?_
              split
              · exact .mk_fst hs.readPkt
              · refine .foldl_fst ?_ ?_
                · exact .mk_fst hs.readPkt
                · intro p a hs
                  exact .mk_fst hs.decodeFor
          · refine .ite ?_ ?_
            · refine .frame (.frame ?_)
              refine .openItem (.ite_fst (.mk_fst hs.readPkt) ?_)
              split
              · exact .mk_fst hs.readPkt
              · refine .foldl_fst ?_ ?_
                · exact .mk_fst hs.readPkt
                · intro p a hs
                  exact .mk_fst hs.decodeFor
            · refine .frame (.openItem ?_)
              refine .ite_fst (.mk_fst hs.readPkt) ?_
              split
              · exact .mk_fst hs.readPkt
              · refine .foldl_fst ?_ ?_
                · exact .mk_fst hs.readPkt
                · intro p a hs
                  exact .mk_fst hs.decodeFor
      · refine .report (.frame ?_)
        refine .ite ?_ ?_
        · refine .frame (.ite ?_ ?_)
          · refine .frame (.ite ?_ ?_)
            · refine .frame (.frame ?_)
              refine .openItem (.ite_fst (.mk_fst hs.readPkt) ?_)
              split
              · exact .mk_fst hs.readPkt
              · refine .foldl_fst ?_ ?_
                · exact .mk_fst hs.readPkt
                · intro p a hs
                  exact .mk_fst hs.decodeFor
            · refine .frame (.openItem ?_)
              refine .ite_fst (.mk_fst hs.readPkt) ?_
              split
              · exact .mk_fst hs.readPkt
              · refine .foldl_fst ?_ ?_
                · exact .mk_fst hs.readPkt
                · intro p a hs
                  exact .mk_fst hs.decodeFor
          · refine .ite ?_ ?_
            · refine .frame (.frame ?_)
              refine .openItem (.ite_fst (.mk_fst hs.readPkt) ?_)
              split
              · exact .mk_fst hs.readPkt
              · refine .foldl_fst ?_ ?_
                · exact .mk_fst hs.readPkt
                · intro p a hs
                  exact .mk_fst hs.decodeFor
            · refine .frame (.openItem ?_)
              refine .ite_fst (.mk_fst hs.readPkt) ?_
              split
              · exact .mk_fst hs.readPkt
              · refine .foldl_fst ?_ ?_
                · exact .mk_fst hs.readPkt
                · intro p a hs
                  exact .mk_fst hs.decodeFor
        · refine .ite ?_ ?_
          · refine .frame (.ite ?_ ?_)
            · refine .frame (.frame ?_)
              refine .openItem (.ite_fst (.mk_fst hs.readPkt) ?_)
              split
              · exact .mk_fst hs.readPkt
              · refine .foldl_fst ?_ ?_
                · exact .mk_fst hs.readPkt
                · intro p a hs
                  exact .mk_fst hs.decodeFor
            · refine .frame (.openItem ?_)
              refine .ite_fst (.mk_fst hs.readPkt) ?_
              split
              · exact .mk_fst hs.readPkt
              · refine .foldl_fst ?_ ?_
                · exact .mk_fst hs.readPkt
                · intro p a hs
                  exact .mk_fst hs.decodeFor
          · refine .ite ?_ ?_
            · refine .frame (.frame ?_)
              refine .openItem (.ite_fst (.mk_fst hs.readPkt) ?_)
              split
              · exact .mk_fst hs.readPkt
              · refine .foldl_fst ?_ ?_
                · exact .mk_fst hs.readPkt
                · intro p a hs
                  exact .mk_fst hs.decodeFor
            · refine .frame (.openItem ?_)
              refine .ite_fst (.mk_fst hs.readPkt) ?_
              split
              · exact .mk_fst hs.readPkt
              · refine .foldl_fst ?_ ?_
                · exact .mk_fst hs.readPkt
                · intro p a hs
                  exact .mk_fst hs.decodeFor

theorem State.canonical.applyEntry {s : State} (hs : s.canonical) {i : Fin 16} {v k : Nat} : (s.applyEntry i v k).canonical :=
  .ite hs.frame hs.frame.frame

theorem State.canonical.doneParams {s : State} (hs : s.canonical) {i : Fin 16} {b : List Byte} : (s.doneParams i b).canonical :=
  .ite hs.frame (hs.foldl fun _ _ hs => hs.foldl fun _ _ hs => hs.applyEntry)

theorem State.canonical.doneOther {s : State} (hs : s.canonical) {e : Fin 8} {g : EngPkt} : (s.doneOther e g).canonical := by
  simp only [State.doneOther]
  split
  · exact .frame (.ite hs.openPkt.frame hs.openPkt)
  · exact .frame (.ite hs.openPkt.frame hs.openPkt)
  · exact .doneParams (.ite hs.openPkt.frame hs.openPkt)
  · refine .ite ?_ ?_
    · exact .placeAudio (.ite hs.openPkt.frame hs.openPkt)
    · exact .frame (.ite hs.openPkt.frame hs.openPkt)
  · exact .frame (.ite hs.openPkt.frame hs.openPkt)
  · exact .ite hs.openPkt.frame hs.openPkt

theorem execDecodePacketDone_canonical {s : State} (hs : s.canonical) {e : Fin 8} : Answer.canonical (execDecodePacketDone e s) := by
  simp only [execDecodePacketDone]
  split
  · exact .next hs
  · split
    · exact .next hs.frame
    · refine .ite (.next hs) (.ite ?_ ?_)
      · exact .ite (.next hs.frame.doneGroup) (.next hs)
      · exact .next hs.frame.doneOther

/-! ### Playback -/

theorem State.canonical.applySeek {s : State} (hs : s.canonical) {i : Fin 16} {n : Nat} : (s.applySeek i n).canonical := by
  simp only [State.applySeek]
  split
  · refine .deliver (.event ?_)
    refine .streamEvent (.putStream ?_)
    refine .ite hs (hs.frame.event.foldl fun s a hs => ?_)
    exact hs.deliver
  · refine .ite hs (hs.frame.event.foldl fun s a hs => ?_)
    exact hs.deliver

theorem State.canonical.pauseNow {s : State} (hs : s.canonical) {i : Fin 16} : (s.pauseNow i).canonical := by
  simp only [State.pauseNow]
  split
  · refine .deliver (.frame ?_)
    refine .frame (hs.frame.frame.foldl fun s a hs => ?_)
    exact hs.deliver
  · exact hs.frame.frame.foldl fun s a hs => hs.deliver

theorem State.canonical.presentFrame {s : State} (hs : s.canonical) {i : Fin 16} {n c : Nat} : (s.presentFrame i n c).canonical := by
  simp only [State.presentFrame]
  refine .putStream (.frame ?_)
  split
  · exact .ite hs.frame.frame hs.frame
  · exact hs.frame

theorem State.canonical.streamBoundary {s : State} (hs : s.canonical) {i : Fin 16} {n : Nat} : (s.streamBoundary i n).canonical := by
  simp only [State.streamBoundary]
  refine .ite ?_ ?_
  · exact .applySeek (.ite hs.frame.presentFrame (.ite hs.frame.frame.streamEvent.event hs.frame))
  · refine .pauseNow (.applySeek ?_)
    exact .ite hs.frame.presentFrame (.ite hs.frame.frame.streamEvent.event hs.frame)

/-! ### Links -/

theorem State.canonical.portRecord {s : State} (hs : s.canonical) {code : Nat} {p : Fin 8} {info : Nat} : (s.portRecord code p
    info).canonical := hs.report

theorem State.canonical.setPort {s : State} (hs : s.canonical) {p : Fin 8} {x : PortState} : (s.setPort p x).canonical :=
  .ite hs.frame hs.frame.event.post41.raise

theorem State.canonical.attemptFailed {s : State} (hs : s.canonical) {p : Fin 8} {reason seen : Nat} : (s.attemptFailed p reason
    seen).canonical := .ite hs.portRecord.frame.setPort hs.portRecord.frame.setPort.portRecord

theorem execFabricTrainingAttempt_canonical {s : State} (hs : s.canonical) {p : Fin 8} : Answer.canonical (execFabricTrainingAttempt p
    s) := .next (.ite hs.setPort hs)

theorem execFabricTrained_canonical {s : State} (hs : s.canonical) {p : Fin 8} {own partner : BitVec 8} {partnerP : BitVec 3} :
    Answer.canonical (execFabricTrained p own partner partnerP s) :=
  .next (.ite hs (.ite hs.attemptFailed (.ite hs.attemptFailed hs.frame.setPort.frame.frame)))

theorem execFabricTrainingTimeout_canonical {s : State} (hs : s.canonical) {p : Fin 8} {seen : BitVec 8} : Answer.canonical
    (execFabricTrainingTimeout p seen s) := .next (.ite hs.attemptFailed hs)

theorem execBackoffExpiry_canonical {s : State} (hs : s.canonical) {p : Fin 8} : Answer.canonical (execBackoffExpiry p s) :=
  .next (.ite hs.setPort hs)

theorem execFabricBeacon_canonical {s : State} (hs : s.canonical) {y0 : Fin 8} : Answer.canonical (execFabricBeacon y0 s) := .next hs

theorem execPartnerDetected_canonical {s : State} (hs : s.canonical) {p : Fin 8} : Answer.canonical (execPartnerDetected p s) :=
  .next (.ite hs.frame.setPort hs)

theorem State.canonical.linkRecords {s : State} (hs : s.canonical) {p : Fin 8} : (s.linkRecords p).canonical := by
  simp only [State.linkRecords]
  refine .ite ?_ ?_
  · refine .frame (.report ?_)
    exact .ite hs hs.report
  · exact .ite hs hs.report

theorem State.canonical.rejudge {s : State} (hs : s.canonical) {p : Fin 8} : (s.rejudge p).canonical :=
  .ite hs (.frame (.ite hs.linkRecords hs))

theorem State.canonical.rejudgeAll {s : State} (hs : s.canonical) : (s.rejudgeAll).canonical := hs.foldl fun _ _ hs => hs.rejudge

theorem State.canonical.authenticate {s : State} (hs : s.canonical) {p : Fin 8} {x : Partner} {sig : List Byte} : (s.authenticate p x
    sig).canonical := .ite hs.frame.setPort.report (.ite hs.frame.frame.frame.setPort.linkRecords hs.frame.frame.frame.setPort)

theorem execAuthFrame_canonical {s : State} (hs : s.canonical) {p : Fin 8} {msg : AuthMsg} : Answer.canonical (execAuthFrame p msg
    s) := by
  simp only [execAuthFrame]
  refine .next (.ite hs ?_)
  split
  · exact hs.frame.frame
  · split
    · exact hs.authenticate
    · exact hs

theorem execAuthTimeout_canonical {s : State} (hs : s.canonical) {p : Fin 8} : Answer.canonical (execAuthTimeout p s) :=
  .next (.ite hs.attemptFailed hs)

theorem execRefusedPortLockLoss_canonical {s : State} (hs : s.canonical) {p : Fin 8} : Answer.canonical (execRefusedPortLockLoss p
    s) := .next (.ite hs.setPort hs)

theorem execFabricLaneLoss_canonical {s : State} (hs : s.canonical) {p : Fin 8} {lost : BitVec 8} : Answer.canonical (execFabricLaneLoss
    p lost s) := .next (.ite hs hs.frame)

theorem execFabricRetrainDone_canonical {s : State} (hs : s.canonical) {p : Fin 8} {own partner : BitVec 8} : Answer.canonical
    (execFabricRetrainDone p own partner s) := .next (.ite hs (.ite hs.frame.setPort hs.frame.portRecord.event))

/-! ### Units -/

theorem State.canonical.modUnit {s : State} (hs : s.canonical) {u : UnitName} {f : SvcUnit → SvcUnit} : (s.modUnit u f).canonical :=
  .ite hs.frame (.ite hs.frame hs.frame)

theorem State.canonical.setUnit {s : State} (hs : s.canonical) {u : UnitName} {x : SvcState} {device : Bool} : (s.setUnit u x
    device).canonical := .ite hs hs.modUnit.report.event

theorem State.canonical.loseUnit {s : State} (hs : s.canonical) {u : UnitName} : (s.loseUnit u).canonical := .ite hs.modUnit.frame hs

theorem State.canonical.holdLanes {s : State} (hs : s.canonical) : (s.holdLanes).canonical := hs.foldl fun _ _ hs => hs.frame

theorem State.canonical.stopUnit {s : State} (hs : s.canonical) {u : UnitName} : (s.stopUnit u).canonical := by
  simp only [State.stopUnit]
  refine .ite ?_ ?_
  · split
    · exact .ite hs.frame hs.frame.report.frame
    · exact hs.frame
  · exact .ite hs.frame.frame hs

theorem State.canonical.deviceRemove {s : State} (hs : s.canonical) {u : UnitName} : (s.deviceRemove u).canonical := by
  simp only [State.deviceRemove]
  refine .ite ?_ ?_
  · refine .stopUnit ?_
    split
    · exact hs.loseUnit.setUnit.modUnit.deliver
    · exact hs.loseUnit.setUnit.modUnit
  · exact hs

theorem State.canonical.leaveService {s : State} (hs : s.canonical) {u : UnitName} : (s.leaveService u).canonical := by
  simp only [State.leaveService]
  refine .ite ?_ ?_
  · refine .frame (.frame ?_)
    split
    · exact hs.setUnit.modUnit.deliver
    · exact hs.setUnit.modUnit
  · refine .ite ?_ ?_
    · refine .setPort ?_
      split
      · exact hs.setUnit.modUnit.deliver
      · exact hs.setUnit.modUnit
    · split
      · exact hs.setUnit.modUnit.deliver
      · exact hs.setUnit.modUnit

theorem State.canonical.settleUnit {s : State} (hs : s.canonical) {p : Option Plan} {u : UnitName} : (s.settleUnit p u).canonical := by
  simp only [State.settleUnit]
  split
  · exact .ite hs hs.leaveService
  · exact .ite hs.setUnit (.ite hs.leaveService hs)
  · exact hs

theorem State.canonical.settleUnits {s : State} (hs : s.canonical) {p : Plan} : (s.settleUnits p).canonical :=
  hs.foldl fun _ _ hs => hs.settleUnit

theorem State.canonical.settleNow {s : State} (hs : s.canonical) {u : UnitName} : (s.settleNow u).canonical := .ite hs.settleUnit hs

theorem State.canonical.endTests {s : State} (hs : s.canonical) : (s.endTests).canonical := by
  simp only [State.endTests]
  refine hs.foldl fun s a hs => ?_
  split
  · exact hs.freshValue.modUnit.setUnit.deliver
  · exact hs

theorem State.canonical.writeHeader {s : State} (hs : s.canonical) {c : Capture} : (s.writeHeader c).canonical := hs.writeBuf

theorem State.canonical.endCapture {s : State} (hs : s.canonical) {state reason : Nat} : (s.endCapture state reason).canonical := by
  simp only [State.endCapture]
  split
  · refine .ite hs (.event ?_)
    exact .post41 (.ite hs.frame.writeHeader.report hs.frame.writeHeader)
  · exact hs

/-! ### Waits -/

theorem State.canonical.waitReturn {s : State} (hs : s.canonical) {t : Tid} {wt : Wait} {z : Bool} : (s.waitReturn t wt z).canonical :=
  hs.modThread fun th => by simp

theorem State.canonical.enterWait {s : State} (hs : s.canonical) {t : Tid} {w : IWord} {wt : Wait} {hit : Bool} : (s.enterWait t w wt
    hit).canonical := .ite (hs.modThread fun _ => by rfl).waitReturn (hs.modThread fun _ => by rfl)

theorem execWaitline_canonical {s : State} (hs : s.canonical) {t : Tid} {w : IWord} : Answer.canonical (execWaitline t w s) := by
  simp only [execWaitline]
  refine .next (hs.issue fun s hs => ?_)
  split
  · exact .ite hs.fault hs.enterWait
  · exact hs.fault

theorem execWaittime_canonical {s : State} (hs : s.canonical) {t : Tid} {w : IWord} : Answer.canonical (execWaittime t w s) :=
  .next (hs.issue fun _ hs => hs.enterWait)

theorem execWaitevt_canonical {s : State} (hs : s.canonical) {t : Tid} {w : IWord} : Answer.canonical (execWaitevt t w s) :=
  .next (hs.issue fun _ hs => hs.enterWait)

theorem execWaitq_canonical {s : State} (hs : s.canonical) {t : Tid} {w : IWord} : Answer.canonical (execWaitq t w s) :=
  .next (hs.issue fun _ hs => hs.enterWait)

theorem execWaitSatisfied_canonical {s : State} (hs : s.canonical) {t : Tid} : Answer.canonical (execWaitSatisfied t s) :=
  .ite (.next hs.waitReturn) (.next hs)

theorem execWaitTimeout_canonical {s : State} (hs : s.canonical) {t : Tid} : Answer.canonical (execWaitTimeout t s) := by
  simp only [execWaitTimeout]
  refine .ite ?_ ?_
  · exact .ite (.next hs.waitReturn) (.next hs.faultAt)
  · exact .next hs

theorem State.canonical.lineStarts {s : State} (hs : s.canonical) {g : Fin 3} {line : Nat} : (s.lineStarts g line).canonical := by
  unfold State.lineStarts
  refine State.canonical.frame (hs.setThreads (v := (s.lineStarts g line).threads) fun t => ?_)
  simp only [State.lineStarts, Fin.getElem_fin, Vector.getElem_map]
  split
  · split <;> exact hs.scratch t
  · exact hs.scratch t

/-! ### Scan -/

theorem State.canonical.deliverAll {s : State} (hs : s.canonical) {l : List Deliver} {code : Nat} : (s.deliverAll l code).canonical :=
  hs.foldl fun _ _ hs => hs.deliver

theorem State.canonical.abandonEntry {s : State} (hs : s.canonical) : (s.abandonEntry).canonical := hs.frame.deliverAll

theorem State.canonical.request {s : State} (hs : s.canonical) {rows : Bool} : (s.request rows).canonical := by
  simp only [State.request]
  split
  · exact hs
  · exact hs
  · exact .ite hs.frame hs.abandonEntry
  · exact .ite hs hs.frame
  · exact .ite hs hs.frame

theorem State.canonical.rowRequest {s : State} (hs : s.canonical) {r : RowReq} : (s.rowRequest r).canonical := hs.request.frame

theorem State.canonical.entryPoint {s : State} (hs : s.canonical) : (s.entryPoint).canonical :=
  hs.holdLanes.frame.frame.foldl fun _ _ hs => .ite hs.pauseNow hs

theorem State.canonical.enterSelf {s : State} (hs : s.canonical) {who : Deliver} : (s.enterSelf who).canonical := by
  simp only [State.enterSelf]
  split
  · exact .ite hs.frame hs.frame.entryPoint
  · exact hs.deliver
  · exact hs.frame

theorem execPselfEnter_canonical {s : State} (hs : s.canonical) {t : Tid} {w : IWord} : Answer.canonical (execPselfEnter t w s) := by
  simp only [execPselfEnter]
  refine .next (hs.issue fun s hs => ?_)
  refine hs.startUnit fun s hs => .ite hs.fault (hs.hostOrder fun s hs => ?_)
  exact hs.toUnit.enterSelf

theorem State.canonical.exitSelf {s : State} (hs : s.canonical) {who : Deliver} : (s.exitSelf who).canonical :=
  .ite hs.request.deliver hs.request.frame

theorem execPselfExit_canonical {s : State} (hs : s.canonical) {t : Tid} {w : IWord} : Answer.canonical (execPselfExit t w s) :=
  .next (hs.issue fun _ hs => hs.startUnit fun _ hs => hs.hostOrder fun _ hs => hs.toUnit.exitSelf)

theorem execSelfRefreshEntryPoint_canonical {s : State} (hs : s.canonical) : Answer.canonical (execSelfRefreshEntryPoint s) := by
  simp only [execSelfRefreshEntryPoint]
  refine .ite (.next hs) (.next ?_)
  refine .deliverAll (.frame ?_)
  exact .ite hs hs.entryPoint

theorem execPupdate_canonical {s : State} (hs : s.canonical) {t : Tid} {w : IWord} : Answer.canonical (execPupdate t w s) :=
  .next (hs.issue fun _ hs => hs.startUnit fun _ hs => .ite hs.fault (.ite hs.fault (.ite hs.fault hs.toUnit.rowRequest)))

theorem State.canonical.endRequests {s : State} (hs : s.canonical) : (s.endRequests).canonical :=
  .ite hs.frame.deliverAll hs.frame.deliverAll.frame

theorem State.canonical.endScan {s : State} (hs : s.canonical) : (s.endScan).canonical := by
  simp only [State.endScan]
  split
  · refine .deliverAll (.frame ?_)
    refine .frame (.holdLanes ?_)
    exact .ite hs hs.endRequests
  · refine .ite ?_ ?_
    · refine .deliverAll (.frame ?_)
      exact .ite hs hs.endRequests
    · refine .entryPoint (.frame ?_)
      refine .deliverAll (.frame ?_)
      exact .ite hs hs.endRequests
  · refine .ite (.ite hs hs.endRequests) (.entryPoint ?_)
    exact .ite hs hs.endRequests
  · exact .ite hs hs.endRequests

theorem State.canonical.realignHeld {s : State} (hs : s.canonical) : (s.realignHeld).canonical := by
  simp only [State.realignHeld]
  refine hs.foldl fun s a hs => .ite ?_ ?_
  · split
    · exact hs.frame
    · exact hs.frame
    · exact hs
  · exact hs

theorem State.canonical.startScan {s : State} (hs : s.canonical) {frame : Bool} : (s.startScan frame).canonical := by
  simp only [State.startScan]
  split
  · refine .ite ?_ ?_
    · refine .frame ?_
      split
      · exact .ite hs.frame.frame.realignHeld (.ite hs.frame.frame.realignHeld hs.frame)
      · exact hs.frame
    · split
      · exact .ite hs.frame.frame.realignHeld (.ite hs.frame.frame.realignHeld hs.frame)
      · exact hs.frame
  · refine .ite ?_ ?_
    · refine .frame ?_
      split
      · exact .ite hs.frame.frame.realignHeld (.ite hs.frame.frame.realignHeld hs.frame)
      · exact hs.frame
    · split
      · exact .ite hs.frame.frame.realignHeld (.ite hs.frame.frame.realignHeld hs.frame)
      · exact hs.frame
  · refine .ite ?_ ?_
    · refine .frame ?_
      split
      · exact .ite hs.frame.frame.realignHeld (.ite hs.frame.frame.realignHeld hs.frame)
      · exact hs.frame
    · split
      · exact .ite hs.frame.frame.realignHeld (.ite hs.frame.frame.realignHeld hs.frame)
      · exact hs.frame
  · split
    · exact .ite hs.frame.frame.realignHeld (.ite hs.frame.frame.realignHeld hs.frame)
    · exact hs.frame

theorem State.canonical.captureLine {s : State} (hs : s.canonical) {py : Nat} {made : List Byte} : (s.captureLine py made).canonical := by
  simp only [State.captureLine]
  split
  · exact .ite (.ite hs.endCapture (.ite hs.endCapture hs.frame)) hs
  · exact hs

theorem State.canonical.sendRow {s : State} (hs : s.canonical) {py : Nat} {corrupt : Option (Nat × Byte)} : (s.sendRow py
    corrupt).canonical := by
  simp only [State.sendRow]
  split
  · exact hs
  · refine .frame (.captureLine ?_)
    exact .ite hs hs.frame

theorem State.canonical.rowOutputs {s : State} (hs : s.canonical) {line : Nat} {write : Option Nat} : (s.rowOutputs line
    write).canonical := .ite hs.frame hs.frame

theorem State.canonical.finishUpdates {s : State} (hs : s.canonical) {py : Nat} : (s.finishUpdates py).canonical :=
  .ite hs hs.frame.deliverAll

theorem execTg0LineStart_canonical {s : State} (hs : s.canonical) {corrupt : Option (Nat × Byte)} : Answer.canonical (execTg0LineStart
    corrupt s) := by
  simp only [execTg0LineStart]
  refine .ite (.next hs) (.ite (.next hs.frame.lineStarts.rowOutputs) ?_)
  exact .next (.ite hs.frame.lineStarts.rowOutputs.frame.sendRow.finishUpdates hs.frame.lineStarts.rowOutputs.frame.frame)

theorem State.canonical.startClearing {s : State} (hs : s.canonical) {last : Option Nat} : (s.startClearing last).canonical :=
  hs.frame.frame.rowOutputs.frame

theorem execPclear_canonical {s : State} (hs : s.canonical) {t : Tid} {w : IWord} : Answer.canonical (execPclear t w s) := by
  simp only [execPclear]
  refine .next (hs.issue fun s hs => ?_)
  exact hs.startUnit fun s hs => .ite hs.fault (.ite hs.fault (.ite hs.toUnit.rowRequest.startClearing hs.toUnit.rowRequest))

theorem State.canonical.chooseSlot {s : State} (hs : s.canonical) {u : State} (e : s.chooseSlot = some u) : u.canonical := by
  simp only [State.chooseSlot] at e
  split at e
  · cases e; exact hs.frame
  · cases e
  · cases e; exact hs.frame.report

theorem State.canonical.choosePin {s : State} (hs : s.canonical) {p : Plan} {off : Nat} : (s.choosePin p off).canonical := by
  simp only [State.choosePin]
  split
  · exact hs.frame
  · exact hs.freshValue.frame

theorem State.canonical.startFetch {s : State} (hs : s.canonical) {p : Plan} {u : State} (e : s.startFetch p = some u) :
    u.canonical := by
  simp only [State.startFetch] at e
  split at e
  · cases e; exact hs.choosePin
  · exact hs.chooseSlot e

theorem State.canonical.holdPipe {s : State} (hs : s.canonical) {key : Nat × Nat} {h off n : Nat} : (s.holdPipe key h off
    n).canonical := .ite hs hs.frame

theorem State.canonical.fetchLine {s : State} (hs : s.canonical) {p : Plan} {py : Nat} : (s.fetchLine p py).canonical := by
  simp only [State.fetchLine]
  refine .frame (.frame ?_)
  split
  · refine .mk_fst ?_
    split
    · exact hs.readBuf
    · exact hs
  · refine .mk_fst (.freshValues ?_)
    split
    · exact hs.readBuf
    · exact hs

theorem State.canonical.beginFetch {s : State} (hs : s.canonical) {force : Bool} : (s.beginFetch force).canonical := by
  simp only [State.beginFetch]
  split
  · exact hs
  · split
    · exact hs
    · next _ u e =>
        have hu : u.canonical := by
          split at e
          · exact hs.startFetch e
          · cases e; exact hs
        refine .ite (.ite hs hu.frame) ?_
        split
        · exact .ite hs hu.fetchLine
        · exact .ite hu.frame.report.fetchLine hu.frame.holdPipe

theorem execScanoutLineFetch_canonical {s : State} (hs : s.canonical) : Answer.canonical (execScanoutLineFetch s) := .next hs.beginFetch

theorem execTgaddr_canonical {s : State} (hs : s.canonical) {t : Tid} {w : IWord} : Answer.canonical (execTgaddr t w s) := by
  simp only [execTgaddr]
  refine .next (hs.issue fun s hs => hs.orFault (.bind fun _ _ => .ok (hs.startUnit fun s hs => ?_)))
  refine hs.orFault (.bind fun _ _ => ?_)
  have hp : ∀ {c : Prop} [Decidable c] {f : OutPath → OutPath}, State.canonical (if c then (s.modOut f).chooseSlot.getD (s.modOut f)
      else s.modOut f) := .ite (hs.frame.getD fun _ e => hs.frame.chooseSlot e) hs.frame
  split
  · exact .ok (.toUnit hp)
  · exact .bind fun _ _ => .bind fun _ _ => .ok (.toUnit hp)

theorem State.canonical.tg0Lose {s : State} (hs : s.canonical) {code info : Nat} : (s.tg0Lose code info).canonical := by
  simp only [State.tg0Lose]
  split
  · exact hs.frame.setDisc.report
  · exact hs.frame.setDisc.report
  · exact hs

theorem State.canonical.tg0Regain {s : State} (hs : s.canonical) : (s.tg0Regain).canonical := .ite hs.setDisc.report hs

theorem State.canonical.modTg {s : State} (hs : s.canonical) {g : Bool} {f : Tg → Tg} : (s.modTg g f).canonical := .ite hs.frame hs.frame

theorem State.canonical.tgLose {s : State} (hs : s.canonical) {g : Bool} {interval : Nat} : (s.tgLose g interval).canonical :=
  .ite hs.modTg.report hs

theorem State.canonical.refInvalid {s : State} (hs : s.canonical) {interval : Nat} : (s.refInvalid interval).canonical :=
  .tgLose (.tgLose (.ite hs.frame.tg0Lose hs.frame))

theorem State.canonical.refLost {s : State} (hs : s.canonical) {interval : Nat} : (s.refLost interval).canonical := hs.frame.refInvalid

theorem State.canonical.tgRegain {s : State} (hs : s.canonical) {g : Bool} : (s.tgRegain g).canonical :=
  .ite hs (.ite hs.modTg.report hs.modTg)

theorem State.canonical.refFound {s : State} (hs : s.canonical) {t k : Nat} : (s.refFound t k).canonical :=
  .tgRegain (.tgRegain (.ite hs.frame.tg0Regain hs.frame))

theorem State.canonical.judgeRef {s : State} (hs : s.canonical) {p : Plan} : (s.judgeRef p).canonical := by
  simp only [State.judgeRef]
  split
  · exact .ite hs.frame hs.refFound
  · exact .ite hs.refInvalid hs

theorem execRefInEdge_canonical {s : State} (hs : s.canonical) {interval : Nat} : Answer.canonical (execRefInEdge interval s) := by
  simp only [execRefInEdge]
  refine .ite (.next hs) (.ite ?_ ?_)
  · refine .ite (.next hs.frame) (.ite (.next hs.frame) ?_)
    exact .next hs.refLost
  · split
    · exact .next hs.frame.refFound
    · exact .next hs.frame

theorem execRefInLoss_canonical {s : State} (hs : s.canonical) {interval : Nat} : Answer.canonical (execRefInLoss interval s) :=
  .ite (.next hs) (.next hs.refLost)

theorem State.canonical.discipline {s : State} (hs : s.canonical) {err : Int} {len : Nat} : (s.discipline err len).canonical := by
  simp only [State.discipline]
  split
  · exact hs.frame
  · exact hs.frame
  · exact .ite hs.frame (.ite hs.frame.report (.ite hs.frame.setDisc hs.frame))

theorem execTgset_canonical {s : State} (hs : s.canonical) {t : Tid} {w : IWord} : Answer.canonical (execTgset t w s) := by
  simp only [execTgset]
  refine .next (hs.issueBlock fun s hs => ?_)
  refine .ite hs.fault (.ite hs.fault ?_)
  refine hs.startUnit fun s hs => .ite hs.fault (hs.hostOrder fun s hs => ?_)
  exact .ite hs.modTg.toUnit hs.modTg.toUnit

theorem execTgFrameStart_canonical {s : State} (hs : s.canonical) {g : Bool} : Answer.canonical (execTgFrameStart g s) := by
  simp only [execTgFrameStart]
  refine .ite (.next hs) ?_
  split
  · exact .ite (.next hs) (.next hs.modTg.deliver.lineStarts)
  · exact .ite (.next hs) (.next hs.modTg.lineStarts)

theorem State.canonical.tgCount {s : State} (hs : s.canonical) {g : Bool} {n : Nat} : (s.tgCount g n).canonical :=
  .ite hs (.modTg (hs.foldl fun _ _ hs => hs.lineStarts))

/-! ### Synthesis -/

theorem State.canonical.readMarked {s : State} (hs : s.canonical) {b : Buf} {off n port : Nat} : (s.readMarked b off n
    port).1.canonical := hs.readMarks.foldl fun _ _ hs => hs.frame.meetBurst

theorem State.canonical.readSegments {s : State} (hs : s.canonical) {b : Buf} {off w port : Nat} {skip ue : List Nat} : (s.readSegments
    b off w port skip ue).1.canonical := by
  simp only [State.readSegments]
  refine .foldl_fst ?_ ?_
  · exact hs
  · intro p a hs
    exact .ite_fst (.mk_fst hs) (.mk_fst hs.readMarked)

theorem State.canonical.segmentLost {s : State} (hs : s.canonical) {k y c : Nat} : (s.segmentLost k y c).canonical := hs.report.frame

theorem execRingFillLine_canonical {s : State} (hs : s.canonical) {layer : Fin 64} {ue : List Nat} : Answer.canonical (execRingFillLine
    layer ue s) := by
  simp only [execRingFillLine]
  refine .next ?_
  split
  · exact hs
  · split
    · exact hs
    · refine .frame (.foldl ?_ ?_)
      · split
        · exact .readSegments (.ite hs.frame hs)
        · exact .mk_fst (.ite hs.frame hs)
      · intro s a hs
        exact hs.segmentLost

theorem State.canonical.ringLost {s : State} (hs : s.canonical) {p : Plan} {k y c : Nat} : (s.ringLost p k y c).canonical := by
  simp only [State.ringLost]
  split
  · exact .ite hs hs.readMarked.segmentLost.frame
  · exact hs

theorem State.canonical.holdGfx {s : State} (hs : s.canonical) {p : Plan} {g h : Nat} : (s.holdGfx p g h).canonical := by
  simp only [State.holdGfx]
  split
  · exact hs.holdPipe
  · exact hs

theorem State.canonical.readGfx {s : State} (hs : s.canonical) {p : Plan} {g h : Nat} : (s.readGfx p g h).canonical := by
  simp only [State.readGfx]
  split
  · refine .frame (.frame ?_)
    exact hs.readMarked.foldl fun s a hs => hs.report.frame
  · exact hs

theorem State.canonical.readGfxRow {s : State} (hs : s.canonical) {p : Plan} {h : Nat} : (s.readGfxRow p h).canonical :=
  .ite hs (hs.foldl fun _ _ hs => .ite hs (.ite hs.holdGfx hs.readGfx))

theorem execCullPassStart_canonical {s : State} (hs : s.canonical) : Answer.canonical (execCullPassStart s) := by
  simp only [execCullPassStart]
  refine .next ?_
  split
  · exact hs
  · exact .ite hs hs.frame.frame.readGfxRow

theorem execPipelineReadTorn_canonical {s : State} (hs : s.canonical) {r : Reader} : Answer.canonical (execPipelineReadTorn r s) := by
  simp only [execPipelineReadTorn]
  refine .next (.ite hs.beginFetch ?_)
  split
  · exact hs
  · split
    · exact hs
    · exact .ite hs hs.frame.report.readGfx

theorem execCellFault_canonical {s : State} (hs : s.canonical) {gallery : Fin 16} {cell : Fin 64} : Answer.canonical (execCellFault
    gallery cell s) := .next (.ite hs.report.deviceRemove hs)

/-! ### Blit -/

theorem State.canonical.queueBlt {s : State} (hs : s.canonical) {t : Tid} {d : BltDesc} {isSync : Bool} : (s.queueBlt t d
    isSync).canonical := hs.frame.wakeDram.frame

theorem execBlt_canonical {s : State} (hs : s.canonical) {t : Tid} {w : IWord} : Answer.canonical (execBlt t w s) := by
  simp only [execBlt]
  refine .next (hs.issueBlock fun s hs => ?_)
  refine hs.orFault (.bind fun _ _ => ?_)
  refine .ite (.ok hs.hold) (.ite ?_ ?_)
  · exact .ok (hs.queueBlt.modThread fun th => by simp)
  · exact .ok hs.queueBlt.toUnit

theorem execBlitDescriptorStart_canonical {s : State} (hs : s.canonical) : Answer.canonical (execBlitDescriptorStart s) := by
  simp only [execBlitDescriptorStart]
  refine .next ?_
  split
  · exact .ite hs hs.frame
  · exact hs

theorem execBlitGateOpen_canonical {s : State} (hs : s.canonical) : Answer.canonical (execBlitGateOpen s) := by
  simp only [execBlitGateOpen]
  refine .next ?_
  split
  · exact .ite hs (.ite hs.frame (.ite hs hs.frame))
  · exact hs

theorem State.canonical.bltRowDone {s : State} (hs : s.canonical) {o : BltOp} : (s.bltRowDone o).canonical := by
  simp only [State.bltRowDone]
  refine .ite hs.frame.frame (.ite ?_ ?_)
  · exact .raise (.ite (hs.frame.frame.modThread fun _ => by rfl) hs.frame.frame)
  · exact .ite (hs.frame.frame.modThread fun _ => by rfl) hs.frame.frame

theorem State.canonical.bltReadDst {s : State} (hs : s.canonical) {pa n : Nat} : (s.bltReadDst pa n).canonical := .ite hs.readMarks hs

theorem State.canonical.bltRun {s : State} (hs : s.canonical) {o : BltOp} {k : Nat} : (s.bltRun o k).canonical := by
  simp only [State.bltRun]
  refine .ite ?_ ?_
  · refine .ite ?_ ?_
    · refine .bltRowDone (.frame ?_)
      refine .writeBuf (.ite ?_ ?_)
      · refine .bltReadDst ?_
        split
        · exact .ite hs hs.readMarks
        · exact hs
      · split
        · exact .ite hs hs.readMarks
        · exact hs
    · refine .frame (.frame ?_)
      refine .writeBuf (.ite ?_ ?_)
      · refine .bltReadDst ?_
        split
        · exact .ite hs hs.readMarks
        · exact hs
      · split
        · exact .ite hs hs.readMarks
        · exact hs
  · split
    · refine .frame (.writeBuf ?_)
      refine .ite ?_ ?_
      · refine .bltReadDst ?_
        split
        · exact .ite hs hs.readMarks
        · exact hs
      · split
        · exact .ite hs hs.readMarks
        · exact hs
    · refine .frame (.frame ?_)
      refine .report (.frame ?_)
      refine .meetBurst (.frame ?_)
      refine .frame (.writeBuf ?_)
      refine .ite ?_ ?_
      · refine .bltReadDst ?_
        split
        · exact .ite hs hs.readMarks
        · exact hs
      · split
        · exact .ite hs hs.readMarks
        · exact hs

theorem execBlitRowComplete_canonical {s : State} (hs : s.canonical) : Answer.canonical (execBlitRowComplete s) := by
  simp only [execBlitRowComplete]
  refine .next ?_
  split
  · exact .ite hs (.ite hs hs.bltRun)
  · exact hs

theorem execBlitComplete_canonical {s : State} (hs : s.canonical) : Answer.canonical (execBlitComplete s) := by
  simp only [execBlitComplete]
  refine .next ?_
  split
  · refine .ite hs ?_
    split
    · exact hs
    · exact hs.frame.frame.deliver
  · exact hs

/-! ### FabTime -/

theorem State.canonical.setTime {s : State} (hs : s.canonical) {x : TimeState} : (s.setTime x).canonical :=
  .ite hs.frame (.ite hs.frame.tg0Lose hs.frame.tg0Regain)

theorem State.canonical.setPlanet {s : State} (hs : s.canonical) {b : Nat} : (s.setPlanet b).canonical := by
  simp only [State.setPlanet]
  refine .frame ?_
  split
  · exact .ite hs hs.report
  · exact hs

theorem State.canonical.follow {s : State} (hs : s.canonical) {b : Nat} {ps : List (Fin 8)} : (s.follow b ps).canonical := by
  simp only [State.follow]
  split
  · exact hs
  · exact .ite hs.setPlanet.frame hs.setPlanet.frame.setTime

theorem State.canonical.becomePlanet {s : State} (hs : s.canonical) {own : Nat} : (s.becomePlanet own).canonical :=
  hs.setPlanet.frame.setTime

theorem State.canonical.elect {s : State} (hs : s.canonical) : (s.elect).canonical := by
  simp only [State.elect]
  split
  · exact .ite (.ite hs hs.becomePlanet) hs.follow
  · exact .ite hs (.ite hs hs.becomePlanet)
  · exact hs

theorem State.canonical.learnCoord {s : State} (hs : s.canonical) {p : Fin 8} {node : Nat} : (s.learnCoord p node).canonical := by
  simp only [State.learnCoord]
  split
  · exact hs
  · split
    · exact hs.frame.rejudgeAll.frame
    · exact .ite hs hs.portRecord

theorem execCometTimer_canonical {s : State} (hs : s.canonical) : Answer.canonical (execCometTimer s) :=
  .next (hs.elect.frame.foldl fun _ _ hs => .ite hs.frame hs)

theorem State.canonical.track {s : State} (hs : s.canonical) {t1 t2 t3 t4 : Int} : (s.track t1 t2 t3 t4).canonical :=
  .ite hs.frame.frame (.ite hs.frame.freshValue.frame.setTime (.ite hs.frame.freshValue.frame.setTime hs.frame.freshValue.frame))

theorem State.canonical.comet {s : State} (hs : s.canonical) {p : Fin 8} {b : List Byte} {rx : Nat} : (s.comet p b rx).canonical := by
  simp only [State.comet]
  refine .ite ?_ ?_
  · refine .frame (.ite ?_ ?_)
    · refine .ite ?_ ?_
      · refine .frame (.elect ?_)
        refine .ite ?_ ?_
        · refine .rejudge (.frame ?_)
          exact .ite hs.learnCoord hs
        · exact .frame (.ite hs.learnCoord hs)
      · refine .track (.frame ?_)
        refine .elect (.ite ?_ ?_)
        · refine .rejudge (.frame ?_)
          exact .ite hs.learnCoord hs
        · exact .frame (.ite hs.learnCoord hs)
    · refine .elect (.ite ?_ ?_)
      · refine .rejudge (.frame ?_)
        exact .ite hs.learnCoord hs
      · exact .frame (.ite hs.learnCoord hs)
  · refine .ite ?_ ?_
    · refine .ite ?_ ?_
      · refine .frame (.elect ?_)
        refine .ite ?_ ?_
        · refine .rejudge (.frame ?_)
          exact .ite hs.learnCoord hs
        · exact .frame (.ite hs.learnCoord hs)
      · refine .track (.frame ?_)
        refine .elect (.ite ?_ ?_)
        · refine .rejudge (.frame ?_)
          exact .ite hs.learnCoord hs
        · exact .frame (.ite hs.learnCoord hs)
    · refine .elect (.ite ?_ ?_)
      · refine .rejudge (.frame ?_)
        exact .ite hs.learnCoord hs
      · exact .frame (.ite hs.learnCoord hs)

theorem execPlanetTimeout_canonical {s : State} (hs : s.canonical) : Answer.canonical (execPlanetTimeout s) := by
  simp only [execPlanetTimeout]
  refine .next ?_
  split
  · exact hs.setTime.frame.report
  · exact hs

/-! ### Power -/

theorem State.canonical.setPState {s : State} (hs : s.canonical) {x : PState} : (s.setPState x).canonical := .ite hs hs.frame.raise

theorem State.canonical.failPair {s : State} (hs : s.canonical) {n : Nat} : (s.failPair n).canonical := hs.frame.deviceRemove

theorem State.canonical.identify {s : State} (hs : s.canonical) : (s.identify).1.canonical := by
  simp only [State.identify]
  split
  · refine .mk_fst (.frame ?_)
    exact hs.foldl fun s a hs => hs.report.failPair
  · refine .mk_fst (hs.frame.frame.foldl fun s a hs => ?_)
    exact .ite hs.frame hs.frame.report.failPair

theorem State.canonical.bringUp {s : State} (hs : s.canonical) : (s.bringUp).canonical := by
  simp only [State.bringUp]
  refine .foldl ?_ ?_
  · exact hs.foldl fun s a hs => hs.frame
  · intro s a hs
    split
    · exact .ite hs.frame hs
    · refine .failPair (.report ?_)
      exact .ite hs.frame hs

theorem State.canonical.railsDown {s : State} (hs : s.canonical) {q : RailSeq} : (s.railsDown q).canonical :=
  hs.frame.frame.setPState.deliver

theorem State.canonical.seqDown {s : State} (hs : s.canonical) {q : RailSeq} {n r : Nat} : (s.seqDown q n r).canonical := by
  induction n generalizing s r with
  | zero => exact hs.railsDown
  | succ n ih =>
    simp only [State.seqDown]
    exact .ite (ih hs) (.ite hs.frame (ih hs.frame))

theorem State.canonical.railsUp {s : State} (hs : s.canonical) {q : RailSeq} : (s.railsUp q).canonical :=
  .ite hs.identify.bringUp.frame.setPState.frame.deliver hs.identify.setPState.seqDown

theorem State.canonical.seqUp {s : State} (hs : s.canonical) {q : RailSeq} {n r : Nat} : (s.seqUp q n r).canonical := by
  induction n generalizing s r with
  | zero => exact hs.railsUp
  | succ n ih =>
    simp only [State.seqUp]
    exact .ite (ih hs) (.ite (ih hs.frame) hs.frame)

theorem State.canonical.pgdTimeout {s : State} (hs : s.canonical) {q : RailSeq} : (s.pgdTimeout q).canonical :=
  .ite hs.report.setPState.seqDown hs.report.frame.seqDown

theorem execPgdChange_canonical {s : State} (hs : s.canonical) {r : Fin 6} {level : Bool} : Answer.canonical (execPgdChange r level
    s) := by
  simp only [execPgdChange]
  split
  · refine .ite ?_ ?_
    · exact .ite (.next hs.frame.seqUp) (.next hs.frame.frame.seqDown)
    · exact .next hs.frame
  · exact .next hs.frame

theorem execPpowerUp_canonical {s : State} (hs : s.canonical) {t : Tid} {w : IWord} {crack crack2 : CrackRun} {drv : List DriverAnswer}
    : Answer.canonical (execPpowerUp t w crack crack2 drv s) := by
  simp only [execPpowerUp]
  refine .next (hs.issue fun s hs => ?_)
  refine hs.startUnit fun s hs => .ite hs.fault (hs.hostOrder fun s hs => ?_)
  split
  · exact hs.frame.frame.report.toUnit
  · exact hs.frame.frame.frame.toUnit.setPState.seqUp

theorem execPpowerDown_canonical {s : State} (hs : s.canonical) {t : Tid} {w : IWord} : Answer.canonical (execPpowerDown t w s) := by
  simp only [execPpowerDown]
  refine .next (hs.issue fun s hs => ?_)
  refine hs.startUnit fun s hs => .ite hs.fault (hs.hostOrder fun s hs => ?_)
  exact hs.toUnit.holdLanes.frame.setPState.seqDown

theorem execPlightOn_canonical {s : State} (hs : s.canonical) {t : Tid} {w : IWord} : Answer.canonical (execPlightOn t w s) := by
  simp only [execPlightOn]
  refine .next (hs.issue fun s hs => ?_)
  refine hs.startUnit fun s hs => .ite hs.fault (hs.hostOrder fun s hs => ?_)
  exact hs.frame.toUnit

theorem execPlightOff_canonical {s : State} (hs : s.canonical) {t : Tid} {w : IWord} : Answer.canonical (execPlightOff t w s) :=
  .next (hs.issue fun _ hs => hs.startUnit fun _ hs => hs.hostOrder fun _ hs => hs.frame.toUnit)

theorem State.canonical.endSeq {s : State} (hs : s.canonical) {op : Nat} : (s.endSeq op).canonical := by
  simp only [State.endSeq]
  split
  · exact hs.frame.overruled.deliver
  · exact hs

theorem State.canonical.respond {s : State} (hs : s.canonical) {op : Nat} : (s.respond op).canonical :=
  hs.endSeq.holdAt.holdAt.holdLanes.frame.setPState.frame

theorem State.canonical.respSteps {s : State} (hs : s.canonical) : (s.respSteps).canonical := by
  simp only [State.respSteps]
  split
  · exact hs
  · refine .ite ?_ ?_
    · refine .ite ?_ ?_
      · refine .frame (.setPState ?_)
        refine .frame (.ite ?_ ?_)
        · refine .foldl ?_ ?_
          · refine .ite ?_ ?_
            · refine .foldl ?_ ?_
              · refine .ite ?_ ?_
                · refine .foldl ?_ ?_
                  · refine .ite ?_ ?_
                    · exact hs.foldl fun s a hs => hs.frame
                    · exact hs
                  · intro s a hs
                    exact hs.frame
                · refine .ite ?_ ?_
                  · exact hs.foldl fun s a hs => hs.frame
                  · exact hs
              · intro s a hs
                exact hs.frame
            · refine .ite ?_ ?_
              · refine .foldl ?_ ?_
                · refine .ite ?_ ?_
                  · exact hs.foldl fun s a hs => hs.frame
                  · exact hs
                · intro s a hs
                  exact hs.frame
              · refine .ite ?_ ?_
                · exact hs.foldl fun s a hs => hs.frame
                · exact hs
          · intro s a hs
            exact hs.frame
        · refine .ite ?_ ?_
          · refine .foldl ?_ ?_
            · refine .ite ?_ ?_
              · refine .foldl ?_ ?_
                · refine .ite ?_ ?_
                  · exact hs.foldl fun s a hs => hs.frame
                  · exact hs
                · intro s a hs
                  exact hs.frame
              · refine .ite ?_ ?_
                · exact hs.foldl fun s a hs => hs.frame
                · exact hs
            · intro s a hs
              exact hs.frame
          · refine .ite ?_ ?_
            · refine .foldl ?_ ?_
              · refine .ite ?_ ?_
                · exact hs.foldl fun s a hs => hs.frame
                · exact hs
              · intro s a hs
                exact hs.frame
            · refine .ite ?_ ?_
              · exact hs.foldl fun s a hs => hs.frame
              · exact hs
      · refine .frame (.frame ?_)
        refine .frame (.setPState ?_)
        refine .frame (.ite ?_ ?_)
        · refine .foldl ?_ ?_
          · refine .ite ?_ ?_
            · refine .foldl ?_ ?_
              · refine .ite ?_ ?_
                · refine .foldl ?_ ?_
                  · refine .ite ?_ ?_
                    · exact hs.foldl fun s a hs => hs.frame
                    · exact hs
                  · intro s a hs
                    exact hs.frame
                · refine .ite ?_ ?_
                  · exact hs.foldl fun s a hs => hs.frame
                  · exact hs
              · intro s a hs
                exact hs.frame
            · refine .ite ?_ ?_
              · refine .foldl ?_ ?_
                · refine .ite ?_ ?_
                  · exact hs.foldl fun s a hs => hs.frame
                  · exact hs
                · intro s a hs
                  exact hs.frame
              · refine .ite ?_ ?_
                · exact hs.foldl fun s a hs => hs.frame
                · exact hs
          · intro s a hs
            exact hs.frame
        · refine .ite ?_ ?_
          · refine .foldl ?_ ?_
            · refine .ite ?_ ?_
              · refine .foldl ?_ ?_
                · refine .ite ?_ ?_
                  · exact hs.foldl fun s a hs => hs.frame
                  · exact hs
                · intro s a hs
                  exact hs.frame
              · refine .ite ?_ ?_
                · exact hs.foldl fun s a hs => hs.frame
                · exact hs
            · intro s a hs
              exact hs.frame
          · refine .ite ?_ ?_
            · refine .foldl ?_ ?_
              · refine .ite ?_ ?_
                · exact hs.foldl fun s a hs => hs.frame
                · exact hs
              · intro s a hs
                exact hs.frame
            · refine .ite ?_ ?_
              · exact hs.foldl fun s a hs => hs.frame
              · exact hs
    · refine .ite ?_ ?_
      · refine .foldl ?_ ?_
        · refine .ite ?_ ?_
          · refine .foldl ?_ ?_
            · refine .ite ?_ ?_
              · refine .foldl ?_ ?_
                · refine .ite ?_ ?_
                  · exact hs.foldl fun s a hs => hs.frame
                  · exact hs
                · intro s a hs
                  exact hs.frame
              · refine .ite ?_ ?_
                · exact hs.foldl fun s a hs => hs.frame
                · exact hs
            · intro s a hs
              exact hs.frame
          · refine .ite ?_ ?_
            · refine .foldl ?_ ?_
              · refine .ite ?_ ?_
                · exact hs.foldl fun s a hs => hs.frame
                · exact hs
              · intro s a hs
                exact hs.frame
            · refine .ite ?_ ?_
              · exact hs.foldl fun s a hs => hs.frame
              · exact hs
        · intro s a hs
          exact hs.frame
      · refine .ite ?_ ?_
        · refine .foldl ?_ ?_
          · refine .ite ?_ ?_
            · refine .foldl ?_ ?_
              · refine .ite ?_ ?_
                · exact hs.foldl fun s a hs => hs.frame
                · exact hs
              · intro s a hs
                exact hs.frame
            · refine .ite ?_ ?_
              · exact hs.foldl fun s a hs => hs.frame
              · exact hs
          · intro s a hs
            exact hs.frame
        · refine .ite ?_ ?_
          · refine .foldl ?_ ?_
            · refine .ite ?_ ?_
              · exact hs.foldl fun s a hs => hs.frame
              · exact hs
            · intro s a hs
              exact hs.frame
          · refine .ite ?_ ?_
            · exact hs.foldl fun s a hs => hs.frame
            · exact hs

theorem execPfailResponse_canonical {s : State} (hs : s.canonical) : Answer.canonical (execPfailResponse s) :=
  .ite (.next hs) (.next hs.respond.frame.frame.endTests.endCapture.report)

theorem execPfailNRelease_canonical {s : State} (hs : s.canonical) : Answer.canonical (execPfailNRelease s) :=
  .next (.ite hs.frame.frame hs.frame.frame.frame.frame)

theorem execPgdLoss_canonical {s : State} (hs : s.canonical) {r : Fin 6} : Answer.canonical (execPgdLoss r s) :=
  .ite (.next hs.frame.report.respond) (.next hs)

theorem execCrackCheck_canonical {s : State} (hs : s.canonical) {a b : CrackRun} : Answer.canonical (execCrackCheck a b s) := by
  simp only [execCrackCheck]
  refine .ite ?_ ?_
  · split
    · exact .next hs.frame.report.respond
    · exact .next hs
  · exact .next hs

theorem execHuReady_canonical {s : State} (hs : s.canonical) : Answer.canonical (execHuReady s) := .next (.ite hs.frame hs)

theorem execHuReadyClear_canonical {s : State} (hs : s.canonical) : Answer.canonical (execHuReadyClear s) := .next (.ite hs hs.frame)

theorem execPmbx_canonical {s : State} (hs : s.canonical) {t : Tid} {w : IWord} {tries : List PmbTry} : Answer.canonical (execPmbx t w
    tries s) := by
  simp only [execPmbx]
  refine .next (hs.issueBlock fun s hs => ?_)
  refine hs.orFault (.bind fun _ _ => ?_)
  refine .ok (hs.startUnit fun s hs => ?_)
  exact .ite hs.fault hs.frame.toUnit

theorem State.canonical.pollFails {s : State} (hs : s.canonical) {n : Nat} {timeout : Bool} : (s.pollFails n timeout).canonical :=
  .ite hs.frame.report hs.frame

theorem execDriverReadback_canonical {s : State} (hs : s.canonical) {n : Fin 48} {poll : DrvPoll} : Answer.canonical (execDriverReadback
    n poll s) := by
  simp only [execDriverReadback]
  split
  · exact .next hs
  · refine .ite (.next hs) ?_
    split
    · exact .next hs.pollFails
    · exact .next hs.pollFails
    · refine .ite (.next hs.frame.report.frame.failPair) (.ite ?_ ?_)
      · refine .next (.frame ?_)
        exact .ite hs.frame.report hs.frame
      · exact .next (.ite hs.frame.report hs.frame)

theorem State.canonical.returnPoll {s : State} (hs : s.canonical) {n : Nat} {r : LaneRead} : (s.returnPoll n r).canonical :=
  .ite hs (.ite hs.frame.frame (.ite hs.frame.settleNow (.ite hs.frame hs.frame.report.frame.leaveService)))

theorem execLaneStatPoll_canonical {s : State} (hs : s.canonical) {n : Fin 48} {stat : LaneStat} : Answer.canonical (execLaneStatPoll n
    stat s) := by
  simp only [execLaneStatPoll]
  refine .ite ?_ ?_
  · refine .next ?_
    split
    · exact hs.returnPoll
    · exact hs.pollFails
  · refine .ite (.next hs) ?_
    split
    · exact .next hs.pollFails
    · split
      · exact .ite (.next hs.frame.frame) (.next hs.frame.frame.frame.report)
      · refine .ite (.next hs.frame.frame) (.ite (.next hs.frame.frame.frame.report) ?_)
        exact .next (.ite hs.frame.frame.frame.report hs.frame.frame.frame)
      · exact .next hs.frame

/-! ### Protected -/

theorem State.canonical.dropPages {s : State} (hs : s.canonical) {set : Nat} : (s.dropPages set).canonical := by
  simp only [State.dropPages]
  refine hs.foldl fun s a hs => ?_
  split
  · exact (hs.setBufs (hs.table.filter _)).freeRange
  · exact hs

theorem State.canonical.expandPages {s : State} (hs : s.canonical) {p : Pkg} : (s.expandPages p).1.canonical := by
  refine State.canonical.foldl hs fun s n hs => ?_
  extract_lets +onlyGivenNames d
  generalize s.place true d.length = o
  cases o with
  | none => exact hs
  | some a => exact hs.putBuf.writeBuf

theorem State.canonical.protItem {s : State} (hs : s.canonical) {event frame : Nat} : (s.protItem event frame).canonical := hs.post41.raise

theorem State.canonical.setPage {s : State} (hs : s.canonical) {frame : Nat} : (s.setPage frame).canonical :=
  .ite hs.frame.protItem.event hs.frame

/-! ### Trim -/

theorem State.canonical.modFlash {s : State} (hs : s.canonical) {f : Flash → Flash}
    (hf : ∀ x, tabWf 0xFF x.bytes = true → tabWf 0xFF (f x).bytes = true) : (s.modFlash f).canonical :=
  hs.setFlash (hf _ hs.flash)

theorem foldl_tabSet_wf {d : Byte} (l : List Byte) (x : List (Nat × Byte) × Nat) (h : tabWf d x.1 = true) :
    tabWf d (l.foldl (fun (x : List (Nat × Byte) × Nat) b => (tabSet d x.1 x.2 b, x.2 + 1)) x).1 = true := by
  induction l generalizing x with
  | nil => exact h
  | cons b l ih => exact ih _ (tabSet_wf _ _ _ _ h)

theorem Flash.write_wf {f : Flash} (h : tabWf 0xFF f.bytes = true) (a : Nat) (d : List Byte) : tabWf 0xFF (f.write a d).bytes = true :=
  foldl_tabSet_wf d (f.bytes, a) h

theorem Flash.erase_wf {f : Flash} (h : tabWf 0xFF f.bytes = true) (lo hi : Nat) : tabWf 0xFF (f.erase lo hi).bytes = true :=
  tabClear_wf _ _ _ _ h

theorem State.canonical.writeRecord {s : State} (hs : s.canonical) {kind : Nat} {b : List Byte} {readBack : Bool} :
    (s.writeRecord kind b readBack).canonical := by
  simp only [State.writeRecord]
  have he : ∀ {lo hi : Nat}, (s.modFlash fun f => f.erase lo hi).canonical := hs.modFlash fun _ h => Flash.erase_wf h _ _
  exact .ite (he.modFlash fun _ h => Flash.write_wf h _ _) he.report

theorem execTrimstage_canonical {s : State} (hs : s.canonical) {t : Tid} {w : IWord} {readBack : Bool} : Answer.canonical (execTrimstage
    t w readBack s) := by
  simp only [execTrimstage]
  refine .next (hs.issueBlock fun s hs => ?_)
  refine hs.orFault (.bind fun _ _ => ?_)
  refine .bind fun b _ => .bind fun _ _ => .bind fun _ _ => .ok (hs.startUnit fun s hs => ?_)
  refine .ite hs.fault ?_
  split
  · exact hs.readBuf.toUnit
  · exact .ite hs.readBuf.toUnit (.ite hs.readBuf.frame.writeRecord.toUnit hs.readBuf.frame.toUnit)

theorem State.canonical.applyTrim {s : State} (hs : s.canonical) : (s.applyTrim).canonical := by
  simp only [State.applyTrim]
  refine .frame ?_
  split
  · exact hs.frame
  · exact hs

theorem State.canonical.applyDue {s : State} (hs : s.canonical) : (s.applyDue).canonical := by
  simp only [State.applyDue]
  split
  · exact hs.frame.applyTrim.deliver
  · exact hs

theorem execTrimapply_canonical {s : State} (hs : s.canonical) {t : Tid} {w : IWord} : Answer.canonical (execTrimapply t w s) :=
  .next (hs.issue fun _ hs => hs.startUnit fun _ hs => .ite hs.fault (.ite hs.applyTrim.toUnit hs.frame.toUnit))

theorem execTread_canonical {s : State} (hs : s.canonical) {t : Tid} {w : IWord} : Answer.canonical (execTread t w s) := by
  simp only [execTread]
  refine .next (hs.issue fun s hs => ?_)
  refine .ite ?_ ?_
  · refine .ite hs.fault (hs.startUnit fun s hs => ?_)
    exact hs.toUnit
  · refine .ite hs.fault (hs.startUnit fun s hs => ?_)
    refine .ite hs.toUnit ?_
    split
    · exact hs.toUnit
    · exact hs.freshValue.toUnit

theorem State.canonical.modHost {s : State} (hs : s.canonical) {f : HostIf → HostIf}
    (hb : ∀ x, tabWf 0 x.flashBuf = true → tabWf 0 (f x).flashBuf = true)
    (hx : ∀ x, tabWf 0 x.msix = true → tabWf 0 (f x).msix = true) : (s.modHost f).canonical :=
  hs.setHost (hb _ hs.flashBuf) (hx _ hs.msix)

theorem State.canonical.modHost_same {s : State} (hs : s.canonical) {f : HostIf → HostIf}
    (hf : ∀ x, (f x).flashBuf = x.flashBuf ∧ (f x).msix = x.msix) : (s.modHost f).canonical :=
  hs.modHost (fun x h => (hf x).1 ▸ h) fun x h => (hf x).2 ▸ h

theorem State.canonical.flashStart {s : State} (hs : s.canonical) {v : BitVec 32} {op : Nat} : (s.flashStart v op).canonical :=
  .ite hs (.ite (hs.modHost_same fun _ => ⟨rfl, rfl⟩) (.ite (hs.modHost_same fun _ => ⟨rfl, rfl⟩)
    (.ite (hs.modHost_same fun _ => ⟨rfl, rfl⟩) (hs.modHost_same fun _ => ⟨rfl, rfl⟩))))

theorem execFlashRead_canonical {s : State} (hs : s.canonical) {v : BitVec 32} : Answer.canonical (execFlashRead v s) := .next hs.flashStart

theorem execFlashErase_canonical {s : State} (hs : s.canonical) {v : BitVec 32} : Answer.canonical (execFlashErase v s) :=
  .next hs.flashStart

theorem execFlashProgram_canonical {s : State} (hs : s.canonical) {v : BitVec 32} : Answer.canonical (execFlashProgram v s) :=
  .next hs.flashStart

theorem Flash.touch_wf {f : Flash} (h : tabWf 0xFF f.bytes = true) (lo hi : Nat) : tabWf 0xFF (f.touch lo hi).bytes = true := h

theorem execFlashOperationDone_canonical {s : State} (hs : s.canonical) {verified : Bool} :
    Answer.canonical (execFlashOperationDone verified s) := by
  simp only [execFlashOperationDone]
  refine .ite (.next hs) ?_
  split
  · exact .next ((hs.modHost (fun _ _ => foldl_tabSet_wf _ _ hs.flashBuf) fun _ h => by exact h).modHost_same fun _ => by exact ⟨rfl, rfl⟩)
  · exact .next ((hs.modFlash fun _ h => Flash.touch_wf (Flash.erase_wf h _ _) _ _).modHost_same fun _ => by exact ⟨rfl, rfl⟩)
  · refine .ite (.next (.modHost_same (.modFlash hs fun _ h => ?_) fun _ => by exact ⟨rfl, rfl⟩))
      (.next (.modHost_same (.modFlash hs.freshValues fun _ h => ?_) fun _ => by exact ⟨rfl, rfl⟩))
    · exact Flash.touch_wf (Flash.write_wf h _ _) _ _
    · exact Flash.touch_wf (Flash.write_wf h _ _) _ _

theorem Flash.putDoc_bytes (f : Flash) (kind : Nat) (b : Bool) (d : Option FlashDoc) : (f.putDoc kind b d).bytes = f.bytes := by
  simp only [Flash.putDoc]
  split
  · rfl
  · split <;> rfl

theorem Flash.putDoc_wf {f : Flash} (h : tabWf 0xFF f.bytes = true) (kind : Nat) (b : Bool) (d : Option FlashDoc) :
    tabWf 0xFF (f.putDoc kind b d).bytes = true := by
  rw [Flash.putDoc_bytes]; exact h

theorem State.canonical.beginDoc {s : State} (hs : s.canonical) {kind : Nat} {data : List Byte} : (s.beginDoc kind data).canonical :=
  hs.modFlash fun _ h => Flash.putDoc_wf h _ _ _

theorem State.canonical.storeDoc {s : State} (hs : s.canonical) {kind : Nat} {data : List Byte} : (s.storeDoc kind data).canonical :=
  .ite hs.beginDoc (.ite (hs.modFlash fun _ h => by exact h) (hs.modFlash fun _ h => by exact h).report)

theorem State.canonical.nextDoc {s : State} (hs : s.canonical) : (s.nextDoc).canonical := by
  simp only [State.nextDoc]
  split
  · exact .ite (hs.modFlash fun _ h => by exact h).beginDoc hs
  · exact hs

theorem execFlashWindowOpen_canonical {s : State} (hs : s.canonical) : Answer.canonical (execFlashWindowOpen s) := .next hs.nextDoc

theorem execFlashRecordWriteDone_canonical {s : State} (hs : s.canonical) {ok : Bool} :
    Answer.canonical (execFlashRecordWriteDone ok s) := by
  simp only [execFlashRecordWriteDone]
  split
  · exact .next hs
  · refine .next (.nextDoc (.ite ?_ ?_))
    · exact (hs.modFlash fun _ h => by exact h).modFlash fun _ h => Flash.putDoc_wf h _ _ _
    · exact (hs.modFlash fun _ h => by exact h).report

theorem execLifetimeTick_canonical {s : State} (hs : s.canonical) : Answer.canonical (execLifetimeTick s) := by
  simp only [execLifetimeTick]
  split
  · exact .next hs.frame
  · exact .next hs.frame

theorem execLifetimeStore_canonical {s : State} (hs : s.canonical) : Answer.canonical (execLifetimeStore s) :=
  .ite (.next hs) (.next hs.storeDoc)

/-! ### Reset -/

theorem State.canonical.bare {s : State} (hs : s.canonical) : s.bare.canonical := by
  obtain ⟨hmem, -, -, hrest⟩ := State.reset_canonical
  refine ⟨hmem, fun t => ?_, hs.flash, hrest⟩
  simpa [State.thread, State.bare, Thread.kept] using hs.scratch t

theorem State.canonical.powerOnReset {s : State} (hs : s.canonical) {x : Straps} : (s.powerOnReset x).canonical := by
  obtain ⟨hmem, hscratch, -, hrest⟩ := State.reset_canonical
  exact ⟨hmem, hscratch, hs.flash, hrest⟩

theorem execPorN_canonical {s : State} (hs : s.canonical) {x : Straps} : Answer.canonical (execPorN x s) := .next hs.powerOnReset

theorem execVddAoUndervoltage_canonical {s : State} (hs : s.canonical) {x : Straps} : Answer.canonical (execVddAoUndervoltage x s) :=
  .next hs.powerOnReset

theorem execSysRstN_canonical {s : State} (hs : s.canonical) {x : Straps} : Answer.canonical (execSysRstN x s) :=
  .ite (.next hs) (.next hs.respond.bare.frame)

/-! ### Plans -/

theorem State.canonical.planItem {s : State} (hs : s.canonical) {event : Nat} {trig : Option Nat} {slot : Fin 8} {adm : Nat} {id :
    BitVec 32} {frame : Nat} : (s.planItem event trig slot adm id frame).canonical := hs.post41

theorem State.canonical.useOther {s : State} (hs : s.canonical) {kind : GovKind} {trig : Option Nat} {sel : Fin 8} {adm n : Nat} :
    (s.useOther kind trig sel adm n).canonical := by
  simp only [State.useOther]
  split
  · exact hs.report.planItem
  · exact hs.report.planItem.event
  · exact hs

theorem State.canonical.useFallback {s : State} (hs : s.canonical) {sel : Fin 8} {trig : Option Nat} {was : GovKind} {newly : Bool} {n :
    Nat} : (s.useFallback sel trig was newly n).canonical := by
  simp only [State.useFallback]
  split
  · refine .ite ?_ ?_
    · refine .ite hs.frame (.useOther ?_)
      exact .ite hs.frame hs.frame
    · refine .ite hs.frame (.useOther ?_)
      exact .ite hs.frame hs.frame
  · refine .ite ?_ ?_
    · refine .ite hs.frame (.useOther ?_)
      exact .ite hs.frame hs.frame
    · refine .ite hs.frame (.useOther ?_)
      exact .ite hs.frame hs.frame

theorem State.canonical.useSelected {s : State} (hs : s.canonical) {sel : Fin 8} {newly : Bool} {n : Nat} : (s.useSelected sel newly
    n).canonical := by
  simp only [State.useSelected]
  split
  · exact .useFallback (.ite hs.frame hs)
  · refine .ite ?_ ?_
    · exact .frame (.ite hs.frame hs)
    · refine .ite ?_ ?_
      · refine .planItem (.frame ?_)
        exact .ite hs.frame hs
      · refine .useFallback (.ite (.ite hs.frame hs) ?_)
        refine .frame (.report ?_)
        exact .ite hs.frame hs

theorem State.canonical.armingPoint {s : State} (hs : s.canonical) {n : Nat} : (s.armingPoint n).canonical := by
  simp only [State.armingPoint]
  refine .frame ?_
  split
  · refine .ite ?_ ?_
    · split
      · exact hs.useSelected
      · exact hs
    · refine .ite hs.frame.useSelected ?_
      split
      · exact hs.frame.report.planItem.event.useSelected
      · exact hs.frame.report.planItem.event
  · split
    · exact hs.useSelected
    · exact hs

theorem State.canonical.startTg0 {s : State} (hs : s.canonical) {p : Plan} : (s.startTg0 p).canonical := hs.frame.setDisc

theorem State.canonical.loadBanks {s : State} (hs : s.canonical) {p : Plan} {l : List Nat} : (s.loadBanks p l).1.canonical := by
  induction l generalizing s with
  | nil => exact hs
  | cons b l ih =>
    simp only [State.loadBanks]
    split
    · exact hs
    · split
      · exact .mk_fst hs.readBuf
      · exact .ite_fst (.mk_fst hs.readBuf) (.mk_fst (ih hs.readBuf))

theorem State.canonical.loadGfx {s : State} (hs : s.canonical) {p : Plan} {l : List Nat} : (s.loadGfx p l).1.canonical := by
  have get : ∀ {u : State} {h n : Nat}, u.canonical →
      (match u.planBuf h n with | some b => u.readBuf b 0 n | none => (u, none)).1.canonical := fun hu => by
    split
    · exact hu.readBuf
    · exact hu
  induction l generalizing s with
  | nil => exact hs
  | cons g l ih =>
    simp only [State.loadGfx]
    split
    · exact .mk_fst (.ite_fst (get hs) hs)
    · split
      · exact .mk_fst (get (.ite_fst (get hs) hs))
      · exact .mk_fst (ih (get (.ite_fst (get hs) hs)))

theorem State.canonical.loadCopies {s : State} (hs : s.canonical) {p : Plan} : (s.loadCopies p).1.canonical := by
  simp only [State.loadCopies]
  split
  · exact .mk_fst hs.loadBanks
  · split
    · exact .mk_fst hs.loadBanks.loadGfx
    · split
      · exact .mk_fst hs.loadBanks.loadGfx
      · split
        · exact .mk_fst hs.loadBanks.loadGfx.readBuf
        · exact .ite_fst (.mk_fst hs.loadBanks.loadGfx.readBuf.mapOk) (.mk_fst hs.loadBanks.loadGfx.readBuf.mapOk)

theorem State.canonical.arm {s : State} (hs : s.canonical) {slot : Fin 8} {at' : Option Nat} {lvl : Level} {op : Nat} : (s.arm slot at'
    lvl op).canonical := by
  simp only [State.arm]
  refine .ite ?_ ?_
  · refine .startTg0 (.armingPoint ?_)
    refine .frame ?_
    split
    · exact hs.planItem.overruled
    · exact hs
  · refine .frame (.frame ?_)
    split
    · exact hs.planItem.overruled
    · exact hs

theorem State.canonical.commit {s : State} (hs : s.canonical) {slot : Fin 8} {at' : Option Nat} {lvl : Level} {op : Nat} : (s.commit
    slot at' lvl op).1.canonical := by
  simp only [State.commit]
  refine .ite_fst (.mk_fst hs.admission) ?_
  split
  · next e => exact hs.admission.loadCopies.of_fst e
  · next e =>
      split
      · refine .mk_fst ?_
        split
        · split
          · next e3 => exact (hs.admission.loadCopies.of_fst e).loadCopies.of_fst e3
          · next e3 => exact (hs.admission.loadCopies.of_fst e).loadCopies.of_fst e3
        · exact hs.admission.loadCopies.of_fst e
      · refine .ite_fst ?_ ?_
        · refine .mk_fst ?_
          split
          · split
            · next e3 => exact (hs.admission.loadCopies.of_fst e).loadCopies.of_fst e3
            · next e3 => exact (hs.admission.loadCopies.of_fst e).loadCopies.of_fst e3
          · exact hs.admission.loadCopies.of_fst e
        · refine .mk_fst (.arm ?_)
          refine .frame ?_
          split
          · split
            · next e3 => exact (hs.admission.loadCopies.of_fst e).loadCopies.of_fst e3
            · next e3 => exact (hs.admission.loadCopies.of_fst e).loadCopies.of_fst e3
          · exact hs.admission.loadCopies.of_fst e

theorem State.canonical.commitJob {s : State} (hs : s.canonical) {slot : Fin 8} {at' : Option Nat} {f : Bool} : (s.commitJob slot at'
    f).1.canonical := .ite_fst hs (.mk_fst hs.commit)

theorem execPlanchk_canonical {s : State} (hs : s.canonical) {t : Tid} {w : IWord} : Answer.canonical (execPlanchk t w s) := by
  simp only [execPlanchk]
  refine .next (hs.issue fun s hs => ?_)
  refine hs.orFault (.ite (.bind fun _ _ => ?_) ?_)
  all_goals
    refine .bind fun b _ => .ite (.bind fun _ _ => ?_) ?_
    all_goals
      refine .ok (hs.startUnit fun s hs => ?_)
      refine .ite hs.fault (.toUnit ?_)
      exact .ite hs.admission hs.admission.admReport.writeBuf

theorem execPlancommit_canonical {s : State} (hs : s.canonical) {t : Tid} {w : IWord} : Answer.canonical (execPlancommit t w s) := by
  simp only [execPlancommit]
  refine .next (hs.issue fun s hs => ?_)
  refine hs.orFault (.bind fun b _ => ?_)
  refine .ite ?_ ?_
  · refine .ite (.ok hs.hold) (.ite ?_ ?_)
    · refine .ok (hs.hostOrder fun s hs => ?_)
      exact hs.startAsync fun n s hs => hs.commitJob
    · refine .ok (.ite hs.fault ?_)
      exact hs.hostOrder fun s hs => hs.startAsync fun n s hs => hs.commitJob
  · refine .ok (hs.startUnit fun s hs => ?_)
    refine .ite hs.fault (hs.hostOrder fun s hs => ?_)
    exact hs.commitJob.toUnit

theorem State.canonical.loadSlot {s : State} (hs : s.canonical) {slot : Fin 8} {b : Buf} {off : Nat} : (s.loadSlot slot b
    off).1.canonical := by
  simp only [State.loadSlot]
  split
  · exact .mk_fst hs.readBuf.frame
  · refine .ite_fst (.mk_fst hs.readBuf.frame) ?_
    split
    · exact .mk_fst hs.readBuf.readBuf.frame
    · exact .ite_fst (.mk_fst hs.readBuf.readBuf.frame) (.mk_fst hs.readBuf.readBuf.frame)

theorem execPlanslotLoad_canonical {s : State} (hs : s.canonical) {t : Tid} {w : IWord} : Answer.canonical (execPlanslotLoad t w s) := by
  simp only [execPlanslotLoad]
  refine .next (hs.issue fun s hs => ?_)
  refine hs.orFault (.bind fun b _ => ?_)
  refine .bind fun b _ => .bind fun _ _ => .ok (hs.startUnit fun s hs => ?_)
  exact hs.hostOrder fun s hs => .ite hs.fault hs.loadSlot.toUnit

theorem execPlanslotFree_canonical {s : State} (hs : s.canonical) {t : Tid} {w : IWord} : Answer.canonical (execPlanslotFree t w s) := by
  simp only [execPlanslotFree]
  refine .next (hs.issue fun s hs => ?_)
  refine hs.orFault (.bind fun b _ => ?_)
  refine .ok (hs.startUnit fun s hs => ?_)
  exact hs.hostOrder fun s hs => .ite hs.fault hs.frame.toUnit

theorem execPlanslotState_canonical {s : State} (hs : s.canonical) {t : Tid} {w : IWord} : Answer.canonical (execPlanslotState t w
    s) := by
  simp only [execPlanslotState]
  refine .next (hs.issue fun s hs => ?_)
  refine hs.orFault (.bind fun b _ => ?_)
  refine .ok (hs.startUnit fun s hs => ?_)
  exact hs.toUnit

theorem execPlanslotStatus_canonical {s : State} (hs : s.canonical) {t : Tid} {w : IWord} : Answer.canonical (execPlanslotStatus t w
    s) := by
  simp only [execPlanslotStatus]
  refine .next (hs.issue fun s hs => ?_)
  refine hs.orFault (.bind fun b _ => ?_)
  refine .ok (hs.startUnit fun s hs => ?_)
  exact hs.writeBuf.toUnit

/-! ### Frame -/

theorem State.canonical.pageRequest {s : State} (hs : s.canonical) : (s.pageRequest).canonical := .ite hs.request hs

theorem State.canonical.intoForce {s : State} (hs : s.canonical) {old : Option Gov} {g : Gov} : (s.intoForce old g).canonical := by
  simp only [State.intoForce]
  refine .foldl ?_ ?_
  · refine .ite ?_ ?_
    · refine .request (.judgeRef ?_)
      refine .ite ?_ ?_
      · refine .setDisc (.frame ?_)
        exact .frame (.ite hs.frame hs.frame.event)
      · refine .ite ?_ ?_
        · refine .frame (.frame ?_)
          exact .ite hs.frame hs.frame.event
        · refine .setDisc (.frame ?_)
          exact .frame (.ite hs.frame hs.frame.event)
    · refine .judgeRef (.ite ?_ ?_)
      · refine .setDisc (.frame ?_)
        exact .frame (.ite hs.frame hs.frame.event)
      · refine .ite ?_ ?_
        · refine .frame (.frame ?_)
          exact .ite hs.frame hs.frame.event
        · refine .setDisc (.frame ?_)
          exact .frame (.ite hs.frame hs.frame.event)
  · intro s a hs
    exact hs.frame

theorem State.canonical.takeBanks {s : State} (hs : s.canonical) {l : List (Nat × CoefBank)} : (s.takeBanks l).canonical :=
  .ite hs hs.frame

theorem State.canonical.startSynth {s : State} (hs : s.canonical) {p : Plan} : (s.startSynth p).canonical := .frame (.ite hs.report hs)

theorem State.canonical.swapPackage {s : State} (hs : s.canonical) : (s.swapPackage).canonical := by
  simp only [State.swapPackage]
  split
  · exact hs
  · refine .frame ?_
    split
    · exact hs.dropPages
    · exact hs

theorem State.canonical.startFrame {s : State} (hs : s.canonical) {p : Plan} {n : Nat} {first : Bool} : (s.startFrame p n
    first).canonical :=
  .startSynth (.frame (.frame (.ite (.ite hs.swapPackage hs.swapPackage.frame.protItem.event) hs.swapPackage.setPage)))

theorem State.canonical.startCapture {s : State} (hs : s.canonical) {p : Plan} {n : Nat} : (s.startCapture p n).canonical :=
  hs.frame.writeHeader

theorem State.canonical.endClearing {s : State} (hs : s.canonical) : (s.endClearing).canonical :=
  .ite hs.endScan.frame.frame.frame hs.endScan.frame.startClearing

theorem State.canonical.startPicture {s : State} (hs : s.canonical) {old : Option Gov} {g : Gov} {n : Nat} {isNew : Bool} :
    (s.startPicture old g n isNew).canonical := by
  simp only [State.startPicture]
  refine .frame (.rowOutputs ?_)
  refine .lineStarts (.event ?_)
  refine .event (.startFrame ?_)
  refine .foldl ?_ ?_
  · exact .frame (.ite hs hs.frame)
  · intro s a hs
    exact hs.streamBoundary

theorem State.canonical.startPeriod {s : State} (hs : s.canonical) {g : Gov} {err : Int} : (s.startPeriod g err).canonical := by
  simp only [State.startPeriod]
  refine .audPeriod (.applyDue ?_)
  refine .frame (.discipline ?_)
  refine .armingPoint (.frame ?_)
  refine .ite ?_ ?_
  · refine .foldl ?_ ?_
    · refine .ite ?_ ?_
      · refine .frame (.settleUnits ?_)
        refine .frame (.startScan ?_)
        refine .ite ?_ ?_
        · refine .startCapture (.ite ?_ ?_)
          · refine .endCapture (.ite ?_ ?_)
            · refine .frame (.frame ?_)
              refine .frame (.frame ?_)
              refine .frame (.pageRequest ?_)
              exact .takeBanks (.ite hs.endScan.frame.frame.intoForce hs.endScan.frame.frame)
            · refine .frame (.frame ?_)
              refine .frame (.frame ?_)
              refine .pageRequest (.takeBanks ?_)
              exact .ite hs.endScan.frame.frame.intoForce hs.endScan.frame.frame
          · refine .ite ?_ ?_
            · refine .frame (.frame ?_)
              refine .frame (.frame ?_)
              refine .frame (.pageRequest ?_)
              exact .takeBanks (.ite hs.endScan.frame.frame.intoForce hs.endScan.frame.frame)
            · refine .frame (.frame ?_)
              refine .frame (.frame ?_)
              refine .pageRequest (.takeBanks ?_)
              exact .ite hs.endScan.frame.frame.intoForce hs.endScan.frame.frame
        · refine .ite ?_ ?_
          · refine .endCapture (.ite ?_ ?_)
            · refine .frame (.frame ?_)
              refine .frame (.frame ?_)
              refine .frame (.pageRequest ?_)
              exact .takeBanks (.ite hs.endScan.frame.frame.intoForce hs.endScan.frame.frame)
            · refine .frame (.frame ?_)
              refine .frame (.frame ?_)
              refine .pageRequest (.takeBanks ?_)
              exact .ite hs.endScan.frame.frame.intoForce hs.endScan.frame.frame
          · refine .ite ?_ ?_
            · refine .frame (.frame ?_)
              refine .frame (.frame ?_)
              refine .frame (.pageRequest ?_)
              exact .takeBanks (.ite hs.endScan.frame.frame.intoForce hs.endScan.frame.frame)
            · refine .frame (.frame ?_)
              refine .frame (.frame ?_)
              refine .pageRequest (.takeBanks ?_)
              exact .ite hs.endScan.frame.frame.intoForce hs.endScan.frame.frame
      · refine .settleUnits (.frame ?_)
        refine .startScan (.ite ?_ ?_)
        · refine .startCapture (.ite ?_ ?_)
          · refine .endCapture (.ite ?_ ?_)
            · refine .frame (.frame ?_)
              refine .frame (.frame ?_)
              refine .frame (.pageRequest ?_)
              exact .takeBanks (.ite hs.endScan.frame.frame.intoForce hs.endScan.frame.frame)
            · refine .frame (.frame ?_)
              refine .frame (.frame ?_)
              refine .pageRequest (.takeBanks ?_)
              exact .ite hs.endScan.frame.frame.intoForce hs.endScan.frame.frame
          · refine .ite ?_ ?_
            · refine .frame (.frame ?_)
              refine .frame (.frame ?_)
              refine .frame (.pageRequest ?_)
              exact .takeBanks (.ite hs.endScan.frame.frame.intoForce hs.endScan.frame.frame)
            · refine .frame (.frame ?_)
              refine .frame (.frame ?_)
              refine .pageRequest (.takeBanks ?_)
              exact .ite hs.endScan.frame.frame.intoForce hs.endScan.frame.frame
        · refine .ite ?_ ?_
          · refine .endCapture (.ite ?_ ?_)
            · refine .frame (.frame ?_)
              refine .frame (.frame ?_)
              refine .frame (.pageRequest ?_)
              exact .takeBanks (.ite hs.endScan.frame.frame.intoForce hs.endScan.frame.frame)
            · refine .frame (.frame ?_)
              refine .frame (.frame ?_)
              refine .pageRequest (.takeBanks ?_)
              exact .ite hs.endScan.frame.frame.intoForce hs.endScan.frame.frame
          · refine .ite ?_ ?_
            · refine .frame (.frame ?_)
              refine .frame (.frame ?_)
              refine .frame (.pageRequest ?_)
              exact .takeBanks (.ite hs.endScan.frame.frame.intoForce hs.endScan.frame.frame)
            · refine .frame (.frame ?_)
              refine .frame (.frame ?_)
              refine .pageRequest (.takeBanks ?_)
              exact .ite hs.endScan.frame.frame.intoForce hs.endScan.frame.frame
    · intro s a hs
      exact hs.streamBoundary
  · refine .startPicture (.settleUnits ?_)
    refine .frame (.startScan ?_)
    refine .ite ?_ ?_
    · refine .startCapture (.ite ?_ ?_)
      · refine .endCapture (.ite ?_ ?_)
        · refine .frame (.frame ?_)
          refine .frame (.frame ?_)
          refine .frame (.pageRequest ?_)
          exact .takeBanks (.ite hs.endScan.frame.frame.intoForce hs.endScan.frame.frame)
        · refine .frame (.frame ?_)
          refine .frame (.frame ?_)
          refine .pageRequest (.takeBanks ?_)
          exact .ite hs.endScan.frame.frame.intoForce hs.endScan.frame.frame
      · refine .ite ?_ ?_
        · refine .frame (.frame ?_)
          refine .frame (.frame ?_)
          refine .frame (.pageRequest ?_)
          exact .takeBanks (.ite hs.endScan.frame.frame.intoForce hs.endScan.frame.frame)
        · refine .frame (.frame ?_)
          refine .frame (.frame ?_)
          refine .pageRequest (.takeBanks ?_)
          exact .ite hs.endScan.frame.frame.intoForce hs.endScan.frame.frame
    · refine .ite ?_ ?_
      · refine .endCapture (.ite ?_ ?_)
        · refine .frame (.frame ?_)
          refine .frame (.frame ?_)
          refine .frame (.pageRequest ?_)
          exact .takeBanks (.ite hs.endScan.frame.frame.intoForce hs.endScan.frame.frame)
        · refine .frame (.frame ?_)
          refine .frame (.frame ?_)
          refine .pageRequest (.takeBanks ?_)
          exact .ite hs.endScan.frame.frame.intoForce hs.endScan.frame.frame
      · refine .ite ?_ ?_
        · refine .frame (.frame ?_)
          refine .frame (.frame ?_)
          refine .frame (.pageRequest ?_)
          exact .takeBanks (.ite hs.endScan.frame.frame.intoForce hs.endScan.frame.frame)
        · refine .frame (.frame ?_)
          refine .frame (.frame ?_)
          refine .pageRequest (.takeBanks ?_)
          exact .ite hs.endScan.frame.frame.intoForce hs.endScan.frame.frame

theorem execFramePeriodStart_canonical {s : State} (hs : s.canonical) {err : Int} : Answer.canonical (execFramePeriodStart err s) := by
  simp only [execFramePeriodStart]
  refine .next (.ite hs ?_)
  split
  · exact hs.startPeriod
  · exact .ite hs.endClearing hs

theorem State.canonical.pageCheck {s : State} (hs : s.canonical) {p : Plan} : (s.pageCheck p).1.canonical := by
  simp only [State.pageCheck]
  refine .frame (.ite ?_ ?_)
  · exact .frame (.ite hs hs.report.frame)
  · exact .ite hs hs.report.frame

theorem State.canonical.settleChecks {s : State} (hs : s.canonical) {page : Page} {sent pageOk codeOk aliveOk : Bool} : (s.settleChecks
    page sent pageOk codeOk aliveOk).canonical := by
  simp only [State.settleChecks]
  refine .ite ?_ ?_
  · refine .ite ?_ ?_
    · refine .protItem (.frame ?_)
      refine .frame (.ite ?_ ?_)
      · refine .endCapture (.protItem ?_)
        refine .report (.frame ?_)
        refine .ite ?_ ?_
        · refine .frame (.frame ?_)
          refine .ite (.ite hs hs.report.frame) (.frame ?_)
          exact .report (.ite hs hs.report.frame)
        · refine .frame (.ite (.ite hs hs.report.frame) ?_)
          refine .frame (.report ?_)
          exact .ite hs hs.report.frame
      · refine .ite ?_ ?_
        · refine .frame (.frame ?_)
          refine .ite (.ite hs hs.report.frame) (.frame ?_)
          exact .report (.ite hs hs.report.frame)
        · refine .frame (.ite (.ite hs hs.report.frame) ?_)
          refine .frame (.report ?_)
          exact .ite hs hs.report.frame
    · refine .frame (.ite ?_ ?_)
      · refine .endCapture (.protItem ?_)
        refine .report (.frame ?_)
        refine .ite ?_ ?_
        · refine .frame (.frame ?_)
          refine .ite (.ite hs hs.report.frame) (.frame ?_)
          exact .report (.ite hs hs.report.frame)
        · refine .frame (.ite (.ite hs hs.report.frame) ?_)
          refine .frame (.report ?_)
          exact .ite hs hs.report.frame
      · refine .ite ?_ ?_
        · refine .frame (.frame ?_)
          refine .ite (.ite hs hs.report.frame) (.frame ?_)
          exact .report (.ite hs hs.report.frame)
        · refine .frame (.ite (.ite hs hs.report.frame) ?_)
          refine .frame (.report ?_)
          exact .ite hs hs.report.frame
  · refine .ite ?_ ?_
    · refine .endCapture (.protItem ?_)
      refine .report (.frame ?_)
      refine .ite ?_ ?_
      · refine .frame (.frame ?_)
        refine .ite (.ite hs hs.report.frame) (.frame ?_)
        exact .report (.ite hs hs.report.frame)
      · refine .frame (.ite (.ite hs hs.report.frame) ?_)
        refine .frame (.report ?_)
        exact .ite hs hs.report.frame
    · refine .ite ?_ ?_
      · refine .frame (.frame ?_)
        refine .ite (.ite hs hs.report.frame) (.frame ?_)
        exact .report (.ite hs hs.report.frame)
      · refine .frame (.ite (.ite hs hs.report.frame) ?_)
        refine .frame (.report ?_)
        exact .ite hs hs.report.frame

theorem execFrameEndChecks_canonical {s : State} (hs : s.canonical) : Answer.canonical (execFrameEndChecks s) := by
  simp only [execFrameEndChecks]
  refine .next (.ite hs ?_)
  split
  · exact hs
  · exact .ite hs.frame (.ite hs.pageCheck.settleChecks (.ite hs.pageCheck hs.pageCheck.settleChecks))

theorem execPackageExpansionDone_canonical {s : State} (hs : s.canonical) : Answer.canonical (execPackageExpansionDone s) := by
  simp only [execPackageExpansionDone]
  refine .next ?_
  split
  · exact hs
  · refine .ite hs (.ite ?_ ?_)
    · refine .swapPackage (.frame ?_)
      refine .expandPages (.frame ?_)
      split
      · exact hs.dropPages
      · exact hs
    · refine .frame (.expandPages ?_)
      refine .frame ?_
      split
      · exact hs.dropPages
      · exact hs

theorem State.canonical.notice {s : State} (hs : s.canonical) {i : Nat} : (s.notice i).canonical := .holdAt (.ite hs.overruled hs)

theorem State.canonical.settlePins {s : State} (hs : s.canonical) {f : Comp → Comp} : (s.settlePins f).canonical := by
  simp only [State.settlePins]
  refine .ite ?_ ?_
  · refine .frame (.ite ?_ ?_)
    · exact hs.frame.foldl fun s a hs => hs.notice
    · refine .pageRequest (hs.frame.foldl fun s a hs => ?_)
      exact hs.notice
  · refine .ite ?_ ?_
    · exact hs.frame.foldl fun s a hs => hs.notice
    · refine .pageRequest (hs.frame.foldl fun s a hs => ?_)
      exact hs.notice

theorem execNoticeInSample_canonical {s : State} (hs : s.canonical) {pins : BitVec 4} : Answer.canonical (execNoticeInSample pins s) :=
  .next hs.settlePins

theorem execNoticeInAsserted_canonical {s : State} (hs : s.canonical) {pin : Fin 4} : Answer.canonical (execNoticeInAsserted pin s) :=
  .next hs.settlePins

theorem execNoticeInDeasserted_canonical {s : State} (hs : s.canonical) {pin : Fin 4} : Answer.canonical (execNoticeInDeasserted pin
    s) := .next hs.settlePins

/-! ### Security -/

theorem State.canonical.rosterInForce {s : State} (hs : s.canonical) {d : List Byte} : (s.rosterInForce d).canonical := hs.frame.rejudgeAll

theorem State.canonical.docEffect {s : State} (hs : s.canonical) {d : List Byte} : (s.docEffect d).canonical := by
  simp only [State.docEffect]
  split
  · exact hs.frame.rejudgeAll
  · exact hs.frame.rejudgeAll
  · exact hs.rosterInForce.storeDoc
  · exact hs.frame.storeDoc
  · exact hs.frame
  · exact hs.post41
  · exact hs.frame
  · exact hs

theorem State.canonical.docRefused {s : State} (hs : s.canonical) {kind sub : Nat} {id : BitVec 16} {stream : Option (Fin 16)} :
    (s.docRefused kind sub id stream).canonical := by
  simp only [State.docRefused]
  refine .ite ?_ ?_
  · refine .report ?_
    split
    · exact hs.frame
    · exact hs
  · exact hs.report

theorem State.canonical.document {s : State} (hs : s.canonical) {d : List Byte} {id : BitVec 16} {stream : Option (Fin 16)} {vddFuse :
    Bool} : (s.document d id stream vddFuse).canonical := by
  simp only [State.document]
  refine .ite hs.docRefused (.ite hs ?_)
  split
  · exact hs.docRefused
  · refine .ite hs.docRefused (.ite hs.docRefused ?_)
    split
    · exact .docRefused (.ite hs.report hs)
    · exact .ite hs.docEffect hs.docEffect.frame

theorem State.canonical.fragment {s : State} (hs : s.canonical) {b : List Byte} {stream : Option (Fin 16)} {vddFuse : Bool} :
    (s.fragment b stream vddFuse).canonical := by
  simp only [State.fragment]
  refine .ite hs.frame.docRefused (.ite ?_ ?_)
  · refine .frame (.ite hs ?_)
    split
    · exact hs.frame.docRefused
    · exact hs
  · refine .ite ?_ ?_
    · refine .document (.frame ?_)
      refine .ite hs ?_
      split
      · exact hs.frame.docRefused
      · exact hs
    · refine .docRefused (.frame ?_)
      refine .ite hs ?_
      split
      · exact hs.frame.docRefused
      · exact hs

theorem execDocumentFragment_canonical {s : State} (hs : s.canonical) {vddFuse : Bool} : Answer.canonical (execDocumentFragment vddFuse
    s) := by
  simp only [execDocumentFragment]
  split
  · exact .next hs
  · exact .ite (.next hs) (.next hs.frame.fragment)

theorem execDocumentReassemblyTimeout_canonical {s : State} (hs : s.canonical) {id : BitVec 16} : Answer.canonical
    (execDocumentReassemblyTimeout id s) := by
  simp only [execDocumentReassemblyTimeout]
  split
  · exact .next hs
  · exact .next hs.frame.docRefused

theorem State.canonical.grantItem {s : State} (hs : s.canonical) {b : List Byte} {stream : Option (Fin 16)} : (s.grantItem b
    stream).canonical := by
  simp only [State.grantItem]
  split
  · refine .report ?_
    split
    · exact hs.frame
    · exact hs
  · exact hs.frame

theorem execKeyGrant_canonical {s : State} (hs : s.canonical) : Answer.canonical (execKeyGrant s) := by
  simp only [execKeyGrant]
  split
  · exact .next hs
  · exact .ite (.next hs) (.next hs.frame.grantItem)

/-! ### Boot -/

theorem State.canonical.bootStage {s : State} (hs : s.canonical) {n : BitVec 8} {k : State → State}
    (hk : ∀ u, u.canonical → (k u).canonical) : (s.bootStage n k).canonical :=
  .ite hs (hk _ hs.frame)

theorem State.canonical.sramFails {s : State} (hs : s.canonical) {f : SramFail} : (s.sramFails f).canonical := by
  simp only [State.sramFails]
  refine .ite ?_ ?_
  · exact .report (.ite hs.modUnit.frame hs.modUnit)
  · exact hs.report.frame

theorem State.canonical.fwRecord {s : State} (hs : s.canonical) {c : FwCopy} {copy : Nat} : (s.fwRecord c copy).canonical := by
  simp only [State.fwRecord]
  split
  · exact hs.report
  · exact .ite hs hs.report

theorem State.canonical.bootFirmware {s : State} (hs : s.canonical) {e : BootEnv} : (s.bootFirmware e).1.canonical := by
  simp only [State.bootFirmware]
  split
  · exact .ite_fst (.mk_fst hs.fwRecord.fwRecord.frame.frame) (.mk_fst hs.fwRecord.fwRecord.frame.frame)
  · exact .mk_fst hs.fwRecord.fwRecord.frame.frame
  · exact .mk_fst hs.fwRecord.fwRecord.frame.frame
  · exact .mk_fst hs.fwRecord.fwRecord.frame

theorem State.canonical.copyRecords {s : State} (hs : s.canonical) : (s.copyRecords).canonical := hs.foldl fun _ _ hs => .ite hs hs.report

theorem State.canonical.bootTrims {s : State} (hs : s.canonical) : s.bootTrims.canonical := by
  have hc : s.copyRecords.canonical := hs.copyRecords
  unfold State.bootTrims
  generalize s.copyRecords = u at hc ⊢
  dsimp only
  cases u.flash.newest 2 with
  | none => exact hc.report.frame
  | some x => exact hc.frame

theorem queueStores_sorted (cap : Nat) : (queueStores cap).Pairwise fun x y => x.1 < y.1 := by
  have hr : ∀ n, (List.range n).Pairwise (· < ·) := fun n => List.pairwise_lt_range
  simp only [queueStores, List.pairwise_append, List.pairwise_map]
  refine ⟨(hr 16).imp (by omega), (hr 8).imp (by omega), ?_⟩
  simp only [List.mem_map, List.mem_range]
  rintro _ ⟨i, hi, rfl⟩ _ ⟨j, _, rfl⟩
  dsimp only
  omega

/-- Memory and the buffer table begin anew (R317). -/
theorem State.canonical.renewDram {s : State} (hs : s.canonical) (cap free : Nat) (d : Dram) :
    State.canonical { s with mem := [], bufs := { table := queueStores cap }, free := free, dram := d } := by
  obtain ⟨_, hscratch, hflash, hbuf, hmsix, _⟩ := hs
  exact ⟨rfl, hscratch, hflash, hbuf, hmsix, queueStores_sorted cap⟩

theorem State.canonical.bootDram {s : State} (hs : s.canonical) {e : BootEnv} : (s.bootDram e).canonical := by
  simp only [State.bootDram]
  refine .ite hs.report.frame ?_
  split
  · exact hs.report.frame
  · next r _ =>
      have hr : (if r < s.trim.boardBoot.rate then s.report 3337 32 (s.trim.boardBoot.rate * 65536 + r) else s).canonical :=
        .ite hs.report hs
      exact hr.renewDram _ _ _

theorem State.canonical.bootDocs {s : State} (hs : s.canonical) : (s.bootDocs).canonical := by
  simp only [State.bootDocs]
  split
  · refine .ite ?_ ?_
    · refine .ite ?_ ?_
      · split
        · exact .ite hs.rosterInForce hs
        · exact hs
      · refine .frame (.expandPages ?_)
        split
        · exact .ite hs.rosterInForce hs
        · exact hs
    · split
      · exact .ite hs.rosterInForce hs
      · exact hs
  · split
    · exact .ite hs.rosterInForce hs
    · exact hs

theorem State.canonical.bootLife {s : State} (hs : s.canonical) : (s.bootLife).canonical := by
  simp only [State.bootLife]
  refine .ite hs ?_
  split
  · exact hs.frame
  · exact hs

theorem State.canonical.bootSecurity {s : State} (hs : s.canonical) {e : BootEnv} : (s.bootSecurity e).canonical :=
  .bootLife (.bootDocs (.ite hs.frame.frame.report hs.frame.frame))

theorem State.canonical.putBuffer {s : State} (hs : s.canonical) {h : Nat} {b : Buf} {d : List Byte} : (s.putBuffer h b d).canonical :=
  (hs.setMem (Memory.writeN_wf _ _ _ hs.wf)).putBuf

theorem Bufs.takeHandle_table (b : Bufs) : b.takeHandle.table = b.table := by
  simp only [Bufs.takeHandle]; split <;> rfl

theorem State.canonical.takeHandle {s : State} (hs : s.canonical) : State.canonical { s with bufs := s.bufs.takeHandle } :=
  hs.setBufs (by rw [Bufs.takeHandle_table]; exact hs.table)

/-- The place that DRAM has for the start data is generalized before its two cases, so that nothing evaluates the allocator. -/
theorem State.canonical.startProgram {s : State} (hs : s.canonical) {i : Nat} : (s.startProgram i).canonical := by
  suffices hf : ∀ f, f = State.startProgram → (f s i).canonical from hf _ rfl
  intro f e
  delta State.startProgram at e
  subst e
  refine .ite hs (.ite hs.report (.ite hs.report (.ite hs.report (.ite hs.report (.ite hs.putBuffer.pushItem ?_)))))
  generalize State.place _ _ _ = o
  generalize Bufs.freeHandle _ = k
  obtain _ | p := o
  · exact hs.report
  obtain _ | h := k
  · exact hs.report
  exact hs.takeHandle.putBuffer.putBuffer.pushItem

theorem State.canonical.bootPrograms {s : State} (hs : s.canonical) : (s.bootPrograms).canonical := by
  simp only [State.bootPrograms]
  refine .foldl ?_ ?_
  · exact .ite hs.report hs
  · intro s a hs
    exact hs.startProgram

theorem State.canonical.advanceSvn {s : State} (hs : s.canonical) {advance vddFuse : Bool} : (s.advanceSvn advance
    vddFuse).canonical := .ite hs (.ite hs.frame.report hs.report)

theorem State.canonical.coldBoot {s : State} (hs : s.canonical) {e : BootEnv} : (s.coldBoot e).canonical := by
  simp only [State.coldBoot]
  refine .ite hs.frame.report.frame (.ite hs.frame.frame ?_)
  refine .bootStage ?_ ?_
  · refine .bootStage ?_ ?_
    · refine .bootStage ?_ ?_
      · refine .bootStage ?_ ?_
        · refine .bootStage ?_ ?_
          · refine .ite_fst ?_ ?_
            · refine .mk_fst (hs.frame.frame.bootStage fun s hs => ?_)
              exact hs.foldl fun s a hs => hs.sramFails
            · refine .bootFirmware (.frame ?_)
              exact hs.frame.frame.bootStage fun s hs => hs.foldl fun s a hs => hs.sramFails
          · intro s hs
            exact hs.bootTrims
        · intro s hs
          exact hs.bootDram
      · intro s hs
        exact hs.bootSecurity
    · intro s hs
      exact hs.bootPrograms
  · intro s hs
    exact hs.advanceSvn

theorem execColdBoot_canonical {s : State} (hs : s.canonical) {e : BootEnv} : Answer.canonical (execColdBoot e s) :=
  .next (.ite hs.coldBoot hs)

theorem execTripRestart_canonical {s : State} (hs : s.canonical) {e : BootEnv} {seconds : BitVec 32} : Answer.canonical (execTripRestart
    e seconds s) := by
  simp only [execTripRestart]
  refine .ite (.next hs) (.next ?_)
  refine .coldBoot (.frame ?_)
  refine .report (.report ?_)
  exact .ite hs.frame hs.frame.frame.frame

/-! ### Buffers -/

theorem execLdh_canonical {s : State} (hs : s.canonical) {t : Tid} {w : IWord} : Answer.canonical (execLdh t w s) := by
  simp only [execLdh]
  refine .next (hs.issue fun s hs => ?_)
  refine hs.orFault (.bind fun b _ => ?_)
  refine .bind fun _ _ => .ok (hs.startUnit fun s hs => ?_)
  split
  · exact hs.readBuf.toUnit
  · exact hs.readBuf.toUnit

theorem execSth_canonical {s : State} (hs : s.canonical) {t : Tid} {w : IWord} : Answer.canonical (execSth t w s) := by
  simp only [execSth]
  refine .next (hs.issue fun s hs => ?_)
  refine hs.orFault (.bind fun b _ => ?_)
  refine .bind fun _ _ => .bind fun _ _ => .ok (hs.startUnit fun s hs => ?_)
  exact hs.writeBuf.toUnit

theorem State.canonical.allocate {s : State} (hs : s.canonical) {owner : Tid} {len : Nat} {isSealed shared : Bool} :
    (s.allocate owner len isSealed shared).1.canonical := by
  simp only [State.allocate]
  refine .ite_fst hs ?_
  split
  · exact hs
  · split
    · exact hs
    · exact .mk_fst hs.takeHandle.putBuf

theorem execBalloc_canonical {s : State} (hs : s.canonical) {t : Tid} {w : IWord} : Answer.canonical (execBalloc t w s) := by
  simp only [execBalloc]
  refine .next (hs.issue fun s hs => ?_)
  refine hs.startUnit fun s hs => ?_
  split
  · next e => exact (hs.allocate.of_fst e).toUnit
  · next e => exact (hs.allocate.of_fst e).toUnit

theorem execBfree_canonical {s : State} (hs : s.canonical) {t : Tid} {w : IWord} : Answer.canonical (execBfree t w s) := by
  simp only [execBfree]
  refine .next (hs.issue fun s hs => ?_)
  refine hs.orFault (.bind fun b _ => ?_)
  split
  · refine .ok (hs.startUnit fun s hs => ?_)
    exact hs.toUnit
  · refine .bind fun _ _ => .ok (hs.startUnit fun s hs => ?_)
    exact .ite hs.toUnit (.ite hs.release.toUnit hs.putBuf.toUnit)

theorem execBufferRelease_canonical {s : State} (hs : s.canonical) {h : Handle} : Answer.canonical (execBufferRelease h s) := by
  simp only [execBufferRelease]
  split
  · exact .ite (.next hs.release) (.next hs)
  · exact .next hs

theorem execGranuleZeroingDone_canonical {s : State} (hs : s.canonical) {g : BitVec 18} {ue : Bool} : Answer.canonical
    (execGranuleZeroingDone g ue s) := by
  simp only [execGranuleZeroingDone]
  refine .ite (.next hs) (.ite (.next hs.loseEpoch) ?_)
  refine .ite (.next hs.frameBufs.report) (.ite (.next hs) ?_)
  exact .next hs.endZeroing.frame

theorem State.canonical.infoBlocks {s : State} (hs : s.canonical) {h blk : Nat} {b : Buf} {clr : Bool} {d : List Byte} {u : State}
    (e : s.infoBlocks h b blk clr = some (d, u)) : u.canonical := by
  simp only [State.infoBlocks] at e
  split at e
  · split at e
    · cases e
    · cases e
      exact .ite hs.frame hs
  · split at e
    · split at e
      · cases e; exact hs
      · cases e
        exact .ite hs.frame hs
    · cases e; exact hs

theorem execBinfo_canonical {s : State} (hs : s.canonical) {t : Tid} {w : IWord} : Answer.canonical (execBinfo t w s) := by
  simp only [execBinfo]
  refine .next (hs.issue fun s hs => ?_)
  refine hs.orFault (.bind fun b _ => ?_)
  split
  · refine .ok (hs.startUnit fun s hs => ?_)
    exact hs.toUnit
  · refine .ite (.bind fun _ _ => ?_) ?_
    all_goals
      refine .bind fun _ _ => .ite (.bind fun _ _ => ?_) ?_
      all_goals
        refine .ok (hs.startUnit fun s hs => ?_)
        split
        · exact hs.toUnit
        · next e =>
            have hu := hs.infoBlocks e
            exact .toUnit (.ite (hu.modThread_wf fun _ h => Thread.scratchWrite_wf h _ _) hu.writeBuf)

/-- The function is unfolded as a whole, and the place generalized before its two cases, so that nothing evaluates the allocator. -/
theorem State.canonical.moveSealed {s : State} (hs : s.canonical) {h : Nat} {b : Buf} : (s.moveSealed h b).1.canonical := by
  suffices hf : ∀ f, f = State.moveSealed → ∀ u d, f s h b = (u, d) → u.canonical from hf _ rfl _ _ (Prod.eta _).symm
  intro f e u d
  delta State.moveSealed at e
  subst e
  beta_reduce
  generalize s.place true b.len = o
  obtain _ | p := o
  · rintro ⟨⟩; exact hs
  · have hr : (s.readBuf b 0 b.len 14).1.canonical := hs.readBuf
    generalize s.readBuf b 0 b.len 14 = r at hr ⊢
    obtain ⟨v, _ | x⟩ := r
    · rintro ⟨⟩; exact hr
    · rintro ⟨⟩; exact .freeRange (.putBuf (.writeDram hr))

theorem execBseal_canonical {s : State} (hs : s.canonical) {t : Tid} {w : IWord} : Answer.canonical (execBseal t w s) := by
  simp only [execBseal]
  refine .next (hs.issue fun s hs => ?_)
  refine hs.orFault (.bind fun b _ => ?_)
  refine .bind fun _ _ => .ok (hs.startUnit fun s hs => ?_)
  refine .ite ?_ ?_
  · split
    · next e => exact (hs.moveSealed.of_fst e).toUnit
    · next e => exact (hs.moveSealed.of_fst e).toUnit
  · exact hs.putBuf.toUnit

/-! ### Dram -/

theorem execUrgencyRise_canonical {s : State} (hs : s.canonical) {req : Nat} : Answer.canonical (execUrgencyRise req s) := by
  simp only [execUrgencyRise]
  split
  · exact .next hs
  · refine .ite (.next hs) (.next ?_)
    exact .ite hs.frame.frame hs.frame

theorem State.canonical.activate {s : State} (hs : s.canonical) {r : DramReq} : (s.activate r).canonical := by
  simp only [State.activate]
  refine .ite (.ite hs.frame.frame hs.frame) (.ite ?_ ?_)
  · exact .frame (.ite hs.frame.frame hs.frame)
  · refine .ite (.ite hs.frame.frame hs.frame) (.report ?_)
    exact .frame (.ite hs.frame.frame hs.frame)

theorem State.canonical.remember {s : State} (hs : s.canonical) {n : Nat} {c : RetryCmd} : (s.remember n c).canonical := .ite hs.frame hs

theorem State.canonical.issueRefresh {s : State} (hs : s.canonical) {n : Nat} {idle : Bool} : (s.issueRefresh n idle).canonical :=
  hs.frame.remember

theorem State.canonical.issueRfm {s : State} (hs : s.canonical) {n b : Nat} {idle : Bool} : (s.issueRfm n b idle).canonical :=
  hs.frame.remember

theorem State.canonical.grant {s : State} (hs : s.canonical) {n : Nat} {r : DramReq} : (s.grant n r).canonical := by
  simp only [State.grant]
  refine .remember (.ite ?_ ?_)
  · refine .frame (.ite ?_ ?_)
    · exact .frame (.ite hs.frame hs.frame.activate)
    · exact .ite hs.frame hs.frame.activate
  · refine .ite ?_ ?_
    · exact .frame (.ite hs.frame hs.frame.activate)
    · exact .ite hs.frame hs.frame.activate

theorem State.canonical.writeZeros {s : State} (hs : s.canonical) {n : Nat} {r : DramReq} : (s.writeZeros n r).canonical := by
  simp only [State.writeZeros]
  split
  · exact .ite hs.frame.grant.endZeroing hs.frame.grant
  · exact hs.frame.grant

theorem State.canonical.strike {s : State} (hs : s.canonical) {n : Nat} {errs : List (Nat × SymErr)} : (s.strike n errs).canonical :=
  hs.foldl fun _ _ hs => .ite hs hs.frame

theorem State.canonical.idleSlot {s : State} (hs : s.canonical) {n : Nat} {idle : Bool} : (s.idleSlot n idle).canonical := by
  simp only [State.idleSlot]
  refine .ite hs.issueRefresh ?_
  split
  · exact hs.issueRfm
  · refine .ite hs (.ite hs.issueRefresh ?_)
    split
    · exact hs.writeZeros
    · exact hs

theorem execDramCommandSlot_canonical {s : State} (hs : s.canonical) {sub : Fin 16} {errs : SlotErrs} : Answer.canonical
    (execDramCommandSlot sub errs s) := by
  simp only [execDramCommandSlot]
  refine .ite (.next hs) (.ite ?_ ?_)
  · refine .next (.issueRefresh ?_)
    refine .frame (hs.strike.foldl fun s a hs => ?_)
    exact hs.loseEpoch
  · split
    · refine .next (.idleSlot ?_)
      refine .frame (hs.strike.foldl fun s a hs => ?_)
      exact hs.loseEpoch
    · refine .ite ?_ ?_
      · refine .next (.issueRfm ?_)
        refine .frame (hs.strike.foldl fun s a hs => ?_)
        exact hs.loseEpoch
      · refine .ite ?_ ?_
        · refine .next (.issueRefresh ?_)
          refine .frame (hs.strike.foldl fun s a hs => ?_)
          exact hs.loseEpoch
        · split
          · refine .next (.issueRfm ?_)
            refine .frame (hs.strike.foldl fun s a hs => ?_)
            exact hs.loseEpoch
          · refine .next (.grant ?_)
            refine .frame (hs.strike.foldl fun s a hs => ?_)
            exact hs.loseEpoch

theorem execRowIdleClose_canonical {s : State} (hs : s.canonical) {sub : Fin 16} {bank : Fin 32} : Answer.canonical (execRowIdleClose
    sub bank s) := .next hs.frame

theorem execRefreshDue_canonical {s : State} (hs : s.canonical) {sub : Fin 16} : Answer.canonical (execRefreshDue sub s) :=
  .ite (.next hs) (.next hs.frame.frame)

theorem execZqCalibration_canonical {s : State} (hs : s.canonical) : Answer.canonical (execZqCalibration s) := .next (.ite hs.frame hs)

theorem execDqsOscillatorTracking_canonical {s : State} (hs : s.canonical) : Answer.canonical (execDqsOscillatorTracking s) :=
  .next (.ite hs.frame hs)

theorem State.canonical.rfmBefore {s : State} (hs : s.canonical) {n b k : Nat} : (s.rfmBefore n b k).canonical := by
  induction k generalizing s with
  | zero => exact hs
  | succ k ih => exact .ite hs (ih hs.frame)

theorem State.canonical.reissue {s : State} (hs : s.canonical) {n : Nat} {c : RetryCmd} : (s.reissue n c).canonical := by
  simp only [State.reissue]
  split
  · exact hs.frame
  · exact hs.frame
  · refine .ite ?_ ?_
    · exact .frame (.ite hs hs.rfmBefore.activate)
    · exact .ite hs hs.rfmBefore.activate

theorem State.canonical.replay {s : State} (hs : s.canonical) {n : Nat} : (s.replay n).canonical := hs.frame.foldl fun _ _ hs => hs.reissue

theorem State.canonical.drain {s : State} (hs : s.canonical) {r : DramReq} : (s.drain r).canonical := .grant (.ite hs hs.rfmBefore)

theorem State.canonical.sleepDram {s : State} (hs : s.canonical) : (s.sleepDram).canonical := by
  simp only [State.sleepDram]
  refine .frame (.foldl ?_ ?_)
  · exact hs.foldl fun s a hs => .ite hs.drain hs
  · intro s a hs
    refine .ite ?_ ?_
    · exact hs.foldl fun s a hs => hs.issueRefresh
    · exact hs

theorem execDramSelfRefreshEntry_canonical {s : State} (hs : s.canonical) : Answer.canonical (execDramSelfRefreshEntry s) := by
  simp only [execDramSelfRefreshEntry]
  refine .ite (.next hs) ?_
  split
  · exact .next hs.frame
  · exact .next hs.sleepDram
  · exact .next hs

theorem execDramSelfRefreshExit_canonical {s : State} (hs : s.canonical) : Answer.canonical (execDramSelfRefreshExit s) :=
  .ite (.next hs.frame) (.next hs)

/-! ### FrameCache -/

theorem State.canonical.cacheBytes {s : State} (hs : s.canonical) {h off n : Nat} : (s.cacheBytes h off n).1.canonical := by
  simp only [State.cacheBytes]
  split
  · exact .ite_fst hs.readBuf hs
  · exact hs

theorem State.canonical.cacheTile {s : State} (hs : s.canonical) {h w ht t off : Nat} : (s.cacheTile h w ht t off).1.canonical := by
  simp only [State.cacheTile]
  split
  · exact .mk_fst hs.cacheBytes
  · split
    · exact .mk_fst hs.cacheBytes.cacheBytes
    · split
      · exact .mk_fst hs.cacheBytes.cacheBytes
      · exact .mk_fst hs.cacheBytes.cacheBytes

theorem State.canonical.endCapFrame {s : State} (hs : s.canonical) {c : Capture} : (s.endCapFrame c).canonical := by
  simp only [State.endCapFrame]
  split
  · exact hs.writeBuf.cacheBytes.frame.endCapture
  · exact .ite hs.writeBuf.cacheBytes.writeBuf.frame.endCapture hs.writeBuf.cacheBytes.writeBuf.frame

theorem CapRun.tile_canonical {a : CapRun} (ha : a.s.canonical) (len : Nat) (c : Capture) (lines : List (List Nat)) (t : Nat) :
    (CapRun.tile len c lines a t).s.canonical := by
  simp only [CapRun.tile]
  split
  · exact ha
  · have hr : (if c.frames = 0 then (a.s, some none) else
        ((a.s.cacheTile c.buf.toNat c.w c.h t (c.prevDir.getD t 0)).1,
          (a.s.cacheTile c.buf.toNat c.w c.h t (c.prevDir.getD t 0)).2.map some)).1.canonical := .ite_fst ha ha.cacheTile
    split
    · exact hr
    · split
      · exact hr
      · exact hr.writeBuf

theorem CapRun.tiles_canonical {len : Nat} {c : Capture} {lines : List (List Nat)} {l : List Nat} {a : CapRun} (ha : a.s.canonical) :
    (l.foldl (CapRun.tile len c lines) a).s.canonical := by
  induction l generalizing a with
  | nil => exact ha
  | cons t l ih => exact ih (CapRun.tile_canonical ha ..)

theorem State.canonical.captureRow {s : State} (hs : s.canonical) {c : Capture} {th : Nat} {differs : Bool} :
    (s.captureRow c th differs).canonical := by
  simp only [State.captureRow]
  refine .ite hs.frame.endCapture ?_
  split
  · exact .endCapture (.frame (CapRun.tiles_canonical hs))
  · exact .ite (.endCapture (.frame (CapRun.tiles_canonical hs)))
      (.ite (.endCapFrame (.frame (CapRun.tiles_canonical hs))) (.frame (CapRun.tiles_canonical hs)))

theorem execCaptureTileRow_canonical {s : State} (hs : s.canonical) {differs behind : Bool} : Answer.canonical (execCaptureTileRow
    differs behind s) := by
  simp only [execCaptureTileRow]
  refine .next ?_
  split
  · exact hs
  · exact .ite hs (.ite hs.endCapture (.ite hs hs.captureRow))

theorem State.canonical.cacheTiles {s : State} (hs : s.canonical) {p : Plan} {f row : Nat} {ts : List Nat} : (s.cacheTiles p f row
    ts).1.canonical := by
  simp only [State.cacheTiles]
  refine .foldl_fst ?_ ?_
  · exact .mk_fst hs.cacheBytes
  · intro p a hs
    split
    · refine .mk_fst ?_
      split
      · refine .cacheTile ?_
        split
        · exact hs.cacheBytes
        · exact .mk_fst hs
      · refine .mk_fst ?_
        split
        · exact hs.cacheBytes
        · exact .mk_fst hs
    · refine .mk_fst (.frame ?_)
      refine .report ?_
      split
      · refine .cacheTile ?_
        split
        · exact hs.cacheBytes
        · exact .mk_fst hs
      · refine .mk_fst ?_
        split
        · exact hs.cacheBytes
        · exact .mk_fst hs

theorem execCacheTileRowDecode_canonical {s : State} (hs : s.canonical) : Answer.canonical (execCacheTileRowDecode s) := by
  simp only [execCacheTileRowDecode]
  refine .next ?_
  split
  · exact hs
  · exact .ite hs hs.cacheTiles.frame

/-! ### Routing -/

theorem State.canonical.refill {s : State} (hs : s.canonical) {p : Fin 8} {n : Nat} : (s.refill p n).canonical := by
  induction n generalizing s with
  | zero => exact hs
  | succ n ih =>
    unfold State.refill
    split
    · exact .ite (ih (State.canonical.sendOwn hs.frame)) hs
    · exact hs

theorem State.canonical.emit {s : State} (hs : s.canonical) {p : Fin 8} {f : TxFrame} : (s.emit p f).canonical :=
  .ite hs.frame hs.freshValue.frame

theorem State.canonical.emitOwn {s : State} (hs : s.canonical) {p : Fin 8} {x : TxItem} : (s.emitOwn p x).canonical := by
  simp only [State.emitOwn]
  refine .ite ?_ ?_
  · split
    · next e => exact hs.emit.frame.takeItem e
    · exact hs.emit.frame
  · exact hs.emit.frame

theorem execFabricTransmitOpportunity_canonical {s : State} (hs : s.canonical) {p : Fin 8} {room used : Bool} : Answer.canonical
    (execFabricTransmitOpportunity p room used s) := by
  simp only [execFabricTransmitOpportunity]
  refine .next (.ite ?_ ?_)
  · split
    · exact hs.frame.emit
    · exact hs
  · refine .ite hs ?_
    split
    · exact hs.refill.frame.emit
    · exact hs.refill.frame.emit
    · exact hs.refill.frame.emit
    · exact hs.refill.emitOwn
    · exact hs.refill.frame.emit
    · exact hs.refill

theorem execFabricSlotStart_canonical {s : State} (hs : s.canonical) {p : Fin 8} {slot : Fin 256} : Answer.canonical
    (execFabricSlotStart p slot s) := .next (.frame (.ite hs.frame.frame hs))

theorem State.canonical.takeGroup {s : State} (hs : s.canonical) {p : Option (Fin 8)} {src : BitVec 12} {auth : Bool} {b : List Byte} :
    (s.takeGroup p src auth b).canonical := by
  simp only [State.takeGroup]
  refine .ite hs (.ite ?_ ?_)
  · split
    · exact hs.frame
    · exact hs
  · exact .ite hs.report (.ite hs.report hs.frame)

theorem State.canonical.toRx {s : State} (hs : s.canonical) {p : Fin 8} {cls : Bool} {item : List Byte} : (s.toRx p cls
    item).canonical := .ite hs.pushItem hs.pushItem.frame

theorem State.canonical.clsArrives {s : State} (hs : s.canonical) {p : Fin 8} {item : List Byte} : (s.clsArrives p item).canonical :=
  .ite (.ite hs.toSecurity hs) hs.toRx

theorem State.canonical.answerRoster {s : State} (hs : s.canonical) {p : Fin 8} {node : Nat} : (s.answerRoster p node).canonical := by
  simp only [State.answerRoster]
  split
  · exact hs
  · exact hs.freshValue.frame.refill

theorem State.canonical.itemArrives {s : State} (hs : s.canonical) {p : Fin 8} {r : Reasm} : (s.itemArrives p r).canonical := by
  simp only [State.itemArrives]
  split
  · exact hs.toRx
  · exact hs.clsArrives
  · exact .ite hs.takeGroup hs
  · exact hs

theorem State.canonical.reassemble {s : State} (hs : s.canonical) {p : Fin 8} {h : FabHdr} {auth : Bool} {body : List Byte} :
    (s.reassemble p h auth body).canonical := by
  simp only [State.reassemble]
  split
  · exact .ite hs.frame.frame.itemArrives hs.frame.frame
  · exact .ite hs.frame.itemArrives hs.frame
  · exact .ite (.ite hs.frame.itemArrives hs.frame) hs.frame.frame
  · exact hs

theorem State.canonical.route {s : State} (hs : s.canonical) {p : Fin 8} {h : FabHdr} {auth : Bool} {body : List Byte} {rx : Nat} :
    (s.route p h auth body rx).canonical := by
  simp only [State.route]
  refine .ite hs.frame ?_
  split
  · exact .ite hs.comet hs
  · exact hs
  · exact .ite hs hs.answerRoster
  · refine .ite ?_ ?_
    · refine .reassemble (.ite hs.frame ?_)
      exact hs.foldl fun s a hs => hs.frame
    · refine .ite hs.reassemble (.ite hs.frame ?_)
      split
      · exact hs.frame
      · exact hs.frame

theorem execFabricFrameReceive_canonical {s : State} (hs : s.canonical) {p : Fin 8} {f : FabFrame} : Answer.canonical
    (execFabricFrameReceive p f s) := by
  simp only [execFabricFrameReceive]
  refine .next (.ite hs ?_)
  refine .ite hs.frame (.ite hs.frame ?_)
  refine .ite hs.frame (.ite (.ite hs hs.frame) ?_)
  exact .ite hs.frame (.ite hs.frame (.ite hs.frame.frame (.ite hs.frame.frame hs.frame.route)))

theorem execFabricClsMove_canonical {s : State} (hs : s.canonical) {p : Fin 8} : Answer.canonical (execFabricClsMove p s) := by
  simp only [execFabricClsMove]
  refine .next ?_
  split
  · next e =>
      refine .ite hs (.ite (hs.takeItem e) ?_)
      refine .ite ((hs.takeItem e).frame) ?_
      split
      · exact (hs.takeItem e).frame
      · exact .ite ((hs.takeItem e).pushItem) ((hs.takeItem e).frame)
  · exact hs

theorem execFsend_canonical {s : State} (hs : s.canonical) {t : Tid} {w : IWord} : Answer.canonical (execFsend t w s) := by
  simp only [execFsend]
  refine .next (hs.issue fun s hs => ?_)
  refine hs.orFault (.bind fun b _ => ?_)
  refine .bind fun _ _ => .bind fun _ _ => .ok (hs.startUnit fun s hs => ?_)
  split
  · next e => exact (hs.readBuf.of_fst e).fault
  · next e =>
      refine .ite (.ite ((hs.readBuf.of_fst e).toRx.toUnit) ((hs.readBuf.of_fst e).toUnit)) ?_
      split
      · exact (hs.readBuf.of_fst e).toUnit
      · exact .ite ((hs.readBuf.of_fst e).sendOwn.toUnit) ((hs.readBuf.of_fst e).toUnit)

/-! ### Groups -/

theorem execFgroup_canonical {s : State} (hs : s.canonical) {t : Tid} {w : IWord} : Answer.canonical (execFgroup t w s) := by
  simp only [execFgroup]
  refine .next (hs.issueBlock fun s hs => ?_)
  refine hs.startUnit fun s hs => .ite hs.fault (.ite hs.toUnit ?_)
  refine .ite hs.toUnit (.toUnit ?_)
  refine .takeGroup (hs.foldl fun s a hs => ?_)
  exact hs.frame

theorem execFtime_canonical {s : State} (hs : s.canonical) {t : Tid} {w : IWord} : Answer.canonical (execFtime t w s) :=
  .next (hs.issue fun _ hs => hs.modThread fun th => by simp)

theorem State.canonical.groupExec {s : State} (hs : s.canonical) {gop : Nat} {k : GroupCmd → State → State}
    (hk : ∀ c u, u.canonical → (k c u).canonical) : (s.groupExec gop k).canonical := by
  simp only [State.groupExec]
  split
  · exact .ite (hk _ _ hs.frame) hs
  · exact hs

theorem State.canonical.groupGuard {s : State} (hs : s.canonical) {c : GroupCmd} : (s.groupGuard c).canonical := hs.freshValue.groupResult

theorem State.canonical.groupHold {s : State} (hs : s.canonical) {gop : Nat} {r : Resource} {k : GroupCmd → State → State}
    (hk : ∀ c u, u.canonical → (k c u).canonical) : (s.groupHold gop r k).canonical :=
  hs.groupExec fun _ _ hs => hs.groupOrder fun _ hs => hk _ _ hs.holdAt

theorem execGroupCommit_canonical {s : State} (hs : s.canonical) : Answer.canonical (execGroupCommit s) :=
  .next (hs.groupHold fun _ _ hs => .ite hs.groupGuard hs.commit.groupResult)

theorem execGroupPlay_canonical {s : State} (hs : s.canonical) : Answer.canonical (execGroupPlay s) :=
  .next (hs.groupHold fun _ _ hs => hs.playStream.groupResult)

theorem execGroupSeek_canonical {s : State} (hs : s.canonical) : Answer.canonical (execGroupSeek s) := by
  simp only [execGroupSeek]
  refine .next (hs.groupHold fun c s hs => ?_)
  split
  · next e => exact (hs.seekStream.of_fst e).deliver
  · next e => exact hs.seekStream.of_fst e

theorem execGroupPause_canonical {s : State} (hs : s.canonical) : Answer.canonical (execGroupPause s) := by
  simp only [execGroupPause]
  refine .next (hs.groupHold fun c s hs => ?_)
  split
  · next e => exact (hs.pauseStream.of_fst e).deliver
  · next e => exact hs.pauseStream.of_fst e

theorem execGroupLight_canonical {s : State} (hs : s.canonical) : Answer.canonical (execGroupLight s) :=
  .next (hs.groupHold fun _ _ hs => .ite hs.groupGuard hs.frame.groupResult)

theorem execGroupSelf_canonical {s : State} (hs : s.canonical) : Answer.canonical (execGroupSelf s) :=
  .next (hs.groupHold fun _ _ hs => .ite (.ite hs.groupGuard hs.enterSelf) hs.exitSelf)

theorem execGroupSignal_canonical {s : State} (hs : s.canonical) : Answer.canonical (execGroupSignal s) :=
  .next (hs.groupExec fun _ _ hs => hs.eventFor.groupResult)

theorem execGroupRoute_canonical {s : State} (hs : s.canonical) : Answer.canonical (execGroupRoute s) :=
  .next (hs.groupExec fun _ _ hs => hs.frame.groupResult)

theorem execGroupRelease_canonical {s : State} (hs : s.canonical) : Answer.canonical (execGroupRelease s) :=
  .next (hs.groupExec fun _ _ hs => hs.frame.groupResult)

/-! ### HostBus -/

theorem State.canonical.withHost {s : State} (hs : s.canonical) {f : HostIf → HostIf}
    (hb : ∀ x, tabWf 0 x.flashBuf = true → tabWf 0 (f x).flashBuf = true)
    (hx : ∀ x, tabWf 0 x.msix = true → tabWf 0 (f x).msix = true) : (s.withHost f).canonical :=
  hs.setHost (hb _ hs.flashBuf) (hx _ hs.msix)

theorem State.canonical.withHost_same {s : State} (hs : s.canonical) {f : HostIf → HostIf}
    (hf : ∀ x, (f x).flashBuf = x.flashBuf ∧ (f x).msix = x.msix) : (s.withHost f).canonical :=
  hs.withHost (fun x h => (hf x).1 ▸ h) fun x h => (hf x).2 ▸ h

theorem execIntCauseClear_canonical {s : State} (hs : s.canonical) {v : BitVec 64} : Answer.canonical (execIntCauseClear v s) :=
  .next (.ite (hs.withHost_same fun _ => by exact ⟨rfl, rfl⟩) hs)

theorem HostIf.addrWrite_flashBuf (h : HostIf) (i : Nat) (b : Byte) : (h.addrWrite i b).flashBuf = h.flashBuf := by
  simp only [HostIf.addrWrite]

theorem HostIf.addrWrite_msix (h : HostIf) (i : Nat) (b : Byte) : (h.addrWrite i b).msix = h.msix := by
  simp only [HostIf.addrWrite]

theorem HostIf.msixWrite_flashBuf (h : HostIf) (o : Nat) (b : Byte) : (h.msixWrite o b).flashBuf = h.flashBuf := rfl

theorem HostIf.msixWrite_wf {h : HostIf} (hx : tabWf 0 h.msix = true) (o : Nat) (b : Byte) : tabWf 0 (h.msixWrite o b).msix = true :=
  tabSet_wf _ _ _ _ hx

theorem HostIf.drain_flashBuf (h : HostIf) (v : Nat) : (h.drain v).flashBuf = h.flashBuf := by
  simp only [HostIf.drain]; split <;> rfl

theorem HostIf.drain_msix (h : HostIf) (v : Nat) : (h.drain v).msix = h.msix := by
  simp only [HostIf.drain]; split <;> rfl

theorem State.canonical.msixWrite {s : State} (hs : s.canonical) (o v : Nat) (b : Byte) :
    State.canonical { s with host := (s.host.msixWrite o b).drain v } := by
  refine hs.setHost ?_ ?_
  · rw [HostIf.drain_flashBuf, HostIf.msixWrite_flashBuf]
    exact hs.flashBuf
  · rw [HostIf.drain_msix]
    exact HostIf.msixWrite_wf hs.msix o b

theorem State.canonical.addrWrite {s : State} (hs : s.canonical) (i : Nat) (b : Byte) :
    State.canonical { s with host := s.host.addrWrite i b } := by
  refine hs.setHost ?_ ?_
  · rw [HostIf.addrWrite_flashBuf]
    exact hs.flashBuf
  · rw [HostIf.addrWrite_msix]
    exact hs.msix

theorem State.canonical.regByte {s : State} (hs : s.canonical) {o : Nat} {b : Byte} : (s.regByte o b).canonical := by
  unfold State.regByte
  split
  · exact hs.addrWrite _ _
  split
  · exact hs.setHost (tabSet_wf _ _ _ _ hs.flashBuf) hs.msix
  split
  · exact hs.msixWrite _ _ _
  · exact hs

theorem State.canonical.regBytes {s : State} (hs : s.canonical) {o : Nat} {l : List Byte} : (s.regBytes o l).canonical := by
  induction l generalizing s o with
  | nil => exact hs
  | cons b l ih => exact ih hs.regByte

theorem execRegisterWrite_canonical {s : State} (hs : s.canonical) {off : BitVec 16} {data : List Byte} : Answer.canonical
    (execRegisterWrite off data s) := .next (.ite hs.regBytes hs)

theorem State.canonical.countDiscard {s : State} (hs : s.canonical) {pa n : Nat} : (s.countDiscard pa n).canonical := .ite hs hs.frame

theorem State.canonical.bar4Bytes {s : State} (hs : s.canonical) {pa n : Nat} : (s.bar4Bytes pa n).1.canonical := by
  simp only [State.bar4Bytes]
  refine .foldl_fst ?_ ?_
  · exact hs
  · intro p a hs
    exact .ite_fst (.mk_fst hs) (.mk_fst hs.readMarks)

theorem execBar4Read_canonical {s : State} (hs : s.canonical) {addr : BitVec 36} {len : Nat} : Answer.canonical (execBar4Read addr len
    s) :=
  .ite (.next (hs.withHost_same fun _ => by exact ⟨rfl, rfl⟩))
    (.next (hs.countDiscard.bar4Bytes.withHost_same fun _ => by exact ⟨rfl, rfl⟩))

theorem State.canonical.hostWrite {s : State} (hs : s.canonical) {pa : Nat} {data : List Byte} {lo up : Nat} : (s.hostWrite pa data lo
    up).canonical := .ite hs.writeDram (hs.foldl fun _ _ hs => .ite hs.writeDram (.ite hs.freshValue.writeDram hs.freshValue))

theorem foldl_tabPut_sorted (g : Nat × Buf → Buf) (l : List (Nat × Buf)) (t : List (Nat × Buf))
    (ht : t.Pairwise fun x y => x.1 < y.1) : (l.foldl (fun t e => tabPut t e.1 (g e)) t).Pairwise fun x y => x.1 < y.1 := by
  induction l generalizing t with
  | nil => exact ht
  | cons e l ih => exact ih _ (tabPut_sorted _ _ _ ht)

theorem State.canonical.putBufs {s : State} (hs : s.canonical) {g : Nat × Buf → Buf} {l : List (Nat × Buf)} :
    State.canonical { s with bufs := { s.bufs with table := l.foldl (fun t e => tabPut t e.1 (g e)) s.bufs.table } } :=
  hs.setBufs (foldl_tabPut_sorted g l _ hs.table)

theorem State.canonical.bar4Put {s : State} (hs : s.canonical) {pa : Nat} {data : List Byte} : (s.bar4Put pa data).canonical := by
  simp only [State.bar4Put]
  refine .putBufs (.ite (.hostWrite ?_) ?_)
  all_goals exact State.canonical.foldl_fst (.mk_fst (.ite hs hs.frame)) fun p r hp => .mk_fst (.ite hp.hostWrite hp)

theorem execBar4Write_canonical {s : State} (hs : s.canonical) {addr : BitVec 36} {data : List Byte} : Answer.canonical (execBar4Write
    addr data s) := .ite (.next hs) (.next (hs.countDiscard.foldl fun _ _ hs => .ite hs.bar4Put hs))

theorem State.canonical.dropPart {s : State} (hs : s.canonical) {q : Fin 64} : (s.dropPart q).canonical := .frame (.ite hs.countAbort hs)

theorem State.canonical.endpointReset {s : State} (hs : s.canonical) : s.endpointReset.canonical := by
  have hd : (((List.finRange 64).filter fun q => s.queues[q].hostMid).foldl State.dropPart s).canonical :=
    hs.foldl fun s a hs => hs.dropPart
  refine .report (State.canonical.withHost hd ?_ ?_)
  · exact fun _ h => h
  · exact fun _ _ => msixReset_wf

theorem execPerstN_canonical {s : State} (hs : s.canonical) : Answer.canonical (execPerstN s) :=
  .ite (.next hs.endpointReset.frame) (.next hs)

theorem execFunctionLevelReset_canonical {s : State} (hs : s.canonical) : Answer.canonical (execFunctionLevelReset s) :=
  .next (.ite hs.endpointReset hs)

theorem execPcieLinkChange_canonical {s : State} (hs : s.canonical) {up : Bool} : Answer.canonical (execPcieLinkChange up s) :=
  .next (.ite hs.frame hs)

/-! ### Pixels -/

theorem State.canonical.readMapLine {s : State} (hs : s.canonical) {p : Plan} {b : Buf} {ue : List (Nat × Nat)} {lo hi py : Nat} :
    (s.readMapLine p b ue lo hi py).1.canonical := hs.readMarked.foldl fun _ _ hs => hs.report.frame

theorem State.canonical.readMap {s : State} (hs : s.canonical) {p : Plan} {ue : List (Nat × Nat)} {lo hi h : Nat} : (s.readMap p ue lo
    hi h).1.canonical := by
  simp only [State.readMap]
  refine .ite_fst hs ?_
  split
  · exact hs
  · refine .foldl_fst ?_ ?_
    · exact hs
    · intro p a hs
      exact .mk_fst hs.readMapLine

theorem State.canonical.readPage {s : State} (hs : s.canonical) {p : Plan} {ue : List Nat} {lo hi h : Nat} : (s.readPage p ue lo hi
    h).1.canonical := by
  simp only [State.readPage]
  split
  · refine .mk_fst ?_
    split
    · exact hs.readMarked
    · exact hs
  · exact hs

theorem State.canonical.bandLosses {s : State} (hs : s.canonical) {p : Plan} {ue : PixelUe} {page : List Nat} {lo hi h : Nat} :
    (s.bandLosses p ue page lo hi h).canonical := by
  simp only [State.bandLosses]
  refine .foldl ?_ ?_
  · exact hs.foldl fun s a hs => hs.report.frame
  · intro s a hs
    exact hs.report.frame

theorem State.canonical.composeBand {s : State} (hs : s.canonical) {gv : Gov} {ue : PixelUe} {ls : List Nat} {gal lo hi h : Nat} :
    (s.composeBand gv ue ls gal lo hi h).canonical := by
  simp only [State.composeBand]
  refine .frame (.ite ?_ ?_)
  · refine .frame (hs.readMap.readPage.bandLosses.foldl fun s a hs => ?_)
    exact hs.report.frame
  · refine .frame (.frame ?_)
    exact hs.readMap.readPage.bandLosses.foldl fun s a hs => hs.report.frame

theorem execGalleryRowStart_canonical {s : State} (hs : s.canonical) {gallery : Fin 16} {ue : PixelUe} : Answer.canonical
    (execGalleryRowStart gallery ue s) := by
  simp only [execGalleryRowStart]
  refine .next ?_
  split
  · exact hs
  · split
    · exact hs
    · refine .ite hs (.ite hs.readGfxRow ?_)
      refine .frame (.composeBand ?_)
      refine .foldl ?_ ?_
      · exact .frame (.ite hs.readGfxRow.readGfxRow hs.readGfxRow)
      · intro s a hs
        exact .ite hs.ringLost hs

theorem State.canonical.releaseLine {s : State} (hs : s.canonical) {p : Plan} {py : Nat} : (s.releaseLine p py).canonical := by
  simp only [State.releaseLine]
  refine .ite ?_ ?_
  · exact .writeBuf (.ite hs.frame hs)
  · exact .ite hs.frame hs

theorem execWeaveRowRelease_canonical {s : State} (hs : s.canonical) : Answer.canonical (execWeaveRowRelease s) := by
  simp only [execWeaveRowRelease]
  refine .next ?_
  split
  · exact hs
  · refine .ite hs (.ite (.ite hs hs.readGfxRow) ?_)
    refine .frame (.foldl ?_ ?_)
    · refine .foldl ?_ ?_
      · exact .ite hs hs.readGfxRow
      · intro s a hs
        exact hs.composeBand
    · intro s a hs
      exact hs.releaseLine

/-! ### Service -/

theorem execSvcRemove_canonical {s : State} (hs : s.canonical) {t : Tid} {w : IWord} : Answer.canonical (execSvcRemove t w s) := by
  simp only [execSvcRemove]
  refine .next (hs.issue fun s hs => ?_)
  split
  · exact hs.startUnit fun s hs => hs.toUnit
  · refine hs.startUnit fun s hs => .ite hs.fault (hs.hostOrder fun s hs => ?_)
    refine .settleNow (.modUnit ?_)
    refine .setUnit (.toUnit ?_)
    exact .ite hs.loseUnit hs

theorem State.canonical.startReturn {s : State} (hs : s.canonical) {u : UnitName} : (s.startReturn u).canonical := by
  simp only [State.startReturn]
  refine .ite hs.frame (.ite ?_ ?_)
  · exact hs.foldl fun s a hs => .ite hs.frame hs
  · exact hs.frame.setPort

theorem execSvcReturn_canonical {s : State} (hs : s.canonical) {t : Tid} {w : IWord} : Answer.canonical (execSvcReturn t w s) := by
  simp only [execSvcReturn]
  refine .next (hs.issue fun s hs => ?_)
  split
  · exact hs.startUnit fun s hs => hs.toUnit
  · refine hs.startUnit fun s hs => .ite hs.fault (hs.hostOrder fun s hs => ?_)
    exact hs.toUnit.setUnit.startReturn.settleNow

theorem execSvcState_canonical {s : State} (hs : s.canonical) {t : Tid} {w : IWord} : Answer.canonical (execSvcState t w s) := by
  simp only [execSvcState]
  refine .next (hs.issue fun s hs => ?_)
  split
  · exact hs.startUnit fun s hs => hs.toUnit
  · exact hs.startUnit fun s hs => hs.toUnit

theorem State.canonical.bistJob {s : State} (hs : s.canonical) {u : Option UnitName} {mem : Bool} {run : BistRun} {who : Deliver} :
    (s.bistJob u mem run who).1.canonical := by
  simp only [State.bistJob]
  split
  · exact hs
  · exact .ite_fst hs (.ite_fst (.mk_fst hs.modUnit) (.mk_fst hs.setUnit.modUnit))

theorem execBist_canonical {s : State} (hs : s.canonical) {t : Tid} {w : IWord} {run : BistRun} : Answer.canonical (execBist t w run
    s) := by
  simp only [execBist]
  refine .next (hs.issue fun s hs => ?_)
  refine .ite ?_ ?_
  · refine .ite hs.hold (.ite hs.fault ?_)
    exact hs.hostOrder fun s hs => hs.startAsync fun n s hs => hs.bistJob
  · refine hs.startUnit fun s hs => .ite hs.fault (hs.hostOrder fun s hs => ?_)
    split
    · next e => exact (hs.bistJob.of_fst e).toUnit
    · next e => exact (hs.bistJob.of_fst e).toUnit

theorem State.canonical.endTest {s : State} (hs : s.canonical) {u : UnitName} : (s.endTest u).canonical := by
  simp only [State.endTest]
  split
  · exact hs
  · split
    · exact hs.modUnit.setUnit.modUnit.deliver
    · exact hs.modUnit.setUnit.modUnit.report.deliver

theorem State.canonical.endTestsFor {s : State} (hs : s.canonical) {who : Deliver} : (s.endTestsFor who).canonical := by
  simp only [State.endTestsFor]
  refine hs.foldl fun s a hs => ?_
  split
  · exact .ite hs.endTest hs
  · exact hs

theorem execUnitInstructionCompletion_canonical {s : State} (hs : s.canonical) {t : Tid} :
    Answer.canonical (execUnitInstructionCompletion t s) := by
  simp only [execUnitInstructionCompletion]
  have hu : (if s.sequencing then s.endTestsFor (.thread t) else s).canonical := .ite hs.endTestsFor hs
  split
  · refine .ite ?_ (.next hu)
    split
    · exact .next hu.faultAt
    · refine .next (State.canonical.modThread_wf hu.frame fun th h => ?_)
      have written : ∀ d : Done, tabWf 0 (match d.scratch with | some (a, b) => th.scratchWrite a b | none => th).scratch = true := by
        intro d
        split
        · exact Thread.scratchWrite_wf h _ _
        · exact h
      dsimp only
      split
      · rw [Thread.setReg_scratch]
        split
        · rw [Thread.setReg_scratch]; exact written _
        · exact written _
      · split
        · rw [Thread.setReg_scratch]; exact written _
        · exact written _
  · exact .next hu

theorem execAsyncOperationCompletion_canonical {s : State} (hs : s.canonical) {t : Tid} {op : Nat} :
    Answer.canonical (execAsyncOperationCompletion t op s) := by
  simp only [execAsyncOperationCompletion]
  have hu : (if s.sequencing then s.endTestsFor (.async t op) else s).canonical := .ite hs.endTestsFor hs
  have written : ∀ (th : Thread) (c : Prop) [Decidable c] (i : Nat) (v : Reg), tabWf 0 th.scratch = true →
      tabWf 0 (if c then th.setWord i v else th).scratch = true := by
    intro th c _ i v h
    split
    · exact Thread.setWord_wf h _ _
    · exact h
  split
  · exact .next hu
  · split
    · exact .next hu
    · refine .ite (.next hu) ?_
      split
      · refine .next (.ite ?_ (.faultAt ?_))
        · exact State.canonical.modThread_wf hu.frame fun th h => written th _ _ _ h
        · exact State.canonical.modThread_wf hu.frame fun th h => written th _ _ _ h
      · exact .next (State.canonical.modThread_wf hu.frame fun th h => written th _ _ _ h)

/-! ### Release -/

theorem State.canonical.rerun {s : State} (hs : s.canonical) {i : Instr} : Answer.canonical (s.rerun i) := by
  simp only [State.rerun]
  split
  · exact execAset_canonical hs
  · exact execBalloc_canonical hs
  · exact execBfree_canonical hs
  · exact execBinfo_canonical hs
  · exact execBist_canonical hs
  · exact execBlt_canonical hs
  · exact execBseal_canonical hs
  · exact execCrcget_canonical hs
  · exact execCrcput_canonical hs
  · exact execCrcrun_canonical hs
  · exact execCrcset_canonical hs
  · exact execFgroup_canonical hs
  · exact execFsend_canonical hs
  · exact execLdh_canonical hs
  · exact execPclear_canonical hs
  · exact execPlanchk_canonical hs
  · exact execPlancommit_canonical hs
  · exact execPlanslotFree_canonical hs
  · exact execPlanslotLoad_canonical hs
  · exact execPlanslotState_canonical hs
  · exact execPlanslotStatus_canonical hs
  · exact execPlightOff_canonical hs
  · exact execPlightOn_canonical hs
  · exact execPmbx_canonical hs
  · exact execPpowerDown_canonical hs
  · exact execPpowerUp_canonical hs
  · exact execPselfEnter_canonical hs
  · exact execPselfExit_canonical hs
  · exact execPupdate_canonical hs
  · exact execQflush_canonical hs
  · exact execSattach_canonical hs
  · exact execSattachDetach_canonical hs
  · exact execSpause_canonical hs
  · exact execSplay_canonical hs
  · exact execSseek_canonical hs
  · exact execSth_canonical hs
  · exact execSvcLaunch_canonical hs
  · exact execSvcQpost_canonical hs
  · exact execSvcQtake_canonical hs
  · exact execSvcRemove_canonical hs
  · exact execSvcRestart_canonical hs
  · exact execSvcReturn_canonical hs
  · exact execSvcState_canonical hs
  · exact execTgaddr_canonical hs
  · exact execTgset_canonical hs
  · exact execTread_canonical hs
  · exact execTrimapply_canonical hs
  · exact execTrimstage_canonical hs
  · exact .next hs

theorem State.canonical.runJob {s : State} (hs : s.canonical) {t : Tid} {a : Async} {j : Job} : (s.runJob t a j).canonical := by
  simp only [State.runJob]
  split
  · refine .deliver ?_
    split
    · exact (hs.modThread fun _ => by rfl).crcJob
    · exact (hs.modThread fun _ => by rfl).commitJob
    · exact (hs.modThread fun _ => by rfl).bistJob
  · split
    · exact (hs.modThread fun _ => by rfl).crcJob
    · exact (hs.modThread fun _ => by rfl).commitJob
    · exact (hs.modThread fun _ => by rfl).bistJob

theorem execScoreboardRelease_canonical {s : State} (hs : s.canonical) {t : Tid} : Answer.canonical (execScoreboardRelease t s) := by
  simp only [execScoreboardRelease]
  refine .ite (.next hs) ?_
  split
  · exact (hs.modThread fun _ => by rfl).rerun
  · exact .next (.ite hs (hs.modThread fun _ => by rfl))
  · split
    · refine .next ?_
      split
      · exact hs.runJob
      · exact hs
    · exact .next hs

/-! ### SafeState -/

theorem State.canonical.enterSafe {s : State} (hs : s.canonical) {code block info : Nat} : (s.enterSafe code block info).canonical :=
  .ite hs.report hs.report.report.frame.respond.sleepDram.frame

theorem execAlertN_canonical {s : State} (hs : s.canonical) {sub : Fin 16} : Answer.canonical (execAlertN sub s) :=
  .ite (.next hs) (.ite (.next hs.frame.frame.enterSafe) (.next hs.frame.replay.frame.report))

theorem execWatchdogExpiry_canonical {s : State} (hs : s.canonical) {security : Bool} : Answer.canonical (execWatchdogExpiry security
    s) := .next (.ite hs hs.enterSafe)

theorem execInterconnectUe_canonical {s : State} (hs : s.canonical) {link : Fin 5} : Answer.canonical (execInterconnectUe link s) :=
  .next (.ite hs hs.enterSafe)

theorem execKeyWordUe_canonical {s : State} (hs : s.canonical) {block : BitVec 6} {inst : BitVec 8} : Answer.canonical (execKeyWordUe
    block inst s) := .next (.ite hs hs.enterSafe)

theorem execTapInstruction_canonical {s : State} (hs : s.canonical) {i : TapInstr} : Answer.canonical (execTapInstruction i s) := by
  simp only [execTapInstruction]
  split
  · exact .next hs
  · exact .next hs
  · exact .next hs
  · exact .next hs
  · exact .ite .refused (.next hs)

/-! ### Thermal -/

theorem State.canonical.sampleSensor {s : State} (hs : s.canonical) {k : Nat} {r : Option Int} : (s.sampleSensor k r).canonical := by
  simp only [State.sampleSensor]
  refine .ite hs ?_
  split
  · exact .ite hs.frame hs.frame.report
  · exact .ite hs.frame (.ite hs.frame hs.frame.report)

theorem State.canonical.crossing {s : State} (hs : s.canonical) {i sensor t : Nat} {up : Bool} : (s.crossing i sensor t
    up).canonical := .ite hs.event.post41.report hs.event.post41.report.frame

theorem State.canonical.sampleThr {s : State} (hs : s.canonical) {i : Nat} : (s.sampleThr i).canonical := by
  simp only [State.sampleThr]
  refine .ite hs ?_
  split
  · exact hs
  · split
    · exact hs.frame
    · exact hs.frame.crossing

theorem State.canonical.levelVector {s : State} (hs : s.canonical) {old : List Nat} : (s.levelVector old).canonical := .ite hs hs.raise

theorem State.canonical.sampleCharge {s : State} (hs : s.canonical) {first : Bool} : (s.sampleCharge first).canonical := by
  simp only [State.sampleCharge]
  refine .ite hs.frame ?_
  split
  · exact hs
  · refine .ite hs.frame ?_
    exact .ite (.ite hs.frame (.ite hs.frame (.ite hs.frame.report hs.frame))) (.ite hs.frame (.ite hs.frame hs.frame))

theorem State.canonical.trip {s : State} (hs : s.canonical) {sensor : Nat} {t : Int} : (s.trip sensor t).canonical :=
  hs.respond.endCapture.bare.frame

theorem State.canonical.sampleTrip {s : State} (hs : s.canonical) : (s.sampleTrip).canonical := by
  simp only [State.sampleTrip]
  split
  · exact .ite hs.trip hs
  · exact .ite hs.frame.trip hs.frame

theorem execSensorSample_canonical {s : State} (hs : s.canonical) {r : List (Option Int)} : Answer.canonical (execSensorSample r s) := by
  simp only [execSensorSample]
  refine .ite ?_ ?_
  · refine .next (hs.foldl fun s a hs => ?_)
    exact hs.sampleSensor
  · refine .ite ?_ ?_
    · refine .next (.sampleTrip ?_)
      refine .frame (.sampleCharge ?_)
      refine .levelVector (.foldl ?_ ?_)
      · refine .frame (hs.foldl fun s a hs => ?_)
        exact hs.sampleSensor
      · intro s a hs
        exact hs.sampleThr
    · refine .next (.frame ?_)
      refine .sampleTrip (.frame ?_)
      refine .sampleCharge (.levelVector ?_)
      refine .foldl ?_ ?_
      · refine .frame (hs.foldl fun s a hs => ?_)
        exact hs.sampleSensor
      · intro s a hs
        exact hs.sampleThr

theorem State.canonical.sampleMr4 {s : State} (hs : s.canonical) {above : Bool} : (s.sampleMr4 above).canonical :=
  .ite hs.frame.frame.freshValue.crossing (.ite hs.frame.frame.freshValue.crossing hs.frame)

theorem execMr4Read_canonical {s : State} (hs : s.canonical) {reports : List Mr4} : Answer.canonical (execMr4Read reports s) := by
  simp only [execMr4Read]
  refine .ite (.next hs) (.next ?_)
  refine .levelVector (.sampleMr4 ?_)
  exact hs.foldl fun s a hs => hs.frame

/-! ### Tick -/

theorem State.canonical.pgdDue {s : State} (hs : s.canonical) : (s.pgdDue).canonical := by
  simp only [State.pgdDue]
  split
  · exact .ite hs.pgdTimeout hs
  · exact hs

theorem State.canonical.fetch {s : State} (hs : s.canonical) {t : Tid} : (s.fetch t).canonical := by
  simp only [State.fetch]
  refine .ite hs ?_
  split
  · exact hs.fault
  · refine .ite hs.fault ?_
    split
    · exact hs.fault
    · exact hs

theorem State.canonical.tick {s : State} (hs : s.canonical) : (s.tick).canonical := by
  simp only [State.tick]
  refine .ite hs.frame.respSteps (.ite hs.frame.respSteps.pgdDue.frame ?_)
  exact hs.frame.respSteps.pgdDue.frame.tgCount.tgCount.foldl fun s a hs => hs.fetch

/-! ### Dispatch -/

theorem exec_canonical {s : State} (hs : s.canonical) {i : Instr} : Answer.canonical (exec i s) := by
  simp only [exec]
  split
  · exact execAdd_canonical hs
  · exact execSub_canonical hs
  · exact execAnd_canonical hs
  · exact execOr_canonical hs
  · exact execXor_canonical hs
  · exact execShl_canonical hs
  · exact execShr_canonical hs
  · exact execMovi_canonical hs
  · exact execCmp_canonical hs
  · exact execBr_canonical hs
  · exact execBrc_canonical hs
  · exact execCall_canonical hs
  · exact execRet_canonical hs
  · exact execLoop_canonical hs
  · exact execHalt_canonical hs
  · exact execHaltCompletion_canonical hs
  · exact execWaitline_canonical hs
  · exact execWaittime_canonical hs
  · exact execWaitevt_canonical hs
  · exact execWaitq_canonical hs
  · exact execWaitSatisfied_canonical hs
  · exact execWaitTimeout_canonical hs
  · exact execLd_canonical hs
  · exact execSt_canonical hs
  · exact execLdh_canonical hs
  · exact execSth_canonical hs
  · exact execUnitInstructionCompletion_canonical hs
  · exact execAsyncOperationCompletion_canonical hs
  · exact execBalloc_canonical hs
  · exact execBfree_canonical hs
  · exact execBufferRelease_canonical hs
  · exact execGranuleZeroingDone_canonical hs
  · exact execBinfo_canonical hs
  · exact execBseal_canonical hs
  · exact execPlanchk_canonical hs
  · exact execPlancommit_canonical hs
  · exact execPlanslotLoad_canonical hs
  · exact execPlanslotFree_canonical hs
  · exact execPlanslotState_canonical hs
  · exact execPlanslotStatus_canonical hs
  · exact execSattach_canonical hs
  · exact execSattachDetach_canonical hs
  · exact execSseek_canonical hs
  · exact execSplay_canonical hs
  · exact execSpause_canonical hs
  · exact execBlt_canonical hs
  · exact execCrcset_canonical hs
  · exact execCrcrun_canonical hs
  · exact execCrcget_canonical hs
  · exact execCrcput_canonical hs
  · exact execFsend_canonical hs
  · exact execFgroup_canonical hs
  · exact execFtime_canonical hs
  · exact execPpowerUp_canonical hs
  · exact execPpowerDown_canonical hs
  · exact execPclear_canonical hs
  · exact execPlightOn_canonical hs
  · exact execPlightOff_canonical hs
  · exact execPselfEnter_canonical hs
  · exact execPselfExit_canonical hs
  · exact execPupdate_canonical hs
  · exact execPmbx_canonical hs
  · exact execQmark_canonical hs
  · exact execQrewind_canonical hs
  · exact execQrelease_canonical hs
  · exact execQflush_canonical hs
  · exact execTgset_canonical hs
  · exact execTgaddr_canonical hs
  · exact execAset_canonical hs
  · exact execTrimstage_canonical hs
  · exact execTrimapply_canonical hs
  · exact execTread_canonical hs
  · exact execSvcRemove_canonical hs
  · exact execSvcReturn_canonical hs
  · exact execSvcState_canonical hs
  · exact execSvcRestart_canonical hs
  · exact execSvcLaunch_canonical hs
  · exact execSvcQpost_canonical hs
  · exact execSvcQtake_canonical hs
  · exact execSvcQsub_canonical hs
  · exact execBist_canonical hs
  · exact execSignal_canonical hs
  · exact execInt_canonical hs
  · exact execThreadLaunch_canonical hs
  · exact execDbRestart_canonical hs
  · exact execDbSignal_canonical hs
  · exact execIntCauseClear_canonical hs
  · exact execFlashRead_canonical hs
  · exact execFlashErase_canonical hs
  · exact execFlashProgram_canonical hs
  · exact execFlashOperationDone_canonical hs
  · exact execRegisterWrite_canonical hs
  · exact execQueueDataWrite_canonical hs
  · exact execQueueEndWrite_canonical hs
  · exact execQueuePop_canonical hs
  · exact execItemBaseWrite_canonical hs
  · exact execQueueStatusClear_canonical hs
  · exact execBar4Read_canonical hs
  · exact execBar4Write_canonical hs
  · exact execPorN_canonical hs
  · exact execSysRstN_canonical hs
  · exact execColdBoot_canonical hs
  · exact execPerstN_canonical hs
  · exact execFunctionLevelReset_canonical hs
  · exact execVddAoUndervoltage_canonical hs
  · exact execPfailResponse_canonical hs
  · exact execPfailNRelease_canonical hs
  · exact execPgdLoss_canonical hs
  · exact execCrackCheck_canonical hs
  · exact execDriverReadback_canonical hs
  · exact execLaneStatPoll_canonical hs
  · exact execHuReady_canonical hs
  · exact execHuReadyClear_canonical hs
  · exact execNoticeInSample_canonical hs
  · exact execNoticeInAsserted_canonical hs
  · exact execNoticeInDeasserted_canonical hs
  · exact execRefInEdge_canonical hs
  · exact execRefInLoss_canonical hs
  · exact execFramePeriodStart_canonical hs
  · exact execTg0LineStart_canonical hs
  · exact execTgFrameStart_canonical hs
  · exact execSelfRefreshEntryPoint_canonical hs
  · exact execScanoutLineFetch_canonical hs
  · exact execFrameEndChecks_canonical hs
  · exact execPackageExpansionDone_canonical hs
  · exact execIngestItem_canonical hs
  · exact execIngestResume_canonical hs
  · exact execFabricClsMove_canonical hs
  · exact execDocumentFragment_canonical hs
  · exact execDocumentReassemblyTimeout_canonical hs
  · exact execKeyGrant_canonical hs
  · exact execDecodeStart_canonical hs
  · exact execDecoderDispatch_canonical hs
  · exact execGroupRegistration_canonical hs
  · exact execDecodePacketDone_canonical hs
  · exact execCullPassStart_canonical hs
  · exact execRingFillLine_canonical hs
  · exact execGalleryRowStart_canonical hs
  · exact execWeaveRowRelease_canonical hs
  · exact execCellFault_canonical hs
  · exact execCaptureTileRow_canonical hs
  · exact execCacheTileRowDecode_canonical hs
  · exact execScoreboardRelease_canonical hs
  · exact execPipelineReadTorn_canonical hs
  · exact execBlitDescriptorStart_canonical hs
  · exact execBlitGateOpen_canonical hs
  · exact execBlitRowComplete_canonical hs
  · exact execBlitComplete_canonical hs
  · exact execDramCommandSlot_canonical hs
  · exact execUrgencyRise_canonical hs
  · exact execRefreshDue_canonical hs
  · exact execMr4Read_canonical hs
  · exact execZqCalibration_canonical hs
  · exact execRowIdleClose_canonical hs
  · exact execAlertN_canonical hs
  · exact execDramSelfRefreshEntry_canonical hs
  · exact execDramSelfRefreshExit_canonical hs
  · exact execFabricTrainingAttempt_canonical hs
  · exact execFabricTrained_canonical hs
  · exact execFabricTrainingTimeout_canonical hs
  · exact execBackoffExpiry_canonical hs
  · exact execFabricBeacon_canonical hs
  · exact execPartnerDetected_canonical hs
  · exact execAuthFrame_canonical hs
  · exact execAuthTimeout_canonical hs
  · exact execFabricLaneLoss_canonical hs
  · exact execFabricRetrainDone_canonical hs
  · exact execFabricFrameReceive_canonical hs
  · exact execFabricTransmitOpportunity_canonical hs
  · exact execFabricSlotStart_canonical hs
  · exact execCometTimer_canonical hs
  · exact execPlanetTimeout_canonical hs
  · exact execGroupCommit_canonical hs
  · exact execGroupPlay_canonical hs
  · exact execGroupSeek_canonical hs
  · exact execGroupPause_canonical hs
  · exact execGroupLight_canonical hs
  · exact execGroupSelf_canonical hs
  · exact execGroupSignal_canonical hs
  · exact execGroupRoute_canonical hs
  · exact execGroupRelease_canonical hs
  · exact execAudioSampleFrame_canonical hs
  · exact execAudioRefEdge_canonical hs
  · exact execAudioRefLoss_canonical hs
  · exact execAes3InputFrame_canonical hs
  · exact execSensorSample_canonical hs
  · exact execTripRestart_canonical hs
  · exact execLifetimeTick_canonical hs
  · exact execLifetimeStore_canonical hs
  · exact execFlashWindowOpen_canonical hs
  · exact execWatchdogExpiry_canonical hs
  · exact execInterconnectUe_canonical hs
  · exact execKeyWordUe_canonical hs
  · exact execPgdChange_canonical hs
  · exact execDqsOscillatorTracking_canonical hs
  · exact execRefusedPortLockLoss_canonical hs
  · exact execPcieLinkChange_canonical hs
  · exact execTapInstruction_canonical hs
  · exact execFlashRecordWriteDone_canonical hs

theorem step_canonical {s : State} (hs : s.canonical) : Answer.canonical (step s) := by
  unfold step
  split
  · exact .next hs.tick
  · exact exec_canonical hs.frame

/-- Settles O4: each operation of the machine keeps the canonical form (the lemmas `State.canonical.…`), hence each command and each
tick, hence a step. -/
theorem stepKeepsCanonicalForm : Obligations.StepKeepsCanonicalForm :=
  fun _ _ hs e => step_canonical hs _ e

/-- Settles O3: no table of the reset state lists an entry, but for the mask bits of the MSI-X table. -/
theorem resetIsCanonical : Obligations.ResetIsCanonical :=
  ⟨State.reset_canonical, fun _ => rfl, fun t i => by simp [State.thread, State.reset, Thread.word, tabGet]⟩

end Sys2Proof.Machine
end

section
/-! O5: registers, scratch words, `LD` and `ST`. -/

namespace Sys2Proof.Machine

theorem vget_vmodN_same {α : Type} [Inhabited α] {n : Nat} (v : Vector α n) (i : Nat) (f : α → α) (hi : i < n) :
    vget (vmodN v i f) i = f v[i] := by
  simp [vget, vmodN, hi]

theorem vget_vmodN_other {α : Type} [Inhabited α] {n : Nat} (v : Vector α n) (i j : Nat) (f : α → α) (h : j ≠ i) :
    vget (vmodN v i f) j = vget v j := by
  unfold vget vmodN
  split
  · split
    · rw [Vector.getElem_set_ne _ _ (Ne.symm h)]
    · rfl
  · rfl

@[simp] theorem Thread.reg_zero (th : Thread) : th.reg 0 = 0 := rfl

@[simp] theorem Thread.setReg_zero (th : Thread) (v : Reg) : th.setReg 0 v = th := rfl

theorem Thread.reg_setReg_same (th : Thread) (r : BitVec 4) (v : Reg) (hr : r ≠ 0) : (th.setReg r v).reg r = v := by
  simp only [Thread.reg, Thread.setReg, hr, if_false]
  exact vget_vmodN_same _ _ _ r.isLt

theorem Thread.reg_setReg_other (th : Thread) (r q : BitVec 4) (v : Reg) (h : q ≠ r) : (th.setReg r v).reg q = th.reg q := by
  have hn : q.toNat ≠ r.toNat := fun e => h (BitVec.eq_of_toNat_eq e)
  by_cases hr : r = 0
  · simp [Thread.setReg, hr]
  · simp only [Thread.reg, Thread.setReg, hr, if_false, vget_vmodN_other _ _ _ _ hn]

theorem Thread.word_setWord_same (th : Thread) (i : Nat) (v : Reg) (h : tabWf 0 th.scratch = true) : (th.setWord i v).word i = v :=
  tabGet_tabSet_same _ _ _ _ ((tabWf_iff _ _).1 h).1

theorem Thread.word_setWord_other (th : Thread) (i j : Nat) (v : Reg) (h : i % 512 ≠ j % 512) : (th.setWord i v).word j = th.word j :=
  tabGet_tabSet_other _ _ _ _ _ h.symm

/-- A byte of scratch is the byte of its word, the first byte lowest (R5, R218). -/
theorem Thread.toNat_scratchByte (th : Thread) (a : Nat) :
    (th.scratchByte a).toNat = (th.word (a % 4096 / 8)).toNat / 2 ^ (8 * (a % 8)) % 256 := by
  simp [Thread.scratchByte]

theorem Thread.scratchByte_wraps (th : Thread) (a : Nat) : th.scratchByte (a + 4096) = th.scratchByte a := by
  rw [Thread.scratchByte, Thread.scratchByte, Nat.add_mod_right, show (a + 4096) % 8 = a % 8 by omega]

/-- An instruction whose operand block holds an uncorrectable word faults (R218). -/
theorem issueBlock_ue (s : State) (t : Tid) (w : IWord) (k : State → State) (h : s.canIssue t 1) (hue : w.ue = true) :
    s.issueBlock t w k = s.faultAt t .memUe 0 (s.thread t).pc := by
  rw [State.issueBlock, issue_run s t _ h, hue]
  rfl

theorem exec_ld (s : State) (t : Tid) (w : IWord) (h : s.canIssue t 1) : exec (.ld t w false) s =
    .next (s.setThread t ((s.thread t).setReg w.rd ((s.thread t).word (w.ldWord (s.thread t)))).next) :=
  congrArg _ (issue_run s t _ h)

theorem exec_ld_ue (s : State) (t : Tid) (w : IWord) (h : s.canIssue t 1) :
    exec (.ld t w true) s = .next (s.faultAt t .memUe 0 (s.thread t).pc) :=
  congrArg _ (issue_run s t _ h)

theorem exec_st (s : State) (t : Tid) (w : IWord) (h : s.canIssue t 1) : exec (.st t w) s =
    .next (s.setThread t ((s.thread t).setWord (w.ldWord (s.thread t)) ((s.thread t).reg w.rb)).next) :=
  congrArg _ (issue_run s t _ h)

/-- Settles O5: registers are entries of a vector and scratch words entries of a canonical table; an instruction that issues takes its
own effect. -/
theorem registersAndScratch : Obligations.RegistersAndScratch := by
  refine ⟨fun th r q v => ⟨rfl, rfl, th.reg_setReg_same r v, th.reg_setReg_other r q v⟩, fun th i j a v h => ?_, fun s t w h => ?_⟩
  · exact ⟨th.word_setWord_same i v h, th.word_setWord_other i j v, th.toNat_scratchByte a, th.scratchByte_wraps a⟩
  · refine ⟨?_, exec_ld_ue s t w h, exec_st s t w h, fun hue tries rb => ?_⟩
    · rw [exec_ld s t w h, Thread.next, Thread.setReg_pc]
      rfl
    · have faults : ∀ k, s.issueBlock t w k = s.faultAt t .memUe 0 (s.thread t).pc := fun k => issueBlock_ue s t w k h hue
      simp only [List.forall_mem_cons, List.not_mem_nil, false_implies, implies_true, and_true]
      exact ⟨congrArg _ (faults _), congrArg _ (faults _), congrArg _ (faults _), congrArg _ (faults _), congrArg _ (faults _),
        congrArg _ (faults _), congrArg _ (faults _), congrArg _ (faults _), congrArg _ (faults _), congrArg _ (faults _)⟩

end Sys2Proof.Machine
end

section
/-! O6: what a thread fault does, its record, and the faults of a fetch. -/

namespace Sys2Proof.Machine

/-! ### The fault (R235) -/

/-- The CAUSE bit of a vector that is raised is set (R513). -/
theorem State.raise_cause (s : State) (v : Nat) (hv : v < 64) : (s.raise v).host.cause.getLsbD v = true := by
  have set : (s.host.cause ||| BitVec.ofNat 64 (2 ^ v)).getLsbD v = true := by
    simp only [BitVec.getLsbD_or, BitVec.getLsbD_ofNat, hv, decide_true, Nat.testBit_two_pow_self, Bool.and_self, Bool.or_true]
  simp only [State.raise]
  split
  · assumption
  · split <;> exact set

/-- The state whose record a fault writes: its thread has stopped, and its synchronous operation has left the scoreboard. -/
def State.stopThread (s : State) (t : Tid) (addr : Nat) : State :=
  { s.modThread t fun th => { th with st := .faulted, pc := addr, wait := .none, done := none, wEnd := none, snap := none } with
    sboard := s.sboard.filter fun o => !(o.thread == t && o.sync) }

/-- The information field of a thread fault (Table 23-2). -/
def faultInfo (t : Tid) (sub addr : Nat) : Nat := t.val * 2 ^ 40 + sub * 2 ^ 32 + addr % 2 ^ 32

theorem State.faultAt_eq (s : State) (t : Tid) (f : Flt) (sub addr : Nat) : s.faultAt t f sub addr =
    (((s.stopThread t addr).report f.code 0x11 (faultInfo t sub addr)).eventFor (fun u => u != t) 0x200).raise t.val := rfl

theorem State.stopThread_thread (s : State) (t : Tid) (addr : Nat) : (s.stopThread t addr).thread t =
    { s.thread t with st := .faulted, pc := addr, wait := .none, done := none, wEnd := none, snap := none } :=
  State.setThread_thread _ _ _

theorem State.stopThread_other (s : State) (t v : Tid) (addr : Nat) (h : v ≠ t) : (s.stopThread t addr).thread v = s.thread v :=
  State.setThread_thread_other _ _ _ _ h

theorem State.raise_thread (s : State) (n : Nat) (v : Tid) : (s.raise n).thread v = s.thread v := by
  rw [State.thread, State.raise_threads]; rfl

/-- The thread that faults stops at the faulting instruction. -/
theorem State.faultAt_thread (s : State) (t : Tid) (f : Flt) (sub addr : Nat) : (s.faultAt t f sub addr).thread t =
    { s.thread t with
      st := .faulted, pc := addr, wait := .none, done := none, wEnd := none, snap := none
      evt := ((s.faultAt t f sub addr).thread t).evt } := by
  rw [State.faultAt_eq, State.raise_thread, State.eventFor_thread, if_neg (by simp), State.report_onlyEvents _ _ _ _ t,
    State.stopThread_thread]

/-- Every other thread keeps all but its event word, where FAULT is set. -/
theorem State.faultAt_other (s : State) (t v : Tid) (f : Flt) (sub addr : Nat) (h : v ≠ t) :
    (s.faultAt t f sub addr).thread v = { s.thread v with evt := ((s.faultAt t f sub addr).thread v).evt } ∧
      ((s.faultAt t f sub addr).thread v).evt.getLsbD 9 = true := by
  rw [State.faultAt_eq, State.raise_thread, State.eventFor_thread, if_pos (by simpa using h), State.report_onlyEvents _ _ _ _ v,
    State.stopThread_other _ _ _ _ h]
  exact ⟨rfl, by simp⟩

theorem State.faultAt_total (s : State) (t : Tid) (f : Flt) (sub addr : Nat) :
    (s.faultAt t f sub addr).err.total = s.err.total + 1 := by
  rw [State.faultAt_eq, State.raise_err]
  exact State.report_total _ _ _ _

theorem State.faultAt_queues (s : State) (t : Tid) (f : Flt) (sub addr : Nat) :
    (s.faultAt t f sub addr).queues = ((s.stopThread t addr).report f.code 0x11 (faultInfo t sub addr)).queues := by
  rw [State.faultAt_eq, State.raise_queues]
  rfl

/-! ### Its record (R523) -/

/-- A record that nothing suppresses, below CHIP, stands at the end of Q40 when Q40 has room (R523). -/
theorem State.report_posts (s : State) (code block info : Nat) (hl : errLevel code info ≠ 3) (hk : s.err.keys = [])
    (room : 1024 ≤ s.queues[40].space) (hm : s.queues[40].wmark = false) :
    (s.report code block info).queues[40].ready = s.queues[40].ready ++
      [leBytes 32 (errWord code block info s.fab.ft + (s.err.total + 1).toNat % 2 ^ 64 * 2 ^ 128 + 0 * 2 ^ 192)] := by
  have item : ∀ x : Nat, itemSpace (leBytes 32 x) ≤ s.queues[40].space := by
    intro x
    have : itemSpace (leBytes 32 x) = 32 := by rw [itemSpace, length_leBytes]; rfl
    omega
  have put : ∀ (v : State) (q : Queue), (v.putQueue 40 q).queues[40].ready = q.ready := by
    intro v q
    obtain ⟨wm, h⟩ := v.putQueue_same 40 q (by decide)
    have ready := congrArg Queue.ready h
    exact ready
  simp only [State.report, hk, List.find?_nil, State.post40, hl, beq_iff_eq, if_false, room, if_true, push_fits _ _ (item _) hm,
    State.raise_queues, put]

theorem Flt.errKind_code (f : Flt) (info : Nat) : errKind f.code info = 4 := by cases f <;> rfl

theorem Flt.errLevel_code (f : Flt) (info : Nat) : errLevel f.code info = 1 := by
  rw [errLevel, Flt.errKind_code]
  cases f <;> rfl

/-- The 128 bits of the record of a fault (Table 23-1). -/
theorem errWord_fault (f : Flt) (t : Tid) (sub addr time : Nat) (hs : sub < 256) (ha : addr < 2 ^ 32) (ht : time < 2 ^ 48) :
    errWord f.code 0x11 (faultInfo t sub addr) time =
      2 ^ 126 + 0x11 * 2 ^ 120 + 4 * 2 ^ 117 + f.code * 2 ^ 96 + time * 2 ^ 48 + t.val * 2 ^ 40 + sub * 2 ^ 32 + addr := by
  have hi : faultInfo t sub addr % 2 ^ 48 = t.val * 2 ^ 40 + sub * 2 ^ 32 + addr := by
    have := t.isLt
    rw [faultInfo]
    omega
  rw [errWord, Flt.errLevel_code, Flt.errKind_code, Nat.mod_eq_of_lt ht, hi]
  omega

/-! ### The fetch (R219, R244, R245, R274) -/

theorem State.issue_past (s : State) (t : Tid) (n : Nat) (k : State → State) (hq : s.sequencing = true)
    (hr : (s.thread t).st = .running) (h : s.progLen t < (s.thread t).pc + 8) :
    s.issue t n k = s.faultAt t .state 0x03 (s.thread t).pc := by
  simp [State.issue, State.fault, hq, hr, h]

theorem State.issue_past_two (s : State) (t : Tid) (k : State → State) (hq : s.sequencing = true) (hr : (s.thread t).st = .running)
    (h : (s.thread t).pc + 8 ≤ s.progLen t) (h2 : s.progLen t < (s.thread t).pc + 16) :
    s.issue t 2 k = s.faultAt t .state 0x03 ((s.thread t).pc + 8) := by
  simp [State.issue, hq, hr, h2, Nat.not_lt.2 h]

/-- The opcodes of Table 10-2, in the ranges that the statement lists. -/
theorem mem_opcodes_iff : ∀ op < 256, op ∈ opcodes ↔ ∃ r ∈ [(0x01, 0x09), (0x10, 0x15), (0x18, 0x1B), (0x20, 0x23), (0x28, 0x2B),
    (0x30, 0x32), (0x38, 0x3B), (0x40, 0x40), (0x48, 0x4B), (0x50, 0x52), (0x58, 0x5D), (0x60, 0x63), (0x68, 0x69), (0x6C, 0x6C),
    (0x70, 0x72), (0x78, 0x79), (0x7C, 0x7D)], r.1 ≤ op ∧ op ≤ r.2 := by
  decide +kernel

/-- The subcode of a word that stands for no instruction, over the number that its 8 bytes spell. -/
theorem wordFault_eq (v : Nat) (hv : v < 2 ^ 64) : wordFault (BitVec.ofNat 64 v) =
    if v / 2 ^ 56 ∉ opcodes then some 0x03 else if v / 2 ^ 56 = 0x78 ∧ 8 ≤ v / 2 ^ 32 % 256 then some 0x20 else none := by
  have op : ((BitVec.ofNat 64 v).extractLsb' 56 8).toNat = v / 2 ^ 56 := by
    simp only [BitVec.extractLsb'_toNat, BitVec.toNat_ofNat, Nat.shiftRight_eq_div_pow]
    omega
  have fn : ((BitVec.ofNat 64 v).extractLsb' 32 8).toNat = v / 2 ^ 32 % 256 := by
    simp only [BitVec.extractLsb'_toNat, BitVec.toNat_ofNat, Nat.shiftRight_eq_div_pow]
    omega
  have svc : (BitVec.ofNat 64 v).extractLsb' 56 8 = 0x78 ↔ v / 2 ^ 56 = 0x78 := by
    rw [← op, ← BitVec.toNat_inj]
    rfl
  simp only [wordFault, splitWord, op, fn, svc]

/-- A RUNNING thread fetches the word at its address, within its program buffer (R219). -/
theorem State.fetch_within (s : State) (t : Tid) (b : Buf) (hq : s.sequencing = true) (hr : (s.thread t).st = .running)
    (hb : s.buf? (s.thread t).prog.toNat = some b) (h : (s.thread t).pc + 8 ≤ b.len) :
    s.fetch t = match wordFault (BitVec.ofNat 64 (leNat (Memory.readN s.mem (b.base + (s.thread t).pc) 8))) with
      | some sub => s.fault t .state sub
      | none => s := by
  simp only [State.fetch, hq, hr, hb, Nat.not_lt.2 h]
  rfl

/-- Settles O6: a fault is a stopped thread, a record, FAULT and a vector, and the fetch answers what the word's opcode and function
say. -/
theorem threadFaults : Obligations.ThreadFaults := by
  refine ⟨fun s t f sub addr => ?_, ⟨rfl, fun s t f sub addr hs ha ht hk room hm htot => ?_⟩, fun s t w => ⟨fun idle => ?_, fun hq hr =>
    ⟨fun past => ?_, fun two within past => ?_, fun b hb hlen => ?_⟩⟩⟩
  · have me := s.faultAt_thread t f sub addr
    refine ⟨by rw [me], by rw [me], by rw [me], fun v hv => ?_, State.raise_cause _ _ (by omega),
      s.faultAt_total t f sub addr, fun q h40 h41 => ?_, s.faultAt_frame t f sub addr⟩
    · obtain ⟨same, bit⟩ := s.faultAt_other t v f sub addr hv
      exact ⟨by rw [same], by rw [same], by rw [same], bit⟩
    · by_cases hq : q < 64
      · have kept := State.report_other (s.stopThread t addr) f.code 0x11 (faultInfo t sub addr) ⟨q, hq⟩
          (fun e => h40 (congrArg Fin.val e)) (fun e => h41 (congrArg Fin.val e))
        rw [State.faultAt_queues, Vector.getElem?_eq_getElem hq, Vector.getElem?_eq_getElem hq]
        exact congrArg some kept
      · rw [Vector.getElem?_eq_none (Nat.not_lt.1 hq), Vector.getElem?_eq_none (Nat.not_lt.1 hq)]
  · have posted := State.report_posts (s.stopThread t addr) f.code 0x11 (faultInfo t sub addr) (by rw [Flt.errLevel_code]; decide)
      hk room hm
    have total : (s.err.total + 1).toNat = s.err.total.toNat + 1 := by
      rw [BitVec.toNat_add, show BitVec.toNat (1 : BitVec 64) = 1 from rfl]
      omega
    rw [State.faultAt_queues, posted]
    show _ ++ [leBytes 32 (errWord f.code 0x11 (faultInfo t sub addr) s.fab.ft + (s.err.total + 1).toNat % 2 ^ 64 * 2 ^ 128 + 0 * 2 ^ 192)] = _
    rw [errWord_fault f t sub addr _ hs ha ht, total, Nat.mod_eq_of_lt htot, Nat.zero_mul, Nat.add_zero]
    rfl
  · exact ⟨congrArg _ (issue_idle s t _ _ idle), congrArg _ (issue_idle s t _ _ idle)⟩
  · exact ⟨congrArg _ (s.issue_past t _ _ hq hr past), congrArg _ (s.issue_past t _ _ hq hr past)⟩
  · have words : w.words = 2 := by rw [IWord.words, IWord.two, two]; rfl
    have fetched : ∀ f, s.alu t w f = s.faultAt t .state 0x03 ((s.thread t).pc + 8) := fun f => by
      rw [State.alu, words]
      exact s.issue_past_two t _ hq hr within past
    exact congrArg _ (fetched _)
  · intro v op fn listed
    have hv : v < 2 ^ 64 := by
      have := leNat_lt (Memory.readN s.mem (b.base + (s.thread t).pc) 8)
      rwa [Memory.length_readN] at this
    have known : op ∈ opcodes ↔ listed := mem_opcodes_iff op (by omega)
    rw [s.fetch_within t b hq hr hb hlen, wordFault_eq v hv]
    refine ⟨fun unlisted => ?_, fun hop hfn => ?_, fun hop hfn => ?_⟩
    · rw [if_pos (fun h => unlisted (known.1 h))]
      rfl
    · rw [if_neg (not_not.2 (by rw [show v / 2 ^ 56 = 0x78 from hop]; decide)), if_pos ⟨hop, hfn⟩]
      rfl
    · rw [if_neg (not_not.2 (known.2 hop)), if_neg (by omega)]

end Sys2Proof.Machine
end

section
/-! O9: the launch of a thread from its queue, and its restart after a fault. -/

namespace Sys2Proof.Machine

/-! ### The launch (R214, R216) -/

/-- The queue of a thread. -/
def threadQueue (t : Tid) : Fin 64 := ⟨t.val, by omega⟩

/-- The words of a thread's queue lie in no buffer, so its oldest item is taken without a read of DRAM (R293). -/
theorem State.takeItem_thread (s : State) (t : Tid) (d : List Byte) (rest : List (List Byte))
    (hr : s.queues[threadQueue t].ready = d :: rest) (hu : s.queues[threadQueue t].upset = none) :
    ∃ x : Queue, x.ready = rest ∧ s.takeItem (threadQueue t) 15 = some (d, s.putQueue (threadQueue t) x, true) := by
  obtain ⟨x, htake, hready, hupset⟩ := Queue.take_cons hr
  have store : s.queueStore (threadQueue t) = none := if_pos (.inr (.inl t.isLt))
  have ne : threadQueue t ≠ 41 := fun e => by
    have := t.isLt
    have : t.val = 41 := congrArg Fin.val e
    omega
  refine ⟨x, hready, ?_⟩
  simp only [State.takeItem, hr, State.readWords, store, htake, s.updQueue_agreed _ x ne (hupset.trans hu)]

/-- A thread that starts at the descriptor spelt by `v` (Table 09-1). -/
def Thread.launched (th : Thread) (v : Nat) : Thread :=
  { th with
    st := .running, wait := .none, fl := {}, stack := [], done := none
    pc := bitsOf v 63 32, entry := BitVec.ofNat 32 (bitsOf v 63 32), prog := BitVec.ofNat 12 (bitsOf v 27 16)
    recDone := v.testBit 0, intDone := v.testBit 1
    g := Vector.ofFn fun i : Fin 16 =>
      match i.val with
      | 1 => BitVec.ofNat 64 (bitsOf v 127 64)
      | 2 => BitVec.ofNat 64 (bitsOf v 191 128)
      | 3 => BitVec.ofNat 64 (bitsOf v 255 192)
      | _ => 0 }

theorem Thread.launched_g (th : Thread) (v : Nat) : (th.launched v).g.toList =
    [0, BitVec.ofNat 64 (v / 2 ^ 64), BitVec.ofNat 64 (v / 2 ^ 128), BitVec.ofNat 64 (v / 2 ^ 192)] ++ List.replicate 12 0 := by
  have word : ∀ x, BitVec.ofNat 64 (x % 2 ^ 64) = BitVec.ofNat 64 x := fun x =>
    BitVec.eq_of_toNat_eq (by simp only [BitVec.toNat_ofNat, Nat.mod_mod])
  have regs : (th.launched v).g.toList = [0, BitVec.ofNat 64 (bitsOf v 127 64), BitVec.ofNat 64 (bitsOf v 191 128),
      BitVec.ofNat 64 (bitsOf v 255 192)] ++ List.replicate 12 0 := by
    rw [Thread.launched, Vector.toList_ofFn]
    rfl
  rw [regs, bitsOf, bitsOf, bitsOf, word, word, word]

/-- What a good descriptor is, over the number that its 32 bytes spell (R216). -/
theorem launchOk_iff (d : List Byte) (h : d.length = 32) : launchOk d = true ↔
    leNat d / 2 ^ 28 % 16 = 0 ∧ leNat d / 4 % 2 ^ 14 = 0 ∧ leNat d / 2 ^ 32 % 2 ^ 32 % 8 = 0 := by
  have hf : fieldAt d 0 32 = leNat d := by rw [fieldAt, List.drop_zero, List.take_of_length_le (by omega)]
  simp only [launchOk, hf, h, bitsOf, Bool.and_eq_true, beq_iff_eq, true_and, and_assoc]
  norm_num

theorem State.launchable_congr {s u : State} (h : u.bufs = s.bufs) (t : Tid) (n : Nat) : u.launchable t n = s.launchable t n := by
  simp only [State.launchable, State.buf?, h]

/-- An IDLE thread with a descriptor starts at it, or discards it with a record (R214, R216). -/
theorem exec_threadLaunch (s : State) (t : Tid) (d : List Byte) (rest : List (List Byte)) (hq : s.sequencing = true)
    (hi : (s.thread t).st = .idle) (hr : s.queues[threadQueue t].ready = d :: rest) (hu : s.queues[threadQueue t].upset = none)
    (hd : d.length = 32) : ∃ x : Queue, x.ready = rest ∧ exec (.threadLaunch t) s =
      if launchOk d = true ∧ s.launchable t (leNat d / 2 ^ 16 % 2 ^ 12) = true then
        .next ((s.putQueue (threadQueue t) x).modThread t fun th => th.launched (leNat d))
      else .next ((s.putQueue (threadQueue t) x).report 0x0901 0x11 (t.val * 2 ^ 40 + 2 ^ 32 + bitsOf (leNat d) 63 32)) := by
  obtain ⟨x, hx, take⟩ := s.takeItem_thread t d rest hr hu
  have hf : fieldAt d 0 32 = leNat d := by rw [fieldAt, List.drop_zero, List.take_of_length_le (by omega)]
  have hl : (s.putQueue (threadQueue t) x).launchable t (bitsOf (leNat d) 27 16) = s.launchable t (leNat d / 2 ^ 16 % 2 ^ 12) :=
    State.launchable_congr (State.putQueue_bufs _ _ _) t _
  refine ⟨x, hx, ?_⟩
  show execThreadLaunch t s = _
  rw [execThreadLaunch, if_pos ⟨hi, hq⟩]
  rw [threadQueue] at take hl
  simp only [take, hf, hl, Bool.and_eq_true]
  rfl

/-! ### The restart (R215) -/

/-- A FAULTED thread that is restarted; any other as it is. -/
def Thread.restarted (th : Thread) : Thread := if th.st = .faulted then { th with st := .idle, stack := [] } else th

theorem Thread.restarted_of_faulted {th : Thread} (h : th.st = .faulted) : th.restarted = { th with st := .idle, stack := [] } := if_pos h

theorem Thread.restarted_of_not {th : Thread} (h : th.st ≠ .faulted) : th.restarted = th := if_neg h

theorem Thread.restarted_st (th : Thread) : th.restarted.st = if th.st = .faulted then .idle else th.st := by
  unfold Thread.restarted; split <;> rfl

theorem Thread.restarted_g (th : Thread) : th.restarted.g = th.g := by unfold Thread.restarted; split <;> rfl

theorem Thread.restarted_scratch (th : Thread) : th.restarted.scratch = th.scratch := by unfold Thread.restarted; split <;> rfl

/-- A thread that was restarted is not FAULTED. -/
theorem Thread.restarted_restarted (th : Thread) : th.restarted.restarted = th.restarted := by
  refine Thread.restarted_of_not ?_
  rw [Thread.restarted_st]
  split
  · decide
  · assumption

theorem State.restart_thread (s : State) (t : Tid) : (s.restart t).thread t = (s.thread t).restarted := by
  unfold State.restart Thread.restarted
  split
  · exact State.setThread_thread _ _ _
  · rfl

theorem State.restart_other (s : State) (t v : Tid) (h : v ≠ t) : (s.restart t).thread v = s.thread v := by
  unfold State.restart
  split
  · exact State.setThread_thread_other _ _ _ _ h
  · rfl

/-- The restart doorbell over a list of threads. -/
def State.restarts (s : State) (p : Tid → Bool) (l : List Tid) : State := l.foldl (fun s t => if p t then s.restart t else s) s

theorem State.restarts_frame (s : State) (p : Tid → Bool) (l : List Tid) : s.restarts p l = { s with threads := (s.restarts p l).threads } := by
  induction l generalizing s with
  | nil => rfl
  | cons a l ih =>
    have head : (if p a then s.restart a else s) = { s with threads := (if p a then s.restart a else s).threads } := by
      split
      · exact s.restart_frame a
      · rfl
    show (if p a then s.restart a else s).restarts p l = { s with threads := ((if p a then s.restart a else s).restarts p l).threads }
    rw [ih, head]

/-- Of the threads named, those of the list restart; a second restart of one does nothing. -/
theorem State.restarts_thread (s : State) (p : Tid → Bool) (l : List Tid) (t : Tid) :
    (s.restarts p l).thread t = if t ∈ l ∧ p t = true then (s.thread t).restarted else s.thread t := by
  induction l generalizing s with
  | nil => simp [State.restarts]
  | cons a l ih =>
    show ((if p a then s.restart a else s).restarts p l).thread t = _
    rw [ih]
    by_cases ha : t = a
    · subst ha
      by_cases hp : p t = true
      · simp only [hp, if_true, and_true, List.mem_cons_self, State.restart_thread, Thread.restarted_restarted, ite_self]
      · simp only [hp, and_false, if_false, Bool.false_eq_true]
    · have head : (if p a then s.restart a else s).thread t = s.thread t := by
        split
        · exact s.restart_other a t ha
        · rfl
      simp only [head, List.mem_cons, ha, false_or]

/-- `SVC` RESTART of a thread that the register names (R274). -/
theorem exec_svcRestart (s : State) (t n : Tid) (w : IWord) (hi : s.canIssue t 1) (hf : s.unitFree t {})
    (hn : (s.thread t).reg w.ra = BitVec.ofNat 64 n.val) : exec (.svcRestart t w) s =
      .next (if (s.thread n).st = .faulted then ((s.registered t {}).restart n).toUnit t w (some (.code 0))
        else (s.registered t {}).toUnit t w (some (.code 0x30))) := by
  have named : ((s.thread t).reg w.ra).toNat = n.val := by
    rw [hn, BitVec.toNat_ofNat]
    omega
  show execSvcRestart t w s = _
  rw [execSvcRestart, issue_run s t _ hi]
  simp only [named, n.isLt, dif_pos, startUnit_free _ _ _ _ _ hf, State.registered_thread, Fin.eta]
  rfl

/-- Settles O9: the descriptor is taken without touching DRAM, and a restart touches the thread that it names alone. -/
theorem launchAndRestart : Obligations.LaunchAndRestart := by
  refine ⟨fun s t d rest hq hi hr hu hd => ?_, fun s t n w hi hf hn => ⟨fun faulted => ?_, fun sound => ?_⟩, fun s v hb => ?_⟩
  · obtain ⟨x, hx, run⟩ := exec_threadLaunch s t d rest hq hi hr hu hd
    have ne : ∀ k : Nat, 8 ≤ k → ∀ h : k < 64, threadQueue t ≠ ⟨k, h⟩ := fun k hk _ e => by
      have := t.isLt
      have : t.val = k := congrArg Fin.val e
      omega
    obtain ⟨wm, same⟩ := s.putQueue_same (threadQueue t) x (ne 41 (by decide) (by decide))
    have left : (s.putQueue (threadQueue t) x).queues[threadQueue t].ready = rest := (congrArg Queue.ready same).trans hx
    have only := s.putQueue_onlyEvents (threadQueue t) x t
    have ok := launchOk_iff d hd
    split at run
    · next good =>
      refine ⟨_, run, ?_, ?_, fun _ _ _ _ => ?_, fun bad => ?_⟩
      · exact left
      · rw [State.modThread_eq, State.setThread_thread, only]
        rfl
      · rw [State.modThread_eq, State.setThread_thread]
        refine ⟨rfl, rfl, ?_, rfl, rfl, rfl, rfl, Thread.launched_g _ _, ?_⟩
        rotate_left
        · exact State.putQueue_err _ _ _
        show (BitVec.ofNat 12 (bitsOf (leNat d) 27 16)).toNat = _
        rw [bitsOf, BitVec.toNat_ofNat, Nat.mod_mod]
      · obtain ⟨h28, h4, -⟩ := ok.1 good.1
        rcases bad with bad | bad | bad
        · exact absurd h28 bad
        · exact absurd h4 bad
        · rw [good.2] at bad
          exact absurd bad (by decide)
    · next bad =>
      have reported := State.report_onlyEvents (s.putQueue (threadQueue t) x) 0x0901 0x11
        (t.val * 2 ^ 40 + 2 ^ 32 + bitsOf (leNat d) 63 32) t
      refine ⟨_, run, ?_, ?_, fun h28 h4 h32 hl => ?_, fun _ => ⟨?_, ?_⟩⟩
      · have kept := State.report_other (s.putQueue (threadQueue t) x) 0x0901 0x11
          (t.val * 2 ^ 40 + 2 ^ 32 + bitsOf (leNat d) 63 32) (threadQueue t) (ne 40 (by decide) (by decide)) (ne 41 (by decide) (by decide))
        exact (congrArg Queue.ready kept).trans left
      · rw [reported, only]
      · exact absurd ⟨ok.2 ⟨h28, h4, by omega⟩, hl⟩ bad
      · rw [reported, only]
        exact hi
      · rw [State.report_total, State.putQueue_err]
  · have ne : n ≠ t := fun e => by
      rw [e, hi.2.1] at faulted
      exact absurd faulted (by decide)
    have run := exec_svcRestart s t n w hi hf hn
    rw [if_pos faulted] at run
    obtain ⟨mine, others⟩ := threadTo_toUnit ((s.registered t {}).restart n) t w (some (.code 0))
    refine ⟨_, run, ?_, ?_, ?_, fun v hvt hvn => ?_, ?_⟩
    · rw [others n ne, State.restart_thread, State.registered_thread, Thread.restarted_of_faulted faulted]
    · rw [others n ne, State.restart_thread, State.registered_thread, Thread.restarted_scratch]
    · rw [mine, State.restart_other _ _ _ ne.symm, State.registered_thread]
    · rw [others v hvt, State.restart_other _ _ _ hvn, State.registered_thread]
    · rw [State.toUnit_eq, State.restart_frame]
      rfl
  · have run := exec_svcRestart s t n w hi hf hn
    rw [if_neg sound] at run
    exact ⟨_, run, threadTo_toUnit (s.registered t {}) t w _, rfl⟩
  · refine ⟨s.restarts (fun t => v.getLsbD t.val) (List.finRange 8), if_pos hb, s.restarts_frame _ _, fun t => ?_⟩
    rw [State.restarts_thread]
    simp only [List.mem_finRange, true_and]
    split
    · next bit =>
      rw [Thread.restarted_st, Thread.restarted_g, Thread.restarted_scratch]
      exact ⟨by simp [bit], rfl, rfl⟩
    · next bit => exact ⟨by simp [bit], rfl, rfl⟩

end Sys2Proof.Machine
end

section
/-! O10: event words, and how the wait instructions begin and end. -/

namespace Sys2Proof.Machine

/-! ### SIGNAL and INT (R232, R273, R512) -/

/-- Raising a vector sets its CAUSE bit and no other (R513). -/
theorem State.raise_cause_eq (s : State) (v : Nat) :
    (s.raise v).host.cause = s.host.cause ||| BitVec.ofNat 64 (2 ^ v) := by
  simp only [State.raise]
  split
  · next set =>
    refine BitVec.eq_of_getLsbD_eq fun i hi => ?_
    rw [BitVec.getLsbD_or, BitVec.getLsbD_ofNat, Nat.testBit_two_pow]
    by_cases h : v = i
    · subst h
      rw [set, Bool.true_or]
    · simp [h]
  · split <;> rfl

theorem exec_signal (s : State) (t : Tid) (w : IWord) (h : s.canIssue t 1) : exec (.signal t w) s =
    .next ((s.eventFor (fun u => w.imm.getLsbD u.val) (w.imm &&& 0xFFFF0000)).modThread t fun th => th.next) :=
  congrArg _ (issue_run s t _ h)

theorem exec_int (s : State) (t : Tid) (w : IWord) (h : s.canIssue t 1) : exec (.int t w) s =
    .next ((s.raise t.val).modThread t fun th => th.next) :=
  congrArg _ (issue_run s t _ h)

/-! ### A wait begins (R231, R255, R256) -/

/-- A thread that has entered a wait. -/
def Thread.waits (th : Thread) (now : Nat) (w : IWord) (wt : Wait) (hit : Bool) : Thread :=
  { th with
    st := .waiting, wait := wt, wRd := w.rd
    wEnd := if th.reg w.rc = 0 then none else some (now + 1000 * (th.reg w.rc).toNat)
    wNoFault := w.fn.getLsbD 7, wHit := hit, wAddr := th.pc, pc := th.pc + 8 }

/-- The event word after a return from a wait: the bits of an event mask are cleared (R232). -/
def Thread.evtAfter (th : Thread) (wt : Wait) : BitVec 32 :=
  match wt with
  | .evt m => th.evt &&& ~~~m
  | _ => th.evt

/-- A thread that has returned from a wait with `v`. -/
def Thread.returned (th : Thread) (wt : Wait) (v : Reg) (z : Bool) : Thread :=
  { th.setReg th.wRd v with st := .running, wait := .none, fl := { th.fl with z := z }, evt := th.evtAfter wt }

theorem State.waitReturn_eq (s : State) (t : Tid) (wt : Wait) (z : Bool) :
    s.waitReturn t wt z = s.setThread t ((s.thread t).returned wt (s.waitValue (s.thread t) wt) z) := rfl

/-- What a wait compares lies in the thread, the queues and fabric time. -/
theorem State.waitHolds_setThread (s : State) (t : Tid) (x th : Thread) (wt : Wait) :
    (s.setThread t x).waitHolds th wt = s.waitHolds th wt := rfl

theorem State.enterWait_eq (s : State) (t : Tid) (w : IWord) (wt : Wait) (hit : Bool) : s.enterWait t w wt hit =
    if s.waitHolds ((s.thread t).waits s.now w wt hit) wt then (s.setThread t ((s.thread t).waits s.now w wt hit)).waitReturn t wt true
    else s.setThread t ((s.thread t).waits s.now w wt hit) := by
  have mine : (s.setThread t ((s.thread t).waits s.now w wt hit)).thread t = (s.thread t).waits s.now w wt hit :=
    State.setThread_thread _ _ _
  show (if (s.setThread t ((s.thread t).waits s.now w wt hit)).waitHolds
    ((s.setThread t ((s.thread t).waits s.now w wt hit)).thread t) wt then _ else _) = _
  rw [mine, State.waitHolds_setThread]
  rfl

/-- Registers take a write alike in threads that hold the same ones. -/
theorem Thread.setReg_g_congr {a b : Thread} (h : a.g = b.g) (r : BitVec 4) (v : Reg) : (a.setReg r v).g = (b.setReg r v).g := by
  unfold Thread.setReg
  split
  · exact h
  · simp only [h]

/-- A wait whose condition does not hold is entered. -/
theorem State.enterWait_sits (s : State) (t : Tid) (w : IWord) (wt : Wait) (hit : Bool)
    (h : s.waitHolds ((s.thread t).waits s.now w wt hit) wt = false) :
    s.enterWait t w wt hit = s.setThread t ((s.thread t).waits s.now w wt hit) := by
  rw [State.enterWait_eq, h]
  rfl

/-- A wait whose condition holds returns at once: it changes its own thread alone. -/
theorem State.enterWait_passes (s : State) (t : Tid) (w : IWord) (wt : Wait) (hit : Bool)
    (h : s.waitHolds ((s.thread t).waits s.now w wt hit) wt = true) :
    ∃ u, s.enterWait t w wt hit = u ∧ u = { s with threads := u.threads } ∧ (∀ x, x ≠ t → u.thread x = s.thread x) ∧
      (u.thread t).st = .running ∧ (u.thread t).pc = (s.thread t).pc + 8 ∧
      (u.thread t).g = ((s.thread t).setReg w.rd (s.waitValue ((s.thread t).waits s.now w wt hit) wt)).g ∧
      (u.thread t).fl = { (s.thread t).fl with z := true } ∧ (u.thread t).evt = (s.thread t).evtAfter wt ∧
      (u.thread t).scratch = (s.thread t).scratch := by
  have mine : (s.setThread t ((s.thread t).waits s.now w wt hit)).thread t = (s.thread t).waits s.now w wt hit :=
    State.setThread_thread _ _ _
  refine ⟨_, rfl, ?_, fun x hx => ?_, ?_⟩
  · rw [State.enterWait_eq, h]
    rfl
  · rw [State.enterWait_eq, h, if_pos rfl, State.waitReturn_eq, State.setThread_thread_other _ _ _ _ hx,
      State.setThread_thread_other _ _ _ _ hx]
  · rw [State.enterWait_eq, h, if_pos rfl, State.waitReturn_eq, State.setThread_thread, mine]
    exact ⟨rfl, Thread.setReg_pc _ _ _, Thread.setReg_g_congr (a := (s.thread t).waits s.now w wt hit) (b := s.thread t) rfl w.rd
      (s.waitValue ((s.thread t).waits s.now w wt hit) wt), rfl, by cases wt <;> rfl, Thread.setReg_scratch _ _ _⟩

theorem exec_waittime (s : State) (t : Tid) (w : IWord) (h : s.canIssue t 1) :
    exec (.waittime t w) s = .next (s.enterWait t w (.time ((s.thread t).reg w.ra)) false) :=
  congrArg _ (issue_run s t _ h)

theorem exec_waitevt (s : State) (t : Tid) (w : IWord) (h : s.canIssue t 1) :
    exec (.waitevt t w) s = .next (s.enterWait t w (.evt w.imm) false) :=
  congrArg _ (issue_run s t _ h)

theorem exec_waitq (s : State) (t : Tid) (w : IWord) (h : s.canIssue t 1) : exec (.waitq t w) s =
    .next (s.enterWait t w (.queue (Fin.ofNat 64 w.imm.toNat) (w.fn.getLsbD 0) (w.fn.getLsbD 1) ((s.thread t).reg w.ra)) false) :=
  congrArg _ (issue_run s t _ h)

/-- A line wait on a generator: a line beyond its last faults (R256). -/
theorem exec_waitline (s : State) (t : Tid) (w : IWord) (g : Fin 3) (h : s.canIssue t 1) (hg : w.fn.toNat % 4 = g.val) :
    exec (.waitline t w) s = .next
      (if s.tgLines g.val ≠ 0 ∧ s.tgLines g.val ≤ w.imm.toNat % 65536 then s.faultAt t .state 0x20 (s.thread t).pc
      else s.enterWait t w (.line g (w.imm.toNat % 65536))
        (w.fn.getLsbD 2 && s.tgRuns g.val && decide (w.imm.toNat % 65536 ≤ s.tgLine g.val))) := by
  show execWaitline t w s = _
  rw [execWaitline, issue_run s t _ h]
  simp only [hg, g.isLt, dif_pos, Fin.eta, Bool.and_eq_true, bne_iff_ne, decide_eq_true_eq]
  rfl

theorem exec_waitline_noGenerator (s : State) (t : Tid) (w : IWord) (h : s.canIssue t 1) (hg : w.fn.toNat % 4 = 3) :
    exec (.waitline t w) s = .next (s.faultAt t .state 0x20 (s.thread t).pc) := by
  show execWaitline t w s = _
  rw [execWaitline, issue_run s t _ h]
  simp only [hg, Nat.lt_irrefl, dif_neg, not_false_eq_true]
  rfl

/-! ### A wait ends (R231, R232) -/

theorem exec_waitSatisfied (s : State) (t : Tid) (hq : s.sequencing = true) (hs : (s.thread t).st = .waiting)
    (hw : (s.thread t).wait.isWait = true) : exec (.waitSatisfied t) s =
      .next (if s.waitHolds (s.thread t) (s.thread t).wait then s.waitReturn t (s.thread t).wait true else s) := by
  show execWaitSatisfied t s = _
  simp only [execWaitSatisfied, hs, hw, hq, true_and]
  split <;> rfl

/-- A timeout that has run out ends a wait whose condition does not hold. -/
theorem exec_waitTimeout_expires (s : State) (t : Tid) (e : Nat) (hq : s.sequencing = true) (hs : (s.thread t).st = .waiting)
    (hw : (s.thread t).wait.isWait = true) (he : (s.thread t).wEnd = some e) (hn : e ≤ s.now)
    (hm : s.waitHolds (s.thread t) (s.thread t).wait = false) : exec (.waitTimeout t) s =
      .next (if (s.thread t).wNoFault then s.waitReturn t (s.thread t).wait false
        else s.faultAt t .timeout 0 (s.thread t).wAddr) := by
  show execWaitTimeout t s = _
  have due : (s.thread t).wEnd.any (fun e => decide (e ≤ s.now)) = true := by rw [he]; simpa using hn
  simp only [execWaitTimeout, hs, hw, hq, hm, due, Bool.not_false, and_self, if_true]
  split <;> rfl

/-- A wait whose condition holds, or whose timeout is still to come or not set, does not expire. -/
theorem exec_waitTimeout_waits (s : State) (t : Tid) (h : s.waitHolds (s.thread t) (s.thread t).wait = true ∨
    (s.thread t).wEnd = none ∨ ∃ e, (s.thread t).wEnd = some e ∧ s.now < e) : exec (.waitTimeout t) s = .next s := by
  refine if_neg ?_
  rintro ⟨-, -, due, -, open'⟩
  rcases h with holds | none | ⟨e, he, later⟩
  · rw [holds] at open'
    exact absurd open' (by decide)
  · rw [none] at due
    exact absurd due Bool.false_ne_true
  · rw [he] at due
    exact absurd (of_decide_eq_true due) (Nat.not_le.2 later)

/-- Settles O10: a wait compares, and then either changes its own thread to one that waits or returns from it. -/
theorem eventsAndWaits : Obligations.EventsAndWaits := by
  refine ⟨⟨fun s t w h => ⟨?_, ?_⟩, fun s v hb => ?_⟩, fun s t w h => ?_, fun s t wt hq hs hwt hw => ?_⟩
  · refine ⟨_, exec_signal s t w h, rfl, ?_, fun v => ?_⟩
    · rw [State.modThread_eq, State.setThread_thread, State.eventFor_thread]
      split <;> rfl
    · rw [State.modThread_eq]
      by_cases hv : v = t
      · subst hv
        rw [State.setThread_thread, State.eventFor_thread]
        split <;> exact ⟨rfl, rfl, rfl⟩
      · rw [State.setThread_thread_other _ _ _ _ hv, State.eventFor_thread]
        split <;> exact ⟨rfl, rfl, rfl⟩
  · refine ⟨_, exec_int s t w h, ⟨?_, fun v hv => ?_⟩, State.raise_cause_eq s _, ?_⟩
    · rw [State.modThread_eq, State.setThread_thread, State.raise_thread]
      rfl
    · rw [State.modThread_eq, State.setThread_thread_other _ _ _ _ hv, State.raise_thread]
    · rw [State.raise_frame]
      rfl
  · refine ⟨_, if_pos hb, rfl, fun t => ?_⟩
    rw [State.eventFor_thread]
    split <;> rfl
  · have sits : ∀ {c : Instr} {wt : Wait}, exec c s = .next (s.enterWait t w wt false) →
        s.waitHolds ((s.thread t).waits s.now w wt false) wt = false →
        exec c s = .next (s.setThread t ((s.thread t).waits s.now w wt false)) := fun run open' => by
      rw [run, State.enterWait_sits _ _ _ _ _ open']
    refine ⟨fun early => ?_, fun late => ?_, fun clear => ?_, fun set => ?_, fun unmet => ?_, fun met => ?_, fun g hg =>
      ⟨fun within => ⟨fun plain => ?_, fun now runs reached => ?_⟩, fun rows beyond => ?_⟩, exec_waitline_noGenerator s t w h⟩
    · exact sits (exec_waittime s t w h) (decide_eq_false (Nat.not_le.2 early))
    · obtain ⟨u, hu, facts⟩ := s.enterWait_passes t w (.time ((s.thread t).reg w.ra)) false (decide_eq_true late)
      exact ⟨u, hu ▸ exec_waittime s t w h, facts⟩
    · exact sits (exec_waitevt s t w h) (by simpa [State.waitHolds, Thread.waits] using clear)
    · obtain ⟨u, hu, facts⟩ := s.enterWait_passes t w (.evt w.imm) false (by simpa [State.waitHolds, Thread.waits] using set)
      exact ⟨u, hu ▸ exec_waitevt s t w h, facts⟩
    · exact sits (exec_waitq s t w h) unmet
    · obtain ⟨u, hu, facts⟩ := s.enterWait_passes t w
        (.queue (Fin.ofNat 64 w.imm.toNat) (w.fn.getLsbD 0) (w.fn.getLsbD 1) ((s.thread t).reg w.ra)) false met
      exact ⟨u, hu ▸ exec_waitq s t w h, facts⟩
    · have run := exec_waitline s t w g h hg
      rw [if_neg (by omega), plain, Bool.false_and, Bool.false_and] at run
      exact sits run rfl
    · have run := exec_waitline s t w g h hg
      rw [if_neg (by omega), now, runs, decide_eq_true reached] at run
      obtain ⟨u, hu, facts⟩ := s.enterWait_passes t w (.line g (w.imm.toNat % 65536)) true rfl
      exact ⟨u, hu ▸ run, facts⟩
    · rw [exec_waitline s t w g h hg, if_pos ⟨rows, beyond⟩]
  · have satisfied := exec_waitSatisfied s t hq hs (hwt ▸ hw)
    have expires := fun e => exec_waitTimeout_expires s t e hq hs (hwt ▸ hw)
    have waits := exec_waitTimeout_waits s t
    simp only [hwt] at satisfied expires waits
    intro th level met val goes
    have hm : s.waitHolds th wt = met := by cases wt <;> rfl
    have hv : s.waitValue th wt = val := by cases wt <;> rfl
    have returns : ∀ z, s.waitReturn t wt z = s.setThread t (th.returned wt val z) := fun z => by rw [State.waitReturn_eq, ← hv]
    refine ⟨fun holds => ?_, fun fails => ?_, fun e he hn fails => ⟨fun quiet => ?_, fun loud => ?_⟩, fun stays => ?_⟩
    · refine satisfied.trans ?_
      rw [hm, holds]
      exact congrArg _ ((if_pos rfl).trans (returns true))
    · rw [satisfied, hm, fails]
      rfl
    · refine (expires e he hn (hm.trans fails)).trans ?_
      exact congrArg _ ((if_pos quiet).trans (returns false))
    · rw [expires e he hn (hm.trans fails), if_neg (by rw [loud]; decide)]
    · exact waits (by rw [hm]; exact stays)

end Sys2Proof.Machine
end

section
/-! O11: completion of unit instructions and asynchronous operations, and the release of what was held. -/

namespace Sys2Proof.Machine

/-! ### Completion (R218, R226, R233, R249) -/

/-- Without a self-test no test ends. -/
theorem State.endTestsFor_none (s : State) (who : Deliver) (h : ∀ u ∈ allUnits, (s.unit u).test = none) : s.endTestsFor who = s := by
  unfold State.endTestsFor
  generalize allUnits = l at h
  induction l with
  | nil => rfl
  | cons u l ih =>
    rw [List.foldl_cons, h u List.mem_cons_self]
    exact ih fun v hv => h v (List.mem_cons_of_mem _ hv)

/-- What a unit writes into its thread: scratch, the second result, the result (R249). -/
def Thread.takes (th : Thread) (d : Done) : Thread :=
  let th := match d.scratch with | some (a, b) => th.scratchWrite a b | none => th
  let th := match d.rc with | some v => th.setReg th.wRc v | none => th
  if d.wrRd then th.setReg th.wRd d.val else th

theorem Thread.scratchWrite_fl (th : Thread) (a : Nat) (l : List Byte) : (th.scratchWrite a l).fl = th.fl := by
  induction l generalizing th a with
  | nil => rfl
  | cons b l ih => exact ih _ _

theorem Thread.takes_fl (th : Thread) (d : Done) : (th.takes d).fl = th.fl := by
  have written : (match d.scratch with | some (a, b) => th.scratchWrite a b | none => th).fl = th.fl := by
    split
    · exact Thread.scratchWrite_fl _ _ _
    · rfl
  rw [Thread.takes]
  split
  · rw [Thread.setReg_fl]
    split
    · rw [Thread.setReg_fl]; exact written
    · exact written
  · split
    · rw [Thread.setReg_fl]; exact written
    · exact written

/-- The thread of an instruction that completes goes on. -/
def Thread.completed (th : Thread) (d : Done) : Thread :=
  { th.takes d with st := .running, wait := .none, done := none, fl := if d.isResult then { th.fl with z := d.val == 0 } else th.fl }

theorem exec_unitInstructionCompletion (s : State) (t : Tid) (d : Done) (hq : s.sequencing = true) (hs : (s.thread t).st = .waiting)
    (hw : (s.thread t).wait = .unit) (hd : (s.thread t).done = some d) (ht : ∀ u ∈ allUnits, (s.unit u).test = none) :
    exec (.unitInstructionCompletion t) s =
      if d.blt && (s.thread t).async.any (·.blt) then .next s
      else match d.flt with
        | some (f, sub) => .next (s.faultAt t f sub.toNat (s.thread t).wAddr)
        | none => .next { s.setThread t ((s.thread t).completed d) with sboard := s.sboard.filter fun o => !(o.thread == t && o.sync) } := by
  have flags : (s.thread t).completed d = { (s.thread t).takes d with
      st := .running, wait := .none, done := none
      fl := if d.isResult then ((s.thread t).takes d).fl.ofResult d.val else ((s.thread t).takes d).fl } := by
    rw [Thread.takes_fl]
    rfl
  show execUnitInstructionCompletion t s = _
  rw [execUnitInstructionCompletion, if_pos hq, s.endTestsFor_none _ ht, flags]
  simp only [hd, hs, hw, hq, true_and]
  cases d.blt && (s.thread t).async.any (·.blt) with
  | true => rfl
  | false => cases d.flt <;> rfl

/-- The state once an asynchronous operation has completed: its result word, ASYNC, and no entry of it left (R233). -/
def State.asyncEnded (s : State) (t : Tid) (a : Async) (d : Done) : State :=
  { s.setThread t
    { (if d.wrRd then (s.thread t).setWord a.word d.val else s.thread t) with
      async := (s.thread t).async.filter fun x => x.op != a.op, evt := (s.thread t).evt ||| 0x800 } with
    sboard := s.sboard.filter fun o => o.op != a.op }

theorem State.asyncEnded_st (s : State) (t : Tid) (a : Async) (d : Done) : ((s.asyncEnded t a d).thread t).st = (s.thread t).st := by
  have mine : (s.asyncEnded t a d).thread t = { (if d.wrRd then (s.thread t).setWord a.word d.val else s.thread t) with
      async := (s.thread t).async.filter fun x => x.op != a.op, evt := (s.thread t).evt ||| 0x800 } := State.setThread_thread _ _ _
  rw [mine]
  split <;> rfl

theorem exec_asyncOperationCompletion (s : State) (t : Tid) (a : Async) (d : Done) (hq : s.sequencing = true)
    (ha : (s.thread t).async.find? (·.op == a.op) = some a) (hr : a.res = some d) (ht : ∀ u ∈ allUnits, (s.unit u).test = none)
    (hb : (a.blt && (s.thread t).bltBefore a.op) = false) : exec (.asyncOperationCompletion t a.op) s =
      match d.flt with
      | some (f, sub) => .next (if (s.thread t).st = .faulted then s.asyncEnded t a d
          else (s.asyncEnded t a d).faultAt t f sub.toNat a.addr)
      | none => .next (s.asyncEnded t a d) := by
  have same : ({ s with sboard := s.sboard.filter fun o => o.op != a.op } : State).modThread t (fun th =>
      { (if d.wrRd then th.setWord a.word d.val else th) with
        async := th.async.filter fun x => x.op != a.op, evt := th.evt ||| 0x800 }) = s.asyncEnded t a d := by
    simp only [State.asyncEnded, State.modThread_eq]
    cases d.wrRd <;> rfl
  show execAsyncOperationCompletion t a.op s = _
  rw [execAsyncOperationCompletion, if_pos hq, s.endTestsFor_none _ ht]
  simp only [ha, hr, hq, hb, same, State.asyncEnded_st]
  rfl

/-! ### Release (R227, R230, R252, R277) -/

/-- The instructions that can be held. -/
theorem rerun_eq_exec (t : Tid) (w : IWord) (x y : CrackRun) (d : List DriverAnswer) (l : List PmbTry) (run : BistRun) (ok : Bool)
    (up : Option (Fin 64 × PtrField)) : ∀ i ∈ [Instr.aset t w, .balloc t w, .bfree t w, .binfo t w, .bist t w run, .blt t w, .bseal t w,
      .crcget t w, .crcput t w, .crcrun t w, .crcset t w, .fgroup t w, .fsend t w, .ldh t w, .pclear t w, .planchk t w, .plancommit t w,
      .planslotFree t w, .planslotLoad t w, .planslotState t w, .planslotStatus t w, .plightOff t w, .plightOn t w, .pmbx t w l,
      .ppowerDown t w, .ppowerUp t w x y d, .pselfEnter t w, .pselfExit t w, .pupdate t w, .qflush t w, .sattach t w, .sattachDetach t w,
      .spause t w, .splay t w, .sseek t w, .sth t w, .svcLaunch t w, .svcQpost t w up, .svcQtake t w up, .svcRemove t w, .svcRestart t w,
      .svcReturn t w, .svcState t w, .tgaddr t w, .tgset t w, .tread t w, .trimapply t w, .trimstage t w ok],
    ∀ u : State, u.rerun i = exec i u := by
  simp only [List.forall_mem_cons, List.not_mem_nil, false_implies, implies_true, and_true]
  and_intros <;> exact fun _ => rfl

/-- A thread held at instruction `i` runs it again at the address where it was held. -/
theorem exec_scoreboardRelease_held (s : State) (t : Tid) (i : Instr) (hq : s.sequencing = true) (hs : (s.thread t).st = .waiting)
    (hw : (s.thread t).wait = .held i) : exec (.scoreboardRelease t) s =
      (s.setThread t { s.thread t with st := .running, wait := .none, pc := (s.thread t).wAddr }).rerun i := by
  show execScoreboardRelease t s = _
  simp only [execScoreboardRelease, hq, hs, hw]
  rfl

/-- A thread whose BLT waits for a place goes on once it has one (R277). -/
theorem exec_scoreboardRelease_entry (s : State) (t : Tid) (op : Nat) (hq : s.sequencing = true) (hs : (s.thread t).st = .waiting)
    (hw : (s.thread t).wait = .entry op) : exec (.scoreboardRelease t) s =
      .next (if s.bltWaits op then s else s.setThread t { s.thread t with st := .running, wait := .none }) := by
  show execScoreboardRelease t s = _
  simp only [execScoreboardRelease, hq, hs, hw]
  rfl

/-- A RUNNING thread releases its first operation that need wait no longer. -/
theorem exec_scoreboardRelease_running (s : State) (t : Tid) (hq : s.sequencing = true) (hs : (s.thread t).st = .running) :
    exec (.scoreboardRelease t) s =
      match (s.thread t).async.find? fun a => a.todo.isSome && !sbBlocked s.sboard a.op && s.dram.sr != .inSr with
      | some a => .next (match a.todo with | some j => s.runJob t a j | none => s)
      | none => .next s := by
  show execScoreboardRelease t s = _
  simp only [execScoreboardRelease, hq, hs]
  rfl

/-- An operation that is not registered, or behind nothing but itself, is not blocked. -/
theorem sbBlocked_alone (l : List SbOp) (op : Nat) (h : l.find? (·.op == op) = none ∨ ∀ o ∈ l, o.op = op) : sbBlocked l op = false := by
  rcases h with none | own
  · rw [sbBlocked, none]
  · cases l with
    | nil => rfl
    | cons o l =>
      have ho : o.op = op := own o List.mem_cons_self
      simp [sbBlocked, ho]

/-- A read of a range in which nothing is suspect meets no error: only its request is new. -/
theorem State.readUntil_clean (s : State) (pa n port : Nat) (h : s.dram.suspects pa n = []) :
    s.readUntil pa n port = (s.dramRequest port pa n false, none) := by
  have hr : (s.dramRequest port pa n false).dram.suspects pa n = [] := h
  rw [State.readUntil]
  simp only [hr]
  rfl

/-- A run over an unsealed buffer that reads without an error feeds its unit, and ends with result 0. -/
theorem State.crcJob_clean (s : State) (c : Fin 7) (h off n : Nat) (b : Buf) (hb : s.buf? h = some b) (hs : b.isSealed = false)
    (hc : s.dram.suspects (b.base + off) n = []) :
    ∃ v, s.crcJob c h off n = (v, .code 0) ∧ v.threads = s.threads ∧ v.mem = s.mem ∧ ∀ k : Fin 7, k ≠ c → v.cus[k] = s.cus[k] := by
  simp only [State.crcJob, hb, hs, s.readUntil_clean _ _ 19 hc]
  refine ⟨_, rfl, rfl, rfl, fun k hk => ?_⟩
  exact vmodN_other s.cus _ (k.isLt.trans (by decide)) fun e => hk (Fin.ext e.symm)

/-- The operation of a thread whose job is taken up. -/
def State.jobTaken (s : State) (t : Tid) (a : Async) : State :=
  s.modThread t fun th => { th with async := th.async.map fun x => if x.op = a.op then { x with todo := none } else x }

theorem State.runJob_crc (s : State) (t : Tid) (a : Async) (c : Fin 7) (h off n : Nat) (v : State) (d : Done)
    (job : (s.jobTaken t a).crcJob c h off n = (v, d)) : s.runJob t a (.crcRun c h off n) = v.deliver (.async t a.op) d := by
  simp only [State.runJob, ← State.jobTaken.eq_1, job]
  rfl

/-- A run of the thread's one operation: the operation has its result, and of the checksum units its own alone changes. -/
theorem State.runJob_crcRun (s : State) (t : Tid) (a : Async) (c : Fin 7) (h off n : Nat) (b : Buf) (ha : (s.thread t).async = [a])
    (hb : s.buf? h = some b) (hs : b.isSealed = false) (hc : s.dram.suspects (b.base + off) n = []) :
    let u := s.runJob t a (.crcRun c h off n)
    (u.thread t).async = [{ a with todo := none, res := some (.code 0) }] ∧ u.mem = s.mem ∧ (u.thread t).g = (s.thread t).g ∧
      ∀ k, k ≠ c → u.cus[k] = s.cus[k] := by
  obtain ⟨v, job, threads, mem, cus⟩ := (s.jobTaken t a).crcJob_clean c h off n b hb hs hc
  have hv : v.thread t = { s.thread t with async := [{ a with todo := none }] } := by
    have same : v.thread t = (s.jobTaken t a).thread t := by rw [State.thread, threads]; rfl
    rw [same, State.jobTaken, State.modThread_eq, State.setThread_thread, ha]
    simp only [List.map_cons, List.map_nil, if_true]
  have done : (v.deliver (.async t a.op) (.code 0)).thread t =
      { s.thread t with async := [{ a with todo := none, res := some (.code 0) }] } := by
    simp only [State.deliver, State.modThread_eq, State.setThread_thread, hv, List.map_cons, List.map_nil, if_true]
  rw [s.runJob_crc t a c h off n v _ job]
  exact ⟨by rw [done], mem, by rw [done], cus⟩

/-- A completion that is no blit's, or whose thread has no blit under way, need not wait (R226). -/
theorem notBehind (s : State) (t : Tid) (d : Done) (h : d.blt = true → ∀ a ∈ (s.thread t).async, a.blt = false) :
    (d.blt && (s.thread t).async.any (·.blt)) = false := by
  cases hd : d.blt with
  | false => rfl
  | true =>
    rw [Bool.true_and, List.any_eq_false]
    exact fun a ha => by rw [h hd a ha]; decide

/-- Settles O11: a completion writes its thread and drops its entry of the scoreboard, and a release runs what was held. -/
theorem completionAndRelease : Obligations.CompletionAndRelease := by
  refine ⟨⟨fun s t d hq hs hw hd ht => ?_, fun s t a d hq ha hr ht hb => ?_⟩, fun s t hq => ⟨fun w x y d l run ok up i hs hw hi => ?_,
    fun op hs hw => ?_, fun hs idle => ?_, fun a c h off n b hs ha hj hsr halone hbuf hplain hclean => ?_⟩⟩
  · have run := exec_unitInstructionCompletion s t d hq hs hw hd ht
    refine ⟨fun blit ⟨a, ha, hblt⟩ => ?_, fun first => ⟨fun sound => ?_, fun f sub hf => ?_⟩⟩
    · have behind : (s.thread t).async.any (·.blt) = true := List.any_eq_true.2 ⟨a, ha, hblt⟩
      rw [run, blit, behind]
      rfl
    · rw [run, notBehind s t d first, sound]
      rfl
    · rw [run, notBehind s t d first, hf]
      rfl
  · have own : (a.blt && (s.thread t).bltBefore a.op) = false := by
      cases h : a.blt with
      | false => rfl
      | true =>
        rw [Bool.true_and, Thread.bltBefore, List.any_eq_false]
        exact fun b hm => by rw [hb h b hm]; decide
    have run := exec_asyncOperationCompletion s t a d hq ha hr ht own
    refine ⟨fun sound => ?_, fun f sub hf hs => ?_⟩
    · rw [run, sound]
      rfl
    · rw [run, hf]
      exact congrArg _ (if_neg hs)
  · rw [exec_scoreboardRelease_held s t i hq hs hw, rerun_eq_exec t w x y d l run ok up i hi]
  · have run := exec_scoreboardRelease_entry s t op hq hs hw
    exact ⟨fun full => by rw [run, full]; rfl, fun free => by rw [run, free]; rfl⟩
  · have none : (s.thread t).async.find? (fun a => a.todo.isSome && !sbBlocked s.sboard a.op && s.dram.sr != .inSr) = none := by
      rw [List.find?_eq_none]
      intro a ha
      simp [idle a ha]
    rw [exec_scoreboardRelease_running s t hq hs, none]
  · have found : (s.thread t).async.find? (fun a => a.todo.isSome && !sbBlocked s.sboard a.op && s.dram.sr != .inSr) = some a := by
      have free : sbBlocked s.sboard a.op = false := sbBlocked_alone _ _ halone
      simp [ha, hj, hsr, free]
    refine ⟨s.runJob t a (.crcRun c h off n), ?_, s.runJob_crcRun t a c h off n b ha hbuf hplain hclean⟩
    rw [exec_scoreboardRelease_running s t hq hs, found]
    simp only [hj]

end Sys2Proof.Machine
end

section
/-! O14: `BALLOC` and the place of a new buffer. -/

namespace Sys2Proof.Machine

/-! ### The place (R221, R319, R321) -/

/-- The step of a choice among free runs keeps the best so far or takes the new one. -/
theorem foldl_choice_mem {α : Type} (f : Option α → α → Option α) (hn : ∀ p, f none p = some p)
    (hs : ∀ q p, f (some q) p = some p ∨ f (some q) p = some q) (l : List α) :
    ∀ (o : Option α) (r : α), l.foldl f o = some r → r ∈ l ∨ o = some r := by
  induction l with
  | nil => exact fun o r h => .inr h
  | cons p l ih =>
    intro o r h
    rcases ih _ r h with hr | hr
    · exact .inl (List.mem_cons_of_mem _ hr)
    · cases o with
      | none =>
        rw [hn] at hr
        exact .inl (Option.some.inj hr ▸ List.mem_cons_self)
      | some q =>
        rcases hs q p with e | e
        · rw [e] at hr
          exact .inl (Option.some.inj hr ▸ List.mem_cons_self)
        · exact .inr (e.symm.trans hr)

/-- Whole units of `n` bytes hold them. -/
theorem le_ceilDiv_mul (z : Bool) (n : Nat) : n ≤ ceilDiv n (allocUnit z) * allocUnit z := by
  cases z <;> simp only [ceilDiv, allocUnit, Bool.false_eq_true, if_false, if_true] <;> omega

/-- A run of `n` bytes at `p` lies within the region, and clear of every range in `l`. -/
def FreeRun (l : List (Nat × Nat)) (lo hi n p : Nat) : Prop :=
  lo ≤ p ∧ p + n ≤ hi ∧ ∀ r ∈ l, p + n ≤ r.1 ∨ r.2 ≤ p

/-- A run that is found lies in its region and overlaps nothing that is occupied. -/
theorem State.findRun_free (s : State) (z : Bool) (lo hi n p : Nat) (h : s.findRun z lo hi n = some p) :
    FreeRun s.occupied lo hi n p := by
  have chosen := foldl_choice_mem _ (fun _ => rfl) (fun q p => by dsimp only; split <;> simp) _ _ _ h
  rcases chosen with mem | none
  · obtain ⟨-, fits⟩ := List.mem_filter.1 mem
    simp only [Bool.and_eq_true, decide_eq_true_eq, Bool.not_eq_true', List.any_eq_false, List.mem_map] at fits
    obtain ⟨⟨above, below⟩, clear⟩ := fits
    refine ⟨above, below, fun r hr => ?_⟩
    have apart := clear _ ⟨r, hr, rfl⟩
    have down : r.1 / allocUnit z * allocUnit z ≤ r.1 := Nat.div_mul_le_self _ _
    have up := le_ceilDiv_mul z r.2
    dsimp only at apart
    omega
  · exact absurd none (by simp)

/-- Where a buffer is placed: the region, and a run of whole units that is free there. -/
theorem State.place_free (s : State) (z : Bool) (len p : Nat) (h : s.place z len = some p) : ∃ lo hi,
    FreeRun s.occupied lo hi (ceilDiv len (allocUnit z) * allocUnit z) p ∧ hi ≤ s.dram.capacity ∧
      ((z = true ∧ lo = 2 ^ 36) ∨ hi ≤ 2 ^ 36) := by
  have top : min bar4Top s.dram.capacity ≤ 2 ^ 36 := Nat.min_le_left _ _
  have cap : min bar4Top s.dram.capacity ≤ s.dram.capacity := Nat.min_le_right _ _
  unfold State.place at h
  cases z with
  | false =>
    rw [if_neg Bool.false_ne_true] at h
    exact ⟨0, _, s.findRun_free _ _ _ _ _ h, cap, .inr top⟩
  | true =>
    rw [if_pos rfl] at h
    generalize high : s.findRun true bar4Top s.dram.capacity _ = o at h
    cases o with
    | some q =>
      obtain rfl := Option.some.inj h
      exact ⟨_, _, s.findRun_free _ _ _ _ _ high, Nat.le_refl _, .inl ⟨rfl, rfl⟩⟩
    | none => exact ⟨0, _, s.findRun_free _ _ _ _ _ h, cap, .inr top⟩

/-- The place depends on the buffers and on DRAM alone. -/
theorem State.place_congr {s u : State} (hb : u.bufs = s.bufs) (hd : u.dram = s.dram) (z : Bool) (len : Nat) :
    u.place z len = s.place z len := by
  simp only [State.place, State.findRun, State.occupied, hb, hd]

theorem Buf.span_covers (b : Buf) : b.span.1 ≤ b.base ∧ b.base + b.len ≤ b.span.2 :=
  ⟨Nat.div_mul_le_self _ _, le_ceilDiv_mul _ _⟩

/-! ### BALLOC (R221, R258) -/

/-- A buffer enters the table at the handle that it takes. -/
def State.addBuf (s : State) (h : Nat) (b : Buf) : State :=
  { s with bufs := { s.bufs.takeHandle with table := tabPut s.bufs.takeHandle.table h b } }

theorem State.addBuf_same (s : State) (h : Nat) (b : Buf) : tabFind (s.addBuf h b).bufs.table h = some b := tabFind_tabPut_same _ _ _

theorem State.addBuf_other (s : State) (h k : Nat) (b : Buf) (hk : k ≠ h) :
    tabFind (s.addBuf h b).bufs.table k = tabFind s.bufs.table k :=
  (tabFind_tabPut_other _ _ _ _ hk).trans (by rw [Bufs.takeHandle_table])

/-- Length 0, no handle, no free run, or a new buffer: the four answers of the allocator. -/
theorem State.allocate_eq (s : State) (t : Tid) (len : Nat) (z sh : Bool) : s.allocate t len z sh =
    if len = 0 then (s, .error 0x15) else
      match s.bufs.freeHandle, s.place z len with
      | none, _ => (s, .error 0x13)
      | some _, none => (s, .error 0x14)
      | some h, some p => (s.addBuf h { base := p, len := len, owner := some t, isSealed := z, shared := sh }, .ok h) := by
  unfold State.allocate
  split
  · rfl
  · generalize s.place z len = o
    cases s.bufs.freeHandle with
    | none => cases o <;> rfl
    | some h => cases o <;> rfl

theorem exec_balloc (s : State) (t : Tid) (w : IWord) (hi : s.canIssue t 1) (hf : s.unitFree t {}) : exec (.balloc t w) s =
    .next (match (s.registered t {}).allocate t ((s.thread t).reg w.ra).toNat (w.fn.getLsbD 0) (w.fn.getLsbD 1) with
      | (s, .ok h) => s.toUnit t w (some (.codeRc 0 h))
      | (s, .error r) => s.toUnit t w (some (.codeRc r 0))) := by
  refine congrArg _ ((issue_run s t _ hi).trans ((startUnit_free _ _ _ _ _ hf).trans ?_))
  rfl

/-- Settles O14: the allocator takes a run that is free in its region, and enters it in the table at a handle of its own. -/
theorem bufferAllocation : Obligations.BufferAllocation := by
  refine ⟨fun s t w hi hf => ?_, fun s z len p hlen hp => ?_⟩
  · have run := exec_balloc s t w hi hf
    have place : (s.registered t {}).place (w.fn.getLsbD 0) ((s.thread t).reg w.ra).toNat =
        s.place (w.fn.getLsbD 0) ((s.thread t).reg w.ra).toNat := State.place_congr rfl rfl _ _
    rw [State.allocate_eq, place] at run
    have moved : ∀ (d : Done) (v : State), v.threads = s.threads → ThreadTo s (v.toUnit t w (some d)) t ((s.thread t).atUnit w (some d)) :=
      fun d v e => threadTo_toUnit_of_threads e t w (some d)
    intro th len
    by_cases hl : len = 0
    · rw [if_pos hl] at run
      exact ⟨_, run, rfl, fun _ => ⟨moved _ _ rfl, rfl⟩, fun h => absurd hl h, fun _ h => absurd hl h, rfl⟩
    rw [if_neg hl] at run
    have free : (s.registered t {}).bufs.freeHandle = s.bufs.freeHandle := rfl
    rw [free] at run
    cases hh : s.bufs.freeHandle with
    | none =>
      rw [hh] at run
      exact ⟨_, run, rfl, fun h => absurd h hl, fun _ _ => ⟨moved _ _ rfl, rfl⟩, fun _ _ h => (by simp at h), rfl⟩
    | some h =>
      rw [hh] at run
      have named : ∀ k, some h = some k → h = k := fun k hk => Option.some.inj hk
      cases hp : s.place (w.fn.getLsbD 0) len with
      | none =>
        rw [show s.place (w.fn.getLsbD 0) ((s.thread t).reg w.ra).toNat = none from hp] at run
        exact ⟨_, run, rfl, fun h => absurd h hl, fun _ h => (by simp at h), fun _ _ _ => ⟨fun _ => ⟨moved _ _ rfl, rfl⟩,
          fun _ h => (by simp at h)⟩, rfl⟩
      | some p =>
        rw [show s.place (w.fn.getLsbD 0) ((s.thread t).reg w.ra).toNat = some p from hp] at run
        refine ⟨_, run, rfl, fun h => absurd h hl, fun _ h => (by simp at h), fun k _ hk => ⟨fun h => (by simp at h), fun q hq => ?_⟩, rfl⟩
        obtain rfl := named k hk
        obtain rfl := Option.some.inj hq
        exact ⟨moved _ _ rfl, State.addBuf_same _ _ _, fun k hk => State.addBuf_other _ _ _ _ hk⟩
  · obtain ⟨lo, hi, ⟨above, below, clear⟩, cap, region⟩ := s.place_free z len p hp
    have units := le_ceilDiv_mul z len
    have apart : ∀ r ∈ s.occupied, p + len ≤ r.1 ∨ r.2 ≤ p := fun r hr => (clear r hr).imp_left fun h => by omega
    refine ⟨by omega, fun plain => ?_, fun _ => ?_, fun k b hb => ?_, fun j hj => ?_, fun g hg => ?_⟩
    · rcases region with ⟨hz, -⟩ | low
      · rw [plain] at hz
        exact absurd hz Bool.false_ne_true
      · omega
    · rcases region with ⟨-, high⟩ | low
      · exact .inl (by omega)
      · exact .inr (by omega)
    · obtain ⟨down, up⟩ := b.span_covers
      have := apart b.span (by
        rw [State.occupied, List.append_assoc]
        exact List.mem_append_left _ (List.mem_map.2 ⟨(k, b), hb, rfl⟩))
      omega
    · exact apart (j.lo, j.hi) (by
        rw [State.occupied]
        exact List.mem_append_left _ (List.mem_append_right _ (List.mem_map.2 ⟨j, hj, rfl⟩)))
    · exact apart (g * 1048576, (g + 1) * 1048576) (by
        rw [State.occupied]
        exact List.mem_append_right _ (List.mem_map.2 ⟨g, List.mem_append.2 hg, rfl⟩))

end Sys2Proof.Machine
end

section
/-! Scratch bytes: what a read returns after a write (R218, R250). -/

namespace Sys2Proof.Machine

/-- A byte of a number is a byte of its remainder by whole bytes. -/
theorem byte_mod {n j : Nat} (x : Nat) (h : 2 ^ (8 * j) * 256 ∣ n) : x % n / 2 ^ (8 * j) % 256 = x / 2 ^ (8 * j) % 256 := by
  rw [← Nat.mod_mul_right_div_self, Nat.mod_mod_of_dvd _ h, Nat.mod_mul_right_div_self]

/-- The number with byte `k` replaced by `v`. -/
def setByte (x k v : Nat) : Nat := x - x / 2 ^ (8 * k) % 256 * 2 ^ (8 * k) + v * 2 ^ (8 * k)

/-- What stands above the replaced byte, and below it. -/
theorem setByte_eq (x k v : Nat) : setByte x k v = 2 ^ (8 * k) * (256 * (x / 2 ^ (8 * k) / 256) + v) + x % 2 ^ (8 * k) := by
  have whole := Nat.div_add_mod x (2 ^ (8 * k))
  have parts := Nat.div_add_mod (x / 2 ^ (8 * k)) 256
  rw [setByte]
  generalize 2 ^ (8 * k) = p at *
  generalize x / p = q at *
  have split : p * q = p * (256 * (q / 256)) + q % 256 * p := by rw [Nat.mul_comm _ p, ← Nat.mul_add, parts]
  rw [Nat.mul_add, Nat.mul_comm v p]
  omega

theorem byte_setByte (x k v j : Nat) (hv : v < 256) :
    setByte x k v / 2 ^ (8 * j) % 256 = if j = k then v else x / 2 ^ (8 * j) % 256 := by
  have pos : 0 < 2 ^ (8 * k) := Nat.two_pow_pos _
  have low : setByte x k v % 2 ^ (8 * k) = x % 2 ^ (8 * k) := by rw [setByte_eq, Nat.mul_add_mod, Nat.mod_mod]
  have high : setByte x k v / 2 ^ (8 * k) = 256 * (x / 2 ^ (8 * k) / 256) + v := by
    rw [setByte_eq, Nat.mul_add_div pos, Nat.div_eq_of_lt (Nat.mod_lt _ pos), Nat.add_zero]
  rcases Nat.lt_trichotomy j k with below | rfl | above
  · have dvd : 2 ^ (8 * j) * 256 ∣ 2 ^ (8 * k) := by
      rw [show 256 = 2 ^ 8 from rfl, ← Nat.pow_add]
      exact Nat.pow_dvd_pow 2 (by omega)
    rw [if_neg (by omega), ← byte_mod _ dvd, low, byte_mod _ dvd]
  · rw [if_pos rfl, high]
    omega
  · have cut : 2 ^ (8 * j) = 2 ^ (8 * k) * (256 * 2 ^ (8 * (j - k - 1))) := by
      rw [show 256 = 2 ^ 8 from rfl, ← Nat.pow_add, ← Nat.pow_add]
      congr 1
      omega
    have same : (256 * (x / 2 ^ (8 * k) / 256) + v) / 256 = x / 2 ^ (8 * k) / 256 := by omega
    rw [if_neg (by omega), cut, ← Nat.div_div_eq_div_mul, high, ← Nat.div_div_eq_div_mul, same, Nat.div_div_eq_div_mul,
      Nat.div_div_eq_div_mul]

/-- One byte of scratch is written. -/
def Thread.putByte (th : Thread) (a : Nat) (b : Byte) : Thread :=
  th.setWord (a % 4096 / 8) (BitVec.ofNat 64 (setByte (th.word (a % 4096 / 8)).toNat (a % 8) b.toNat))

theorem Thread.scratchWrite_cons (th : Thread) (a : Nat) (b : Byte) (l : List Byte) :
    th.scratchWrite a (b :: l) = (th.putByte a b).scratchWrite (a + 1) l := rfl

/-- A write to scratch changes the scratch alone. -/
theorem Thread.scratchWrite_frame (l : List Byte) : ∀ (th : Thread) (a : Nat),
    th.scratchWrite a l = { th with scratch := (th.scratchWrite a l).scratch } := by
  induction l with
  | nil => exact fun _ _ => rfl
  | cons b l ih =>
    intro th a
    rw [Thread.scratchWrite_cons]
    exact ih _ _

theorem Thread.putByte_wf (th : Thread) (a : Nat) (b : Byte) (h : tabWf 0 th.scratch = true) : tabWf 0 (th.putByte a b).scratch = true :=
  Thread.setWord_wf h _ _

theorem Thread.scratchByte_putByte (th : Thread) (a x : Nat) (b : Byte) (h : tabWf 0 th.scratch = true) :
    (th.putByte a b).scratchByte x = if x % 4096 = a % 4096 then b else th.scratchByte x := by
  apply BitVec.eq_of_toNat_eq
  rw [Thread.toNat_scratchByte]
  by_cases hw : x % 4096 / 8 = a % 4096 / 8
  · have dvd : 2 ^ (8 * (x % 8)) * 256 ∣ 2 ^ 64 := by
      rw [show 256 = 2 ^ 8 from rfl, ← Nat.pow_add]
      exact Nat.pow_dvd_pow 2 (by omega)
    rw [Thread.putByte, hw, Thread.word_setWord_same _ _ _ h, BitVec.toNat_ofNat, byte_mod _ dvd, byte_setByte _ _ _ _ b.isLt]
    by_cases hb : x % 8 = a % 8
    · rw [if_pos hb, if_pos (by omega)]
    · rw [if_neg hb, if_neg (by omega), Thread.toNat_scratchByte, hw]
  · rw [if_neg (by omega), Thread.putByte, Thread.word_setWord_other _ _ _ _ (by omega), Thread.toNat_scratchByte]

/-- A byte outside the range of a write keeps its value. -/
theorem Thread.scratchByte_scratchWrite_other (l : List Byte) : ∀ (th : Thread) (a x : Nat), tabWf 0 th.scratch = true →
    (∀ i < l.length, x % 4096 ≠ (a + i) % 4096) → (th.scratchWrite a l).scratchByte x = th.scratchByte x := by
  induction l with
  | nil => exact fun _ _ _ _ _ => rfl
  | cons b l ih =>
    intro th a x h apart
    have rest : ∀ i < l.length, x % 4096 ≠ (a + 1 + i) % 4096 := fun i hi => by
      rw [Nat.add_assoc, Nat.add_comm 1 i]
      exact apart (i + 1) (Nat.succ_lt_succ hi)
    rw [Thread.scratchWrite_cons, ih _ _ _ (th.putByte_wf a b h) rest, Thread.scratchByte_putByte _ _ _ _ h]
    exact if_neg (apart 0 (Nat.succ_pos _))

/-- Scratch reads back what was written, as far as the write does not wrap onto itself. -/
theorem Thread.scratchRead_scratchWrite (l : List Byte) : ∀ (th : Thread) (a : Nat), tabWf 0 th.scratch = true → l.length ≤ 4096 →
    (th.scratchWrite a l).scratchRead a l.length = l := by
  induction l with
  | nil => exact fun _ _ _ _ => rfl
  | cons b l ih =>
    intro th a h fits
    have wf := th.putByte_wf a b h
    rw [List.length_cons] at fits
    have first : ((th.putByte a b).scratchWrite (a + 1) l).scratchByte a = b := by
      rw [Thread.scratchByte_scratchWrite_other _ _ _ _ wf (fun i hi => by omega), Thread.scratchByte_putByte _ _ _ _ h, if_pos rfl]
    have rest := ih _ (a + 1) wf (by omega)
    rw [Thread.scratchRead] at rest
    rw [Thread.scratchWrite_cons, Thread.scratchRead, List.length_cons, List.range_succ_eq_map, List.map_cons, List.map_map]
    refine congrArg₂ (· :: ·) first (Eq.trans (List.map_congr_left fun i _ => ?_) rest)
    rw [Function.comp_apply, Nat.succ_eq_add_one, Nat.add_assoc, Nat.add_comm 1 i]

end Sys2Proof.Machine
end

section
/-! O15: `BFREE`, freed memory, `BINFO` and `BSEAL`. -/

namespace Sys2Proof.Machine

/-! ### A buffer leaves the table (R225) -/

/-- An operation that names no buffer adds no reference (R224). -/
theorem State.refs_registered (s : State) (t : Tid) (h : Nat) : (s.registered t {}).refs h = s.refs h := by
  have ops : ((s.registered t {}).sboard.filter fun o => o.handles.contains h) = s.sboard.filter fun o => o.handles.contains h := by
    simp [State.registered, State.newOp]
  rw [State.refs, ops]
  rfl

/-- The memory of a freed buffer, as the zeroing engine takes it: whole granules, or one range of units (R318). -/
def Buf.zeroJobs (b : Buf) : List ZeroJob :=
  if b.isSealed then (List.range ((b.span.2 - b.span.1) / 1048576)).map fun i =>
    ⟨b.span.1 + i * 1048576, b.span.1 + (i + 1) * 1048576, true⟩
  else [⟨b.span.1, b.span.2, false⟩]

theorem Buf.zeroJobs_unsealed {b : Buf} (h : b.isSealed = false) :
    b.zeroJobs = [⟨b.base / 65536 * 65536, (b.base + b.len + 65535) / 65536 * 65536, false⟩] := by
  simp [Buf.zeroJobs, Buf.span, allocUnit, ceilDiv, h]

theorem Buf.granule_mem_zeroJobs {b : Buf} {g : Nat} (h : b.isSealed = true) (lo : b.base / 2 ^ 20 ≤ g)
    (hi : g * 2 ^ 20 < b.base + b.len) : (⟨g * 2 ^ 20, (g + 1) * 2 ^ 20, true⟩ : ZeroJob) ∈ b.zeroJobs := by
  rw [Buf.zeroJobs, if_pos h]
  refine List.mem_map.2 ⟨g - b.base / 1048576, List.mem_range.2 ?_, ?_⟩
  · simp only [Buf.span, allocUnit, h, if_true, ceilDiv]
    omega
  · simp only [Buf.span, allocUnit, h, if_true, ZeroJob.mk.injEq, and_true]
    omega

/-- A release takes the buffer from the table, and frees its handle and its memory. -/
theorem State.release_eq {s : State} {h : Nat} {b : Buf} (hb : tabFind s.bufs.table h = some b) : s.release h =
    { s with bufs := { s.bufs with
      table := s.bufs.table.filter fun e => e.1 != h, freed := s.bufs.freed ++ [h], zeroing := s.bufs.zeroing ++ b.zeroJobs } } := by
  rw [State.release, State.buf?, hb]
  rfl

theorem not_mem_filter_key (l : List (Nat × Buf)) (h : Nat) : ∀ e ∈ l.filter fun e => e.1 != h, e.1 ≠ h := fun _ he =>
  bne_iff_ne.1 (List.mem_filter.1 he).2

/-! ### BFREE (R225, R258) -/

section
variable (s : State) (t : Tid) (w : IWord) (hi : s.canIssue t 1) (h : Nat) (hh : handleOf ((s.thread t).reg w.ra) = h)
include hi hh

theorem exec_bfree_zero (h0 : h = 0) :
    exec (.bfree t w) s = .next (s.faultAt t .state 0x20 (s.thread t).pc) := by
  refine congrArg _ ((issue_run s t _ hi).trans ?_)
  simp only [hh, h0, State.findHandle, true_or, if_true, bind, Except.bind, State.orFault]
  rfl

theorem exec_bfree_own (own : 4032 ≤ h) :
    exec (.bfree t w) s = .next (s.faultAt t .seal 0 (s.thread t).pc) := by
  have below : h < 4096 := hh ▸ Nat.mod_lt _ (by omega)
  refine congrArg _ ((issue_run s t _ hi).trans ?_)
  have found : s.findHandle h = .error (.seal, 0) := by rw [State.findHandle, if_neg (by omega), if_pos own]
  simp only [hh, found, bind, Except.bind, State.orFault]
  rfl

section
variable (h0 : h ≠ 0) (hlt : h < 4032)
include h0 hlt

theorem exec_bfree_notLive (hf : s.unitFree t {}) (hb : s.buf? h = none) :
    exec (.bfree t w) s = .next ((s.registered t {}).toUnit t w (some (.code 0x11))) := by
  refine congrArg _ ((issue_run s t _ hi).trans ?_)
  simp only [hh, State.findHandle_live h0 hlt, hb, bind, Except.bind, pure, Except.pure, State.orFault]
  exact startUnit_free _ _ _ _ _ hf

theorem exec_bfree_stranger (b : Buf) (hb : s.buf? h = some b) (ho : b.owner ≠ some t) :
    exec (.bfree t w) s = .next (s.faultAt t .state 0x04 (s.thread t).pc) := by
  refine congrArg _ ((issue_run s t _ hi).trans ?_)
  simp only [hh, State.findHandle_live h0 hlt, hb, bind, Except.bind, need_false _ (beq_eq_false_iff_ne.2 ho), State.orFault]
  rfl

/-- The owner's buffer is dying already, or free at once, or dying from now on while something refers to it. -/
theorem exec_bfree_owner (hf : s.unitFree t {}) (b : Buf) (hb : s.buf? h = some b)
    (ho : b.owner = some t) : exec (.bfree t w) s = .next (
      let r := s.registered t {}
      if b.dying then r.toUnit t w (some (.code 0x12))
      else if s.refs h = 0 then (r.release h).toUnit t w (some (.code 0))
      else ({ r with bufs := { r.bufs with table := tabPut r.bufs.table h { b with dying := true } } } : State).toUnit t w
        (some (.code 0x10))) := by
  refine congrArg _ ((issue_run s t _ hi).trans ?_)
  simp only [hh, State.findHandle_live h0 hlt, hb, bind, Except.bind, pure, Except.pure, need_true _ (beq_iff_eq.2 ho), State.orFault]
  rw [startUnit_free _ _ _ _ _ hf, State.refs_registered]

end
end

/-! ### The zeroing of a granule (R318, R319) -/

theorem State.zeroTarget_mem {s : State} {j : ZeroJob} (h : s.zeroTarget = some j) : j ∈ s.bufs.zeroing := List.mem_of_find?_eq_some h

theorem tabFind_tabClear_same {β : Type} (l : List (Nat × β)) (lo hi a : Nat) (h : lo ≤ a) (h' : a < hi) :
    tabFind (tabClear l lo hi) a = none := by
  rw [tabFind_eq_none_iff, tabClear]
  simp only [List.mem_map, List.mem_filter, Bool.or_eq_true, decide_eq_true_eq, not_exists, not_and]
  intro e he ha
  omega

/-- No burst of a rewritten granule reads uncorrectable, while its epoch entry stands. -/
theorem State.endZeroing_readsBad (s : State) (g a : Nat) (lo : g * 2 ^ 20 ≤ a) (hi : a < (g + 1) * 2 ^ 20) (he : g ∉ s.dram.epochUe) :
    (s.endZeroing (granuleJob g)).dram.readsBad a = none := by
  have inside : paGranule a = g := by
    rw [paGranule]
    omega
  have clear : ∀ {β : Type} (l : List (Nat × β)), tabFind (tabClear l (g * 1048576) ((g + 1) * 1048576)) (a / 64 * 64) = none :=
    fun l => tabFind_tabClear_same l _ _ _ (by omega) (by omega)
  have sound : (s.endZeroing (granuleJob g)).dram.burstBad a = none := by
    rw [Dram.burstBad_eq_none_iff, inside]
    exact ⟨clear _, he⟩
  have faults : tabFind (s.endZeroing (granuleJob g)).dram.faults (a / 64 * 64) = none := clear _
  rw [Dram.readsBad, sound, faults]

/-- A rewritten granule reads zero … -/
theorem State.endZeroing_read_within (s : State) (g a : Nat) (lo : g * 2 ^ 20 ≤ a) (hi : a < (g + 1) * 2 ^ 20) :
    Memory.read (s.endZeroing (granuleJob g)).mem a = 0 := (Memory.read_zero s.mem _ _ a).trans (if_pos ⟨lo, hi⟩)

/-- … and no other byte changes. -/
theorem State.endZeroing_read_outside (s : State) (g a : Nat) (out : a < g * 2 ^ 20 ∨ (g + 1) * 2 ^ 20 ≤ a) :
    Memory.read (s.endZeroing (granuleJob g)).mem a = Memory.read s.mem a := by
  have apart : ¬(g * 2 ^ 20 ≤ a ∧ a < (g + 1) * 2 ^ 20) := by omega
  exact (Memory.read_zero s.mem _ _ a).trans (if_neg apart)

section
variable (s : State) (g : BitVec 18)

theorem exec_granuleZeroingDone_absent (ue : Bool) (h : granuleJob g.toNat ∉ s.bufs.zeroing) :
    exec (.granuleZeroingDone g ue) s = .next s := if_pos h

theorem exec_granuleZeroingDone_lost (h : granuleJob g.toNat ∈ s.bufs.zeroing) :
    exec (.granuleZeroingDone g true) s = .next (s.loseEpoch g.toNat) := (if_neg (not_not.2 h)).trans (if_pos rfl)

theorem exec_granuleZeroingDone_last (h : granuleJob g.toNat ∈ s.bufs.zeroing) (he : tabGet 0 s.dram.epochs g.toNat = 65535) :
    exec (.granuleZeroingDone g false) s = .next (({ s with
      bufs := { s.bufs with zeroing := s.bufs.zeroing.erase (granuleJob g.toNat) }
      dram := { s.dram with retired := g.toNat :: s.dram.retired, epochRetired := s.dram.epochRetired.bump } } : State).report
        0x0D08 0x23 g.toNat) :=
  (if_neg (not_not.2 h)).trans ((if_neg Bool.false_ne_true).trans (if_pos he))

theorem exec_granuleZeroingDone_early (he : tabGet 0 s.dram.epochs g.toNat ≠ 65535)
    (h : s.zeroTarget ≠ some (granuleJob g.toNat) ∨ s.zeroedAll (granuleJob g.toNat) = false) :
    exec (.granuleZeroingDone g false) s = .next s := by
  by_cases hm : granuleJob g.toNat ∈ s.bufs.zeroing
  · exact (if_neg (not_not.2 hm)).trans ((if_neg Bool.false_ne_true).trans ((if_neg he).trans (if_pos (by simpa using h))))
  · exact exec_granuleZeroingDone_absent s g false hm

theorem exec_granuleZeroingDone_ends (he : tabGet 0 s.dram.epochs g.toNat ≠ 65535) (ht : s.zeroTarget = some (granuleJob g.toNat))
    (hz : s.zeroedAll (granuleJob g.toNat) = true) : exec (.granuleZeroingDone g false) s =
      .next ((s.endZeroing (granuleJob g.toNat)).modDram fun d =>
        { d with epochs := tabSet 0 d.epochs g.toNat (tabGet 0 s.dram.epochs g.toNat + 1) }) :=
  (if_neg (not_not.2 (State.zeroTarget_mem ht))).trans ((if_neg Bool.false_ne_true).trans ((if_neg he).trans
    (if_neg (by simp [ht, hz]))))

end

/-! ### The last reference retires (R225) -/

theorem exec_bufferRelease (s : State) (h : Handle) (b : Buf) (hb : tabFind s.bufs.table h.toNat = some b) :
    exec (.bufferRelease h) s = if b.dying && s.refs h.toNat == 0 then .next (s.release h.toNat) else .next s := by
  have live : s.buf? h.toNat = some b := hb
  change execBufferRelease h s = _
  rw [execBufferRelease, live]

/-- What `BSEAL` registers: the whole buffer is written. -/
def sealUse (h : Nat) (b : Buf) : Use := { handles := [h], writes := [.ofBytes h 0 b.len] }

/-! ### BINFO (R223, R258) -/

theorem State.bufEntry_registered (s : State) (t : Tid) (h : Nat) (b : Buf) : (s.registered t {}).bufEntry h b = s.bufEntry h b := by
  rw [State.bufEntry, State.refs_registered]
  rfl

theorem State.length_bufEntry (s : State) (h : Nat) (b : Buf) : (s.bufEntry h b).length = 32 := by
  simp [State.bufEntry]

theorem State.bufEntry_eq (s : State) (h : Nat) (b : Buf) : s.bufEntry h b =
    leBytes 8 (if b.isSealed then 0 else b.base) ++ leBytes 8 b.len ++ leBytes 1 ((b.owner.map (·.val)).getD 0)
      ++ leBytes 1 (b.isSealed.toNat + 2 * b.shared.toNat + 4 * b.dying.toNat + 8 * (s.locked h).toNat + 16 * b.mapChecked.toNat)
      ++ leBytes 2 (s.refs h) ++ leBytes 2 h ++ leBytes 10 0 := by
  rw [State.bufEntry]
  cases b.owner <;> rfl

theorem Thread.scratchRead_bufEntry (s : State) (th : Thread) (wf : tabWf 0 th.scratch = true) (a h : Nat) (b : Buf) :
    (th.scratchWrite a (s.bufEntry h b)).scratchRead a 32 = s.bufEntry h b := by
  have read := Thread.scratchRead_scratchWrite (s.bufEntry h b) th a wf (by rw [State.length_bufEntry]; omega)
  rwa [State.length_bufEntry] at read

theorem Thread.scratchRead_atUnit (th : Thread) (w : IWord) (d : Option Done) (a n : Nat) :
    (th.atUnit w d).scratchRead a n = th.scratchRead a n := rfl

/-- An instruction that ends with a write to its own scratch moves its own thread alone. -/
theorem threadTo_scratchToUnit {s v : State} (e : v.threads = s.threads) (t : Tid) (w : IWord) (d : Option Done) (a : Nat) (l : List Byte) :
    ThreadTo s ((v.modThread t (·.scratchWrite a l)).toUnit t w d) t (((s.thread t).scratchWrite a l).atUnit w d) := by
  have same : ∀ n, v.thread n = s.thread n := fun n => by simp only [State.thread, e]
  obtain ⟨mine, others⟩ := threadTo_toUnit (v.modThread t (·.scratchWrite a l)) t w d
  obtain ⟨written, kept⟩ := threadTo_setThread v t ((v.thread t).scratchWrite a l)
  exact ⟨by rw [mine, ← same t]; exact congrArg (·.atUnit w d) written, fun n hn => (others n hn).trans ((kept n hn).trans (same n))⟩

section
variable (s : State) (t : Tid) (w : IWord) (b : Buf) (h : Nat) (hh : handleOf ((s.thread t).reg w.ra) = h)
  (h0 : h ≠ 0) (hlt : h < 4032) (hb : s.buf? h = some b)
include hh h0 hlt hb

/-- `BINFO` ENTRY with RB = 0 writes the buffer entry to scratch. -/
theorem exec_binfo_entry (hi : s.canIssue t 1) (hk : w.fn.toNat % 4 = 0) (hd : handleOf ((s.thread t).reg w.rb) = 0) (hf : s.unitFree t {}) :
    exec (.binfo t w) s = .next (((s.registered t {}).modThread t
      (·.scratchWrite (w.imm.toNat % 4096) (s.bufEntry h b))).toUnit t w (some (.code 0))) := by
  refine congrArg _ ((issue_run s t _ hi).trans ?_)
  simp only [hh, State.findHandle_live h0 hlt, hb, hk, hd, bind, Except.bind, pure, Except.pure, State.orFault, ne_eq, not_true_eq_false,
    if_false, if_true, need_true 0x20 (show ((0 : Nat) != 3) = true from rfl)]
  rw [startUnit_free _ _ _ _ _ hf, State.infoBlocks, if_neg (by decide), if_neg (by decide)]
  simp only [State.bufEntry_registered]

/-! ### BSEAL (R222, R259) -/

theorem exec_bseal_stranger (hi : s.canIssue t 1) (ho : b.owner ≠ some t) :
    exec (.bseal t w) s = .next (s.faultAt t .state 0x04 (s.thread t).pc) := by
  have found : s.checkHandle t h true = .error (.state, 0x04) := by
    simp [State.checkHandle, h0, Nat.not_le.2 hlt, hb, ho]
  refine congrArg _ ((issue_run s t _ hi).trans ?_)
  simp only [hh, found, bind, Except.bind, State.orFault]
  rfl

section
variable (ho : b.owner = some t) (hy : b.dying = false)
include ho hy

omit hh in
theorem checkHandle_owner : s.checkHandle t h true = .ok b := by
  simp [State.checkHandle, h0, Nat.not_le.2 hlt, hb, ho, hy, Buf.accessible]

theorem exec_bseal_sealed (hi : s.canIssue t 1) (hz : b.isSealed = true) :
    exec (.bseal t w) s = .next (s.faultAt t .state 0x16 (s.thread t).pc) := by
  refine congrArg _ ((issue_run s t _ hi).trans ?_)
  simp only [hh, checkHandle_owner s t b h h0 hlt hb ho hy, hz, bind, Except.bind, State.orFault, need_false 0x16 Bool.not_true]
  rfl

/-- Sealing in place changes the entry of the table alone. -/
theorem exec_bseal_inPlace (hi : s.canIssue t 1) (hz : b.isSealed = false) (hs : s.sharesGranule h b = false)
    (hf : s.unitFree t (sealUse h b)) :
    exec (.bseal t w) s = .next (
      let r := s.registered t (sealUse h b)
      ({ r with bufs := { r.bufs with table := tabPut r.bufs.table h { b with isSealed := true } } } : State).toUnit t w (some (.code 0))) := by
  refine congrArg _ ((issue_run s t _ hi).trans ?_)
  simp only [hh, checkHandle_owner s t b h h0 hlt hb ho hy, need_true 0x16 (show (!b.isSealed) = true by rw [hz]; rfl), bind,
    Except.bind, pure, Except.pure, State.orFault]
  exact (startUnit_free _ _ _ _ _ hf).trans (if_neg (Bool.eq_false_iff.1 hs))

end
end

/-- Settles O15: a buffer leaves the table by its owner's `BFREE` or with its last reference, its memory is zeroed granule by granule, and
`BINFO` and `BSEAL` read and change its entry. -/
theorem bufferFreeAndSeal : Obligations.BufferFreeAndSeal := by
  refine ⟨fun s t w hi hf => ⟨exec_bfree_zero s t w hi _ rfl, exec_bfree_own s t w hi _ rfl, fun h0 hlt hb => ?_, fun b h0 hlt hb => ⟨
      exec_bfree_stranger s t w hi _ rfl h0.ne' hlt b hb, fun ho => ?_⟩⟩,
    ⟨fun s h b hb => ?_, fun s g => ?_⟩, fun s t w b hi hc h0 hlt hb => ?_⟩
  · exact ⟨_, exec_bfree_notLive s t w hi _ rfl h0.ne' hlt hf hb, threadTo_toUnit_of_threads rfl t w _, rfl⟩
  · have run := exec_bfree_owner s t w hi _ rfl h0.ne' hlt hf b hb ho
    cases hd : b.dying with
    | true =>
      rw [hd, if_pos rfl] at run
      exact ⟨_, run, fun _ => ⟨threadTo_toUnit_of_threads rfl t w _, rfl⟩, fun h => absurd h (by simp), fun h => absurd h (by simp), rfl⟩
    | false =>
      rw [hd, if_neg Bool.false_ne_true] at run
      by_cases hr : s.refs (handleOf ((s.thread t).reg w.ra)) = 0
      · rw [if_pos hr, State.release_eq (s := s.registered t {}) (h := handleOf ((s.thread t).reg w.ra)) hb] at run
        exact ⟨_, run, fun h => absurd h (by simp), fun _ h => absurd hr h, fun _ _ => ⟨threadTo_toUnit_of_threads rfl t w _,
          not_mem_filter_key _ _, rfl⟩, rfl⟩
      · rw [if_neg hr] at run
        exact ⟨_, run, fun h => absurd h (by simp), fun _ _ => ⟨threadTo_toUnit_of_threads rfl t w _, tabFind_tabPut_same _ _ _, rfl⟩,
          fun _ h => absurd h hr, rfl⟩
  · have run := exec_bufferRelease s h b hb
    refine ⟨fun hd hr => ?_, fun held => ?_⟩
    · rw [if_pos (by simp [hd, hr]), State.release_eq hb] at run
      refine ⟨_, run, rfl, not_mem_filter_key _ _, fun plain => ?_, fun z g lo hi => ?_, rfl⟩
      · exact congrArg (s.bufs.zeroing ++ ·) (Buf.zeroJobs_unsealed plain)
      · exact List.mem_append_right _ (Buf.granule_mem_zeroJobs z lo hi)
    · rw [if_neg (by rcases held with hd | hr <;> simp [*])] at run
      exact run
  · refine ⟨fun absent ue => exec_granuleZeroingDone_absent s g ue absent, exec_granuleZeroingDone_early s g, fun he ht hz => ?_,
      fun hm he => ?_, fun hm he hc => ?_⟩
    · exact ⟨_, exec_granuleZeroingDone_ends s g he.ne ht hz, s.endZeroing_read_within g.toNat, s.endZeroing_read_outside g.toNat, rfl,
        s.endZeroing_readsBad g.toNat, rfl, rfl⟩
    · refine ⟨_, exec_granuleZeroingDone_last s g hm he, ?_, State.report_mem .., State.report_total ..⟩
      rw [State.report_dram]
      exact List.mem_cons_self
    · have run := exec_granuleZeroingDone_lost s g hm
      have known : ¬(g.toNat ∈ s.dram.epochUe ∨ s.dram.capacity ≤ g.toNat * 1048576) := not_or.2 ⟨he, Nat.not_le.2 hc⟩
      rw [State.loseEpoch, if_neg known] at run
      refine ⟨_, run, ?_, State.report_mem .., State.report_total ..⟩
      rw [State.report_dram]
      exact List.mem_cons_self
  · refine ⟨fun hk hd hf => ?_, exec_bseal_stranger s t w b _ rfl h0.ne' hlt hb hi,
      fun ho hy hz => exec_bseal_sealed s t w b _ rfl h0.ne' hlt hb ho hy hi hz, fun ho hy hz hs hf => ?_⟩
    · obtain ⟨mine, others⟩ := threadTo_scratchToUnit (s := s) (v := s.registered t {}) rfl t w (some (.code 0)) (w.imm.toNat % 4096)
        (s.bufEntry (handleOf ((s.thread t).reg w.ra)) b)
      obtain ⟨-, wf, -⟩ := hc
      refine ⟨_, exec_binfo_entry s t w b _ rfl h0.ne' hlt hb hi hk hd hf, ?_, ?_, ?_, others, rfl⟩
      · rw [mine, Thread.scratchRead_atUnit, Thread.scratchRead_bufEntry s _ (wf t)]
        exact State.bufEntry_eq s _ b
      · rw [mine]
        rfl
      · rw [mine, Thread.scratchWrite_frame]
        rfl
    · exact ⟨_, exec_bseal_inPlace s t w b _ rfl h0.ne' hlt hb ho hy hi hz hs hf, threadTo_toUnit_of_threads rfl t w _,
        tabFind_tabPut_same _ _ _, fun k hk => tabFind_tabPut_other _ _ _ _ hk, rfl⟩

end Sys2Proof.Machine
end

section
/-! O7: the arithmetic, shift, move and compare instructions. -/

namespace Sys2Proof.Machine

/-- An instruction of one or two words that can issue runs (R243). -/
theorem issue_words (s : State) (t : Tid) (w : IWord) (k : State → State) (h : s.canIssue t w.words) : s.issue t w.words k = k s := by
  cases two : w.two with
  | true =>
    have n : w.words = 2 := if_pos two
    rw [n] at h ⊢
    exact issue_run_two s t k h
  | false =>
    have n : w.words = 1 := if_neg (Bool.eq_false_iff.1 two)
    rw [n] at h ⊢
    exact issue_run s t k h

/-- An arithmetic instruction that issues writes RD and the flags and moves on. -/
theorem State.alu_run (s : State) (t : Tid) (w : IWord) (f : Flags → Reg → Reg → Reg × Flags) (h : s.canIssue t w.words) :
    s.alu t w f =
      let th := s.thread t
      let r := f th.fl (th.reg w.ra) (w.b th)
      s.setThread t { th.setReg w.rd r.1 with pc := th.pc + 8 * w.words, fl := r.2 } := by
  rw [State.alu, issue_words s t w _ h, State.modThread_eq]
  simp only [Thread.next, Thread.setReg_pc]

/-! ### Flags (Table 10-3) -/

theorem msb_eq_getLsbD (r : Reg) : r.msb = r.getLsbD 63 := rfl

/-- Signed overflow is a change of sign that neither operand explains. -/
theorem overflow_add (a b : Reg) :
    (a.msb == b.msb && (a + b).msb != a.msb) = decide (a.toInt + b.toInt ≠ (a + b).toInt) := by
  have := a.toInt_lt; have := a.le_toInt; have := b.toInt_lt; have := b.le_toInt
  rw [Bool.eq_iff_iff]
  simp only [BitVec.msb_eq_toInt, BitVec.toInt_add, Int.bmod_def, Bool.and_eq_true, beq_iff_eq, bne_iff_ne, ne_eq, decide_eq_true_eq,
    decide_eq_decide]
  omega

theorem overflow_sub (a b : Reg) :
    (a.msb != b.msb && (a - b).msb != a.msb) = decide (a.toInt - b.toInt ≠ (a - b).toInt) := by
  have := a.toInt_lt; have := a.le_toInt; have := b.toInt_lt; have := b.le_toInt
  rw [Bool.eq_iff_iff]
  simp only [BitVec.msb_eq_toInt, BitVec.toInt_sub, Int.bmod_def, Bool.and_eq_true, bne_iff_ne, ne_eq, decide_eq_true_eq,
    decide_eq_decide]
  omega

theorem Flags.ofAdd_eq (a b : Reg) : Flags.ofAdd a b =
    { z := a + b == 0, n := (a + b).getLsbD 63, c := decide (2 ^ 64 ≤ a.toNat + b.toNat)
      v := decide (a.toInt + b.toInt ≠ (a + b).toInt) } := by
  rw [Flags.ofAdd, overflow_add, msb_eq_getLsbD]

theorem Flags.ofSub_eq (a b : Reg) : Flags.ofSub a b =
    { z := a - b == 0, n := (a - b).getLsbD 63, c := decide (b.toNat ≤ a.toNat)
      v := decide (a.toInt - b.toInt ≠ (a - b).toInt) } := by
  rw [Flags.ofSub, overflow_sub, msb_eq_getLsbD]

theorem Flags.ofShift_eq (r : Reg) (out : Bool) : Flags.ofShift r out = { z := r == 0, n := r.getLsbD 63, c := out, v := false } := rfl

/-! ### Shifts over the integers (R253) -/

theorem shiftLeft_eq_ofNat (a : Reg) (k : Nat) : a <<< k = BitVec.ofNat 64 (a.toNat * 2 ^ k) := by
  apply BitVec.eq_of_toNat_eq
  rw [BitVec.toNat_shiftLeft, BitVec.toNat_ofNat, Nat.shiftLeft_eq]

theorem shrValue_eq (w : IWord) (a : Reg) (k : Nat) : shrValue w a k =
    if w.fn.getLsbD 1 then BitVec.ofInt 64 (a.toInt / 2 ^ k) else BitVec.ofNat 64 (a.toNat / 2 ^ k) := by
  have arith : a.sshiftRight k = BitVec.ofInt 64 (a.toInt / 2 ^ k) := by
    rw [← BitVec.ofInt_toInt (x := a.sshiftRight k), BitVec.toInt_sshiftRight, Int.shiftRight_eq_div_pow]
    norm_cast
  have logic : a >>> k = BitVec.ofNat 64 (a.toNat / 2 ^ k) := by
    apply BitVec.eq_of_toNat_eq
    rw [BitVec.toNat_ushiftRight, BitVec.toNat_ofNat, Nat.shiftRight_eq_div_pow,
      Nat.mod_eq_of_lt (Nat.lt_of_le_of_lt (Nat.div_le_self _ _) a.isLt)]
  rw [shrValue, arith, logic]

/-- The last bit shifted out is a digit of the value. -/
theorem shlOut_eq (a : Reg) (k : Nat) : shlOut a k = decide (k ≠ 0 ∧ a.toNat / 2 ^ (64 - k) % 2 = 1) := by
  rw [shlOut, Bool.decide_and, ← BitVec.testBit_toNat, Nat.testBit_eq_decide_div_mod_eq]

theorem shrOut_eq (a : Reg) (k : Nat) : shrOut a k = decide (k ≠ 0 ∧ a.toNat / 2 ^ (k - 1) % 2 = 1) := by
  rw [shrOut, Bool.decide_and, ← BitVec.testBit_toNat, Nat.testBit_eq_decide_div_mod_eq]

/-- The value and the flags of `SHL`. -/
theorem shl_eq (a : Reg) (k : Nat) : (a <<< k, Flags.ofShift (a <<< k) (shlOut a k)) =
    (let l := BitVec.ofNat 64 (a.toNat * 2 ^ k)
    (l, { z := l == 0, n := l.getLsbD 63, c := decide (k ≠ 0 ∧ a.toNat / 2 ^ (64 - k) % 2 = 1), v := false })) := by
  rw [shiftLeft_eq_ofNat, shlOut_eq, Flags.ofShift_eq]

/-- The value and the flags of `SHR`. -/
theorem shr_eq (w : IWord) (a : Reg) (k : Nat) : (shrValue w a k, Flags.ofShift (shrValue w a k) (shrOut a k)) =
    (let r := if w.fn.getLsbD 1 then BitVec.ofInt 64 (a.toInt / 2 ^ k) else BitVec.ofNat 64 (a.toNat / 2 ^ k)
    (r, { z := r == 0, n := r.getLsbD 63, c := decide (k ≠ 0 ∧ a.toNat / 2 ^ (k - 1) % 2 = 1), v := false })) := by
  rw [shrValue_eq, shrOut_eq, Flags.ofShift_eq]

/-! ### The instructions -/

section
variable (s : State) (t : Tid) (w : IWord) (h : s.canIssue t w.words)
include h

theorem exec_alu (f : Flags → Reg → Reg → Reg × Flags) (r : Reg) (fl : Flags)
    (e : f (s.thread t).fl ((s.thread t).reg w.ra) (w.b (s.thread t)) = (r, fl)) : Host.Outcome.next (s.alu t w f) = (.next
      (s.setThread t { (s.thread t).setReg w.rd r with pc := (s.thread t).pc + 8 * w.words, fl := fl }) : Answer) := by
  rw [State.alu_run s t w f h]
  simp only [e]

theorem exec_cmp : exec (.cmp t w) s = .next (s.setThread t { s.thread t with
    pc := (s.thread t).pc + 8 * w.words, fl := Flags.ofSub ((s.thread t).reg w.ra) (w.b (s.thread t)) }) :=
  congrArg _ (issue_words s t w _ h)

end

/-- Settles O7: each instruction writes its value and the flags of Table 10-3, read over the integers. -/
theorem arithmeticAndShifts : Obligations.ArithmeticAndShifts := by
  refine ⟨fun s t w h => ⟨?_, ?_, ?_, ?_, ?_, ?_⟩, fun s t w h => ⟨?_, ?_, ?_⟩⟩
  · exact exec_alu s t w h _ _ _ (congrArg _ (Flags.ofAdd_eq _ _))
  · exact exec_alu s t w h _ _ _ (congrArg _ (Flags.ofSub_eq _ _))
  · exact exec_alu s t w h _ _ _ rfl
  · exact exec_alu s t w h _ _ _ rfl
  · exact exec_alu s t w h _ _ _ rfl
  · exact (exec_cmp s t w h).trans (by rw [Flags.ofSub_eq]; rfl)
  · exact exec_alu s t w h _ _ _ (shl_eq _ _)
  · exact exec_alu s t w h _ _ _ (shr_eq _ _ _)
  · exact exec_alu s t w h _ _ _ rfl

end Sys2Proof.Machine
end

section
/-! O12: the checks of `STH` in their order (R250, R251, R257). -/

namespace Sys2Proof.Machine

/-! ### The handle (R222, R250) -/

theorem Buf.accessible_iff (b : Buf) (t : Tid) :
    b.accessible t = true ↔ b.owner = some t ∨ (b.isSealed = false ∧ b.shared = true ∧ b.owner ≠ none) := by
  simp only [Buf.accessible, Bool.or_eq_true, Bool.and_eq_true, Bool.not_eq_true', beq_iff_eq, Option.isSome_iff_ne_none, and_comm,
    and_assoc]

section
variable {s : State} {t : Tid} {h : Nat}

theorem State.checkOpen_zero (h0 : h = 0) : s.checkOpen t h = .error (.state, 0x20) := by
  simp only [State.checkOpen, State.checkHandle, h0, if_true]

theorem State.checkOpen_device (hd : 4032 ≤ h) : s.checkOpen t h = .error (.seal, 0) := by
  have h0 : h ≠ 0 := by omega
  simp only [State.checkOpen, State.checkHandle, h0, hd, if_false, if_true]

theorem State.checkOpen_notLive (h0 : 0 < h) (hlt : h < 4032) (hb : s.buf? h = none) : s.checkOpen t h = .error (.state, 0x05) := by
  simp only [State.checkOpen, State.checkHandle, h0.ne', Nat.not_le.2 hlt, hb, if_false]

/-- A live handle: whose buffer it is, whether it is dying, whether it is sealed. -/
theorem State.checkOpen_live (hs : s.syncOp t = none) (h0 : 0 < h) (hlt : h < 4032) {b : Buf} (hb : s.buf? h = some b) : s.checkOpen t h =
    if b.accessible t = false then .error (.state, 0x04)
    else if b.dying = true then .error (.state, 0x05)
    else if b.isSealed = true then .error (.seal, 0)
    else .ok b := by
  simp only [State.checkOpen, State.checkHandle, h0.ne', Nat.not_le.2 hlt, hb, hs, if_false, Option.isNone_none, Bool.and_true,
    Bool.false_and, Bool.or_false, Bool.not_eq_true']
  cases b.accessible t with
  | false => rfl
  | true => cases b.dying <;> rfl

end

/-! ### The access (R251, R257) -/

theorem accessOk_misaligned {b : Buf} {off n : Nat} (h : off % n ≠ 0) : accessOk b off n = .error (.state, 0x21) := by
  rw [accessOk, need_false 0x21 (beq_eq_false_iff_ne.2 h)]
  rfl

theorem accessOk_aligned {b : Buf} {off n : Nat} (h : off % n = 0) : accessOk b off n = b.within off n := by
  rw [accessOk, need_true 0x21 (beq_iff_eq.2 h)]
  rfl

theorem Buf.within_past {b : Buf} {off n : Nat} (h : b.len < off + n) : b.within off n = .error (.state, 0x22) := if_neg (by omega)

theorem Buf.within_ok {b : Buf} {off n : Nat} (h : off + n ≤ b.len) : b.within off n = .ok () := if_pos h

/-! ### STH -/

/-- The offset of `LDH` and `STH`: RB + IMM. -/
def Thread.accessOff (th : Thread) (w : IWord) : Nat := (th.reg w.rb + w.simm).toNat

section
variable {s : State} {t : Tid} {w : IWord} (hi : s.canIssue t 1)
include hi

/-- A handle that fails its checks faults the thread before anything else is looked at. -/
theorem exec_sth_refused {f : Flt} {sub : Nat} (hc : s.checkOpen t (handleOf ((s.thread t).reg w.ra)) = .error (f, sub)) :
    exec (.sth t w) s = .next (s.faultAt t f sub (s.thread t).pc) := by
  refine congrArg _ ((issue_run s t _ hi).trans ?_)
  simp only [hc, bind, Except.bind, State.orFault]
  rfl

section
variable {b : Buf} (hc : s.checkOpen t (handleOf ((s.thread t).reg w.ra)) = .ok b)
include hc

theorem exec_sth_badAccess {f : Flt} {sub : Nat} (ha : accessOk b ((s.thread t).accessOff w) (IWord.accSize w) = .error (f, sub)) :
    exec (.sth t w) s = .next (s.faultAt t f sub (s.thread t).pc) := by
  rw [Thread.accessOff] at ha
  refine congrArg _ ((issue_run s t _ hi).trans ?_)
  simp only [hc, ha, bind, Except.bind, State.orFault]
  rfl

theorem exec_sth_locked (ha : accessOk b ((s.thread t).accessOff w) (IWord.accSize w) = .ok ())
    (hl : s.locked (handleOf ((s.thread t).reg w.ra)) = true) : exec (.sth t w) s = .next (s.faultAt t .state 0x07 (s.thread t).pc) := by
  rw [Thread.accessOff] at ha
  refine congrArg _ ((issue_run s t _ hi).trans ?_)
  simp only [hc, ha, need_false 0x07 (show (!s.locked _) = false by rw [hl]; rfl), bind, Except.bind, State.orFault]
  rfl

end
end

/-- Settles O12: each check is reached when those before it pass, and the first that fails is the fault. -/
theorem handleChecksOfSth : Obligations.HandleChecksOfSth := by
  intro s t w hi hs
  refine ⟨fun h0 => exec_sth_refused hi (State.checkOpen_zero h0), fun hd => exec_sth_refused hi (State.checkOpen_device hd),
    fun h0 hlt hb => exec_sth_refused hi (State.checkOpen_notLive h0 hlt hb), fun b h0 hlt hb => ?_⟩
  have check := State.checkOpen_live hs h0 hlt hb
  have opens : b.accessible t = true → b.dying = false → b.isSealed = false → s.checkOpen t _ = .ok b := fun mine hy hz => by
    rw [check, if_neg (by simp [mine]), if_neg (by simp [hy]), if_neg (by simp [hz])]
  rw [← Buf.accessible_iff]
  refine ⟨fun mine => exec_sth_refused hi ?_, fun mine hy => exec_sth_refused hi ?_, fun mine hy hz => exec_sth_refused hi ?_,
    fun mine hy hz ha => exec_sth_badAccess hi (opens mine hy hz) (accessOk_misaligned ha),
    fun mine hy hz ha he => exec_sth_badAccess hi (opens mine hy hz) ((accessOk_aligned ha).trans (Buf.within_past he)),
    fun mine hy hz ha he => exec_sth_locked hi (opens mine hy hz) ((accessOk_aligned ha).trans (Buf.within_ok he))⟩
  · exact check.trans (if_pos (Bool.eq_false_iff.2 mine))
  · exact check.trans ((if_neg (by simp [mine])).trans (if_pos hy))
  · exact check.trans ((if_neg (by simp [mine])).trans ((if_neg (by simp [hy])).trans (if_pos hz)))

end Sys2Proof.Machine
end

section
/-! O8: branches, calls, `HALT` and its completion. -/

namespace Sys2Proof.Machine

/-! ### Branches (R244, R247) -/

theorem IWord.target_eq (w : IWord) (a : Nat) : w.target a = ((a + 8 * w.imm.toInt) % 2 ^ 64).toNat := rfl

/-- The conditions of Table 10-4, by code. -/
def Flags.conds (f : Flags) : List Bool :=
  [f.z, !f.z, f.n ^^ f.v, !(f.n ^^ f.v), !f.c, f.c, f.n, !f.n, f.v, !f.v, !f.z && !(f.n ^^ f.v), f.z || (f.n ^^ f.v), f.c && !f.z,
    !f.c || f.z]

theorem Flags.cond_eq (f : Flags) (code : BitVec 4) : f.cond code = f.conds[code.toNat]? := by
  have same : (f.n == f.v) = !(f.n ^^ f.v) := by cases f.n <;> cases f.v <;> rfl
  have hlt : code.toNat < 16 := code.isLt
  unfold Flags.cond Flags.conds
  rw [same]
  generalize code.toNat = n at hlt
  interval_cases n <;> rfl

section
variable (s : State) (t : Tid) (w : IWord) (hi : s.canIssue t 1)
include hi

theorem exec_br : exec (.br t w) s = .next (s.setThread t ((s.thread t).branch w)) := congrArg _ (issue_run s t _ hi)

theorem exec_brc (c : Bool) (hc : (s.thread t).fl.conds[w.fn.toNat % 16]? = some c) : exec (.brc t w) s =
    .next (s.setThread t { s.thread t with pc := if c then w.target (s.thread t).pc else (s.thread t).pc + 8 }) := by
  have holds : (s.thread t).fl.cond (w.fn.setWidth 4) = some c := by rw [Flags.cond_eq, BitVec.toNat_setWidth]; exact hc
  refine congrArg _ ((issue_run s t _ hi).trans ?_)
  rw [holds]
  cases c <;> rfl

/-- A code that Table 10-4 does not assign faults (R247). -/
theorem exec_brc_unassigned (h : 14 ≤ w.fn.toNat % 16) : exec (.brc t w) s = .next (s.faultAt t .state 0x03 (s.thread t).pc) := by
  have unassigned : (s.thread t).fl.cond (w.fn.setWidth 4) = none := by
    rw [Flags.cond_eq, BitVec.toNat_setWidth]
    exact List.getElem?_eq_none h
  refine congrArg _ ((issue_run s t _ hi).trans ?_)
  rw [unassigned]
  rfl

theorem exec_loop : exec (.loop t w) s = .next (s.setThread t { (s.thread t).setReg w.rd ((s.thread t).reg w.rd - 1) with
    pc := if (s.thread t).reg w.rd - 1 = 0 then (s.thread t).pc + 8 else w.target (s.thread t).pc }) := by
  refine congrArg _ ((issue_run s t _ hi).trans ?_)
  simp only [State.modThread_eq]
  split
  · rw [Thread.next, Thread.setReg_pc]
  · rw [Thread.branch, Thread.setReg_pc]

/-! ### Calls (R219, R254) -/

theorem exec_call (h : (s.thread t).stack.length < 16) : exec (.call t w) s =
    .next (s.setThread t { (s.thread t).branch w with stack := ((s.thread t).pc + 8) :: (s.thread t).stack }) := by
  refine congrArg _ ((issue_run s t _ hi).trans ?_)
  rw [if_neg (Nat.not_le.2 h)]
  rfl

theorem exec_call_deep (h : 16 ≤ (s.thread t).stack.length) :
    exec (.call t w) s = .next (s.faultAt t .state 0x02 (s.thread t).pc) := by
  refine congrArg _ ((issue_run s t _ hi).trans ?_)
  rw [if_pos h]
  rfl

theorem exec_ret (a : Nat) (r : List Nat) (h : (s.thread t).stack = a :: r) :
    exec (.ret t w) s = .next (s.setThread t { s.thread t with pc := a, stack := r }) := by
  refine congrArg _ ((issue_run s t _ hi).trans ?_)
  rw [h]
  rfl

theorem exec_halt : exec (.halt t w) s = .next (s.halt t) := congrArg _ (issue_run s t _ hi)

theorem exec_ret_outermost (h : (s.thread t).stack = []) : exec (.ret t w) s = exec (.halt t w) s := by
  refine (congrArg _ ((issue_run s t _ hi).trans ?_)).trans (exec_halt s t w hi).symm
  rw [h]

end

/-! ### Items of Q41 (R300, R303) -/

/-- A level that passes neither mark crosses nothing (R300). -/
theorem Wm.cross_none (w : Wm) {lo hi old new : Nat} (up : hi ≤ old ∨ new < hi) (down : old ≤ lo ∨ lo < new) :
    w.cross lo hi old new = (w, false) := by
  have h1 : ¬(old < hi ∧ hi ≤ new) := by omega
  have h2 : ¬(lo < old ∧ new ≤ lo) := by omega
  simp [Wm.cross, h1, h2]

/-- A queue whose level passes neither mark is replaced and nothing else happens. -/
theorem State.putQueueRaw_quiet (s : State) (i : Fin 64) (q : Queue) (up : q.high ≤ s.queues[i].level ∨ q.level < q.high)
    (down : s.queues[i].level ≤ q.low ∨ q.low < q.level) :
    s.putQueueRaw i q = ({ s with queues := s.queues.set i q }, false) := by
  simp only [State.putQueueRaw, q.wm.cross_none up down, Bool.false_eq_true, if_false]

/-- An item that Q41 takes below its mark joins the published ones. -/
theorem State.post41_joins (s : State) (d : List Byte) (room : itemSpace d ≤ s.queues[41].space) (hm : s.queues[41].wmark = false)
    (hn : d ≠ []) (hl : s.queues[41].level + d.length < s.queues[41].high) :
    (s.post41 d).queues[41].ready = s.queues[41].ready ++ [d] := by
  have pos : 0 < d.length := List.length_pos_iff.2 hn
  have level : (s.queues[41].push d).level = s.queues[41].level + d.length := by
    simp [push_fits _ _ room hm, Queue.level]
  have marks : (s.queues[41].push d).low = s.queues[41].low ∧ (s.queues[41].push d).high = s.queues[41].high := by
    simp [push_fits _ _ room hm]
  obtain ⟨low, high⟩ := marks
  have down : s.queues[41].level ≤ s.queues[41].low ∨ s.queues[41].low < s.queues[41].level + d.length := by omega
  have raw := s.putQueueRaw_quiet 41 (s.queues[41].push d) (.inr (by rw [level, high]; exact hl))
    (by rw [level, low]; exact down)
  simp only [State.post41, room, if_true, raw, Bool.false_eq_true, if_false, State.raise_queues]
  exact (congrArg Queue.ready (vset_same s.queues 41 _)).trans (by rw [push_fits _ _ room hm])

theorem queue_kept {u s : State} {k : Nat} (h : ∀ i : Fin 64, i.val = k → u.queues[i] = s.queues[i]) : u.queues[k]? = s.queues[k]? := by
  by_cases hk : k < 64
  · rw [Vector.getElem?_eq_getElem hk, Vector.getElem?_eq_getElem hk]
    exact congrArg some (h ⟨k, hk⟩ rfl)
  · rw [Vector.getElem?_eq_none (Nat.not_lt.1 hk), Vector.getElem?_eq_none (Nat.not_lt.1 hk)]

/-! ### The completion of `HALT` (R215, R254) -/

/-- A thread that has ended its program. -/
def Thread.halted (th : Thread) : Thread := { th with st := .idle, wait := .none, stack := [] }

/-- The state with the completion record of REC_DONE in Q41. -/
def State.recorded (s : State) (t : Tid) (th : Thread) : State := if th.recDone then s.post41 (completionItem t th) else s

/-- The state with the vector of INT_DONE raised. -/
def State.signalled (s : State) (t : Tid) (th : Thread) : State := if th.intDone then s.raise t.val else s

theorem exec_haltCompletion (s : State) (t : Tid) (hq : s.sequencing = true) (hs : (s.thread t).st = .waiting)
    (hw : (s.thread t).wait = .halt) (ha : (s.thread t).async = []) : exec (.haltCompletion t) s =
      .next (((s.setThread t (s.thread t).halted).recorded t (s.thread t)).signalled t (s.thread t)) :=
  if_pos ⟨hs, hw, ha, hq⟩

theorem exec_haltCompletion_outstanding (s : State) (t : Tid) (ha : (s.thread t).async ≠ []) : exec (.haltCompletion t) s = .next s :=
  if_neg fun ⟨_, _, h, _⟩ => ha h

theorem State.recorded_onlyEvents (s : State) (t : Tid) (th : Thread) : OnlyEvents s (s.recorded t th) := by
  rw [State.recorded]
  split
  · exact s.post41_onlyEvents _
  · exact .refl s

theorem State.signalled_threads (s : State) (t : Tid) (th : Thread) : (s.signalled t th).threads = s.threads := by
  rw [State.signalled]
  split
  · exact s.raise_threads _
  · rfl

theorem State.signalled_queues (s : State) (t : Tid) (th : Thread) : (s.signalled t th).queues = s.queues := by
  rw [State.signalled]
  split
  · exact s.raise_queues _
  · rfl

theorem State.recorded_frame (s : State) (t : Tid) (th : Thread) : s.recorded t th =
    { s with threads := (s.recorded t th).threads, queues := (s.recorded t th).queues, host := (s.recorded t th).host } := by
  rw [State.recorded]
  split
  · exact s.post41_frame _
  · rfl

theorem State.signalled_frame (s : State) (t : Tid) (th : Thread) :
    s.signalled t th = { s with host := (s.signalled t th).host } := by
  rw [State.signalled]
  split
  · exact s.raise_frame _
  · rfl

theorem State.recorded_other (s : State) (t : Tid) (th : Thread) (k : Fin 64) (h : k ≠ 41) : (s.recorded t th).queues[k] = s.queues[k] := by
  rw [State.recorded]
  split
  · exact s.post41_other _ k h
  · rfl

theorem completionItem_eq (t : Tid) (th : Thread) : completionItem t th =
    leBytes 16 (t.val + 0x01 * 2 ^ 8 + th.entry.toNat * 2 ^ 16 + (th.reg 1).toNat * 2 ^ 64) := by
  rw [completionItem, Nat.mul_comm 65536, Nat.mul_comm (2 ^ 64)]
  rfl

theorem itemSpace_completionItem (t : Tid) (th : Thread) : itemSpace (completionItem t th) = 32 := by
  rw [itemSpace, completionItem, length_leBytes]
  rfl

/-- The 16-byte record of REC_DONE joins Q41 (R254). -/
theorem State.recorded_ready (s : State) (t : Tid) (th : Thread) (hr : th.recDone = true) (hm : s.queues[41].wmark = false)
    (room : 32 ≤ s.queues[41].space) (hl : s.queues[41].level + 16 < s.queues[41].high) :
    (s.recorded t th).queues[41].ready = s.queues[41].ready ++ [completionItem t th] := by
  have length : (completionItem t th).length = 16 := length_leBytes 16 _
  rw [State.recorded, if_pos hr]
  exact s.post41_joins _ (by rw [itemSpace_completionItem]; exact room) hm (List.ne_nil_of_length_pos (by omega)) (by rw [length]; exact hl)

/-- Settles O8: a branch moves the thread's pc alone, a call its stack too; the end of `HALT` is an idle thread, an item and a vector. -/
theorem controlFlow : Obligations.ControlFlow := by
  refine ⟨fun s t w hi => ?_, fun s t w hi => ⟨exec_call s t w hi, exec_call_deep s t w hi, exec_ret s t w hi,
    exec_ret_outermost s t w hi, exec_halt s t w hi⟩, fun s t hq => ⟨fun hs hw ha => ?_, exec_haltCompletion_outstanding s t⟩⟩
  · have brc : ∀ n c, (s.thread t).fl.conds[n]? = some c → w.fn.toNat % 16 = n → exec (.brc t w) s =
        .next (s.setThread t { s.thread t with pc := if c then w.target (s.thread t).pc else (s.thread t).pc + 8 }) :=
      fun n c hc hn => exec_brc s t w hi c (hn ▸ hc)
    refine ⟨exec_br s t w hi, brc 0 _ rfl, brc 1 _ rfl, brc 2 _ rfl, brc 3 _ rfl, brc 4 _ rfl, brc 5 _ rfl, brc 6 _ rfl, brc 7 _ rfl,
      brc 8 _ rfl, brc 9 _ rfl, brc 10 _ rfl, brc 11 _ rfl, brc 12 _ rfl, brc 13 _ rfl, exec_brc_unassigned s t w hi,
      exec_loop s t w hi, fun h0 => ?_⟩
    rw [exec_loop s t w hi, h0, Thread.reg_zero, if_neg (by decide)]
    rfl
  · have run := exec_haltCompletion s t hq hs hw ha
    generalize hv : s.setThread t (s.thread t).halted = v at run
    have ended : (((v.recorded t (s.thread t)).signalled t (s.thread t)).thread t) =
        { (s.thread t).halted with evt := ((v.recorded t (s.thread t)).thread t).evt } := by
      have events := v.recorded_onlyEvents t (s.thread t) t
      rw [← hv, State.setThread_thread, hv] at events
      rw [State.thread, State.signalled_threads]
      exact events
    have queues : v.queues = s.queues := by rw [← hv]; rfl
    refine ⟨_, run, by rw [ended]; rfl, by rw [ended]; rfl, by rw [ended]; rfl, fun hint => ?_, fun hrec hint => ?_,
      fun hrec hm room hl => ?_, fun q hq41 => queue_kept fun i hik => ?_, ?_⟩
    · rw [State.signalled, if_pos hint]
      exact State.raise_cause _ _ (by omega)
    · rw [State.recorded, State.signalled, hrec, hint, ← hv]
      rfl
    · rw [State.signalled_queues, State.recorded_ready v t _ hrec (by rw [queues]; exact hm) (by rw [queues]; exact room)
        (by rw [queues]; exact hl), queues, completionItem_eq]
    · rw [State.signalled_queues, State.recorded_other _ _ _ _ (fun e => hq41 (by rw [← hik, e]; rfl)), queues]
    · rw [State.signalled_frame, State.recorded_frame, ← hv]
      rfl

end Sys2Proof.Machine
end

section
/-! SUPPORT. Items put into a queue and taken from it, for every queue whose words lie in the device or in DRAM without errors. -/

namespace Sys2Proof.Machine

/-! ### The words of an item (R293, R295) -/

/-- DRAM without errors where the words of a queue lie in it. -/
def State.wordsReadable (s : State) (q : Fin 64) : Prop := s.queueStore q ≠ none → s.dram.ErrorFree

theorem State.queueStore_small {s : State} {q : Fin 64} (h : s.queues[q].kind ≠ .large) : s.queueStore q = none :=
  if_pos (by rw [bne_iff_ne.2 h]; exact .inl rfl)

theorem State.wordsReadable_of_large {s : State} {q : Fin 64} (h : s.queues[q].kind = .large → s.dram.ErrorFree) : s.wordsReadable q :=
  fun stored => h (not_not.1 fun small => stored (State.queueStore_small small))

theorem State.writeWords_clean (s : State) (b : Buf) (pos : Nat) (d : List Byte) (last : Bool) (port : Nat) (h : s.dram.ErrorFree) :
    ∃ m, CleanWrite s (s.writeWords b pos d last port) m := by
  rw [State.writeWords]
  split
  · exact ⟨_, .refl h⟩
  · have words := s.writeDram_cleanWrite (b.base + b.len / 256 + pos) d port h
    exact ⟨_, words.trans (State.writeDram_cleanWrite _ _ _ port words.errorFree)⟩

/-- Storing the words of an item is a write of DRAM, and nothing at all where the queue keeps them in the device. -/
theorem State.storeWords_frame (s : State) (q : Fin 64) (item : List Byte) (port : Nat) (h : s.wordsReadable q) :
    let u := s.storeWords q item port
    u = { s with mem := u.mem, dram := u.dram, nextOp := u.nextOp } ∧ (s.queueStore q = none → u = s) := by
  cases hb : s.queueStore q with
  | none =>
    have same : s.storeWords q item port = s := by rw [State.storeWords, hb]
    exact ⟨by rw [same], fun _ => same⟩
  | some b =>
    refine ⟨?_, fun absent => absurd absent (Option.some_ne_none b)⟩
    have clean := h (by rw [hb]; exact Option.some_ne_none b)
    simp only [State.storeWords, hb]
    generalize s.queues[q].ahead _ _ / 32 = w
    generalize item ++ List.replicate _ _ = d
    generalize s.queues[q].cap - s.queues[q].wpos = k
    obtain ⟨m, first⟩ := s.writeWords_clean b s.queues[q].wpos (d.take k) (decide (d.length ≤ k)) port clean
    obtain ⟨n, second⟩ := State.writeWords_clean _ b 0 (d.drop k) true port first.errorFree
    have all := (first.trans second).trans
      (State.writeDram_cleanWrite _ (b.base + w / 256 * 32 + 31) [BitVec.ofNat 8 ((item.length - 1) % 32 + 1)] port second.errorFree)
    rw [all.frame]

/-- Reading the words of an item is a read of DRAM that finds them whole, and nothing at all where the queue keeps them in the device. -/
theorem State.readWords_frame (s : State) (q : Fin 64) (n port : Nat) (h : s.wordsReadable q) :
    let u := (s.readWords q n port).1
    (s.readWords q n port).2 = true ∧ u = { s with dram := u.dram, nextOp := u.nextOp } ∧ (s.queueStore q = none → u = s) := by
  by_cases absent : s.queueStore q = none
  · have same : s.readWords q n port = (s, true) := by rw [State.readWords, absent]
    exact ⟨by rw [same], by rw [same], fun _ => by rw [same]⟩
  · obtain ⟨whole, read⟩ := s.readWords_errorFree q n port (h absent)
    exact ⟨whole, by rw [read.frame], fun h => absurd h absent⟩

/-! ### An update of a queue (R300, R302) -/

/-- The level of a queue that its contents replace passes neither mark. -/
def Queue.quietAs (x y : Queue) : Prop := (y.high ≤ x.level ∨ y.level < y.high) ∧ (x.level ≤ y.low ∨ y.low < y.level)

/-- A queue whose pointers agree takes its new contents; Q41 does where no crossing posts an item to it. -/
theorem State.updQueue_same (s : State) (q : Fin 64) (x : Queue) (hx : x.upset = none) (h : q ≠ 41 ∨ s.queues[q].quietAs x) :
    s.updQueue q x = s.putQueue q x ∧ ∃ wm, (s.putQueue q x).queues[q] = { x with wm := wm } := by
  have same : ∃ wm, (s.putQueue q x).queues[q] = { x with wm := wm } := by
    rcases h with h | ⟨up, down⟩
    · exact s.putQueue_same q x h
    · refine ⟨x.wm, ?_⟩
      simp only [State.putQueue, s.putQueueRaw_quiet q x up down, Bool.false_eq_true, if_false]
      exact vset_same _ _ _
  obtain ⟨wm, hwm⟩ := same
  have agreed : (s.putQueue q x).queues[q].upset = none := (congrArg Queue.upset hwm).trans hx
  exact ⟨by simp only [State.updQueue, State.compare, agreed], wm, hwm⟩

/-! ### Putting (R294) -/

/-- An item that fits a queue without a writer's mark joins its published items. -/
structure ItemPut (s u : State) (q : Fin 64) (item : List Byte) : Prop where
  frame : u = { s with
    threads := u.threads, queues := u.queues, host := u.host, mem := u.mem, dram := u.dram, nextOp := u.nextOp }
  events : OnlyEvents s u
  ready : u.queues[q].ready = s.queues[q].ready ++ [item]
  others : ∀ k : Fin 64, k ≠ q → k ≠ 41 → u.queues[k] = s.queues[k]
  small : s.queueStore q = none → u.mem = s.mem ∧ u.dram = s.dram

theorem State.pushItem_put (s : State) (q : Fin 64) (item : List Byte) (port : Nat) (hq : q ≠ 41) (hm : s.queues[q].wmark = false)
    (hu : s.queues[q].upset = none) (room : itemSpace item ≤ s.queues[q].space) (h : s.wordsReadable q) :
    ItemPut s (s.pushItem q item port) q item := by
  obtain ⟨stored, inDevice⟩ := s.storeWords_frame q item port h
  simp only [State.pushItem, room, if_true]
  generalize s.storeWords q item port = v at stored inDevice
  have queues : v.queues = s.queues := by rw [stored]
  have threads : v.threads = s.threads := by rw [stored]
  have pushed := push_fits _ item room hm
  obtain ⟨put, wm, same⟩ := v.updQueue_same q (v.queues[q].push item) (by rw [queues, pushed]; exact hu) (.inl hq)
  rw [put]
  refine ⟨by rw [State.putQueue_frame, stored], ?_, ?_, fun k hk hk41 => ?_, fun small => ?_⟩
  · exact (OnlyEvents.of_threads threads).trans (v.putQueue_onlyEvents _ _)
  · rw [congrArg Queue.ready same, queues, pushed]
  · rw [v.putQueue_other q k _ hk hk41, queues]
  · rw [State.putQueue_mem, State.putQueue_dram, inDevice small]
    exact ⟨rfl, rfl⟩

/-! ### Taking (R297) -/

/-- A queue whose oldest published item is taken: behind a reader's mark it keeps its space. -/
def Queue.taken (x : Queue) (item : List Byte) (rest : List (List Byte)) : Queue :=
  { x with
    ready := rest, itemBase := 0, rpos := x.ahead x.rpos (itemSpace item), kept := if x.rmark then x.kept ++ [item] else []
    tags := if x.rmark then x.tags else x.tags.drop 1 }

theorem Queue.take_eq {x : Queue} {item : List Byte} {rest : List (List Byte)} (h : x.ready = item :: rest) :
    x.take = some (item, x.taken item rest) := by
  simp only [Queue.take, h]
  rfl

/-- What taking an item lowers the level by; a level that sinks short of the low mark crosses nothing. -/
theorem Queue.taken_quiet {x : Queue} {item : List Byte} {rest : List (List Byte)} (h : x.ready = item :: rest)
    (short : x.low + item.length < x.level ∨ x.level ≤ x.low) : x.quietAs (x.taken item rest) := by
  have level : x.level = item.length + (x.taken item rest).level := by simp [Queue.level, Queue.taken, h]
  have low : (x.taken item rest).low = x.low := rfl
  constructor <;> omega

/-- The oldest item is gone, and what remains is as it was. -/
structure ItemGone (s u : State) (q : Fin 64) (rest : List (List Byte)) : Prop where
  frame : u = { s with threads := u.threads, queues := u.queues, host := u.host, dram := u.dram, nextOp := u.nextOp }
  events : OnlyEvents s u
  ready : u.queues[q].ready = rest
  small : s.queueStore q = none → u.dram = s.dram

theorem State.takeItem_gone (s : State) (q : Fin 64) (port : Nat) (item : List Byte) (rest : List (List Byte))
    (hr : s.queues[q].ready = item :: rest) (hu : s.queues[q].upset = none)
    (hq : q = 41 → s.queues[q].low + item.length < s.queues[q].level ∨ s.queues[q].level ≤ s.queues[q].low) (h : s.wordsReadable q) :
    ∃ u, s.takeItem q port = some (item, u, true) ∧ ItemGone s u q rest := by
  obtain ⟨whole, read, inDevice⟩ := s.readWords_frame q (itemSpace item) port h
  simp only [State.takeItem, hr]
  generalize s.readWords q (itemSpace item) port = r at whole read inDevice
  have queues : r.1.queues = s.queues := by rw [read]
  have threads : r.1.threads = s.threads := by rw [read]
  have quiet : q ≠ 41 ∨ r.1.queues[q].quietAs (s.queues[q].taken item rest) := by
    by_cases h41 : q = 41
    · exact .inr (by rw [queues]; exact Queue.taken_quiet hr (hq h41))
    · exact .inl h41
  obtain ⟨put, wm, same⟩ := r.1.updQueue_same q (s.queues[q].taken item rest) hu quiet
  rw [queues, Queue.take_eq hr]
  simp only [put, whole]
  refine ⟨_, rfl, by rw [State.putQueue_frame, read], ?_, congrArg Queue.ready same, fun small => ?_⟩
  · exact (OnlyEvents.of_threads threads).trans (r.1.putQueue_onlyEvents _ _)
  · rw [State.putQueue_dram, inDevice small]

end Sys2Proof.Machine
end

section
/-! O17: `SVC` QPOST and QTAKE between scratch and a queue (R274, R299). -/

namespace Sys2Proof.Machine

theorem qReg_ofNat (q : Fin 64) : qReg (BitVec.ofNat 64 q.val) = some q := by
  have small : (BitVec.ofNat 64 q.val).toNat = q.val := by
    rw [BitVec.toNat_ofNat]
    omega
  simp only [qReg, small, q.isLt, dif_pos]

theorem needQ_true {c : Bool} (n : Nat) (h : c = true) : needQ c n = .ok () := by rw [needQ, if_pos h]

theorem needQ_false {c : Bool} (n : Nat) (h : c = false) : needQ c n = .error (.queue, n) := by
  rw [needQ, if_neg (by simp [h])]

/-- What `SVC` QPOST and QTAKE between scratch and a queue name. -/
def scratchUse (x : Queue) (q : Fin 64) : Use := { units := [.queue q.val], dram := x.kind == .large }

/-- The scratch bytes that `SVC` QPOST names: IMM bytes from RC on. -/
def State.posted (s : State) (t : Tid) (w : IWord) : List Byte :=
  (s.thread t).scratchRead ((s.thread t).reg w.rc).toNat w.imm.toNat

theorem length_scratchRead (th : Thread) (a n : Nat) : (th.scratchRead a n).length = n := by simp [Thread.scratchRead]

theorem State.length_posted (s : State) (t : Tid) (w : IWord) : (s.posted t w).length = w.imm.toNat := length_scratchRead _ _ _

theorem State.itemSpace_posted (s : State) (t : Tid) (w : IWord) : itemSpace (s.posted t w) = (w.imm.toNat + 31) / 32 * 32 := by
  rw [itemSpace, State.length_posted]
  rfl

section
variable {s : State} {t : Tid} {w : IWord} {q : Fin 64} (hi : s.canIssue t 1) (hq : (s.thread t).reg w.ra = BitVec.ofNat 64 q.val)
  (hb : ((s.thread t).reg w.rb).toNat % 4096 = 0)
include hi hq hb

/-! ### QPOST -/

theorem exec_svcQpost_empty (h0 : w.imm.toNat = 0) : exec (.svcQpost t w none) s = .next (s.faultAt t .state 0x20 (s.thread t).pc) := by
  refine congrArg _ ((issue_run s t _ hi).trans ?_)
  simp only [handleOf, hq, hb, qReg_ofNat, ne_eq, not_true_eq_false, if_false, bind, Except.bind, h0,
    need_false 0x20 (show decide (1 ≤ 0) = false from rfl), State.orFault]
  rfl

section
variable (hf : s.unitFree t (scratchUse s.queues[q] q))
include hf

/-- A post of scratch bytes reaches its queue. -/
theorem exec_svcQpost_posts (h0 : 0 < w.imm.toNat) (hue : w.ue = false) : exec (.svcQpost t w none) s =
    .next ((s.registered t (scratchUse s.queues[q] q)).orFault t (do
      let (u, r) ← (s.registered t (scratchUse s.queues[q] q)).post t q (s.posted t w)
      return u.toUnit t w (some (.code r)))) := by
  refine congrArg _ ((issue_run s t _ hi).trans ?_)
  simp only [handleOf, hq, hb, qReg_ofNat, ne_eq, not_true_eq_false, if_false, if_true, pure, Except.pure, bind, Except.bind,
    need_true 0x20 (show decide (1 ≤ w.imm.toNat) = true from decide_eq_true h0)]
  rw [State.orFault]
  refine (startUnit_free _ _ _ _ _ hf).trans ?_
  simp only [State.disturb, State.postBytes, if_true, hue, Bool.false_eq_true, if_false, State.registered_thread]
  rfl

theorem exec_svcQpost_refused (h0 : 0 < w.imm.toNat) (hue : w.ue = false) {f : Flt} {n : Nat}
    (h : (s.registered t (scratchUse s.queues[q] q)).post t q (s.posted t w) = .error (f, n)) : exec (.svcQpost t w none) s =
    .next ((s.registered t (scratchUse s.queues[q] q)).faultAt t f n (s.thread t).pc) := by
  rw [exec_svcQpost_posts hi hq hb hf h0 hue, h]
  rfl

theorem exec_svcQpost_done (h0 : 0 < w.imm.toNat) (hue : w.ue = false) {u : State} {r : Nat}
    (h : (s.registered t (scratchUse s.queues[q] q)).post t q (s.posted t w) = .ok (u, r)) : exec (.svcQpost t w none) s =
    .next (u.toUnit t w (some (.code r))) := by
  rw [exec_svcQpost_posts hi hq hb hf h0 hue, h]
  rfl

end
end

section
variable {s : State} {t : Tid} {q : Fin 64} {item : List Byte} (side : threadSide q.val true = true) (hk : s.queues[q].kind ≠ .unconfigured)
include side hk

theorem State.post_tooLong (h : s.queues[q].cap < item.length) : s.post t q item = .error (.queue, 0x05) := by
  simp only [State.post, needQ_true 0x02 side, hk, if_false, needQ_false 0x05 (decide_eq_false (Nat.not_le.2 h)), bind, Except.bind]

theorem State.post_full (h : item.length ≤ s.queues[q].cap) (hs : s.queues[q].space < itemSpace item) :
    s.post t q item = .ok (s, 0x50) := by
  simp only [State.post, needQ_true 0x02 side, hk, if_false, needQ_true 0x05 (decide_eq_true h), hs, if_true, bind, Except.bind, pure,
    Except.pure]

theorem State.post_room (h : item.length ≤ s.queues[q].cap) (hs : itemSpace item ≤ s.queues[q].space) :
    s.post t q item = .ok (s.pushItem q item 15, 0) := by
  simp only [State.post, needQ_true 0x02 side, hk, if_false, needQ_true 0x05 (decide_eq_true h), Nat.not_lt.2 hs, bind, Except.bind, pure,
    Except.pure]

end

/-! ### QTAKE -/

section
variable {s : State} {t : Tid} {w : IWord} {q : Fin 64} (hi : s.canIssue t 1) (hq : (s.thread t).reg w.ra = BitVec.ofNat 64 q.val)
  (hb : ((s.thread t).reg w.rb).toNat % 4096 = 0) (hf : s.unitFree t (scratchUse s.queues[q] q))
  (side : threadSide q.val false = true) (hk : s.queues[q].kind ≠ .unconfigured)
include hi hq hb hf side hk

theorem exec_svcQtake_empty (hr : s.queues[q].ready = []) : exec (.svcQtake t w none) s =
    .next ((s.registered t (scratchUse s.queues[q] q)).toUnit t w (some (.codeRc 0x51 0))) := by
  refine congrArg _ ((issue_run s t _ hi).trans ?_)
  simp only [handleOf, hq, hb, qReg_ofNat, ne_eq, not_true_eq_false, if_false, if_true, pure, Except.pure, bind, Except.bind,
    needQ_true 0x02 side]
  rw [State.orFault]
  refine (startUnit_free _ _ _ _ _ hf).trans ?_
  simp only [State.disturb, State.registered_queues, needQ_true 0x01 (bne_iff_ne.2 hk), hr, State.orFault]

section
variable {item : List Byte} {rest : List (List Byte)} (hr : s.queues[q].ready = item :: rest)
include hr

/-- An item that scratch cannot hold stays (R274). -/
theorem exec_svcQtake_long (hl : 4096 < item.length) : exec (.svcQtake t w none) s =
    .next ((s.registered t (scratchUse s.queues[q] q)).toUnit t w (some (.codeRc 0x52 item.length))) := by
  refine congrArg _ ((issue_run s t _ hi).trans ?_)
  simp only [handleOf, hq, hb, qReg_ofNat, ne_eq, not_true_eq_false, if_false, if_true, pure, Except.pure, bind, Except.bind,
    needQ_true 0x02 side]
  rw [State.orFault]
  refine (startUnit_free _ _ _ _ _ hf).trans ?_
  simp only [State.disturb, State.registered_queues, needQ_true 0x01 (bne_iff_ne.2 hk), hr, hl, if_true, State.orFault]

theorem exec_svcQtake_takes (hl : item.length ≤ 4096) {u : State}
    (take : (s.registered t (scratchUse s.queues[q] q)).takeItem q 15 = some (item, u, true)) : exec (.svcQtake t w none) s =
    .next ((u.modThread t (·.scratchWrite w.imm.toNat item)).toUnit t w (some (.codeRc 0 item.length))) := by
  refine congrArg _ ((issue_run s t _ hi).trans ?_)
  simp only [handleOf, hq, hb, qReg_ofNat, ne_eq, not_true_eq_false, if_false, if_true, pure, Except.pure, bind, Except.bind,
    needQ_true 0x02 side]
  rw [State.orFault]
  refine (startUnit_free _ _ _ _ _ hf).trans ?_
  simp only [State.disturb, State.registered_queues, needQ_true 0x01 (bne_iff_ne.2 hk), hr, Nat.not_lt.2 hl, if_false, State.orFault]
  simp only [take]

end
end

/-- Settles O17: the item that a thread posts is its scratch, an item that it takes reaches its scratch, and a refusal leaves both. -/
theorem queuePostAndTake : Obligations.QueuePostAndTake := by
  intro s t w q hi hc hq hb th x use clean item hk hu hue hf
  refine ⟨fun side => exec_svcQpost_empty hi hq hb, fun side h0 hcap => ?_, fun side h0 hcap hs => ?_, fun side h0 hcap hs hm h41 hcl => ?_,
    fun side hcl => ?_⟩
  · exact exec_svcQpost_refused hi hq hb hf h0 hue (State.post_tooLong (s := s.registered t use) side hk (by rw [s.length_posted]; exact hcap))
  · have full := State.post_full (s := s.registered t use) (t := t) (item := s.posted t w) side hk (by rw [s.length_posted]; exact hcap) (by rw [s.itemSpace_posted]; exact hs)
    have run := exec_svcQpost_done hi hq hb hf h0 hue full
    exact ⟨_, run, threadTo_toUnit_of_threads rfl t w _, rfl⟩
  · have put := (s.registered t use).pushItem_put q (s.posted t w) 15 h41 hm hu (by rw [s.itemSpace_posted]; exact hs) (State.wordsReadable_of_large hcl)
    have room := State.post_room (s := s.registered t use) (t := t) (item := s.posted t w) side hk (by rw [s.length_posted]; exact hcap) (by rw [s.itemSpace_posted]; exact hs)
    refine ⟨_, exec_svcQpost_done hi hq hb hf h0 hue room, ?_, put.ready, fun k hk hk41 => queue_kept fun i hik => ?_,
      fun small => put.small (State.queueStore_small ?_), ?_⟩
    · rw [State.toUnit_thread]
      rfl
    · exact put.others i (fun e => hk (by rw [← hik, e])) (fun e => hk41 (by rw [← hik, e]; rfl))
    · rw [show (s.registered t use).queues[q].kind = .small from small]
      decide
    · rw [State.toUnit_eq, put.frame]
      rfl
  · cases hr : x.ready with
    | nil =>
      exact ⟨_, exec_svcQtake_empty hi hq hb hf side hk hr, fun _ => ⟨threadTo_toUnit_of_threads rfl t w _, rfl⟩, fun i r h => by simp at h⟩
    | cons i r =>
      by_cases long : 4096 < i.length
      · refine ⟨_, exec_svcQtake_long hi hq hb hf side hk hr long, fun h => by simp at h, fun i' r' h => ?_⟩
        obtain ⟨rfl, rfl⟩ := List.cons_eq_cons.1 h
        exact ⟨fun _ => ⟨threadTo_toUnit_of_threads rfl t w _, rfl⟩, fun short => absurd short (Nat.not_le.2 long)⟩
      · have fits : i.length ≤ 4096 := Nat.not_lt.1 long
        by_cases short : q = 41 → x.low + i.length < x.level ∨ x.level ≤ x.low
        · obtain ⟨u, take, gone⟩ := (s.registered t use).takeItem_gone q 15 i r hr hu short (State.wordsReadable_of_large hcl)
          refine ⟨_, exec_svcQtake_takes hi hq hb hf side hk hr fits take, fun h => by simp at h, fun i' r' h => ?_⟩
          obtain ⟨rfl, rfl⟩ := List.cons_eq_cons.1 h
          refine ⟨fun long => absurd fits (Nat.not_le.2 long), fun _ _ => ⟨?_, gone.ready, ?_, fun small => gone.small (State.queueStore_small ?_), ?_⟩⟩
          · rw [State.toUnit_thread]
            rfl
          · rw [State.toUnit_thread, Thread.scratchRead_atUnit, State.modThread_eq, State.setThread_thread]
            refine Thread.scratchRead_scratchWrite i _ _ ?_ fits
            rw [gone.events t]
            exact hc.2.1 t
          · rw [show (s.registered t use).queues[q].kind = .small from small]
            decide
          · rw [State.toUnit_eq, State.modThread_eq, gone.frame]
            rfl
        · refine ⟨_, rfl, fun h => by simp at h, fun i' r' h => ?_⟩
          obtain ⟨rfl, rfl⟩ := List.cons_eq_cons.1 h
          exact ⟨fun long => absurd fits (Nat.not_le.2 long), fun _ held => absurd held short⟩

end Sys2Proof.Machine
end

section
/-! O18: `QFLUSH`, `SVC` LAUNCH and QSUB, and the reset of a queue whose pointers disagree (R274, R298, R302). -/

namespace Sys2Proof.Machine

/-! ### A flush (R298) -/

theorem State.countAbort_frame (s : State) (q : Fin 64) : s.countAbort q = { s with streams := (s.countAbort q).streams } := by
  rw [State.countAbort]
  split <;> rfl

/-- A flush touches the queue, Q41, and the counters of a stream whose reader was partway through an item. -/
theorem State.flushQueue_frame (s : State) (q : Fin 64) : s.flushQueue q = { s with
    threads := (s.flushQueue q).threads, queues := (s.flushQueue q).queues, host := (s.flushQueue q).host
    streams := (s.flushQueue q).streams } := by
  simp only [State.flushQueue]
  split
  · rw [State.putQueue_frame, State.countAbort_frame]
  · rw [State.putQueue_frame]

theorem State.flushQueue_same (s : State) (q : Fin 64) (h : q ≠ 41) :
    ∃ wm, (s.flushQueue q).queues[q] = { s.queues[q].flush with wm := wm } := State.putQueue_same _ q _ h

/-- A flushed queue without its configuration (R298). -/
def Queue.unconfigured (x : Queue) : Queue :=
  { x with kind := .unconfigured, cap := 0, high := 0, low := 0, cut := 0, store := 0, hostR := false, hostW := false }

/-- A flush from a side: that of the writer of a general queue unconfigures it too. -/
def State.flushFrom (s : State) (q : Fin 64) (writer : Bool) : State :=
  if 42 ≤ q.val && writer then { s.flushQueue q with queues := vmod (s.flushQueue q).queues q Queue.unconfigured } else s.flushQueue q

theorem State.flushFrom_frame (s : State) (q : Fin 64) (writer : Bool) : s.flushFrom q writer = { s with
    threads := (s.flushFrom q writer).threads, queues := (s.flushFrom q writer).queues, host := (s.flushFrom q writer).host
    streams := (s.flushFrom q writer).streams } := by
  rw [State.flushFrom]
  split <;> rw [State.flushQueue_frame]

theorem State.flushFrom_same (s : State) (q : Fin 64) (writer : Bool) (h : q ≠ 41) : ∃ wm, (s.flushFrom q writer).queues[q] =
    if 42 ≤ q.val ∧ writer = true then ({ s.queues[q].flush with wm := wm } : Queue).unconfigured
    else { s.queues[q].flush with wm := wm } := by
  obtain ⟨wm, same⟩ := s.flushQueue_same q h
  refine ⟨wm, ?_⟩
  simp only [State.flushFrom, Bool.and_eq_true, decide_eq_true_eq]
  split
  · exact (vmod_same _ _ _).trans (congrArg Queue.unconfigured same)
  · exact same

theorem IWord.length_block (w : IWord) (th : Thread) (n : Nat) : (w.block th n).length = n := length_scratchRead _ _ _

/-- Thread `t` among the subscribers of a queue, or not. -/
def Queue.subscribe (x : Queue) (t : Tid) (on : Bool) : Queue :=
  { x with subs := if on then x.subs ||| BitVec.ofNat 8 (2 ^ t.val) else x.subs &&& ~~~BitVec.ofNat 8 (2 ^ t.val) }

theorem Queue.subscribe_subs (x : Queue) (t v : Tid) (on : Bool) :
    (x.subscribe t on).subs.getLsbD v.val = if v = t then on else x.subs.getLsbD v.val := by
  have bit : (BitVec.ofNat 8 (2 ^ t.val)).getLsbD v.val = decide (v = t) := by
    rw [BitVec.getLsbD_ofNat, Nat.testBit_two_pow]
    simp [Fin.ext_iff, eq_comm]
  rw [Queue.subscribe]
  cases on with
  | true =>
    rw [if_pos rfl, BitVec.getLsbD_or, bit]
    by_cases h : v = t <;> simp [h]
  | false =>
    rw [if_neg Bool.false_ne_true, BitVec.getLsbD_and, BitVec.getLsbD_not, bit]
    by_cases h : v = t <;> simp [h, v.isLt]

/-- Every queue but those of the fabric's transmit side has a side of threads (Table 12-1). -/
theorem threadSide_either : ∀ q : Fin 64, q.val < 32 ∨ 40 ≤ q.val → (threadSide q.val true || threadSide q.val false) = true := by
  decide

section
variable (s : State) (t : Tid) (w : IWord) (hi : s.canIssue t 1)
include hi

theorem exec_qflush (hf : s.unitFree t { units := [.queue (qImm w).val] }) (h41 : qImm w ≠ 41)
    (side : (threadSide (qImm w).val true || threadSide (qImm w).val false) = true) (hk : s.queues[qImm w].kind ≠ .unconfigured)
    (hu : s.queues[qImm w].upset = none) : exec (.qflush t w) s =
      .next (((s.registered t { units := [.queue (qImm w).val] }).flushFrom (qImm w) (w.fn.getLsbD 0)).toUnit t w (some (.code 0))) := by
  obtain ⟨wm, same⟩ := (s.registered t { units := [.queue (qImm w).val] }).flushQueue_same (qImm w) h41
  have agreed : ((s.registered t { units := [.queue (qImm w).val] }).flushQueue (qImm w)).queues[qImm w].upset = none :=
    (congrArg Queue.upset same).trans hu
  refine congrArg _ ((issue_run s t _ hi).trans ((startUnit_free _ _ _ _ _ hf).trans ?_))
  simp only [needQ_true 0x02 side, State.registered_queues, needQ_true 0x01 (bne_iff_ne.2 hk), bind, Except.bind, pure, Except.pure,
    State.orFault, State.compare, agreed, State.flushFrom]
  rfl

/-! ### SVC LAUNCH and QSUB (R274) -/

/-- A launch posts its block to the queue of the thread that RA names, or finds it full. -/
theorem exec_svcLaunch (n : Tid) (hn : (s.thread t).reg w.ra = BitVec.ofNat 64 n.val)
    (hf : s.unitFree t { units := [.queue n.val] }) (hue : w.ue = false) : exec (.svcLaunch t w) s = .next (
      if s.queues[threadQueue n].space < 32 then (s.registered t { units := [.queue n.val] }).toUnit t w (some (.code 0x50))
      else ((s.registered t { units := [.queue n.val] }).pushItem (threadQueue n) (w.block (s.thread t) 32) 15).toUnit t w
        (some (.code 0))) := by
  have named : ((s.thread t).reg w.ra).toNat = n.val := by
    rw [hn, BitVec.toNat_ofNat]
    omega
  have space : itemSpace (w.block (s.thread t) 32) = 32 := by
    rw [itemSpace, IWord.length_block]
    rfl
  refine congrArg _ ((issue_run s t _ hi).trans ?_)
  simp only [hue, Bool.false_eq_true, if_false, named, n.isLt, dif_pos, startUnit_free _ _ _ _ _ hf, space]
  rfl

/-- The state with thread `t` among the subscribers of queue `q`, or not. -/
def State.subscribed (s : State) (t : Tid) (q : Fin 64) (on : Bool) : State :=
  { s with queues := s.queues.set q (s.queues[q].subscribe t on) }

omit hi in
theorem State.subscribed_subs (q : Fin 64) (on : Bool) : (s.subscribed t q on).queues[q].subs = (s.queues[q].subscribe t on).subs :=
  congrArg Queue.subs (vset_same s.queues q _)

theorem exec_svcQsub (q : Fin 64) (hq : (s.thread t).reg w.ra = BitVec.ofNat 64 q.val) : exec (.svcQsub t w) s =
    .next ((s.subscribed t q (w.imm.getLsbD 0)).setThread t
      { (s.thread t).setReg w.rd 0 with pc := (s.thread t).pc + 8, fl := { (s.thread t).fl with z := true } }) := by
  refine congrArg _ ((issue_run s t _ hi).trans ?_)
  simp only [hq, qReg_ofNat, State.modThread_eq, Thread.next, Thread.setReg_pc]
  rfl

end

/-! ### Pointers that disagree (R302) -/

theorem State.pointerReset_same (s : State) (q : Fin 64) (f : PtrField) (h40 : q ≠ 40) (h41 : q ≠ 41) :
    ∃ wm, (s.pointerReset q f).queues[q] =
      { s.queues[q].flush with wm := wm, resets := s.queues[q].resets.bump, wpos := 0, rpos := 0, upset := none } := by
  obtain ⟨wm, same⟩ := s.flushQueue_same q h41
  refine ⟨wm, ?_⟩
  simp only [State.pointerReset]
  rw [State.post41_other _ _ _ h41, State.report_other _ _ _ _ _ h40 h41]
  refine (vmod_same _ _ _).trans ?_
  rw [same]
  rfl

theorem State.pointerReset_total (s : State) (q : Fin 64) (f : PtrField) : (s.pointerReset q f).err.total = s.err.total + 1 := by
  simp only [State.pointerReset]
  rw [State.post41_err, State.report_total, State.flushQueue_frame]

/-- Settles O18: a flush and a pointer reset leave an empty queue, and what a launch or a subscription changes is one queue. -/
theorem queueControl : Obligations.QueueControl := by
  refine ⟨fun s t w hi => ⟨fun hf h41 hq hk hu => ?_, fun n hn => ?_, fun q hq => ?_⟩, fun s q f h40 h41 => ?_⟩
  · have side := threadSide_either (qImm w) hq
    obtain ⟨wm, same⟩ := (s.registered t { units := [.queue (qImm w).val] }).flushFrom_same (qImm w) (w.fn.getLsbD 0) h41
    refine ⟨_, exec_qflush s t w hi hf h41 side hk hu, ?_⟩
    have emptied := State.flushFrom_frame (s.registered t { units := [.queue (qImm w).val] }) (qImm w) (w.fn.getLsbD 0)
    generalize State.flushFrom _ _ _ = v at same emptied ⊢
    have told : ((v.toUnit t w (some (.code 0))).thread t).done = some (.code 0) := by
      rw [State.toUnit_thread]
      rfl
    have frame : v.toUnit t w (some (.code 0)) = { s.registered t { units := [.queue (qImm w).val] } with
        threads := (v.toUnit t w (some (.code 0))).threads, queues := v.queues, host := v.host, streams := v.streams } := by
      rw [State.toUnit_eq, emptied]
      rfl
    rw [State.toUnit_queues, show v.queues[(Fin.ofNat 64 w.imm.toNat : Fin 64)] = _ from same]
    split
    · next general =>
      exact ⟨rfl, rfl, rfl, rfl, rfl, rfl, told, fun _ _ => ⟨rfl, rfl⟩, fun other => absurd general (by
        rcases other with low | reader
        · exact fun h => absurd h.1 (Nat.not_le.2 low)
        · exact fun h => absurd h.2 (by rw [reader]; decide)), frame⟩
    · next kept => exact ⟨rfl, rfl, rfl, rfl, rfl, rfl, told, fun high writer => absurd ⟨high, writer⟩ kept, fun _ => ⟨rfl, rfl⟩, frame⟩
  · intro x use hf hm hu hue
    have run := exec_svcLaunch s t w hi n hn hf hue
    by_cases full : x.space < 32
    · replace run := run.trans (congrArg _ (if_pos full))
      exact ⟨_, run, fun room => absurd full (Nat.not_lt.2 room), fun _ => ⟨threadTo_toUnit_of_threads rfl t w _, rfl⟩⟩
    · replace run := run.trans (congrArg _ (if_neg full))
      have h41 : threadQueue n ≠ 41 := fun e => by
        have : n.val = 41 := congrArg Fin.val e
        omega
      have inDevice : (s.registered t use).queueStore (threadQueue n) = none := if_pos (.inr (.inl n.isLt))
      have put := (s.registered t use).pushItem_put (threadQueue n) (w.block (s.thread t) 32) 15 h41 hm hu
        (by rw [itemSpace, IWord.length_block]; exact Nat.not_lt.1 full) (fun stored => absurd inDevice stored)
      refine ⟨_, run, fun _ => ⟨?_, put.ready⟩, fun h => absurd h full⟩
      rw [State.toUnit_thread]
      rfl
  · have run := exec_svcQsub s t w hi q hq
    refine ⟨_, run, threadTo_setThread _ t _, fun v => ?_, ?_⟩
    · rw [State.setThread_queues, State.subscribed_subs, Queue.subscribe_subs]
    · rw [State.setThread_queues, State.subscribed_subs]
      rfl
  · obtain ⟨wm, same⟩ := s.pointerReset_same q f h40 h41
    intro u
    rw [show u.queues[q] = _ from same]
    exact ⟨rfl, rfl, rfl, rfl, rfl, rfl, rfl, s.pointerReset_total q f, rfl, rfl, rfl, rfl, rfl⟩

end Sys2Proof.Machine
end

section
/-! SUPPORT. Reads that end at the first uncorrectable burst, and asynchronous operations that start at once. -/

namespace Sys2Proof.Machine

/-! ### Reads up to an error (R11, R316) -/

theorem ReadFrame.cus {s u : State} (h : ReadFrame s u) : u.cus = s.cus := by
  rw [ReadFrame] at h
  rw [h]

theorem State.meetFirst_onlyEvents (s : State) (l : List Nat) : OnlyEvents s (s.meetFirst l).1 := by
  induction l generalizing s with
  | nil => exact .refl s
  | cons a l ih =>
    have met := (s.meetBurst_onlyEvents a).congr (State.writeBack_threads _ a)
    simp only [State.meetFirst]
    split
    · exact met
    · exact met.trans (ih _)

theorem State.readUntil_reads (s : State) (pa n port : Nat) : Reads s (s.readUntil pa n port).1 :=
  ⟨s.readUntil_readFrame pa n port, (OnlyEvents.of_threads (s := s) rfl).trans (State.meetFirst_onlyEvents _ _)⟩

theorem State.burstError_total (s : State) (pa : Nat) (b : BurstBad) : (s.burstError pa b).err.total = s.err.total + 1 := by
  cases b <;> exact State.report_total _ _ _ _

theorem State.burstError_dram (s : State) (pa : Nat) (b : BurstBad) :
    (s.burstError pa b).dram.faults = s.dram.faults ∧ (s.burstError pa b).dram.bad = s.dram.bad ∧
      (s.burstError pa b).dram.epochUe = s.dram.epochUe := by
  cases b <;> simp only [State.burstError, State.report_dram] <;> exact ⟨rfl, rfl, rfl⟩

theorem Dram.readsBad_eq_burstBad {d : Dram} (h : d.faults = []) (a : Nat) : d.readsBad a = d.burstBad a := by
  rw [Dram.readsBad, h]
  cases d.burstBad a <;> rfl

theorem State.writeBack_none {s : State} (h : s.dram.faults = []) (a : Nat) : s.writeBack a = s := by
  simp only [State.writeBack, h, tabFind]

theorem State.meetBurst_readable {s : State} {a : Nat} (hf : s.dram.faults = []) (h : s.dram.burstBad a = none) : s.meetBurst a = s := by
  simp only [State.meetBurst, h, hf, tabFind]

theorem State.meetBurst_lost {s : State} {a : Nat} {b : BurstBad} (h : s.dram.burstBad a = some b) : s.meetBurst a = s.burstError a b := by
  simp only [State.meetBurst, h]

theorem Dram.burstBad_congr {d e : Dram} (hb : e.bad = d.bad) (he : e.epochUe = d.epochUe) (a : Nat) : e.burstBad a = d.burstBad a := by
  simp only [Dram.burstBad, hb, he]

/-- Without symbol errors a read ends at the first burst that is uncorrectable, with the record of it. -/
theorem State.meetFirst_ends {s : State} {l : List Nat} {a : Nat} (hf : s.dram.faults = []) (h : l.find? s.dram.unreadable = some a) :
    (s.meetFirst l).2 = some a ∧ (s.meetFirst l).1.err.total = s.err.total + 1 := by
  induction l with
  | nil => simp at h
  | cons x l ih =>
    have bad : s.dram.readsBad x = s.dram.burstBad x := Dram.readsBad_eq_burstBad hf x
    cases hx : s.dram.burstBad x with
    | none =>
      have readable : s.dram.unreadable x = false := by rw [Dram.unreadable, bad, hx]; rfl
      rw [List.find?_cons_of_neg (by simp [readable])] at h
      have next : s.meetFirst (x :: l) = s.meetFirst l := by
        simp only [State.meetFirst, State.meetBurst_readable hf hx, State.writeBack_none hf, hx]
        rfl
      rw [next]
      exact ih h
    | some b =>
      have lost : s.dram.unreadable x = true := by rw [Dram.unreadable, bad, hx]; rfl
      rw [List.find?_cons_of_pos lost, Option.some.injEq] at h
      subst h
      obtain ⟨faults, kept, epochs⟩ := s.burstError_dram x b
      have ends : s.meetFirst (x :: l) = (s.burstError x b, some x) := by
        simp only [State.meetFirst, State.meetBurst_lost hx, State.writeBack_none (faults.trans hf), Dram.burstBad_congr kept epochs, hx]
        rfl
      rw [ends]
      exact ⟨rfl, State.burstError_total _ _ _⟩

/-! ### Asynchronous operations (R233, R250) -/

/-- The state once the scoreboard has registered an asynchronous operation. -/
def State.asyncRegistered (s : State) (t : Tid) (u : Use) : State :=
  { s with sboard := s.sboard ++ [{ s.newOp t u with sync := false }], nextOp := s.nextOp + 1 }

/-- A thread that goes on behind an asynchronous operation with result 0 for the present. -/
def Thread.behind (th : Thread) (w : IWord) (a : Async) : Thread :=
  { (th.setReg w.rd 0).next with fl := { th.fl with z := true }, snap := none, async := th.async ++ [a] }

theorem Thread.behind_fields (th : Thread) (w : IWord) (a : Async) : (th.behind w a).st = th.st ∧ (th.behind w a).pc = th.pc + 8 ∧
    (th.behind w a).g = (th.setReg w.rd 0).g ∧ (th.behind w a).fl = { th.fl with z := true } ∧ (th.behind w a).scratch = th.scratch ∧
    (th.behind w a).async = th.async ++ [a] := by
  simp only [Thread.behind, Thread.next_st, Thread.next_g, Thread.next_scratch, Thread.setReg_st, Thread.setReg_scratch, true_and, and_true]
  rw [Thread.next, Thread.setReg_pc]

/-- An asynchronous operation whose unit is free starts at once. -/
theorem startAsync_free (s : State) (t : Tid) (w : IWord) (u : Use) (job : Job) (k : Nat → State → State × Option Done)
    (h : s.unitFree t u) : s.startAsync t w u job k =
      (k s.nextOp (s.asyncRegistered t u)).1.modThread t fun th => th.behind w
        { op := s.nextOp, word := w.resWord, addr := (s.thread t).pc, res := (k s.nextOp (s.asyncRegistered t u)).2 } := by
  obtain ⟨-, -, first, awake⟩ := h
  have free : sbBlocked (s.asyncRegistered t u).sboard s.nextOp = false :=
    sbBlocked_last s.sboard { s.newOp t u with sync := false } first
  have woken : (s.asyncRegistered t u).wakeDram u = (s.asyncRegistered t u, false) := wakeDram_awake _ _ awake
  have started : ∀ v, (s.asyncRegistered t u).wakeDram u = (v, false) → sbBlocked v.sboard s.nextOp = false →
      s.startAsync t w u job k = (k s.nextOp v).1.modThread t fun th => th.behind w
        { op := s.nextOp, word := w.resWord, addr := (v.thread t).pc, res := (k s.nextOp v).2 } := by
    intro v woke idle
    simp only [State.asyncRegistered, State.newOp] at woke
    simp only [State.startAsync, woke, idle, Bool.or_false, Bool.false_eq_true, if_false]
    rfl
  exact started _ woken free

end Sys2Proof.Machine
end

section
/-! O28: the check-value units and their runs (R265, R266, R497, R498). -/

namespace Sys2Proof.Machine

/-- Feeding a range in two parts gives what feeding it whole gives. -/
theorem CuCfg.feed_append (c : CuCfg) (r : Nat) (x y : List Byte) : c.feed r (x ++ y) = c.feed (c.feed r x) y := by
  simp only [CuCfg.feed]
  split
  · rw [List.foldl_append]
  · rw [List.foldl_append]

theorem cuOf_cu7 {w : IWord} (h : w.fn.toNat % 8 = 7) : cuOf w = .error (.state, 0x23) := dif_neg (by omega)

theorem cuOf_eq {w : IWord} {c : Fin 7} (h : w.fn.toNat % 8 = c.val) : cuOf w = .ok c := by
  have lt : w.fn.toNat % 8 < 7 := h ▸ c.isLt
  rw [cuOf, dif_pos lt]
  exact congrArg _ (Fin.ext h)

theorem State.modCu_same (s : State) (c : Fin 7) (f : Cu → Cu) : vget (s.modCu c f).cus c.val = f (vget s.cus c.val) := by
  have lt : c.val < 8 := by omega
  rw [State.modCu, vget_vmodN_same _ _ _ lt, vget, dif_pos lt]

theorem State.modCu_other (s : State) (c : Fin 7) (f : Cu → Cu) (k : Nat) (h : k ≠ c.val) : vget (s.modCu c f).cus k = vget s.cus k :=
  vget_vmodN_other _ _ _ _ h

/-! ### CRCSET (R266) -/

/-- The width or the polynomial of a block is out of its range. -/
theorem crcConfig_none {b : List Byte} (h : fieldAt b 0 1 = 0 ∨ 64 < fieldAt b 0 1 ∨ 2 ^ fieldAt b 0 1 ≤ fieldAt b 8 8) :
    crcConfig b = none := by
  refine if_neg ?_
  rintro ⟨lo, hi, poly⟩
  omega

/-- The configuration that a block gives. -/
def blockCfg (b : List Byte) : CuCfg :=
  { width := fieldAt b 0 1, refin := (fieldAt b 1 1).testBit 0, refout := (fieldAt b 1 1).testBit 1, alive := (fieldAt b 1 1).testBit 2
    poly := fieldAt b 8 8, xorout := fieldAt b 0x18 8 % 2 ^ fieldAt b 0 1 }

/-- The initial value that a block gives: in alive mode the last count, its flag and the two counters. -/
def blockInit (b : List Byte) : Nat :=
  if (fieldAt b 1 1).testBit 2 then fieldAt b 0x10 8 % 2 ^ 9 + fieldAt b 0x10 8 / 2 ^ 16 % 2 ^ 32 * 2 ^ 16
  else fieldAt b 0x10 8 % 2 ^ fieldAt b 0 1

theorem crcConfig_some {b : List Byte} (lo : 1 ≤ fieldAt b 0 1) (hi : fieldAt b 0 1 ≤ 64) (poly : fieldAt b 8 8 < 2 ^ fieldAt b 0 1) :
    crcConfig b = some (blockCfg b, blockInit b) := if_pos ⟨lo, hi, poly⟩

/-- What a unit instruction of the CRC units names. -/
def cuUse (c : Fin 7) : Use := { units := [.cu c.val] }

/-- A configuration or value loaded into a unit. -/
def State.loadCu (s : State) (c : Fin 7) (x : Cu) : State := s.modCu c fun _ => x

section
variable {s : State} {t : Tid} {w : IWord} (hi : s.canIssue t 1)
include hi

theorem exec_crcset_faults (hue : w.ue = false) (c : Fin 7) (hc : w.fn.toNat % 8 = c.val)
    (h : crcConfig (w.block (s.thread t) 32) = none) : exec (.crcset t w) s = .next (s.faultAt t .state 0x20 (s.thread t).pc) := by
  refine congrArg _ ((issue_run s t _ hi).trans ?_)
  simp only [hue, Bool.false_eq_true, if_false, cuOf_eq hc, h, bind, Except.bind, State.orFault]
  rfl

/-- CU7 belongs to the lines: no instruction takes it (R265). -/
theorem exec_crc_cu7 (hue : w.ue = false) (h : w.fn.toNat % 8 = 7) : ∀ c ∈ [Instr.crcset t w, .crcget t w, .crcput t w],
    exec c s = .next (s.faultAt t .state 0x23 (s.thread t).pc) := by
  simp only [List.forall_mem_cons, List.not_mem_nil, false_implies, implies_true, and_true]
  refine ⟨congrArg _ ((issue_run s t _ hi).trans ?_), congrArg _ ((issue_run s t _ hi).trans ?_), congrArg _ ((issue_run s t _ hi).trans ?_)⟩
  · simp only [hue, Bool.false_eq_true, if_false, cuOf_cu7 h, bind, Except.bind, State.orFault]
    rfl
  · simp only [cuOf_cu7 h, bind, Except.bind, State.orFault]
    rfl
  · simp only [cuOf_cu7 h, bind, Except.bind, State.orFault]
    rfl

section
variable {c : Fin 7} (hc : w.fn.toNat % 8 = c.val)
include hc

section
variable (hf : s.unitFree t (cuUse c))
include hf

theorem exec_crcset (hue : w.ue = false) {cfg : CuCfg} {init : Nat} (h : crcConfig (w.block (s.thread t) 32) = some (cfg, init)) :
    exec (.crcset t w) s = .next (((s.registered t (cuUse c)).modCu c fun u => { u with cfg := cfg, run := BitVec.ofNat 64 init }).toUnit t w
      (some (.code 0))) := by
  refine congrArg _ ((issue_run s t _ hi).trans ?_)
  simp only [hue, Bool.false_eq_true, if_false, cuOf_eq hc, h, bind, Except.bind, pure, Except.pure, State.orFault]
  exact startUnit_free _ _ _ _ _ hf

/-- A unit that remembers the value it gave out. -/
def Cu.remember (u : Cu) : Cu := if u.taken.contains (u.cfg, u.run) then u else { u with taken := (u.cfg, u.run) :: u.taken }

omit hi hc hf in
theorem Cu.remember_value (u : Cu) : u.remember.cfg = u.cfg ∧ u.remember.run = u.run := by
  rw [Cu.remember]
  split <;> exact ⟨rfl, rfl⟩

/-- `CRCGET` FINAL gives the final value and touches no unit. -/
theorem exec_crcget_final (hfin : w.fn.getLsbD 3 = true) : exec (.crcget t w) s =
    .next ((s.registered t (cuUse c)).toUnit t w (some (.codeRc 0 ((vget s.cus c.val).cfg.final (vget s.cus c.val).run.toNat)))) := by
  refine congrArg _ ((issue_run s t _ hi).trans ?_)
  simp only [cuOf_eq hc, bind, Except.bind, pure, Except.pure, State.orFault]
  exact (startUnit_free _ _ _ _ _ hf).trans (if_pos hfin)

theorem exec_crcget_running (hfin : w.fn.getLsbD 3 = false) : exec (.crcget t w) s =
    .next (((s.registered t (cuUse c)).modCu c Cu.remember).toUnit t w (some (.codeRc 0 (vget s.cus c.val).run.toNat))) := by
  refine congrArg _ ((issue_run s t _ hi).trans ?_)
  simp only [cuOf_eq hc, bind, Except.bind, pure, Except.pure, State.orFault]
  exact (startUnit_free _ _ _ _ _ hf).trans (if_neg (Bool.eq_false_iff.1 hfin))

/-- `CRCPUT` resumes a value that `CRCGET` took under the same configuration (R239). -/
theorem exec_crcput (h : ∃ k, k < 8 ∧ ((vget s.cus c.val).cfg, (s.thread t).reg w.rb) ∈ (vget s.cus k).taken) : exec (.crcput t w) s =
    .next (((s.registered t (cuUse c)).modCu c fun u => { u with run := (s.thread t).reg w.rb }).toUnit t w (some (.code 0))) := by
  have known : (s.cus.any fun u => u.taken.contains ((vget s.cus c.val).cfg, (s.thread t).reg w.rb)) = true := by
    obtain ⟨k, hk, taken⟩ := h
    rw [vget, dif_pos hk] at taken
    rw [Vector.any_eq_true]
    exact ⟨k, hk, List.contains_iff_mem.2 taken⟩
  refine congrArg _ ((issue_run s t _ hi).trans ?_)
  simp only [cuOf_eq hc, bind, Except.bind, pure, Except.pure, State.orFault]
  exact (startUnit_free _ _ _ _ _ hf).trans (if_pos known)

end
end
end

/-- What a unit instruction that changes one unit at most leaves. -/
theorem State.modCu_toUnit (s : State) (t : Tid) (w : IWord) (c : Fin 7) (f : Cu → Cu) (d : Done) (x : Cu)
    (cfg : (f (vget s.cus c.val)).cfg = x.cfg) (run : (f (vget s.cus c.val)).run = x.run) :
    let u := ((s.registered t (cuUse c)).modCu c f).toUnit t w (some d)
    ThreadTo s u t ((s.thread t).atUnit w (some d)) ∧ (vget u.cus c.val).cfg = x.cfg ∧ (vget u.cus c.val).run = x.run ∧
      (∀ k, k < 8 → k ≠ c.val → vget u.cus k = vget s.cus k) ∧
      u = { s.registered t (cuUse c) with threads := u.threads, cus := u.cus } := by
  intro u
  have same : vget u.cus c.val = f (vget s.cus c.val) := State.modCu_same _ c f
  exact ⟨threadTo_toUnit_of_threads rfl t w _, by rw [same, cfg], by rw [same, run],
    fun k _ hk => State.modCu_other _ c f k hk, rfl⟩

/-! ### CRCRUN (R265, R497) -/

theorem State.checkOpen_ok {s : State} {t : Tid} {h : Nat} {b : Buf} (hc : s.checkOpen t h = .ok b) :
    s.buf? h = some b ∧ b.isSealed = false := by
  simp only [State.checkOpen] at hc
  split at hc
  · cases hc
  · next x checked =>
    split at hc
    · cases hc
    · next open_ =>
      cases hc
      exact ⟨(State.checkHandle_ok checked).2, Bool.eq_false_iff.2 open_⟩

/-- The running value of a unit once `k` bytes from `pa` on have been fed. -/
def State.fed (s : State) (c : Fin 7) (pa k : Nat) : Reg :=
  BitVec.ofNat 64 ((vget s.cus c.val).cfg.feed (vget s.cus c.val).run.toNat (Memory.readN s.mem pa k))

/-- A unit fed with the first `k` bytes from `pa` on. -/
def State.feedCu (s : State) (c : Fin 7) (pa k : Nat) : State :=
  s.modCu c fun u => { u with run := BitVec.ofNat 64 (u.cfg.feed u.run.toNat (Memory.readN s.mem pa k)) }

/-- What a run of unit `c` over `n` bytes at `pa` leaves, and how it ends. -/
structure CrcRun (s u : State) (d : Done) (c : Fin 7) (pa n : Nat) : Prop where
  mem : u.mem = s.mem
  bufs : u.bufs = s.bufs
  others : ∀ k, k ≠ c.val → vget u.cus k = vget s.cus k
  events : OnlyEvents s u
  whole : s.dram.suspects pa n = [] → (vget u.cus c.val).run = s.fed c pa n ∧ d = .code 0 ∧
    u = { s with dram := u.dram, nextOp := u.nextOp, cus := u.cus }
  stopped : ∀ a, s.dram.faults = [] → (s.dram.suspects pa n).find? s.dram.unreadable = some a →
    (vget u.cus c.val).run = s.fed c pa (a - pa) ∧ d = { wrRd := false, flt := some (.memUe, 0) } ∧ u.err.total = s.err.total + 1

/-- The job of `CRCRUN` reads its range up to an error, and feeds what it has read. -/
theorem State.crcJob_run (s : State) (c : Fin 7) (h off n : Nat) (b : Buf) (hb : s.buf? h = some b) (hz : b.isSealed = false) :
    CrcRun s (s.crcJob c h off n).1 (s.crcJob c h off n).2 c (b.base + off) n := by
  have reads := s.readUntil_reads (b.base + off) n 19
  have clean := s.readUntil_clean (b.base + off) n 19
  have ends : ∀ a, s.dram.faults = [] → (s.dram.suspects (b.base + off) n).find? s.dram.unreadable = some a →
      (s.readUntil (b.base + off) n 19).2 = some a ∧ (s.readUntil (b.base + off) n 19).1.err.total = s.err.total + 1 := fun a =>
    State.meetFirst_ends (s := s.dramRequest 19 (b.base + off) n false)
  simp only [State.crcJob, hb, hz, Bool.false_eq_true, if_false]
  generalize s.readUntil (b.base + off) n 19 = r at reads clean ends
  obtain ⟨v, stop⟩ := r
  obtain ⟨frame, events⟩ := reads
  have feeds : ∀ k, (vget (v.feedCu c (b.base + off) k).cus c.val).run = s.fed c (b.base + off) k := fun k => by
    rw [State.feedCu, State.modCu_same, frame.cus, frame.mem, State.fed]
  have rest : ∀ k d, (s.dram.suspects (b.base + off) n = [] → k = n ∧ d = .code 0 ∧ stop = none) →
      (∀ a, stop = some a → k = a - (b.base + off) ∧ d = { wrRd := false, flt := some (.memUe, 0) }) →
      CrcRun s (v.feedCu c (b.base + off) k) d c (b.base + off) n := fun k d whole stopped =>
    { mem := frame.mem
      bufs := frame.bufs
      others := fun j hj => by rw [State.feedCu, State.modCu_other _ _ _ _ hj, frame.cus]
      events := events
      whole := fun hs => by
        obtain ⟨rfl, rfl, -⟩ := whole hs
        refine ⟨feeds k, rfl, ?_⟩
        have same : v = s.dramRequest 19 (b.base + off) k false := (Prod.mk.inj (clean hs)).1
        rw [same]
        rfl
      stopped := fun a hf find => by
        obtain ⟨stops, total⟩ := ends a hf find
        obtain ⟨rfl, rfl⟩ := stopped a stops
        exact ⟨feeds _, rfl, total⟩ }
  cases stop with
  | none => exact rest n _ (fun _ => ⟨rfl, rfl, rfl⟩) (fun a h => by cases h)
  | some a => exact rest (a - (b.base + off)) _ (fun hs => by cases (Prod.mk.inj (clean hs)).2) (fun x h => by cases h; exact ⟨rfl, rfl⟩)

/-- What a run of a thread's block names. -/
def crcUse (s : State) (t : Tid) (w : IWord) (c : Fin 7) : Use :=
  { units := [.cu c.val], handles := [handleOf ((s.thread t).reg w.ra)]
    reads := [.ofBytes (handleOf ((s.thread t).reg w.ra)) ((s.thread t).reg w.rb).toNat ((s.thread t).reg w.rc).toNat] }

section
variable {s : State} {t : Tid} {w : IWord} {c : Fin 7} {b : Buf} (hi : s.canIssue t 1) (hc : w.fn.toNat % 8 = c.val)
  (hb : s.checkOpen t (handleOf ((s.thread t).reg w.ra)) = .ok b)
  (hn : ((s.thread t).reg w.rb).toNat + ((s.thread t).reg w.rc).toNat ≤ b.len) (hf : s.unitFree t (crcUse s t w c))
include hi hc hb hn hf

/-- `CRCRUN` runs at issue; its thread waits for the delivery of the result (log 4). -/
theorem exec_crcrun_sync (h : w.isAsync = false) :
    ∃ v d, CrcRun (s.registered t (crcUse s t w c)) v d c (b.base + ((s.thread t).reg w.rb).toNat) ((s.thread t).reg w.rc).toNat ∧
      exec (.crcrun t w) s = .next (v.toUnit t w (some d)) := by
  obtain ⟨live, opened⟩ := State.checkOpen_ok hb
  refine ⟨_, _, State.crcJob_run _ c _ _ _ b live opened, congrArg _ ((issue_run s t _ hi).trans ?_)⟩
  simp only [hb, cuOf_eq hc, Buf.within_ok hn, h, bind, Except.bind, pure, Except.pure, State.orFault, Bool.false_eq_true, if_false]
  exact startUnit_free _ _ _ _ _ hf

/-- … and its asynchronous form goes on behind the run. -/
theorem exec_crcrun_async (h : w.isAsync = true) :
    ∃ v d, CrcRun (s.asyncRegistered t (crcUse s t w c)) v d c (b.base + ((s.thread t).reg w.rb).toNat) ((s.thread t).reg w.rc).toNat ∧
      exec (.crcrun t w) s = .next (v.modThread t fun th => th.behind w
        { op := s.nextOp, word := w.resWord, addr := (s.thread t).pc, res := some d }) := by
  obtain ⟨live, opened⟩ := State.checkOpen_ok hb
  refine ⟨_, _, State.crcJob_run _ c _ _ _ b live opened, congrArg _ ((issue_run s t _ hi).trans ?_)⟩
  simp only [hb, cuOf_eq hc, Buf.within_ok hn, h, hf.2.1, bind, Except.bind, pure, Except.pure, State.orFault, Bool.false_eq_true,
    if_false, if_true]
  exact startAsync_free _ _ _ _ _ _ hf

end

/-- Settles O28. -/
theorem crcUnitsAndRuns : Obligations.CrcUnitsAndRuns := by
  refine ⟨?_, ?_, CuCfg.feed_append⟩
  · intro s t w c hi hue th use cu b wid fl goes
    refine ⟨fun h => ?_, fun hc => ⟨fun h => exec_crcset_faults hi hue c hc (crcConfig_none h), fun hf => ⟨?_, ?_, ?_⟩⟩⟩
    · have faults := exec_crc_cu7 hi hue h
      simp only [List.forall_mem_cons, List.not_mem_nil, false_implies, implies_true, and_true] at faults
      exact faults
    · intro lo hi' poly
      exact ⟨_, exec_crcset hi hc hf hue (crcConfig_some lo hi' poly), State.modCu_toUnit s t w c _ _ _ rfl rfl⟩
    · cases hfin : w.fn.getLsbD 3 with
      | true =>
        exact ⟨_, exec_crcget_final hi hc hf hfin, threadTo_toUnit_of_threads rfl t w _, rfl, rfl, fun _ _ _ => rfl, rfl⟩
      | false =>
        obtain ⟨cfg, run⟩ := Cu.remember_value cu
        exact ⟨_, exec_crcget_running hi hc hf hfin, State.modCu_toUnit s t w c _ _ _ cfg run⟩
    · intro h
      exact ⟨_, exec_crcput hi hc hf h, State.modCu_toUnit s t w c _ _ _ rfl rfl⟩
  · intro s t w c b hi hc th h off n use fed hb hn hf
    cases ha : w.isAsync with
    | false =>
      obtain ⟨v, d, ⟨mem, bufs, others, events, whole, stopped⟩, runs⟩ := exec_crcrun_sync hi hc hb hn hf ha
      refine ⟨_, runs, mem, bufs, fun k _ hk => others k hk, fun hs => ?_, fun a hfa find => ?_, fun h7 => ?_⟩
      · obtain ⟨run, rfl, same⟩ := whole hs
        exact ⟨run, by rw [same]; rfl, fun _ => threadTo_toUnit_of_threads (by rw [same]; rfl) t w _⟩
      · obtain ⟨run, rfl, total⟩ := stopped a hfa find
        refine ⟨run, total, fun _ => ?_⟩
        rw [State.toUnit_thread]
        rfl
      · exact absurd (ha.symm.trans h7) Bool.false_ne_true
    | true =>
      obtain ⟨v, d, ⟨mem, bufs, others, events, whole, stopped⟩, runs⟩ := exec_crcrun_async hi hc hb hn hf ha
      refine ⟨_, runs, mem, bufs, fun k _ hk => others k hk, fun hs => ?_, fun a hfa find => ?_, fun _ => ?_⟩
      · obtain ⟨run, rfl, same⟩ := whole hs
        exact ⟨run, by rw [same]; rfl, fun h7 => absurd (ha.symm.trans h7) Bool.noConfusion⟩
      · obtain ⟨run, rfl, total⟩ := stopped a hfa find
        exact ⟨run, total, fun h7 => absurd (ha.symm.trans h7) Bool.noConfusion⟩
      · obtain ⟨-, running, -⟩ := hi
        obtain ⟨st, pc, g, fl, scratch, ops⟩ := (v.thread t).behind_fields w
          { op := s.nextOp, word := w.resWord, addr := (s.thread t).pc, res := some d }
        rw [State.modThread_eq, State.setThread_thread, st, pc, g, fl, scratch, ops, events t]
        exact ⟨running, rfl, by apply Thread.setReg_g_congr; rfl, rfl, rfl, List.map_append⟩

end Sys2Proof.Machine
end

section
/-! SUPPORT. A burst with two marks (R11, R316): one under its own address, one under an address inside it. -/

namespace Sys2Proof.Machine

/-- A thread that runs on buffer 1, with the handle of that buffer in g1. -/
def markedThread : Thread := { st := .running, prog := 1, g := (Vector.replicate 16 0).set 1 1 }

/-- A READY device whose buffer 1 holds the program and the data of thread 0. Its first burst is uncorrectable, and a second mark,
under address 3, names the same burst. -/
def twiceMarked : State :=
  { State.reset with
    boot := { stage := 8, link := true, fresh := false }
    dram := { bad := [(0, .wcode), (3, .wcode)] }
    bufs := { table := [(1, { base := 0, len := 64, owner := some 0 })] }
    threads := State.reset.threads.set 0 markedThread }

/-- `LDH` of the eight bytes at the start of buffer 1. -/
def loadFirstWord : IWord := { rd := 2, ra := 1, rb := 0, rc := 0, fn := 3, imm := 0, ext := 0 }

theorem twiceMarked_issues : twiceMarked.canIssue 0 1 := by
  refine ⟨?_, ?_, ?_⟩ <;> decide +kernel

theorem twiceMarked_free : twiceMarked.unitFree 0 { handles := [1], reads := [.ofBytes 1 0 8] } :=
  ⟨rfl, rfl, List.forall_mem_nil _, Or.inr rfl⟩

/-- The read meets the burst once under either mark: two records. -/
theorem twiceMarked_load : ∃ u, exec (.ldh 0 loadFirstWord) twiceMarked = .next u ∧ u.err.total = twiceMarked.err.total + 2 := by
  refine ⟨_, rfl, ?_⟩
  decide +kernel

end Sys2Proof.Machine
end

section
/-! PROOF. O13 fails: a burst may be marked twice. -/

open Sys2Proof Sys2Proof.Machine

/-- Refutes O13: the first part asks nothing of the list of uncorrectable bursts. Where that list names a burst by its own address and
once more by an address inside it, `LDH` meets the burst twice and writes two records; the statement has it write one. -/
theorem not_bufferLoadsAndStores : ¬ Obligations.BufferLoadsAndStores := by
  unfold Obligations.BufferLoadsAndStores
  rintro ⟨loads, -⟩
  obtain ⟨u, said, -, -, lost⟩ := loads twiceMarked 0 loadFirstWord { base := 0, len := 64, owner := some 0 } twiceMarked_issues rfl rfl (by decide)
    twiceMarked_free
  obtain ⟨-, -, -, one, -⟩ := lost (by decide) (by decide +kernel)
  obtain ⟨v, made, two⟩ := twiceMarked_load
  have same : u = v := Host.Outcome.next.inj (said.symm.trans made)
  rw [same, two] at one
  exact absurd one (by decide +kernel)

end

section
/-! SUPPORT. The units of Table 21-6 and their changes of service state (R526, R527). -/

namespace Sys2Proof.Machine

/-! ### Names -/

theorem mem_allUnits {x : UnitName} :
    x ∈ allUnits ↔ (x.1 = 0x18 ∧ x.2 < 16) ∨ (x.1 = 0x2A ∧ x.2 < 24) ∨ (x.1 = 0x09 ∧ x.2 < 8) := by
  obtain ⟨b, i⟩ := x
  simp only [allUnits, List.mem_append, List.mem_map, List.mem_range, Prod.mk.injEq, or_assoc]
  constructor
  · rintro (⟨k, hk, rfl, rfl⟩ | ⟨k, hk, rfl, rfl⟩ | ⟨k, hk, rfl, rfl⟩) <;> simp [hk]
  · rintro (⟨rfl, hi⟩ | ⟨rfl, hi⟩ | ⟨rfl, hi⟩)
    · exact .inl ⟨i, hi, rfl, rfl⟩
    · exact .inr (.inl ⟨i, hi, rfl, rfl⟩)
    · exact .inr (.inr ⟨i, hi, rfl, rfl⟩)

theorem unitOf_mem {r : Reg} {x : UnitName} (h : unitOf r = some x) : x ∈ allUnits := by
  simp only [unitOf] at h
  split at h
  · next named => cases h; exact mem_allUnits.2 named
  · cases h

/-! ### Changes of one unit -/

theorem State.unit_congr {s u : State} (h : u.svc = s.svc) (x : UnitName) : u.unit x = s.unit x := by
  rw [State.unit, State.unit, h]

theorem State.unit_modUnit_same (s : State) {x : UnitName} (f : SvcUnit → SvcUnit) (hx : x ∈ allUnits) :
    (s.modUnit x f).unit x = f (s.unit x) := by
  obtain ⟨b, i⟩ := x
  rcases mem_allUnits.1 hx with ⟨rfl, hi⟩ | ⟨rfl, hi⟩ | ⟨rfl, hi⟩ <;>
    simp only [State.modUnit, State.unit, if_true, Nat.reduceEqDiff, if_false] <;>
    rw [vget_vmodN_same _ _ _ hi, vget, dif_pos hi]

theorem State.unit_modUnit_other (s : State) {x y : UnitName} (f : SvcUnit → SvcUnit) (hx : x ∈ allUnits) (hy : y ∈ allUnits) (h : y ≠ x) :
    (s.modUnit x f).unit y = s.unit y := by
  obtain ⟨b, i⟩ := x
  obtain ⟨c, j⟩ := y
  have apart : c = b → j ≠ i := by rintro rfl rfl; exact h rfl
  rcases mem_allUnits.1 hx with ⟨rfl, -⟩ | ⟨rfl, -⟩ | ⟨rfl, -⟩ <;>
    rcases mem_allUnits.1 hy with ⟨rfl, -⟩ | ⟨rfl, -⟩ | ⟨rfl, -⟩ <;>
    simp only [State.modUnit, State.unit, if_true, Nat.reduceEqDiff, if_false]
  all_goals exact vget_vmodN_other _ _ _ _ (apart rfl)

/-- What work on units leaves as it was: memory, the plan, the scan, and of the threads all but further event bits. -/
structure UnitFrame (s u : State) : Prop where
  mem : u.mem = s.mem
  plan : u.plan = s.plan
  scan : u.scan = s.scan
  runs : u.sequencing = s.sequencing
  threads : OnlyEvents s u
  events : EventsKept s u

theorem UnitFrame.refl (s : State) : UnitFrame s s := ⟨rfl, rfl, rfl, rfl, .refl s, .refl s⟩

theorem UnitFrame.trans {s u v : State} (h : UnitFrame s u) (k : UnitFrame u v) : UnitFrame s v :=
  ⟨k.mem.trans h.mem, k.plan.trans h.plan, k.scan.trans h.scan, k.runs.trans h.runs, h.threads.trans k.threads, h.events.trans k.events⟩

theorem UnitFrame.of_threads {s u : State} (mem : u.mem = s.mem) (plan : u.plan = s.plan) (scan : u.scan = s.scan)
    (runs : u.sequencing = s.sequencing) (threads : u.threads = s.threads) : UnitFrame s u := ⟨mem, plan, scan, runs, .of_threads threads, .of_threads threads⟩

theorem UnitFrame.plan? {s u : State} (h : UnitFrame s u) : u.plan? = s.plan? := by rw [State.plan?, State.plan?, h.plan, h.scan]

theorem State.modUnit_unitFrame (s : State) (x : UnitName) (f : SvcUnit → SvcUnit) : UnitFrame s (s.modUnit x f) := by
  rw [State.modUnit_frame]
  exact .of_threads rfl rfl rfl rfl rfl

theorem State.event_unitFrame (s : State) (b : Nat) : UnitFrame s (s.event b) :=
  ⟨rfl, rfl, rfl, rfl, s.eventFor_onlyEvents _ _, s.event_eventsKept b⟩

theorem State.report_unitFrame (s : State) (code block info : Nat) : UnitFrame s (s.report code block info) :=
  ⟨s.report_mem _ _ _, s.report_plan _ _ _, s.report_scan _ _ _, by rw [State.report_frame]; rfl, s.report_onlyEvents _ _ _, s.report_eventsKept _ _ _⟩

theorem State.setUnit_unitFrame (s : State) (x : UnitName) (y : SvcState) (device : Bool) : UnitFrame s (s.setUnit x y device) := by
  simp only [State.setUnit]
  split
  · exact .refl s
  · exact ((s.modUnit_unitFrame _ _).trans (State.report_unitFrame _ _ _ _)).trans (State.event_unitFrame _ _)

theorem State.told41_unitFrame (s : State) (d : List Byte) (v : Nat) :
    UnitFrame s ((s.post41 d).raise v) ∧ ((s.post41 d).raise v).svc = s.svc :=
  ⟨⟨by simp, by simp, by simp, by rw [State.raise_frame, State.post41_frame]; rfl, (s.post41_onlyEvents d).congr (State.raise_threads _ _),
    (s.post41_eventsKept d).trans (State.raise_eventsKept _ _)⟩, by simp⟩

theorem State.modPort_unitFrame (s : State) (p : Fin 8) (f : Port → Port) : UnitFrame s (s.modPort p f) := .of_threads rfl rfl rfl rfl rfl

theorem State.setPort_unitFrame (s : State) (p : Fin 8) (x : PortState) :
    UnitFrame s (s.setPort p x) ∧ (s.setPort p x).svc = s.svc := by
  have told : ∀ u d, UnitFrame s u → u.svc = s.svc →
      UnitFrame s (((u.event 10).post41 d).raise 59) ∧ (((u.event 10).post41 d).raise 59).svc = s.svc := fun u d frame svc =>
    have ⟨after, same⟩ := (u.event 10).told41_unitFrame d 59
    ⟨(frame.trans (u.event_unitFrame 10)).trans after, same.trans svc⟩
  simp only [State.setPort]
  split
  · exact ⟨s.modPort_unitFrame _ _, rfl⟩
  · exact told _ _ (s.modPort_unitFrame _ _) rfl

/-! ### Changes of state (R526) -/

section
variable (s : State) {x : UnitName} (hx : x ∈ allUnits)
include hx

/-- A unit that enters another state does so with record 0x1705 and SERVICE; no other unit changes. -/
theorem State.setUnit_enters (y : SvcState) (device : Bool) (h : (s.unit x).st ≠ y) :
    let u := s.setUnit x y device
    u.unit x = { s.unit x with st := y, forced := if y = .inService then false else (s.unit x).forced } ∧
      (∀ z ∈ allUnits, z ≠ x → u.unit z = s.unit z) ∧ (∀ v : Tid, (u.thread v).evt.getLsbD 13 = true) ∧
      u.err.total = s.err.total + 1 := by
  have err : ∀ f, (s.modUnit x f).err = s.err := fun f => by rw [State.modUnit_frame]
  simp only [State.setUnit, if_neg h]
  have svc : ∀ v : State, ∀ info, ((v.report 0x1705 x.1 info).event 13).svc = v.svc := fun v info => by
    rw [State.event_svc, State.report_svc]
  refine ⟨?_, fun z hz ne => ?_, State.event_sets _ 13 (by omega), ?_⟩
  · rw [State.unit_congr (svc _ _), State.unit_modUnit_same _ _ hx]
  · rw [State.unit_congr (svc _ _), State.unit_modUnit_other _ _ hx hz ne]
  · rw [State.event_err, State.report_total, err]

/-- A unit that leaves service at its thread's order loses its passes, and the order completes. -/
theorem State.leaveService_told {who : Deliver} (h : (s.unit x).st ≠ .outOfService) (hw : (s.unit x).removeTo = some who) :
    ∃ told : State, UnitFrame s told ∧ told.unit x = { s.unit x with
        st := .outOfService, logicPass := false, memPass := false, removeTo := none } ∧
      (∀ z ∈ allUnits, z ≠ x → told.unit z = s.unit z) ∧
      UnitFrame (told.deliver who (.code 0)) (s.leaveService x) ∧ (s.leaveService x).svc = told.svc := by
  obtain ⟨mine, others, -, -⟩ := s.setUnit_enters hx .outOfService false h
  refine ⟨(s.setUnit x .outOfService false).modUnit x fun v => { v with logicPass := false, memPass := false, removeTo := none },
    (s.setUnit_unitFrame _ _ _).trans (State.modUnit_unitFrame _ _ _), ?_, fun z hz ne => ?_, ?_⟩
  · rw [State.unit_modUnit_same _ _ hx, mine]
    rfl
  · rw [State.unit_modUnit_other _ _ hx hz ne, others z hz ne]
  · simp only [State.leaveService, hw]
    split
    · exact ⟨.of_threads rfl rfl rfl rfl rfl, State.deliver_svc _ _ _⟩
    · split
      · obtain ⟨frame, svc⟩ := State.setPort_unitFrame (((s.setUnit x .outOfService false).modUnit x
          fun v => { v with logicPass := false, memPass := false, removeTo := none }).deliver who (.code 0)) (Fin.ofNat 8 x.2) .outOfService
        exact ⟨frame, svc.trans (State.deliver_svc _ _ _)⟩
      · exact ⟨.refl _, State.deliver_svc _ _ _⟩

omit hx in
/-- What waits for a frame boundary takes place at once while no plan is in force. -/
theorem State.settleNow_draining (h : (s.unit x).st = .draining) (hp : s.plan? = none) : s.settleNow x = s.leaveService x := by
  simp only [State.settleNow, hp, Option.isNone_none, if_true, State.settleUnit, h, Option.any_none, Bool.false_eq_true, if_false]

omit hx in
theorem State.settleNow_planned (h : s.plan? ≠ none) : s.settleNow x = s :=
  if_neg (by simpa using h)

omit hx in
/-- What `RETURNING` starts is work of the unit's own. -/
theorem State.startReturn_unitFrame : UnitFrame s (s.startReturn x) ∧ (s.startReturn x).svc = s.svc := by
  have pair : ∀ (u : State) n, UnitFrame u (if u.pwr.st == .up && u.usedPairs.contains n then
      u.modPair n fun p => { p with st := .training, trained := false, tries := 0 } else u) ∧ (if u.pwr.st == .up && u.usedPairs.contains n then
      u.modPair n fun p => { p with st := .training, trained := false, tries := 0 } else u).svc = u.svc := fun u n => by
    split
    · exact ⟨.of_threads rfl rfl rfl rfl rfl, rfl⟩
    · exact ⟨.refl _, rfl⟩
  simp only [State.startReturn]
  split
  · exact ⟨.of_threads rfl rfl rfl rfl rfl, rfl⟩
  · split
    · obtain ⟨one, svc⟩ := pair s (2 * x.2)
      obtain ⟨two, svc'⟩ := pair _ (2 * x.2 + 1)
      exact ⟨one.trans two, svc'.trans svc⟩
    · obtain ⟨frame, svc⟩ := (s.modPort (Fin.ofNat 8 x.2) fun y => { y with fails := 0 }).setPort_unitFrame (Fin.ofNat 8 x.2) .down
      exact ⟨(s.modPort_unitFrame _ _).trans frame, svc⟩

end

/-! ### `SVC` REMOVE, RETURN and STATE (R273, R274, R526, R527) -/

section
variable {s : State} {t : Tid} {w : IWord} (hi : s.canIssue t 1) (hf : s.unitFree t {})
include hi hf

/-- A unit without service states gives NOT_REMOVABLE. -/
theorem exec_svc_noUnit (hx : unitOf ((s.thread t).reg w.ra) = none) : ∀ c ∈ [Instr.svcRemove t w, .svcReturn t w, .svcState t w],
    exec c s = .next ((s.registered t {}).toUnit t w (some (.code 0x31))) := by
  simp only [List.forall_mem_cons, List.not_mem_nil, false_implies, implies_true, and_true]
  refine ⟨congrArg _ ((issue_run s t _ hi).trans ?_), congrArg _ ((issue_run s t _ hi).trans ?_), congrArg _ ((issue_run s t _ hi).trans ?_)⟩
    <;> simp only [hx]
  · exact startUnit_free _ _ _ _ _ hf
  · exact startUnit_free _ _ _ _ _ hf
  · exact startUnit_free _ _ _ _ _ hf

section
variable {x : UnitName} (hx : unitOf ((s.thread t).reg w.ra) = some x)
include hx

theorem exec_svcState : exec (.svcState t w) s =
    .next ((s.registered t {}).toUnit t w (some (.codeRc 0 (s.unit x).st.num))) := by
  refine congrArg _ ((issue_run s t _ hi).trans ?_)
  simp only [hx]
  exact startUnit_free _ _ _ _ _ hf

theorem exec_svcRemove_faults (h : s.removable x (((s.thread t).reg w.rb).getLsbD 0) = false) : exec (.svcRemove t w) s =
    .next ((s.registered t {}).faultAt t .state 0x1B (s.thread t).pc) := by
  refine congrArg _ ((issue_run s t _ hi).trans ?_)
  simp only [hx]
  refine (startUnit_free _ _ _ _ _ hf).trans (if_pos ?_)
  exact congrArg (!·) h

omit hi hf hx in
theorem State.removable_st {force : Bool} (h : s.removable x force = true) : (s.unit x).st = .inService := by
  rw [State.removable, Bool.and_eq_true, beq_iff_eq] at h
  exact h.1

omit hi hf hx in
/-- A return needs the unit out of service, with the passes of its kind (R500). -/
theorem State.returnable_true (out : (s.unit x).st = .outOfService) (logic : (s.unit x).logicPass = true)
    (memory : x.1 = 0x2A ∨ (s.unit x).memPass = true) : s.returnable x = true := by
  simp only [State.returnable, out, logic, beq_self_eq_true, Bool.true_and, Bool.or_eq_true, beq_iff_eq]
  exact memory

omit hi hf hx in
theorem State.returnable_false (h : (s.unit x).st ≠ .outOfService ∨ (s.unit x).logicPass = false ∨ (x.1 ≠ 0x2A ∧ (s.unit x).memPass = false)) :
    s.returnable x = false := by
  simp only [State.returnable]
  rcases h with h | h | ⟨quad, h⟩
  · simp [h]
  · simp [h]
  · simp [h, quad]

/-- A removal with what its force brings about (R208). -/
def State.lossOf (s : State) (x : UnitName) (force : Bool) : State := if force then s.loseUnit x else s

/-- The unit drains, and the thread waits for the removal. -/
def State.startRemove (s : State) (t : Tid) (w : IWord) (x : UnitName) : State :=
  ((s.toUnit t w none).setUnit x .draining false).modUnit x fun v => { v with removeTo := some (.thread t) }

theorem exec_svcRemove (h : s.removable x (((s.thread t).reg w.rb).getLsbD 0) = true) (hh : s.higher .service .host = none) :
    exec (.svcRemove t w) s =
      .next ((((s.registered t {}).lossOf x (((s.thread t).reg w.rb).getLsbD 0)).startRemove t w x).settleNow x) := by
  refine congrArg _ ((issue_run s t _ hi).trans ?_)
  simp only [hx]
  refine (startUnit_free _ _ _ _ _ hf).trans ((if_neg ?_).trans (hostOrder_free _ _ _ _ _ hh))
  exact Bool.eq_false_iff.1 (congrArg (!·) h)

theorem exec_svcReturn_faults (h : s.returnable x = false) : exec (.svcReturn t w) s =
    .next ((s.registered t {}).faultAt t .state 0x1C (s.thread t).pc) := by
  refine congrArg _ ((issue_run s t _ hi).trans ?_)
  simp only [hx]
  refine (startUnit_free _ _ _ _ _ hf).trans (if_pos ?_)
  exact congrArg (!·) h

theorem exec_svcReturn (h : s.returnable x = true) (hh : s.higher .service .host = none) : exec (.svcReturn t w) s =
    .next (((((s.registered t {}).toUnit t w (some (.code 0))).setUnit x .returning false).startReturn x).settleNow x) := by
  refine congrArg _ ((issue_run s t _ hi).trans ?_)
  simp only [hx]
  refine (startUnit_free _ _ _ _ _ hf).trans ((if_neg ?_).trans (hostOrder_free _ _ _ _ _ hh))
  exact Bool.eq_false_iff.1 (congrArg (!·) h)

end
end

/-! ### What a removal and a return leave -/

section
variable (s : State) (t : Tid) (w : IWord) {x : UnitName} (hx : x ∈ allUnits)
include hx

omit hx in
theorem State.toUnit_unit (d : Option Done) : (s.toUnit t w d).unit x = s.unit x := State.unit_congr rfl x

/-- The loss of a unit changes no state of a unit, and no plan in force. -/
theorem State.lossOf_states (force : Bool) : (∀ z ∈ allUnits, ((s.lossOf x force).unit z).st = (s.unit z).st) ∧
    (s.lossOf x force).threads = s.threads ∧ (s.lossOf x force).mem = s.mem ∧ (s.lossOf x force).plan? = s.plan? := by
  simp only [State.lossOf, State.loseUnit]
  split
  · split
    · refine ⟨fun z hz => ?_, by rw [State.modUnit_frame], by rw [State.modUnit_frame], by rw [State.modUnit_frame]; rfl⟩
      refine (congrArg SvcUnit.st (State.unit_congr (s := s.modUnit x fun v => { v with forced := true }) rfl z)).trans ?_
      by_cases h : z = x
      · rw [h, State.unit_modUnit_same _ _ hx]
      · rw [State.unit_modUnit_other _ _ hx hz h]
    · exact ⟨fun _ _ => rfl, rfl, rfl, rfl⟩
  · exact ⟨fun _ _ => rfl, rfl, rfl, rfl⟩

/-- A removal begins with its unit in DRAINING. -/
theorem State.startRemove_drains (h : (s.unit x).st = .inService) :
    UnitFrame (s.toUnit t w none) (s.startRemove t w x) ∧ ((s.startRemove t w x).unit x).st = .draining ∧
      ((s.startRemove t w x).unit x).removeTo = some (.thread t) ∧
      (∀ z ∈ allUnits, z ≠ x → (s.startRemove t w x).unit z = s.unit z) ∧
      ∀ v : Tid, ((s.startRemove t w x).thread v).evt.getLsbD 13 = true := by
  have old : ((s.toUnit t w none).unit x).st ≠ .draining := by
    rw [State.toUnit_unit, h]
    exact SvcState.noConfusion
  obtain ⟨mine, others, events, -⟩ := (s.toUnit t w none).setUnit_enters hx .draining false old
  refine ⟨(State.setUnit_unitFrame _ _ _ _).trans (State.modUnit_unitFrame _ _ _), ?_, ?_, fun z hz ne => ?_, fun v => ?_⟩
  · rw [State.startRemove, State.unit_modUnit_same _ _ hx, mine]
  · rw [State.startRemove, State.unit_modUnit_same _ _ hx]
  · rw [State.startRemove, State.unit_modUnit_other _ _ hx hz ne, others z hz ne]
    exact State.toUnit_unit _ _ _ _
  · exact (State.modUnit_unitFrame _ _ _).events v 13 (events v)

/-- Without a plan in force the unit is out of service at once. -/
theorem State.startRemove_leaves (h : (s.unit x).st = .inService) (hp : s.plan? = none) :
    let u := (s.startRemove t w x).settleNow x
    u.mem = s.mem ∧ (u.unit x).st = .outOfService ∧ (u.unit x).logicPass = false ∧ (u.unit x).memPass = false ∧
      (∀ z ∈ allUnits, z ≠ x → u.unit z = s.unit z) ∧ (u.thread t).done = some (.code 0) ∧
      ∀ v : Tid, (u.thread v).evt.getLsbD 13 = true := by
  obtain ⟨begun, drains, waits, others, events⟩ := s.startRemove_drains t w hx h
  have unplanned : (s.startRemove t w x).plan? = none := begun.plan?.trans hp
  rw [State.settleNow_draining _ drains unplanned]
  obtain ⟨told, frame, mine, rest, after, svc⟩ := State.leaveService_told _ hx (by rw [drains]; exact SvcState.noConfusion) waits
  have waiting : (told.thread t).wait = .unit := by
    rw [(begun.trans frame).threads t, State.toUnit_thread]
    rfl
  refine ⟨?_, ?_, ?_, ?_, fun z hz ne => ?_, ?_, fun v => ?_⟩
  · rw [after.mem, State.deliver_mem, frame.mem, begun.mem]
    rfl
  · rw [State.unit_congr svc, mine]
  · rw [State.unit_congr svc, mine]
  · rw [State.unit_congr svc, mine]
  · rw [State.unit_congr svc, rest z hz ne, others z hz ne]
  · rw [after.threads t]
    exact State.deliver_told _ _ _ waiting
  · exact after.events v 13 (State.deliver_eventsKept _ _ _ v 13 (frame.events v 13 (events v)))

/-- A unit with its passes enters RETURNING. -/
theorem State.startReturn_enters (h : (s.unit x).st = .outOfService) :
    let u := ((s.toUnit t w (some (.code 0))).setUnit x .returning false).startReturn x
    UnitFrame (s.toUnit t w (some (.code 0))) u ∧ (u.unit x).st = .returning ∧ ∀ v : Tid, (u.thread v).evt.getLsbD 13 = true := by
  have old : ((s.toUnit t w (some (.code 0))).unit x).st ≠ .returning := by
    rw [State.toUnit_unit, h]
    exact SvcState.noConfusion
  obtain ⟨mine, -, events, -⟩ := (s.toUnit t w (some (.code 0))).setUnit_enters hx .returning false old
  obtain ⟨frame, svc⟩ := ((s.toUnit t w (some (.code 0))).setUnit x .returning false).startReturn_unitFrame
  exact ⟨(State.setUnit_unitFrame _ _ _ _).trans frame, by rw [State.unit_congr svc, mine], fun v => frame.events v 13 (events v)⟩

/-- The state in which a unit's test has begun. -/
def State.startTest (s : State) (x : UnitName) (mem : Bool) (run : BistRun) (who : Deliver) : State :=
  (s.setUnit x .testing false).modUnit x fun v => { v with test := some (mem, run, who) }

/-- A test begins with its unit in TESTING. -/
theorem State.startTest_enters (h : (s.unit x).st = .outOfService) (mem : Bool) (run : BistRun) (who : Deliver) :
    let u := s.startTest x mem run who
    UnitFrame s u ∧ (u.unit x).st = .testing ∧ (u.unit x).test = some (mem, run, who) := by
  obtain ⟨mine, -, -, -⟩ := s.setUnit_enters hx .testing false (by rw [h]; exact SvcState.noConfusion)
  refine ⟨(s.setUnit_unitFrame _ _ _).trans (State.modUnit_unitFrame _ _ _), ?_, ?_⟩
  · rw [State.startTest, State.unit_modUnit_same _ _ hx, mine]
  · rw [State.startTest, State.unit_modUnit_same _ _ hx]

end

/-! ### `BIST` (R499, R500) -/

theorem State.registered_unit (s : State) (t : Tid) (u : Use) (x : UnitName) : (s.registered t u).unit x = s.unit x := State.unit_congr rfl x

theorem State.asyncRegistered_unit (s : State) (t : Tid) (u : Use) (x : UnitName) : (s.asyncRegistered t u).unit x = s.unit x :=
  State.unit_congr rfl x

theorem State.bistJob_quadMemory {s : State} {x : UnitName} {mem : Bool} (run : BistRun) (who : Deliver)
    (out : (s.unit x).st = .outOfService) (hm : mem = true) (quad : x.1 = 0x2A) :
    s.bistJob (some x) mem run who = (s.modUnit x fun v => { v with memPass := true }, some (.code 0)) := by
  simp only [State.bistJob, out, ne_eq, not_true, if_false, hm, quad, and_self, if_true]

theorem State.bistJob_test {s : State} {x : UnitName} {mem : Bool} (run : BistRun) (who : Deliver)
    (out : (s.unit x).st = .outOfService) (test : mem = false ∨ x.1 ≠ 0x2A) :
    s.bistJob (some x) mem run who = (s.startTest x mem run who, none) := by
  have whole : ¬(mem = true ∧ x.1 = 0x2A) := fun ⟨hm, quad⟩ => test.elim (fun h => by simp [h] at hm) (· quad)
  simp only [State.bistJob, out, ne_eq, not_true, if_false, whole]
  rfl

section
variable {s : State} {t : Tid} {w : IWord} {run : BistRun} (hi : s.canIssue t 1) (hh : s.higher .service .host = none)
include hi

include hh in
theorem exec_bist_noUnit (hf : s.unitFree t {}) (hs : w.isAsync = false) (hx : unitOf ((s.thread t).reg w.ra) = none) :
    exec (.bist t w run) s = .next ((s.registered t {}).toUnit t w (some (.code 0x31))) := by
  refine congrArg _ ((issue_run s t _ hi).trans ?_)
  simp only [hs, hx, Bool.false_eq_true, if_false]
  rw [startUnit_free _ _ _ _ _ hf]
  simp only [Bool.not_true, Bool.false_eq_true, if_false]
  have free : (s.registered t {}).higher .service .host = none := hh
  rw [hostOrder_free _ _ _ _ _ free]
  rfl

section
variable {x : UnitName} (hx : unitOf ((s.thread t).reg w.ra) = some x) (hf : s.unitFree t { units := [x.ctrl] })
include hx hf

theorem exec_bist_faults (hs : w.isAsync = false) (out : (s.unit x).st ≠ .outOfService) (testing : (s.unit x).st ≠ .testing) :
    exec (.bist t w run) s = .next ((s.registered t { units := [x.ctrl] }).faultAt t .state 0x1A (s.thread t).pc) := by
  refine congrArg _ ((issue_run s t _ hi).trans ?_)
  simp only [hs, hx, Bool.false_eq_true, if_false]
  rw [startUnit_free _ _ _ _ _ hf]
  simp only [State.registered_unit, beq_eq_false_iff_ne.2 out, beq_eq_false_iff_ne.2 testing, Bool.or_false, Bool.not_false, if_true]
  rfl

section
variable (out : (s.unit x).st = .outOfService)
include hh out

/-- A unit that is out of service is tested by what `State.bistJob` says. -/
theorem exec_bist_job (hs : w.isAsync = false) (u : State) (d : Option Done)
    (job : (s.registered t { units := [x.ctrl] }).bistJob (some x) (w.fn.getLsbD 0) run (.thread t) = (u, d)) :
    exec (.bist t w run) s = .next (u.toUnit t w d) := by
  refine congrArg _ ((issue_run s t _ hi).trans ?_)
  simp only [hs, hx, Bool.false_eq_true, if_false]
  rw [startUnit_free _ _ _ _ _ hf]
  simp only [State.registered_unit, out, beq_self_eq_true, Bool.true_or, Bool.not_true, Bool.false_eq_true, if_false]
  have free : (s.registered t { units := [x.ctrl] }).higher .service .host = none := hh
  rw [hostOrder_free _ _ _ _ _ free, job]
  cases d <;> rfl

theorem exec_bist_async (hs : w.isAsync = true) (test : w.fn.getLsbD 0 = false ∨ x.1 ≠ 0x2A) : exec (.bist t w run) s =
    .next (((s.asyncRegistered t { units := [x.ctrl] }).startTest x (w.fn.getLsbD 0) run (.async t s.nextOp)).modThread t fun th => th.behind w
        { op := s.nextOp, word := w.resWord, addr := (s.thread t).pc, res := none }) := by
  have job := State.bistJob_test (s := s.asyncRegistered t { units := [x.ctrl] }) run (.async t s.nextOp) out test
  refine congrArg _ ((issue_run s t _ hi).trans ?_)
  simp only [hs, hx, hf.2.1, out, beq_self_eq_true, Bool.true_or, Bool.not_true, Bool.false_eq_true, if_false, if_true]
  rw [hostOrder_free _ _ _ _ _ hh, startAsync_free _ _ _ _ _ _ hf, job]

end
end
end

/-! ### The end of a test (R500) -/

section
variable (s : State) {x : UnitName} (hx : x ∈ allUnits)
include hx

omit hx in
/-- The unit of a test that ends, before the result counts. -/
def State.leaveTest (s : State) (x : UnitName) : State := (s.modUnit x fun v => { v with test := none }).setUnit x .outOfService false

theorem State.leaveTest_facts (h : (s.unit x).st = .testing) : UnitFrame s (s.leaveTest x) ∧
    (s.leaveTest x).unit x = { s.unit x with st := .outOfService, test := none } ∧
    (∀ z ∈ allUnits, z ≠ x → (s.leaveTest x).unit z = s.unit z) ∧ (s.leaveTest x).err.total = s.err.total + 1 := by
  have before : (s.modUnit x fun v => { v with test := none }).unit x = { s.unit x with test := none } := State.unit_modUnit_same _ _ hx
  have err : (s.modUnit x fun v => { v with test := none }).err = s.err := by rw [State.modUnit_frame]
  obtain ⟨mine, others, -, total⟩ := (s.modUnit x fun v => { v with test := none }).setUnit_enters hx .outOfService false
    (by rw [before, h]; exact SvcState.noConfusion)
  refine ⟨(s.modUnit_unitFrame _ _).trans (State.setUnit_unitFrame _ _ _ _), ?_, fun z hz ne => ?_, ?_⟩
  · rw [State.leaveTest, mine, before]
    rfl
  · rw [State.leaveTest, others z hz ne, State.unit_modUnit_other _ _ hx hz ne]
  · rw [State.leaveTest, total, err]

/-- What the end of a test brings about before its answer: a pass is noted, a failure clears both notes and is recorded (R500). -/
def State.tested (s : State) (x : UnitName) (mem : Bool) : BistRun → State
  | .pass => (s.leaveTest x).modUnit x fun v => if mem then { v with memPass := true } else { v with logicPass := true }
  | .fail word => ((s.leaveTest x).modUnit x fun v => { v with logicPass := false, memPass := false }).report 0x1503 0x04
      (x.2 * 2 ^ 40 + x.1 * 2 ^ 32 + mem.toNat * 65536 + (if mem then word.toNat else 0))

/-- The result code of a test. -/
def testCode : BistRun → Nat
  | .pass => 0
  | .fail _ => 0x83

omit hx in
theorem State.endTest_eq {mem : Bool} {run : BistRun} {who : Deliver} (h : (s.unit x).test = some (mem, run, who)) :
    s.endTest x = (s.tested x mem run).deliver who (.code (testCode run)) := by
  simp only [State.endTest, h]
  cases run <;> rfl

theorem State.tested_frame (mem : Bool) (run : BistRun) (h : (s.unit x).st = .testing) : UnitFrame s (s.tested x mem run) ∧
    ((s.tested x mem run).unit x).st = .outOfService ∧ ((s.tested x mem run).unit x).test = none ∧
    ∀ z ∈ allUnits, z ≠ x → (s.tested x mem run).unit z = s.unit z := by
  obtain ⟨frame, mine, others, -⟩ := s.leaveTest_facts hx h
  cases run with
  | pass =>
    refine ⟨frame.trans (State.modUnit_unitFrame _ _ _), ?_, ?_, fun z hz ne => ?_⟩
    · rw [State.tested, State.unit_modUnit_same _ _ hx, mine]
      split <;> rfl
    · rw [State.tested, State.unit_modUnit_same _ _ hx, mine]
      split <;> rfl
    · rw [State.tested, State.unit_modUnit_other _ _ hx hz ne, others z hz ne]
  | fail word =>
    refine ⟨(frame.trans (State.modUnit_unitFrame _ _ _)).trans (State.report_unitFrame _ _ _ _), ?_, ?_, fun z hz ne => ?_⟩
    · rw [State.tested, State.unit_congr (State.report_svc _ _ _ _), State.unit_modUnit_same _ _ hx, mine]
    · rw [State.tested, State.unit_congr (State.report_svc _ _ _ _), State.unit_modUnit_same _ _ hx, mine]
    · rw [State.tested, State.unit_congr (State.report_svc _ _ _ _), State.unit_modUnit_other _ _ hx hz ne, others z hz ne]

theorem State.tested_pass (mem : Bool) (h : (s.unit x).st = .testing) :
    ((s.tested x mem .pass).unit x).logicPass = ((s.unit x).logicPass || !mem) ∧
      ((s.tested x mem .pass).unit x).memPass = ((s.unit x).memPass || mem) := by
  obtain ⟨-, mine, -, -⟩ := s.leaveTest_facts hx h
  rw [State.tested, State.unit_modUnit_same _ _ hx, mine]
  cases mem <;> simp

theorem State.tested_fail (mem : Bool) (word : BitVec 16) (h : (s.unit x).st = .testing) :
    ((s.tested x mem (.fail word)).unit x).logicPass = false ∧ ((s.tested x mem (.fail word)).unit x).memPass = false ∧
      (s.tested x mem (.fail word)).err.total = s.err.total + 2 := by
  obtain ⟨-, mine, -, total⟩ := s.leaveTest_facts hx h
  rw [State.tested, State.unit_congr (State.report_svc _ _ _ _), State.unit_modUnit_same _ _ hx, State.report_total, State.modUnit_frame]
  refine ⟨rfl, rfl, ?_⟩
  show (s.leaveTest x).err.total + 1 = _
  rw [total]
  bv_omega

omit hx in
/-- The test of one unit ends where `who` waits for it. -/
def State.endTestOf (who : Deliver) (s : State) (u : UnitName) : State :=
  match (s.unit u).test with
  | some (_, _, w) => if w = who then s.endTest u else s
  | none => s

omit hx in
theorem State.endTestOf_none {who : Deliver} {u : UnitName} (h : (s.unit u).test = none) : s.endTestOf who u = s := by
  rw [State.endTestOf, h]

omit hx in
theorem State.endTestOf_some {mem : Bool} {run : BistRun} {who : Deliver} (h : (s.unit x).test = some (mem, run, who)) :
    s.endTestOf who x = s.endTest x := by
  rw [State.endTestOf, h]
  exact if_pos rfl

omit hx in
theorem foldl_endTestOf_none (who : Deliver) (l : List UnitName) (h : ∀ z ∈ l, (s.unit z).test = none) :
    l.foldl (State.endTestOf who) s = s := by
  induction l with
  | nil => rfl
  | cons u l ih =>
    rw [List.foldl_cons, s.endTestOf_none (h u List.mem_cons_self)]
    exact ih fun z hz => h z (List.mem_cons_of_mem u hz)

/-- Where a thread waits for the test of one unit, that test alone ends, and no test is left. -/
theorem State.endTestsFor_one {mem : Bool} {run : BistRun} {who : Deliver} (hs : (s.unit x).st = .testing)
    (h : (s.unit x).test = some (mem, run, who)) (others : ∀ z ∈ allUnits, z ≠ x → (s.unit z).test = none) :
    s.endTestsFor who = s.endTest x ∧ ∀ z ∈ allUnits, ((s.endTest x).unit z).test = none := by
  have after : ∀ z ∈ allUnits, ((s.endTest x).unit z).test = none := fun z hz => by
    obtain ⟨-, -, mine, rest⟩ := s.tested_frame hx mem run hs
    rw [s.endTest_eq h, State.unit_congr (State.deliver_svc _ _ _)]
    by_cases hzx : z = x
    · rw [hzx, mine]
    · rw [rest z hz hzx, others z hz hzx]
  have folds : ∀ l : List UnitName, (∀ z ∈ l, z ∈ allUnits) → x ∈ l → l.foldl (State.endTestOf who) s = s.endTest x := fun l => by
    induction l with
    | nil => simp
    | cons u l ih =>
      intro units named
      have units' : ∀ z ∈ l, z ∈ allUnits := fun z hz => units z (List.mem_cons_of_mem u hz)
      rw [List.foldl_cons]
      by_cases hu : u = x
      · rw [hu, s.endTestOf_some h]
        exact foldl_endTestOf_none _ who l fun z hz => after z (units' z hz)
      · rw [s.endTestOf_none (others u (units u List.mem_cons_self) hu)]
        exact ih units' ((List.mem_cons.1 named).resolve_left fun e => hu e.symm)
  exact ⟨folds allUnits (fun _ hz => hz) hx, after⟩

end

/-- A completion ends the tests that its thread waits for, and then takes its result. -/
theorem exec_unitInstructionCompletion_tested (s u : State) (t : Tid) (hq : s.sequencing = true) (hu : u.sequencing = true)
    (tests : s.endTestsFor (.thread t) = u) (none_ : ∀ z ∈ allUnits, (u.unit z).test = none) :
    exec (.unitInstructionCompletion t) s = exec (.unitInstructionCompletion t) u := by
  show execUnitInstructionCompletion t s = execUnitInstructionCompletion t u
  rw [execUnitInstructionCompletion, execUnitInstructionCompletion, if_pos hq, if_pos hu, tests, u.endTestsFor_none _ none_]

/-- A test that its thread waits for ends with the completion of the instruction. -/
theorem exec_completion_test {s : State} {t : Tid} {x : UnitName} {mem : Bool} {run : BistRun} (hx : x ∈ allUnits) (hq : s.sequencing = true)
    (hs : (s.unit x).st = .testing) (h : (s.unit x).test = some (mem, run, .thread t))
    (others : ∀ z ∈ allUnits, z ≠ x → (s.unit z).test = none) (waits : (s.thread t).st = .waiting) (unit : (s.thread t).wait = .unit) :
    ∃ u, exec (.unitInstructionCompletion t) s = .next u ∧ u.svc = (s.tested x mem run).svc ∧ u.err = (s.tested x mem run).err ∧
      (u.thread t).st = .running ∧ (u.thread t).g = ((s.thread t).setReg (s.thread t).wRd (BitVec.ofNat 64 (testCode run))).g := by
  obtain ⟨tests, none_⟩ := s.endTestsFor_one hx hs h others
  obtain ⟨frame, -⟩ := s.tested_frame hx mem run hs
  have ended := s.endTest_eq h
  have told : ((s.tested x mem run).thread t).wait = .unit := by rw [frame.threads t]; exact unit
  have th : (s.endTest x).thread t = { s.thread t with evt := ((s.tested x mem run).thread t).evt, done := some (.code (testCode run)) } := by
    rw [ended, State.deliver, State.modThread_eq, State.setThread_thread, if_pos told, frame.threads t]
  have seq : (s.endTest x).sequencing = true := by
    rw [ended]
    exact frame.runs.trans hq
  rw [exec_unitInstructionCompletion_tested s _ t hq seq tests none_,
    exec_unitInstructionCompletion _ t (.code (testCode run)) seq (by rw [th]; exact waits) (by rw [th]; exact unit) (by rw [th]) none_]
  refine ⟨_, rfl, ?_, ?_, ?_, ?_⟩
  · rw [ended]
    rfl
  · rw [ended]
    rfl
  · exact congrArg Thread.st (State.setThread_thread _ t _)
  · refine (congrArg Thread.g (State.setThread_thread _ t _)).trans ?_
    rw [th]
    exact Thread.setReg_g_congr (by rfl) _ _

end Sys2Proof.Machine
end

section
/-! O51: `SVC` REMOVE, RETURN and STATE, `BIST`, and the end of a test (R273, R274, R500, R526–R528). -/

namespace Sys2Proof.Machine

/-- Settles O51. -/
theorem serviceUnits : Obligations.ServiceUnits := by
  refine ⟨?_, ?_⟩
  · intro s t w run hi th force mem
    refine ⟨fun hf h7 hh hx c hc => ?_, fun x hx => ?_⟩
    · have answer : exec c s = .next ((s.registered t {}).toUnit t w (some (.code 0x31))) := by
        obtain h | h : c = Instr.bist t w run ∨ c ∈ [Instr.svcRemove t w, .svcReturn t w, .svcState t w] := by
          rcases hc with h | h | h | h <;> simp [h]
        · rw [h]
          exact exec_bist_noUnit hi hh hf h7 hx
        · exact exec_svc_noUnit hi hf hx c h
      exact ⟨_, answer, threadTo_toUnit_of_threads rfl t w _, rfl⟩
    · have named := unitOf_mem hx
      intro st r
      refine ⟨fun hf => ⟨_, exec_svcState hi hf hx, threadTo_toUnit_of_threads rfl t w _, rfl⟩, fun hf h => exec_svcRemove_faults hi hf hx h,
        fun hf h hh => ?_, fun hf h => exec_svcReturn_faults hi hf hx ?_, fun hf out logic memory hh planned => ?_, fun hf h7 hh => ⟨?_, ?_, ?_⟩,
        fun hf h7 hh out test => ?_⟩
      · obtain ⟨states, threads, mem, plan⟩ := (s.registered t {}).lossOf_states named force
        have serves : (((s.registered t {}).lossOf x force).unit x).st = .inService := (states x named).trans (State.removable_st h)
        obtain ⟨begun, drains, -, others, events⟩ := ((s.registered t {}).lossOf x force).startRemove_drains t w named serves
        cases hp : s.plan? with
        | none =>
          obtain ⟨mem', out, logic, pass, others', done, events'⟩ :=
            ((s.registered t {}).lossOf x force).startRemove_leaves t w named serves (plan.trans hp)
          exact ⟨_, exec_svcRemove hi hf hx h hh, mem'.trans mem, events', fun z ne hz => (congrArg _ (others' z hz ne)).trans (states z hz),
            fun none_ => absurd rfl none_, fun _ => ⟨out, done, logic, pass⟩⟩
        | some p =>
          have settled := State.settleNow_planned (((s.registered t {}).lossOf x force).startRemove t w x) (x := x)
            (by rw [begun.plan?]; exact fun e => Option.some_ne_none p ((plan.trans hp).symm.trans e))
          refine ⟨_, (exec_svcRemove hi hf hx h hh).trans (congrArg _ settled), begun.mem.trans mem, events,
            fun z ne hz => (congrArg _ (others z hz ne)).trans (states z hz), fun _ => ⟨drains, ?_, ?_⟩, fun e => absurd e (Option.some_ne_none p)⟩
          · rw [begun.threads t, State.toUnit_thread]
            rfl
          · rw [begun.threads t, State.toUnit_thread]
            rfl
      · exact State.returnable_false h
      · obtain ⟨frame, returning, events⟩ := (s.registered t {}).startReturn_enters t w named out
        have settled := State.settleNow_planned _ (x := x) (fun e => planned (frame.plan?.symm.trans e))
        refine ⟨_, (exec_svcReturn hi hf hx (State.returnable_true out logic memory) hh).trans (congrArg _ settled), returning, ?_, frame.mem,
          frame.plan, events⟩
        rw [frame.threads t, State.toUnit_thread]
        rfl
      · intro out testing
        exact exec_bist_faults hi hx hf h7 out testing
      · intro out hm quad
        have noted := State.unit_modUnit_same (s.registered t { units := [x.ctrl] }) (fun v => { v with memPass := true }) named
        have kept := State.modUnit_frame (s.registered t { units := [x.ctrl] }) x fun v => { v with memPass := true }
        refine ⟨_, exec_bist_job hi hh hx hf out h7 _ _ (State.bistJob_quadMemory run (.thread t) out hm quad), ?_, ?_, ?_, ?_⟩
        · rw [State.toUnit_unit, noted]
          exact out
        · rw [State.toUnit_unit, noted]
        · exact threadTo_toUnit_of_threads (by rw [kept]; rfl) t w _
        · rw [kept]
          rfl
      · intro out test
        obtain ⟨frame, testing, noted⟩ := (s.registered t { units := [x.ctrl] }).startTest_enters named out mem run (.thread t)
        refine ⟨_, exec_bist_job hi hh hx hf out h7 _ _ (State.bistJob_test run (.thread t) out test), ?_, ?_, ?_, ?_, frame.plan, frame.mem⟩
        · rw [State.toUnit_unit, testing]
        · rw [State.toUnit_unit, noted]
        · rw [State.toUnit_thread]
          rfl
        · rw [State.toUnit_thread]
          rfl
      · obtain ⟨frame, testing, noted⟩ := (s.asyncRegistered t { units := [x.ctrl] }).startTest_enters named out mem run (.async t s.nextOp)
        have ⟨_, running, _⟩ := hi
        obtain ⟨st', pc, g, -⟩ := (((s.asyncRegistered t { units := [x.ctrl] }).startTest x mem run (.async t s.nextOp)).thread t).behind_fields w
          { op := s.nextOp, word := w.resWord, addr := (s.thread t).pc, res := none }
        refine ⟨_, exec_bist_async hi hh hx hf out h7 test, ?_, ?_, ?_⟩
        · rw [State.unit_congr (State.modThread_svc _ _ _), testing]
        · rw [State.unit_congr (State.modThread_svc _ _ _), noted]
        · rw [State.modThread_eq, State.setThread_thread, st', pc, g, frame.threads t]
          exact ⟨running, rfl, by apply Thread.setReg_g_congr; rfl⟩
  · intro s t x mem run hq hx hs h others waits unit
    obtain ⟨u, runs, svc, err, st, g⟩ := exec_completion_test hx hq hs h (fun z hz ne => others z hz ne) waits unit
    obtain ⟨-, out, ended, -⟩ := s.tested_frame hx mem run hs
    refine ⟨u, runs, by rw [State.unit_congr svc, out], by rw [State.unit_congr svc, ended], st, ?_, ?_⟩
    · rintro rfl
      rw [State.unit_congr svc]
      exact ⟨g, s.tested_pass hx mem hs⟩
    · rintro word rfl
      rw [State.unit_congr svc, err]
      exact ⟨g, s.tested_fail hx mem word hs⟩

end Sys2Proof.Machine
end

section
/-! SUPPORT. Self-refresh and the requests for rows (R269, R350–R353, R383). -/

namespace Sys2Proof.Machine

/-! ### Requests -/

/-- While the panel scans, a request for rows joins those that wait. -/
theorem State.rowRequest_scanning {s : State} (r : RowReq) (h : s.scan.st = .scanning) :
    s.rowRequest r = { s with scan := { s.scan with reqs := s.scan.reqs ++ [{ r with active := false }] } } := by
  have idle : s.request true = s := by simp only [State.request, h]
  have later : (s.scan.st == .updating && !s.scan.activeBegun) = false := by rw [h]; rfl
  simp only [State.rowRequest, idle, State.modScan, later]

theorem State.setThread_setThread (s : State) (t : Tid) (x y : Thread) : (s.setThread t x).setThread t y = s.setThread t y := by
  simp [State.setThread]

/-- An answer at once is the result of the instruction. -/
theorem State.toUnit_deliver (s : State) (t : Tid) (w : IWord) (d : Done) :
    (s.toUnit t w none).deliver (.thread t) d = s.toUnit t w (some d) := by
  rw [State.deliver, State.modThread_eq, State.toUnit_thread, State.toUnit_eq, State.toUnit_eq, State.setThread_setThread]
  rfl

/-! ### The instructions -/

section
variable {s : State} {t : Tid} {w : IWord} (hi : s.canIssue t 1)
include hi

section
variable (hf : s.unitFree t { units := [.panel] })
include hf

theorem exec_pselfEnter_faults (h : s.selfGuard = false) : exec (.pselfEnter t w) s =
    .next ((s.registered t { units := [.panel] }).faultAt t .state 0x14 (s.thread t).pc) := by
  refine congrArg _ ((issue_run s t _ hi).trans ?_)
  refine (startUnit_free _ _ _ _ _ hf).trans (if_pos ?_)
  exact congrArg (!·) h

theorem exec_pselfEnter (h : s.selfGuard = true) (hh : s.higher .selfRefresh .host = none) : exec (.pselfEnter t w) s =
    .next (((s.registered t { units := [.panel] }).toUnit t w none).enterSelf (.thread t)) := by
  have free : (s.registered t { units := [.panel] }).higher .selfRefresh .host = none := hh
  refine congrArg _ ((issue_run s t _ hi).trans ?_)
  refine (startUnit_free _ _ _ _ _ hf).trans ((if_neg ?_).trans (hostOrder_free _ _ _ _ _ free))
  exact Bool.eq_false_iff.1 (congrArg (!·) h)

theorem exec_pselfExit (hh : s.higher .selfRefresh .host = none) : exec (.pselfExit t w) s =
    .next (((s.registered t { units := [.panel] }).toUnit t w none).exitSelf (.thread t)) := by
  have free : (s.registered t { units := [.panel] }).higher .selfRefresh .host = none := hh
  refine congrArg _ ((issue_run s t _ hi).trans ?_)
  exact (startUnit_free _ _ _ _ _ hf).trans (hostOrder_free _ _ _ _ _ free)

end

/-- The rows that `PUPDATE` names. -/
def updateUse (th : Thread) (w : IWord) : Use :=
  { writes := [.rows (th.reg w.ra).toNat ((th.reg w.ra).toNat + (th.reg w.rb).toNat)] }

/-- Rows of the picture. -/
def State.pictureRows (s : State) : Nat := match s.plan? with | some p => p.height | none => 0

omit hi in
theorem State.pictureRows_lt {n : Nat} (some_ : 1 ≤ n) (h : ∀ p, s.plan? = some p → p.height < n) : s.pictureRows < n := by
  rw [State.pictureRows]
  split
  · next p planned => exact h p planned
  · exact some_

/-- `PUPDATE`: the panel is up, the count is not 0, and the rows are there (R353). -/
theorem exec_pupdate (hf : s.unitFree t (updateUse (s.thread t) w)) : exec (.pupdate t w) s =
    .next (if s.pwr.st ≠ .up then (s.registered t (updateUse (s.thread t) w)).faultAt t .state 0x15 (s.thread t).pc
      else if ((s.thread t).reg w.rb).toNat = 0 then (s.registered t (updateUse (s.thread t) w)).faultAt t .state 0x20 (s.thread t).pc
      else if s.pictureRows < ((s.thread t).reg w.ra).toNat + ((s.thread t).reg w.rb).toNat then
        (s.registered t (updateUse (s.thread t) w)).faultAt t .state 0x15 (s.thread t).pc
      else ((s.registered t (updateUse (s.thread t) w)).toUnit t w none).rowRequest
        { lo := ((s.thread t).reg w.ra).toNat, hi := ((s.thread t).reg w.ra).toNat + ((s.thread t).reg w.rb).toNat - 1
          clear := false, who := .thread t }) :=
  congrArg _ ((issue_run s t _ hi).trans (startUnit_free _ _ _ _ _ hf))

/-- The last row that `PCLEAR` names: 0xFFFF stands for the last row of the panel. -/
def State.clearLast (s : State) (th : Thread) (w : IWord) : Nat := if (th.reg w.rb).toNat = 0xFFFF then s.rowsH - 1 else (th.reg w.rb).toNat

/-- The rows that `PCLEAR` names. -/
def State.clearUse (s : State) (th : Thread) (w : IWord) : Use :=
  { units := [.panel], writes := [.rows (th.reg w.ra).toNat (s.clearLast th w + 1)] }

section
variable (hf : s.unitFree t (s.clearUse (s.thread t) w))
include hf

theorem exec_pclear_on (h : s.pwr.st ≠ .up ∨ s.emitEn = true) : exec (.pclear t w) s =
    .next ((s.registered t (s.clearUse (s.thread t) w)).faultAt t .state 0x13 (s.thread t).pc) := by
  refine congrArg _ ((issue_run s t _ hi).trans ?_)
  exact (startUnit_free _ _ _ _ _ hf).trans (if_pos h)

section
variable (up : s.pwr.st = .up) (dark : s.emitEn = false)
include up dark

theorem exec_pclear_noRows (h : s.rowsH ≤ s.clearLast (s.thread t) w ∨ s.clearLast (s.thread t) w < ((s.thread t).reg w.ra).toNat) :
    exec (.pclear t w) s = .next ((s.registered t (s.clearUse (s.thread t) w)).faultAt t .state 0x20 (s.thread t).pc) := by
  refine congrArg _ ((issue_run s t _ hi).trans ?_)
  refine (startUnit_free _ _ _ _ _ hf).trans ((if_neg ?_).trans (if_pos h))
  exact fun e => e.elim (· up) (Bool.eq_false_iff.1 dark)

theorem exec_pclear (there : s.clearLast (s.thread t) w < s.rowsH) (some_ : ((s.thread t).reg w.ra).toNat ≤ s.clearLast (s.thread t) w)
    (planned : s.plan? ≠ none) (scans : s.scan.st = .scanning) : exec (.pclear t w) s =
      .next (((s.registered t (s.clearUse (s.thread t) w)).toUnit t w none).rowRequest
        { lo := ((s.thread t).reg w.ra).toNat, hi := s.clearLast (s.thread t) w, clear := true, who := .thread t }) := by
  refine congrArg _ ((issue_run s t _ hi).trans ?_)
  refine (startUnit_free _ _ _ _ _ hf).trans ((if_neg ?_).trans ((if_neg ?_).trans (if_neg ?_)))
  · exact fun e => e.elim (· up) (Bool.eq_false_iff.1 dark)
  · exact fun e => e.elim (Nat.not_le.2 there) (Nat.not_lt.2 some_)
  · have scans' : ((s.registered t (s.clearUse (s.thread t) w)).toUnit t w none).scan.st = .scanning := scans
    rw [State.rowRequest_scanning _ scans']
    exact fun ⟨unplanned, _⟩ => planned (Option.isNone_iff_eq_none.1 unplanned)

end
end
end

/-! ### Leaving and entering self-refresh (R350, R351) -/

theorem State.exitSelf_scanning {s : State} (who : Deliver) (h : s.scan.st = .scanning) : s.exitSelf who = s.deliver who (.code 0) := by
  have idle : s.request false = s := by simp only [State.request, h]
  rw [State.exitSelf, idle]
  exact if_pos h

theorem State.exitSelf_holding {s : State} (who : Deliver) (h : s.scan.st = .holding) :
    s.exitSelf who = { s with scan := { s.scan with wantExit := true, exitTo := s.scan.exitTo ++ [who] } } := by
  have leaves : s.request false = s.modScan fun c => { c with wantExit := true } := by
    simp only [State.request, h, Bool.false_eq_true, if_false]
  rw [State.exitSelf, leaves]
  refine if_neg ?_
  rw [State.modScan, h]
  exact fun e => nomatch e

theorem State.enterSelf_active {s : State} (who : Deliver) (h : s.scan.st = .scanning) (active : s.scan.activeBegun = true) :
    s.enterSelf who = { s with
      scan := { s.scan with st := .entering, pastEntry := false, wantExit := false, enterTo := s.scan.enterTo ++ [who] } } := by
  simp only [State.enterSelf, h, State.modScan, active, if_true]

/-- A request before the entry point abandons entry. -/
theorem State.request_abandons {s : State} (h : s.scan.st = .entering) (before : s.scan.pastEntry = false) (rows : Bool) :
    (s.request rows).scan.st = .scanning := by
  simp only [State.request, h, before, Bool.false_eq_true, if_false, State.abandonEntry]
  rw [State.deliverAll_frame]
  rfl

/-! ### The entry point (R351) -/

theorem State.foldl_deliver_streams (s : State) (l : List Deliver) (x : Done) :
    (l.foldl (fun (s : State) d => s.deliver d x) s).streams = s.streams := by
  induction l generalizing s with
  | nil => rfl
  | cons d l ih => rw [List.foldl_cons, ih, State.deliver_streams]

/-- What a pause makes of its stream. -/
def Stream.pausedNow (x : Stream) : Stream :=
  { x with st := if x.st = .playing then .paused else x.st, pauses := [], detach := none, dec := none }

theorem State.detachNow_streams (s : State) (i : Fin 16) : (s.detachNow i).streams = vmod s.streams i Stream.detached := rfl

/-- A pause changes its own stream alone; one that plays, and is not to be detached, is PAUSED. -/
theorem State.pauseNow_streams (s : State) (i : Fin 16) : ∃ f, (s.pauseNow i).streams = vmod s.streams i f ∧
    (s.streams[i].st = .playing → s.streams[i].detach = none → (f s.streams[i]).st = .paused) := by
  cases hd : s.streams[i].detach with
  | none =>
    refine ⟨Stream.pausedNow, ?_, fun h _ => if_pos h⟩
    simp only [State.pauseNow, hd]
    exact State.foldl_deliver_streams _ _ _
  | some d =>
    refine ⟨Stream.detached ∘ Stream.pausedNow, ?_, fun _ h => absurd h (Option.some_ne_none d)⟩
    simp only [State.pauseNow, hd]
    rw [State.deliver_streams, State.detachNow_streams, State.foldl_deliver_streams]
    exact vmod_vmod s.streams i _ _

theorem State.pauseNow_other (s : State) (i j : Fin 16) (h : j ≠ i) : (s.pauseNow i).streams[j] = s.streams[j] := by
  obtain ⟨f, streams, -⟩ := s.pauseNow_streams i
  rw [streams]
  exact vmod_other s.streams i j f h

theorem State.pauseNow_pauses (s : State) (i : Fin 16) (h : s.streams[i].st = .playing) (kept : s.streams[i].detach = none) :
    (s.pauseNow i).streams[i].st = .paused := by
  obtain ⟨f, streams, pauses⟩ := s.pauseNow_streams i
  rw [streams]
  exact (congrArg Stream.st (vmod_same s.streams i f)).trans (pauses h kept)

/-- The pause of a stream that plays. -/
def State.pausePlaying (s : State) (i : Fin 16) : State := if s.streams[i].st = .playing then s.pauseNow i else s

theorem foldl_pausePlaying_other (l : List (Fin 16)) (s : State) (j : Fin 16) (h : j ∉ l) :
    (l.foldl State.pausePlaying s).streams[j] = s.streams[j] := by
  induction l generalizing s with
  | nil => rfl
  | cons i l ih =>
    obtain ⟨ne, rest⟩ := List.ne_and_not_mem_of_not_mem_cons h
    rw [List.foldl_cons, ih _ rest, State.pausePlaying]
    split
    · exact s.pauseNow_other i j ne
    · rfl

/-- Every playing stream of a list pauses. -/
theorem foldl_pausePlaying_pauses (l : List (Fin 16)) (distinct : l.Nodup) (s : State) (j : Fin 16) (hj : j ∈ l)
    (h : s.streams[j].st = .playing) (kept : s.streams[j].detach = none) : (l.foldl State.pausePlaying s).streams[j].st = .paused := by
  induction l generalizing s with
  | nil => exact absurd hj List.not_mem_nil
  | cons i l ih =>
    obtain ⟨fresh, distinct⟩ := List.nodup_cons.1 distinct
    rw [List.foldl_cons]
    by_cases e : j = i
    · subst e
      rw [foldl_pausePlaying_other l _ j fresh, State.pausePlaying, if_pos h]
      exact s.pauseNow_pauses j h kept
    · have same : (s.pausePlaying i).streams[j] = s.streams[j] := by
        rw [State.pausePlaying]
        split
        · exact s.pauseNow_other i j e
        · rfl
      exact ih distinct _ ((List.mem_cons.1 hj).resolve_left e) (by rw [same, h]) (by rw [same, kept])

theorem State.holdLanes_streams (s : State) : s.holdLanes.streams = s.streams :=
  foldl_keeps State.streams (fun (s : State) n => s.modPair n Pair.hold) (fun _ _ => rfl) _ _

/-- Playing streams pause as the entry point passes. -/
theorem State.entryPoint_pauses (s : State) (i : Fin 16) (h : s.streams[i].st = .playing) (kept : s.streams[i].detach = none) :
    s.entryPoint.streams[i].st = .paused := by
  have before : ((s.holdLanes.rowsLow).modScan fun c => { c with pastEntry := true }).streams = s.streams := s.holdLanes_streams
  have passes : s.entryPoint = (List.finRange 16).foldl State.pausePlaying
      ((s.holdLanes.rowsLow).modScan fun c => { c with pastEntry := true }) := rfl
  rw [passes]
  exact foldl_pausePlaying_pauses _ (List.nodup_finRange 16) _ i (List.mem_finRange i) (by rw [before, h]) (by rw [before, kept])

/-- The lanes are idle: the panel is in HOLDING. -/
def Scan.held (c : Scan) : Scan :=
  { c with st := .holding, enterTo := [], pastEntry := false, wantExit := c.wantExit || !c.reqs.isEmpty, activeBegun := false }

/-- The entry point, unless it has passed already. -/
def State.passEntry (s : State) : State := if s.scan.pastEntry then s else s.entryPoint

theorem State.exec_entryPoint {s : State} (h : s.scan.st = .entering) (hs : s.stopped = false) :
    exec .selfRefreshEntryPoint s = .next ((s.passEntry.modScan Scan.held).deliverAll s.passEntry.scan.enterTo 0) := by
  refine if_neg ?_
  rw [h, hs]
  exact fun e => nomatch e

end Sys2Proof.Machine
end

section
/-! O40: panel self-refresh, and the requests for rows of `PUPDATE` and `PCLEAR` (R269, R350–R353, R383). -/

namespace Sys2Proof.Machine

/-- Settles O40. -/
theorem selfRefreshAndRows : Obligations.SelfRefreshAndRows := by
  refine ⟨?_, ?_, fun s h before => State.request_abandons h before true⟩
  · intro s t w hi th use r ra rb rows last clr
    refine ⟨fun hf h => exec_pselfEnter_faults hi hf h, fun hf h hh scans active => ?_, fun hf hh => ⟨fun scans => ?_, fun holds => ?_⟩,
      fun hf h => ?_, fun hf up h => ?_, fun p hf up some_ planned there scans => ?_, fun hf h => exec_pclear_on hi hf h,
      fun hf up dark h => exec_pclear_noRows hi hf up dark h, fun p hf up dark there some_ planned scans => ?_⟩
    · refine ⟨_, (exec_pselfEnter hi hf h hh).trans (congrArg _ (State.enterSelf_active _ scans active)), ?_, rfl⟩
      exact threadTo_toUnit_of_threads rfl t w none
    · have answers := (State.exitSelf_scanning (s := r.toUnit t w none) (.thread t) scans).trans (State.toUnit_deliver r t w (.code 0))
      refine ⟨_, (exec_pselfExit hi hf hh).trans (congrArg _ answers), ?_, rfl⟩
      exact threadTo_toUnit_of_threads rfl t w _
    · refine ⟨_, (exec_pselfExit hi hf hh).trans (congrArg _ (State.exitSelf_holding _ holds)), ?_, rfl⟩
      exact threadTo_toUnit_of_threads rfl t w none
    · refine (exec_pupdate hi hf).trans (congrArg _ ?_)
      by_cases up : s.pwr.st = .up
      · obtain ⟨some_, past⟩ := h.resolve_left (not_not.2 up)
        exact (if_neg (not_not.2 up)).trans ((if_neg (Nat.one_le_iff_ne_zero.1 some_)).trans (if_pos (State.pictureRows_lt (some_.trans (Nat.le_add_left rb ra)) past)))
      · exact if_pos up
    · refine (exec_pupdate hi hf).trans (congrArg _ ((if_neg (not_not.2 up)).trans (if_pos h)))
    · have rows' : ¬s.pictureRows < ra + rb := Nat.not_lt.2 (by rw [State.pictureRows, planned]; exact there)
      have joined := State.rowRequest_scanning (s := (s.registered t rows).toUnit t w none)
        { lo := ra, hi := ra + rb - 1, clear := false, who := .thread t } scans
      refine ⟨_, (exec_pupdate hi hf).trans (congrArg _ ((if_neg (not_not.2 up)).trans ((if_neg (Nat.one_le_iff_ne_zero.1 some_)).trans
        ((if_neg rows').trans joined)))), ?_, rfl⟩
      exact threadTo_toUnit_of_threads rfl t w none
    · have joined := State.rowRequest_scanning (s := (s.registered t clr).toUnit t w none)
        { lo := ra, hi := last, clear := true, who := .thread t } scans
      refine ⟨_, (exec_pclear hi hf up dark there some_ (by rw [planned]; exact Option.some_ne_none p) scans).trans (congrArg _ joined), ?_, rfl⟩
      exact threadTo_toUnit_of_threads rfl t w none
  · intro s h hs
    have holding : ((s.passEntry.modScan Scan.held).deliverAll s.passEntry.scan.enterTo 0).scan = s.passEntry.scan.held := by
      rw [State.deliverAll_frame]
      rfl
    have streams : ((s.passEntry.modScan Scan.held).deliverAll s.passEntry.scan.enterTo 0).streams = s.passEntry.streams := by
      rw [State.deliverAll_frame]
      rfl
    refine ⟨_, State.exec_entryPoint h hs, by rw [holding]; rfl, by rw [holding]; rfl, by rw [holding]; rfl, fun past => ⟨?_, ?_⟩,
      fun before i plays kept => ?_⟩
    · rintro t ht n rfl waits
      rw [State.passEntry, if_pos past]
      exact State.deliverAll_told _ _ 0 n ht waits
    · rw [streams, State.passEntry, if_pos past]
    · rw [streams, State.passEntry, if_neg (Bool.eq_false_iff.1 before)]
      exact s.entryPoint_pauses i plays kept

end Sys2Proof.Machine
end

section
/-! SUPPORT. Rails that follow one another, the light and the panel management bus (R380–R382, R389). -/

namespace Sys2Proof.Machine

/-! ### `EMIT_EN` and the guard of `PLIGHT.ON` (R382) -/

theorem State.emitEn_iff (s : State) : s.emitEn = true ↔ s.pwr.lightReq = true ∧ s.pwr.st = .up ∧ s.comp.lightHeld = false ∧
    s.pwr.resp = none ∧ s.pwr.latched = false := by
  simp only [State.emitEn, Pwr.responded, Bool.and_eq_true, beq_iff_eq, Bool.not_eq_true', Bool.or_eq_false_iff, Option.isSome_eq_false_iff,
    Option.isNone_iff_eq_none, and_assoc]

/-- Every bit of a mask is set in a port. -/
theorem and_mask_eq_iff (p m : BitVec 6) : p &&& m = m ↔ ∀ i : Fin 6, m.getLsbD i.val = true → p.getLsbD i.val = true := by
  constructor
  · intro h i hm
    rw [← h, BitVec.getLsbD_and, Bool.and_eq_true] at hm
    exact hm.1
  · intro h
    refine BitVec.eq_of_getLsbD_eq fun i hi => ?_
    rw [BitVec.getLsbD_and]
    cases hm : m.getLsbD i with
    | false => exact Bool.and_false _
    | true => rw [h ⟨i, hi⟩ hm, Bool.and_true]

theorem State.lightGuard_iff (s : State) : s.lightGuard = true ↔ s.pwr.st = .up ∧
    (∀ i : Fin 6, s.trim.boardUp.used.getLsbD i.val = true → s.pwr.pgd.getLsbD i.val = true) ∧
    s.pwr.cleared = true ∧ s.comp.lightHeld = false ∧ s.pwr.pfailLow = false := by
  simp only [State.lightGuard, Bool.and_eq_true, beq_iff_eq, Bool.not_eq_true', ← and_mask_eq_iff, State.boardNow, and_assoc]

/-! ### Rail sequences (R380, R381) -/

/-- A state in which a sequence drives rail `i` and waits for its `PGD`. -/
def State.driven (s : State) (q : RailSeq) (i : Nat) (up : Bool) : State :=
  s.modPwr fun p => { p with pen := setBit p.pen i up, seq := some { q with up := up, rail := i, since := s.now } }

/-- A rising sequence passes over rails that are not fitted, and waits at the first that is low. -/
theorem State.seqUp_waits (s : State) (q : RailSeq) {i : Nat} (used : s.railUsed i = true) (low : s.pwr.pgd.getLsbD i = false) (n r : Nat)
    (hr : r ≤ i) (hn : i < r + n) (skip : ∀ j, r ≤ j → j < i → s.railUsed j = false) : s.seqUp q n r = s.driven q i true := by
  induction n generalizing r with
  | zero => omega
  | succ n ih =>
    by_cases h : r = i
    · subst h
      simp only [State.seqUp, used, Bool.not_true, Bool.false_eq_true, if_false, State.modPwr, low]
      rfl
    · rw [State.seqUp, if_pos (by rw [skip r le_rfl (by omega)]; rfl)]
      exact ih (r + 1) (by omega) (by omega) fun j hj => skip j (by omega)

/-- A falling sequence passes over rails that are not fitted, and waits at the last that is high. -/
theorem State.seqDown_waits (s : State) (q : RailSeq) {i : Nat} (used : s.railUsed i = true) (high : s.pwr.pgd.getLsbD i = true) (n r : Nat)
    (hr : i ≤ r) (hn : r < i + n) (skip : ∀ j, i < j → j ≤ r → s.railUsed j = false) : s.seqDown q n r = s.driven q i false := by
  induction n generalizing r with
  | zero => omega
  | succ n ih =>
    by_cases h : r = i
    · subst h
      simp only [State.seqDown, used, Bool.not_true, Bool.false_eq_true, if_false, State.modPwr, high, if_true]
      rfl
    · rw [State.seqDown, if_pos (by rw [skip r (by omega) le_rfl]; rfl)]
      exact ih (r - 1) (by omega) (by omega) fun j hj hjr => skip j hj (by omega)

theorem State.setPState_frame (s : State) (x : PState) : s.setPState x =
    { s with pwr := (s.setPState x).pwr, host := (s.setPState x).host } := by
  simp only [State.setPState]
  split
  · rfl
  · rw [State.raise_frame]
    rfl

/-- A power state that is entered; a departure from UP clears LIGHT_REQ and CLEARED. -/
theorem State.setPState_pwr (s : State) (x : PState) (h : s.pwr.st ≠ x) : (s.setPState x).pwr = { s.pwr with
    st := x, lightReq := s.pwr.lightReq && !(s.pwr.st == .up), cleared := s.pwr.cleared && !(s.pwr.st == .up)
    clearedRows := if s.pwr.st == .up then [] else s.pwr.clearedRows } := by
  rw [State.setPState, if_neg h]
  exact State.raise_pwr _ _

theorem crackResult_fails {a b : CrackRun} (h : ∃ i k, a = .fail i ∧ b = .fail k) : ∃ k, crackResult a b = some k := by
  obtain ⟨i, k, rfl, rfl⟩ := h
  exact ⟨_, rfl⟩

theorem crackResult_passes {a b : CrackRun} (h : a = .pass ∨ b = .pass) : crackResult a b = none := by
  rcases h with rfl | rfl
  · rfl
  · cases a <;> rfl

/-! ### `PMBX` (R270, R389) -/

/-- A transaction is tried three times at most. -/
theorem pmbTries (x y z : PmbTry) (l : List PmbTry) : (x :: y :: z :: l ++ List.replicate 3 PmbTry.noAnswer).take 3 = [x, y, z] := rfl

theorem pmbResult_ok {x y z : PmbTry} {l : List PmbTry} {d : List Byte} (n : Nat)
    (h : x = .ok d ∨ (pmbOk x = none ∧ y = .ok d) ∨ (pmbOk x = none ∧ pmbOk y = none ∧ z = .ok d)) :
    pmbResult (x :: y :: z :: l) n = (0, some (bytesAt d 0 n)) := by
  have found : [x, y, z].findSome? pmbOk = some d := by
    rcases h with rfl | ⟨hx, rfl⟩ | ⟨hx, hy, rfl⟩
    · rfl
    · simp only [List.findSome?, hx]
      rfl
    · simp only [List.findSome?, hx, hy]
      rfl
  simp only [pmbResult, pmbTries, found]

theorem pmbResult_fails {x y z : PmbTry} {l : List PmbTry} (n : Nat) (hx : pmbOk x = none) (hy : pmbOk y = none) (hz : pmbOk z = none) :
    pmbResult (x :: y :: z :: l) n = (if z = .noAnswer then 0x72 else 0x71, none) := by
  have none_ : [x, y, z].findSome? pmbOk = none := by simp [List.findSome?, hx, hy, hz]
  simp only [pmbResult, pmbTries, none_, List.getLast?_cons_cons, List.getLast?_singleton, Option.some.injEq]

/-! ### The instructions -/

section
variable {s : State} {t : Tid} {w : IWord} (hi : s.canIssue t 1)
include hi

section
variable (hf : s.unitFree t { units := [.panel] })
include hf

omit hf in
theorem State.canIssue_cool : s.therm.tripped = false := by
  obtain ⟨sequencing, -, -⟩ := hi
  simp only [State.sequencing, Bool.and_eq_true, Bool.not_eq_true'] at sequencing
  obtain ⟨⟨-, cool⟩, -⟩ := sequencing
  exact cool

/-- Guard 0x10 of `PPOWER.UP`. -/
def Pwr.upGuard (p : Pwr) : Prop := p.st = .down ∧ p.pfailLow = false ∧ p.huReady = true ∧ p.resp = none

omit hi hf in
theorem State.upBlocked_iff (cool : s.therm.tripped = false) : (s.pwr.st ≠ .down ∨ s.pwr.pfailLow = true ∨ s.therm.tripped = true ∨
    (!s.pwr.huReady) = true ∨ s.pwr.resp.isSome = true) ↔ ¬s.pwr.upGuard := by
  simp only [Pwr.upGuard, cool, Bool.false_eq_true, false_or, not_and_or, Bool.not_eq_false, Bool.not_eq_true, Bool.not_eq_true',
    ← Option.isNone_iff_eq_none, Option.isNone_eq_false_iff, ne_eq]

section
variable (a b : CrackRun) (drv : List DriverAnswer)

theorem exec_ppowerUp_faults (h : ¬s.pwr.upGuard) : exec (.ppowerUp t w a b drv) s =
    .next ((s.registered t { units := [.panel] }).faultAt t .state 0x10 (s.thread t).pc) := by
  refine congrArg _ ((issue_run s t _ hi).trans ?_)
  exact (startUnit_free _ _ _ _ _ hf).trans (if_pos ((State.upBlocked_iff (State.canIssue_cool hi)).2 h))

/-- A power-up with the board table of the trim. -/
def State.boarded (s : State) : State := { s with trim := { s.trim with boardUp := s.trim.board } }

section
variable (h : s.pwr.upGuard) (hh : s.higher .rails .host = none)
include h hh

theorem exec_ppowerUp_cracked {k : Nat} (en : s.trim.board.crackEn = true) (cracked : crackResult a b = some k) :
    exec (.ppowerUp t w a b drv) s = .next (((((s.registered t { units := [.panel] }).boarded.modPwr fun p =>
      { p with crackFail := true }).report 0x1004 0x2D k)).toUnit t w (some (.code 0x70))) := by
  refine congrArg _ ((issue_run s t _ hi).trans ?_)
  have free : (s.registered t { units := [.panel] }).higher .rails .host = none := hh
  refine (startUnit_free _ _ _ _ _ hf).trans ((if_neg ?_).trans ((hostOrder_free _ _ _ _ _ free).trans ?_))
  · exact fun blocked => (State.upBlocked_iff (State.canIssue_cool hi)).1 blocked h
  · have found : (if (s.registered t { units := [.panel] }).boarded.boardNow.crackEn then crackResult a b else none) = some k :=
      (if_pos en).trans cracked
    dsimp only
    split
    · next j result =>
      cases found.symm.trans result
      rfl
    · next result => cases found.symm.trans result

/-- The panel made ready to rise: the board table of the trim in force, no rail discharged, every pair OFF. -/
def State.readied (s : State) (t : Tid) (w : IWord) (drv : List DriverAnswer) : State :=
  ((s.boarded.modPwr fun p => { p with
    crackFail := p.crackFail && !s.boarded.boardNow.crackEn, dsch := 0, answers := drv, clearedRows := [] }).mapPairs fun p =>
      { p with st := .off, drvId := none, trained := false }).toUnit t w none

/-- The panel before its first rail rises. -/
def State.rises (s : State) (t : Tid) (w : IWord) (drv : List DriverAnswer) : State := (s.readied t w drv).setPState .rising

theorem exec_ppowerUp (whole : s.trim.board.crackEn = false ∨ crackResult a b = none) : exec (.ppowerUp t w a b drv) s =
    .next (((s.registered t { units := [.panel] }).rises t w drv).seqUp
      { up := true, rail := 0, since := ((s.registered t { units := [.panel] }).rises t w drv).now, who := .thread t } 6 0) := by
  refine congrArg _ ((issue_run s t _ hi).trans ?_)
  have free : (s.registered t { units := [.panel] }).higher .rails .host = none := hh
  refine (startUnit_free _ _ _ _ _ hf).trans ((if_neg ?_).trans ((hostOrder_free _ _ _ _ _ free).trans ?_))
  · exact fun blocked => (State.upBlocked_iff (State.canIssue_cool hi)).1 blocked h
  · have none_ : (if (s.registered t { units := [.panel] }).boarded.boardNow.crackEn then crackResult a b else none) = none := by
      rcases whole with off | passed
      · exact if_neg (Bool.eq_false_iff.1 off)
      · rw [passed, ite_self]
    dsimp only
    split
    · next j result => cases none_.symm.trans result
    · rfl

end
end

theorem exec_ppowerDown_faults (h : s.emitEn = true) : exec (.ppowerDown t w) s =
    .next ((s.registered t { units := [.panel] }).faultAt t .state 0x11 (s.thread t).pc) := by
  refine congrArg _ ((issue_run s t _ hi).trans ?_)
  exact (startUnit_free _ _ _ _ _ hf).trans (if_pos h)

theorem exec_ppowerDown (h : s.emitEn = false) (hh : s.higher .rails .host = none) : exec (.ppowerDown t w) s =
    .next ((((s.registered t { units := [.panel] }).toUnit t w none).holdLanes.rowsLow.setPState .falling).seqDown
      { up := false, rail := 5, since := (((s.registered t { units := [.panel] }).toUnit t w none).holdLanes.rowsLow.setPState .falling).now
        who := .thread t } 6 5) := by
  refine congrArg _ ((issue_run s t _ hi).trans ?_)
  have free : (s.registered t { units := [.panel] }).higher .rails .host = none := hh
  exact (startUnit_free _ _ _ _ _ hf).trans ((if_neg (Bool.eq_false_iff.1 h)).trans (hostOrder_free _ _ _ _ _ free))

theorem exec_plightOn_faults (h : s.lightGuard = false) : exec (.plightOn t w) s =
    .next ((s.registered t { units := [.panel] }).faultAt t .state 0x12 (s.thread t).pc) := by
  refine congrArg _ ((issue_run s t _ hi).trans ?_)
  refine (startUnit_free _ _ _ _ _ hf).trans (if_pos ?_)
  exact congrArg (!·) h

theorem exec_plightOn (h : s.lightGuard = true) (hh : s.higher .light .host = none) : exec (.plightOn t w) s =
    .next (((s.registered t { units := [.panel] }).modPwr fun p => { p with lightReq := true }).toUnit t w (some (.code 0))) := by
  refine congrArg _ ((issue_run s t _ hi).trans ?_)
  have free : (s.registered t { units := [.panel] }).higher .light .host = none := hh
  refine (startUnit_free _ _ _ _ _ hf).trans ((if_neg ?_).trans (hostOrder_free _ _ _ _ _ free))
  exact Bool.eq_false_iff.1 (congrArg (!·) h)

theorem exec_plightOff (hh : s.higher .light .host = none) : exec (.plightOff t w) s =
    .next (((s.registered t { units := [.panel] }).modPwr fun p => { p with lightReq := false }).toUnit t w (some (.code 0))) := by
  refine congrArg _ ((issue_run s t _ hi).trans ?_)
  have free : (s.registered t { units := [.panel] }).higher .light .host = none := hh
  exact (startUnit_free _ _ _ _ _ hf).trans (hostOrder_free _ _ _ _ _ free)

end

/-- A block of `PMBX` names an address, and its byte counts are in range (R270). -/
def pmbGood (b : List Byte) : Bool :=
  fieldAt b 0 1 < 64 && decide (1 ≤ fieldAt b 1 1 ∧ fieldAt b 1 1 ≤ 48) && fieldAt b 2 1 ≤ 48

section
variable (l : List PmbTry) (hue : w.ue = false)
include hue

theorem exec_pmbx_badBlock (h : pmbGood (w.block (s.thread t) 112) = false) : exec (.pmbx t w l) s =
    .next (s.faultAt t .state 0x20 (s.thread t).pc) := by
  refine congrArg _ ((issueBlock_run s t w _ hi hue).trans ?_)
  rw [pmbGood] at h
  simp only [need_false _ h, bind, Except.bind, State.orFault]
  rfl

section
variable (h : pmbGood (w.block (s.thread t) 112) = true) (hf : s.unitFree t {})
include h hf

theorem exec_pmbx_down (down : s.pwr.st ≠ .up) : exec (.pmbx t w l) s =
    .next ((s.registered t {}).faultAt t .state 0x15 (s.thread t).pc) := by
  refine congrArg _ ((issueBlock_run s t w _ hi hue).trans ?_)
  rw [pmbGood] at h
  simp only [need_true _ h, bind, Except.bind, pure, Except.pure, State.orFault]
  exact (startUnit_free _ _ _ _ _ hf).trans (if_pos down)

theorem exec_pmbx (up : s.pwr.st = .up) : exec (.pmbx t w l) s =
    .next (((s.registered t {}).modPwr fun p => { p with
      pmb := bytesAt (w.block (s.thread t) 112) 8 (fieldAt (w.block (s.thread t) 112) 1 1) }).toUnit t w
        (some { Done.code (pmbResult l (fieldAt (w.block (s.thread t) 112) 2 1)).1 with
          scratch := (pmbResult l (fieldAt (w.block (s.thread t) 112) 2 1)).2.map fun x => (w.blockAddr (s.thread t) + 0x40, x) })) := by
  refine congrArg _ ((issueBlock_run s t w _ hi hue).trans ?_)
  rw [pmbGood] at h
  simp only [need_true _ h, bind, Except.bind, pure, Except.pure, State.orFault]
  exact (startUnit_free _ _ _ _ _ hf).trans (if_neg (not_not.2 up))

end
end
end

end Sys2Proof.Machine
end

section
/-! O37: the panel instructions and `EMIT_EN` (R234, R269, R380–R382, R389). -/

namespace Sys2Proof.Machine

theorem pmbGood_iff (b : List Byte) : pmbGood b = true ↔ fieldAt b 0 1 < 64 ∧ 1 ≤ fieldAt b 1 1 ∧ fieldAt b 1 1 ≤ 48 ∧ fieldAt b 2 1 ≤ 48 := by
  simp only [pmbGood, Bool.and_eq_true, decide_eq_true_eq, and_assoc]

/-- The panel as it rises: the board table of the trim is in force, and no rail is driven yet. -/
theorem State.rises_facts (s : State) (t : Tid) (w : IWord) (drv : List DriverAnswer) (down : s.pwr.st = .down) :
    (s.rises t w drv).threads = (s.toUnit t w none).threads ∧ (s.rises t w drv).now = s.now ∧
      (s.rises t w drv).trim.boardUp = s.trim.board ∧ (s.rises t w drv).pwr.st = .rising ∧ (s.rises t w drv).pwr.pen = s.pwr.pen ∧
      (s.rises t w drv).pwr.pgd = s.pwr.pgd ∧ (s.rises t w drv).pwr.dsch = 0 := by
  have off : (s.readied t w drv).pwr.st ≠ .rising := fun e => PState.noConfusion (down.symm.trans e)
  rw [State.rises]
  refine ⟨by rw [State.setPState_frame]; rfl, by rw [State.setPState_frame]; rfl, by rw [State.setPState_frame]; rfl, ?_⟩
  rw [State.setPState_pwr _ _ off]
  exact ⟨rfl, rfl, rfl, rfl⟩

/-- The panel before its first rail falls: the row outputs are low, PSTATE is FALLING. -/
def State.falls (s : State) (t : Tid) (w : IWord) : State := (s.toUnit t w none).holdLanes.rowsLow.setPState .falling

theorem State.holdLanes_frame (s : State) : s.holdLanes = { s with pairs := s.holdLanes.pairs } := by
  rw [State.holdLanes]
  generalize s.usedPairs = l
  induction l generalizing s with
  | nil => rfl
  | cons n l ih =>
    rw [List.foldl_cons, ih]
    rfl

theorem State.falls_facts (s : State) (t : Tid) (w : IWord) : (s.falls t w).threads = (s.toUnit t w none).threads ∧
    (s.falls t w).now = s.now ∧ (s.falls t w).trim = s.trim ∧ (s.falls t w).pwr.st = .falling ∧ (s.falls t w).pwr.pen = s.pwr.pen ∧
    (s.falls t w).pwr.pgd = s.pwr.pgd ∧ ((s.falls t w).scan.gsp = false ∧ (s.falls t w).scan.gck = 0 ∧ (s.falls t w).scan.goe = false) ∧
    (s.pwr.st = .up → (s.falls t w).pwr.lightReq = false ∧ (s.falls t w).pwr.cleared = false) := by
  rw [State.falls, State.holdLanes_frame]
  generalize hl : ({ s.toUnit t w none with pairs := (s.toUnit t w none).holdLanes.pairs } : State).rowsLow = v
  have pwr : v.pwr = s.pwr := by rw [← hl]; rfl
  refine ⟨by rw [State.setPState_frame, ← hl]; rfl, by rw [State.setPState_frame, ← hl]; rfl, by rw [State.setPState_frame, ← hl]; rfl, ?_⟩
  have scan : (v.setPState .falling).scan = v.scan := by rw [State.setPState_frame]
  rw [scan]
  by_cases h : v.pwr.st = .falling
  · have same : v.setPState .falling = v := if_pos h
    rw [same, pwr]
    exact ⟨by rw [← pwr, h], rfl, rfl, ⟨by rw [← hl]; rfl, by rw [← hl]; rfl, by rw [← hl]; rfl⟩,
      fun up => PState.noConfusion (up.symm.trans (pwr ▸ h))⟩
  · rw [State.setPState_pwr _ _ h, pwr]
    refine ⟨rfl, rfl, rfl, ⟨by rw [← hl]; rfl, by rw [← hl]; rfl, by rw [← hl]; rfl⟩, fun up => ?_⟩
    rw [up]
    exact ⟨Bool.and_false _, Bool.and_false _⟩

section
variable {s : State} {t : Tid} {w : IWord} (hi : s.canIssue t 1) (hf : s.unitFree t { units := [.panel] })
include hi hf

/-- `PPOWER.UP` drives the first used rail and waits for its `PGD`. -/
theorem exec_ppowerUp_drives {a b : CrackRun} (drv : List DriverAnswer) (h : s.pwr.upGuard) (hh : s.higher .rails .host = none) (i : Fin 6)
    (whole : s.trim.board.crackEn = false ∨ a = .pass ∨ b = .pass) (used : s.trim.board.used.getLsbD i.val = true)
    (first : ∀ j, j < i.val → s.trim.board.used.getLsbD j = false) (low : s.pwr.pgd.getLsbD i.val = false) :
    ∃ u, exec (.ppowerUp t w a b drv) s = .next u ∧ ThreadTo s u t ((s.thread t).atUnit w none) ∧ u.pwr.st = .rising ∧
      u.pwr.pen = s.pwr.pen ||| BitVec.ofNat 6 (2 ^ i.val) ∧ u.pwr.dsch = 0 ∧
      u.pwr.seq = some { up := true, rail := i.val, since := s.now, who := .thread t } ∧ u.trim.boardUp = s.trim.board := by
  obtain ⟨threads, now, board, st, pen, pgd, dsch⟩ := (s.registered t { units := [.panel] }).rises_facts t w drv h.1
  have runs := exec_ppowerUp (w := w) hi hf a b drv h hh (whole.imp_right crackResult_passes)
  generalize (s.registered t { units := [.panel] }).rises t w drv = v at *
  have rails : ∀ j, v.railUsed j = s.trim.board.used.getLsbD j := fun j => congrArg (fun x : Board => x.used.getLsbD j) board
  have waits := v.seqUp_waits { up := true, rail := 0, since := v.now, who := .thread t } ((rails i).trans used) (by rw [pgd]; exact low)
    6 0 (Nat.zero_le _) (by omega) fun j _ hj => (rails j).trans (first j hj)
  refine ⟨_, runs.trans (congrArg _ waits), ?_, st, congrArg (· ||| BitVec.ofNat 6 (2 ^ i.val)) pen, dsch, ?_, board⟩
  · exact (threadTo_toUnit_of_threads rfl t w none).trans_of_eq threads
  · exact congrArg (fun n => some ({ up := true, rail := i.val, since := n, who := .thread t } : RailSeq)) now

/-- `PPOWER.DOWN` lowers the last used rail and waits for its `PGD`. -/
theorem exec_ppowerDown_lowers (h : s.emitEn = false) (hh : s.higher .rails .host = none) (i : Fin 6)
    (used : s.trim.boardUp.used.getLsbD i.val = true) (last : ∀ j, i.val < j → s.trim.boardUp.used.getLsbD j = false)
    (high : s.pwr.pgd.getLsbD i.val = true) :
    ∃ u, exec (.ppowerDown t w) s = .next u ∧ ThreadTo s u t ((s.thread t).atUnit w none) ∧ u.pwr.st = .falling ∧
      u.pwr.pen = s.pwr.pen &&& ~~~BitVec.ofNat 6 (2 ^ i.val) ∧ u.scan.gsp = false ∧ u.scan.gck = 0 ∧ u.scan.goe = false ∧
      u.pwr.seq = some { up := false, rail := i.val, since := s.now, who := .thread t } ∧
      (s.pwr.st = .up → u.pwr.lightReq = false ∧ u.pwr.cleared = false) := by
  obtain ⟨threads, now, trim, st, pen, pgd, ⟨gsp, gck, goe⟩, leaves⟩ := (s.registered t { units := [.panel] }).falls_facts t w
  have runs := exec_ppowerDown (w := w) hi hf h hh
  rw [← State.falls.eq_1] at runs
  generalize (s.registered t { units := [.panel] }).falls t w = v at *
  have rails : ∀ j, v.railUsed j = s.trim.boardUp.used.getLsbD j := fun j => congrArg (fun x : Trim => x.boardUp.used.getLsbD j) trim
  have waits := v.seqDown_waits { up := false, rail := 5, since := v.now, who := .thread t } ((rails i).trans used) (by rw [pgd]; exact high)
    6 5 (by omega) (by omega) fun j hj _ => (rails j).trans (last j hj)
  refine ⟨_, runs.trans (congrArg _ waits), ?_, st, congrArg (· &&& ~~~BitVec.ofNat 6 (2 ^ i.val)) pen, gsp, gck, goe, ?_, leaves⟩
  · exact (threadTo_toUnit_of_threads rfl t w none).trans_of_eq threads
  · exact congrArg (fun n => some ({ up := false, rail := i.val, since := n, who := .thread t } : RailSeq)) now

end

/-- Settles O37. -/
theorem panelInstructions : Obligations.PanelInstructions := by
  refine ⟨State.emitEn_iff, ?_, ?_⟩
  · intro s t w a b drv hi hf th r guard light
    refine ⟨fun h => exec_ppowerUp_faults hi hf a b drv h, fun h hh => ⟨fun en fails => ?_, fun i whole used first low => ?_⟩,
      fun h => exec_ppowerDown_faults hi hf h, fun i h hh used last high => exec_ppowerDown_lowers hi hf h hh i used last high,
      fun h => ?_, fun h hh => ?_, fun hh => ?_⟩
    · obtain ⟨k, cracked⟩ := crackResult_fails fails
      refine ⟨_, exec_ppowerUp_cracked hi hf a b drv h hh en cracked, ?_, ?_, ?_⟩
      · rw [State.toUnit_thread]
        rfl
      · exact State.report_pwr _ _ _ _
      · exact State.report_total _ _ _ _
    · exact exec_ppowerUp_drives hi hf drv h hh i whole used first low
    · exact exec_plightOn_faults hi hf (Bool.eq_false_iff.2 fun e => h ((State.lightGuard_iff s).1 e))
    · exact ⟨_, exec_plightOn hi hf ((State.lightGuard_iff s).2 h) hh, threadTo_toUnit_of_threads rfl t w _, rfl⟩
    · exact ⟨_, exec_plightOff hi hf hh, threadTo_toUnit_of_threads rfl t w _, rfl⟩
  · intro s t w l hi hf hue th b r sent
    refine ⟨fun h => exec_pmbx_badBlock hi l hue (Bool.eq_false_iff.2 fun good => ?_), fun addr lo hi' rlen => ?_⟩
    · obtain ⟨addr, lo, hi', rlen⟩ := (pmbGood_iff b).1 good
      omega
    · have good := (pmbGood_iff b).2 ⟨addr, lo, hi', rlen⟩
      refine ⟨fun down => exec_pmbx_down hi l hue good hf down, ?_⟩
      rintro up x y z rest rfl
      have runs := exec_pmbx hi (x :: y :: z :: rest) hue good hf up
      refine ⟨fun d h => ?_, fun hx hy hz => ?_⟩
      · rw [pmbResult_ok _ h] at runs
        exact ⟨_, runs, threadTo_toUnit_of_threads rfl t w _, rfl⟩
      · rw [pmbResult_fails _ hx hy hz] at runs
        exact ⟨_, runs, threadTo_toUnit_of_threads rfl t w _, rfl⟩

end Sys2Proof.Machine
end

section
/-! SUPPORT. An update of a queue as the threads and the fabric see it, and the items and frames that this node sends
(R302, R436, R443, R444, R455). -/

namespace Sys2Proof.Machine

/-! ### Updates of queues -/

theorem State.countAbort_threads (s : State) (q : Fin 64) : (s.countAbort q).threads = s.threads := by
  simp only [State.countAbort]
  split <;> rfl

theorem State.flushQueue_onlyEvents (s : State) (q : Fin 64) : OnlyEvents s (s.flushQueue q) := by
  simp only [State.flushQueue]
  split
  · exact (OnlyEvents.of_threads (s.countAbort_threads q)).trans (State.putQueue_onlyEvents _ _ _)
  · exact State.putQueue_onlyEvents _ _ _

/-- An update of a queue leaves memory and the fabric, and of the threads all but further event bits. -/
structure QueueFrame (s u : State) : Prop where
  mem : u.mem = s.mem
  fab : u.fab = s.fab
  threads : OnlyEvents s u

theorem State.pointerReset_queueFrame (s : State) (q : Fin 64) (f : PtrField) : QueueFrame s (s.pointerReset q f) := by
  have told : ∀ (v : State) (c b i : Nat) (d : List Byte), v.threads = (s.flushQueue q).threads → OnlyEvents s ((v.report c b i).post41 d) :=
    fun v c b i d same => ((s.flushQueue_onlyEvents q).congr same).trans
      ((v.report_onlyEvents c b i).trans (State.post41_onlyEvents _ d))
  simp only [State.pointerReset]
  refine ⟨?_, ?_, told _ _ _ _ _ rfl⟩
  · rw [State.post41_mem, State.report_mem, State.flushQueue_frame]
  · rw [State.post41_fab, State.report_fab, State.flushQueue_frame]

theorem State.updQueue_queueFrame (s : State) (q : Fin 64) (x : Queue) : QueueFrame s (s.updQueue q x) := by
  have put : QueueFrame s (s.putQueue q x) :=
    ⟨by rw [State.putQueue_frame], by rw [State.putQueue_frame], State.putQueue_onlyEvents _ _ _⟩
  simp only [State.updQueue, State.compare]
  split
  · exact put
  · next f _ =>
    obtain ⟨mem, fab, threads⟩ := (s.putQueue q x).pointerReset_queueFrame q f
    exact ⟨mem.trans put.mem, fab.trans put.fab, put.threads.trans threads⟩

/-! ### FSEND (R267, R440) -/

/-- The answer of `FSEND` for bytes that go to another node. -/
def State.sendMsg (s : State) (t : Tid) (w : IWord) (dst tc : Nat) (bytes : List Byte) : State :=
  match s.nextHop dst tc false with
  | none => s.toUnit t w (some (.code 0x60))
  | some (p, d) =>
    if s.txRoom p bytes then (s.sendOwn p { s.newItem tc 2 false dst bytes with detour := d }).toUnit t w (some (.code 0))
    else s.toUnit t w (some (.code 0x50))

section
variable {s : State} {t : Tid} {w : IWord} {dst tc : Nat} {bytes : List Byte}

theorem State.sendMsg_noRoute (h : s.nextHop dst tc false = none) : s.sendMsg t w dst tc bytes = s.toUnit t w (some (.code 0x60)) := by
  rw [State.sendMsg, h]

section
variable {p : Fin 8} {d : Bool} (h : s.nextHop dst tc false = some (p, d))
include h

theorem State.sendMsg_full (full : s.txRoom p bytes = false) : s.sendMsg t w dst tc bytes = s.toUnit t w (some (.code 0x50)) := by
  rw [State.sendMsg, h]
  exact if_neg (Bool.eq_false_iff.1 full)

theorem State.sendMsg_sends (room : s.txRoom p bytes = true) : s.sendMsg t w dst tc bytes =
    (s.sendOwn p { s.newItem tc 2 false dst bytes with detour := d }).toUnit t w (some (.code 0)) := by
  rw [State.sendMsg, h]
  exact if_pos room

end

/-- An item joins those of this node that wait for a port. -/
def State.addOwn (s : State) (p : Fin 8) (x : TxItem) : State :=
  { s with fab := { s.fab with ports := vmod s.fab.ports p fun y => { y with own := y.own ++ [x] } } }

theorem State.sendOwn_eq (s : State) (p : Fin 8) (x : TxItem) :
    s.sendOwn p x = (s.updQueue (txQueue p) (s.queues[txQueue p].add x.bytes)).addOwn p x := by
  simp only [State.sendOwn, State.addOwn]

/-- An item goes on the transmit queue of its port. -/
theorem State.sendOwn_queueFrame (s : State) (p : Fin 8) (x : TxItem) : (s.sendOwn p x).mem = s.mem ∧ OnlyEvents s (s.sendOwn p x) ∧
    (s.sendOwn p x).fab = { s.fab with ports := vmod s.fab.ports p fun y => { y with own := y.own ++ [x] } } := by
  obtain ⟨mem, fab, threads⟩ := s.updQueue_queueFrame (txQueue p) (s.queues[txQueue p].add x.bytes)
  rw [State.sendOwn_eq]
  generalize s.updQueue (txQueue p) (s.queues[txQueue p].add x.bytes) = v at *
  exact ⟨mem, threads, by rw [State.addOwn, fab]⟩

theorem State.sendOwn_ready (s : State) (p : Fin 8) (x : TxItem) (mark : s.queues[txQueue p].wmark = false)
    (agreed : s.queues[txQueue p].upset = none) : (s.sendOwn p x).queues[txQueue p].ready = s.queues[txQueue p].ready ++ [x.bytes] := by
  have ne : txQueue p ≠ 41 := fun e => by
    have := congrArg Fin.val e
    simp only [txQueue] at this
    omega
  have added : s.queues[txQueue p].add x.bytes = { s.queues[txQueue p] with
      wpos := s.queues[txQueue p].ahead s.queues[txQueue p].wpos (itemSpace x.bytes), tags := s.queues[txQueue p].tags ++ [false]
      ready := s.queues[txQueue p].ready ++ [x.bytes] } := by
    simp only [Queue.add, mark, Bool.false_eq_true, if_false]
  obtain ⟨put, wm, same⟩ := s.updQueue_same (txQueue p) (s.queues[txQueue p].add x.bytes) (by rw [added]; exact agreed) (.inl ne)
  rw [State.sendOwn_eq, put]
  generalize s.putQueue (txQueue p) (s.queues[txQueue p].add x.bytes) = v at *
  exact (congrArg Queue.ready same).trans (by rw [added])

end

section
variable {s : State} {t : Tid} {w : IWord} {b : Buf} (hi : s.canIssue t 1)
  (hb : s.checkOpen t (handleOf ((s.thread t).reg w.rb)) = .ok b)
include hi hb

theorem exec_fsend_faults (h : ¬((w.fn.toNat % 4 = 1 ∨ w.fn.toNat % 4 = 3) ∧ 1 ≤ w.imm.toNat % 4096 ∧ w.imm.toNat % 4096 ≤ 2048)) :
    exec (.fsend t w) s = .next (s.faultAt t .state 0x20 (s.thread t).pc) := by
  refine congrArg _ ((issue_run s t _ hi).trans ?_)
  simp only [hb, need_false _ (decide_eq_false h), bind, Except.bind, State.orFault]
  rfl

/-- What `FSEND` names. -/
def fsendUse (th : Thread) (w : IWord) : Use :=
  { handles := [handleOf (th.reg w.rb)], reads := [.ofBytes (handleOf (th.reg w.rb)) (th.reg w.rc).toNat (w.imm.toNat % 4096)] }

omit hi hb in
theorem State.nextHop_congr {u v : State} (h : u.fab = v.fab) (dst tc : Nat) (detour : Bool) : u.nextHop dst tc detour = v.nextHop dst tc detour := by
  simp only [State.nextHop, State.usable, State.node?, h]

omit hi hb in
theorem State.txRoom_congr {u v : State} (h : u.queues = v.queues) (p : Fin 8) (bytes : List Byte) : u.txRoom p bytes = v.txRoom p bytes := by
  simp only [State.txRoom, h]

/-- The state once `FSEND` is registered and its bytes are read. -/
def State.fsendRead (s : State) (t : Tid) (w : IWord) (b : Buf) : State :=
  (s.registered t (fsendUse (s.thread t) w)).dramRequest 15 (b.base + ((s.thread t).reg w.rc).toNat) (w.imm.toNat % 4096) false

theorem exec_fsend (h : (w.fn.toNat % 4 = 1 ∨ w.fn.toNat % 4 = 3) ∧ 1 ≤ w.imm.toNat % 4096 ∧ w.imm.toNat % 4096 ≤ 2048)
    (hn : ((s.thread t).reg w.rc).toNat + w.imm.toNat % 4096 ≤ b.len) (hf : s.unitFree t (fsendUse (s.thread t) w))
    (clean : s.dram.suspects (b.base + ((s.thread t).reg w.rc).toNat) (w.imm.toNat % 4096) = [])
    (away : s.node? ≠ some (((s.thread t).reg w.ra).toNat % 4096)) :
    exec (.fsend t w) s = .next ((s.fsendRead t w b).sendMsg t w (((s.thread t).reg w.ra).toNat % 4096) (w.fn.toNat % 4)
      (Memory.readN s.mem (b.base + ((s.thread t).reg w.rc).toNat) (w.imm.toNat % 4096))) := by
  have read : (s.registered t (fsendUse (s.thread t) w)).readBuf b ((s.thread t).reg w.rc).toNat (w.imm.toNat % 4096) =
      (s.fsendRead t w b, some (Memory.readN s.mem (b.base + ((s.thread t).reg w.rc).toNat) (w.imm.toNat % 4096))) :=
    State.readDram_clean _ _ _ _ clean
  have other : (s.fsendRead t w b).node? ≠ some (((s.thread t).reg w.ra).toNat % 4096) := away
  refine congrArg _ ((issue_run s t _ hi).trans ?_)
  simp only [hb, need_true _ (decide_eq_true h), Buf.within_ok hn, bind, Except.bind, pure, Except.pure, State.orFault]
  refine (startUnit_free _ _ _ _ _ hf).trans ?_
  simp only [read, if_neg other]
  rfl

end

/-! ### The frames of a broadcast (R436, R442) -/

theorem chunks_short (n : Nat) {l : List Byte} (h : l.length ≤ 2048) : chunks (n + 1) l = [l] := by
  rw [chunks, List.take_of_length_le h, if_pos h]

/-- A frame that carries a whole message of a class and type to all nodes. -/
def TxFrame.carriesAll (f : TxFrame) (tc : BitVec 2) (ftype : BitVec 4) (msg : List Byte) : Prop :=
  f.payload = msg ∧ f.hdr.bcast = true ∧ f.hdr.tc = tc ∧ f.hdr.ftype = ftype

/-- A message of 2,048 bytes at most goes in one frame. -/
theorem State.framesOf_short (s : State) (tc ftype dst : Nat) {msg : List Byte} (h : msg.length ≤ 2048) :
    ∃ f, s.framesOf tc ftype true dst msg = [f] ∧ f.carriesAll (BitVec.ofNat 2 tc) (BitVec.ofNat 4 ftype) msg := by
  simp only [State.framesOf, chunks_short _ h]
  exact ⟨_, rfl, rfl, rfl, rfl, rfl⟩

/-- A group command goes out on a port. -/
def State.sendGroup (msg : List Byte) (s : State) (p : Fin 8) : State := s.sendControl p (s.framesOf 1 4 true 0 msg)

/-- A broadcast reaches each port of its list once, and no other. -/
theorem foldl_sendGroup {msg : List Byte} (h : msg.length ≤ 2048) (l : List (Fin 8)) (distinct : l.Nodup) (s : State) :
    l.foldl (State.sendGroup msg) s = { s with fab := { s.fab with ports := (l.foldl (State.sendGroup msg) s).fab.ports } } ∧
      (∀ p ∉ l, (l.foldl (State.sendGroup msg) s).fab.ports[p] = s.fab.ports[p]) ∧
      ∀ p ∈ l, ∃ f : TxFrame, (l.foldl (State.sendGroup msg) s).fab.ports[p] = { s.fab.ports[p] with tx1 := s.fab.ports[p].tx1 ++ [f] } ∧
        f.carriesAll 1 4 msg := by
  induction l generalizing s with
  | nil => exact ⟨rfl, fun _ _ => rfl, fun _ h => absurd h List.not_mem_nil⟩
  | cons q l ih =>
    obtain ⟨fresh, distinct⟩ := List.nodup_cons.1 distinct
    obtain ⟨frame, others, mine⟩ := ih distinct (s.sendGroup msg q)
    obtain ⟨f, frames, carries⟩ := s.framesOf_short 1 4 0 h
    have sent : (s.sendGroup msg q).fab.ports = vmod s.fab.ports q fun y => { y with tx1 := y.tx1 ++ [f] } := by
      rw [State.sendGroup, frames]
      rfl
    have at_q : (s.sendGroup msg q).fab.ports[q] = { s.fab.ports[q] with tx1 := s.fab.ports[q].tx1 ++ [f] } := by
      rw [sent]
      exact vmod_same _ q _
    have off_q : ∀ p, p ≠ q → (s.sendGroup msg q).fab.ports[p] = s.fab.ports[p] := fun p hp => by
      rw [sent]
      exact vmod_other _ q p _ hp
    rw [List.foldl_cons]
    refine ⟨frame, fun p hp => ?_, fun p hp => ?_⟩
    · obtain ⟨ne, rest⟩ := List.ne_and_not_mem_of_not_mem_cons hp
      rw [others p rest, off_q p ne]
    · rcases List.mem_cons.1 hp with rfl | hp
      · exact ⟨f, (others p fresh).trans at_q, carries⟩
      · have ne : p ≠ q := fun e => fresh (e ▸ hp)
        obtain ⟨g, reached, carries⟩ := mine p hp
        exact ⟨g, by rw [reached, off_q p ne], carries⟩

theorem State.mem_bcastPorts (s : State) (p : Fin 8) : p ∈ s.bcastPorts 1 ↔ p.val < 4 ∧ s.fab.ports[p].st = .up := by
  have cardinal : p ∈ ([0, 1, 2, 3] : List (Fin 8)) ↔ p.val < 4 := by
    revert p
    decide
  have carries : s.fab.ports[p].carries 1 = true ↔ s.fab.ports[p].st = .up := by simp [Port.carries]
  rw [State.bcastPorts, List.mem_filter, cardinal, carries]

theorem State.bcastPorts_nodup (s : State) (tc : Nat) : (s.bcastPorts tc).Nodup := List.Nodup.filter _ (by decide)

/-! ### FGROUP (R268, R455, R458) -/

theorem State.takeGroup_frame (s : State) (src : BitVec 12) (auth : Bool) (m : List Byte) :
    (s.takeGroup none src auth m).fab.ports = s.fab.ports ∧
      (s.targeted (fieldAt m 4 4) = false → (s.takeGroup none src auth m).fab.group = s.fab.group) := by
  simp only [State.takeGroup]
  refine ⟨?_, fun away => ?_⟩
  · split
    · rfl
    · split
      · rfl
      · split
        · rw [State.report_fab]
        · split
          · rw [State.report_fab]
          · rfl
  · simp only [away, Bool.not_false, Bool.true_or, if_true]

/-- A device that a command names, enrolled and not in the safe state, takes it while its time is to come and fewer than 64 are pending. -/
theorem State.takeGroup_takes (s : State) (src : BitVec 12) (m : List Byte) (target : s.targeted (fieldAt m 4 4) = true)
    (legal : groupOk (fieldAt m 0 2) (fieldAt m 2 2) (bytesAt m 8 56) = true) (enrolled : s.enrolled = true) (awake : s.safe = false)
    (ahead : s.fab.ft ≤ fieldAt m 64 8) (room : s.fab.group.length < 64) :
    (s.takeGroup none src s.enrolled m).fab.group.length = s.fab.group.length + 1 := by
  simp only [State.takeGroup, target, legal, enrolled, awake, Bool.not_true, Bool.or_self, Bool.false_eq_true, if_false, Nat.not_lt.2 ahead,
    Nat.not_le.2 room, State.modFab, List.length_append, List.length_singleton]

/-- A block of `FGROUP` keeps to Table 18-7, and its time is at most 10 s ahead (R455, R458). -/
def State.groupLegal (s : State) (b : List Byte) (time : Nat) : Prop :=
  groupOk (fieldAt b 0 2) (fieldAt b 2 2) (bytesAt b 8 56) = true ∧ fieldAt b 4 4 % 64 ≤ fieldAt b 4 4 / 64 % 64 ∧
    fieldAt b 4 4 / 4096 % 64 ≤ fieldAt b 4 4 / 262144 % 64 ∧ time ≤ s.fab.ft + 10000000000

theorem State.groupLegal_iff (s : State) (b : List Byte) (time : Nat) : s.groupLegal b time ↔
    (!groupOk (fieldAt b 0 2) (fieldAt b 2 2) (bytesAt b 8 56) || bitsOf (fieldAt b 4 4) 11 6 < bitsOf (fieldAt b 4 4) 5 0
      || bitsOf (fieldAt b 4 4) 23 18 < bitsOf (fieldAt b 4 4) 17 12 || s.fab.ft + 10000000000 < time) = false := by
  simp only [Bool.or_eq_false_iff, Bool.not_eq_false', decide_eq_false_iff_not, Nat.not_lt, and_assoc]
  simp only [State.groupLegal, bitsOf, Nat.reducePow, Nat.reduceSub, Nat.reduceAdd, pow_zero, Nat.div_one]

/-- A group command goes out on every port that carries it, and this device takes it too. -/
def State.issueGroup (s : State) (msg : List Byte) : State :=
  let u := (s.bcastPorts 1).foldl (State.sendGroup msg) s
  u.takeGroup none (BitVec.ofNat 12 (u.node?.getD 0)) u.enrolled msg

section
variable {s : State} {t : Tid} {w : IWord} (hi : s.canIssue t 1) (hf : s.unitFree t {}) (hue : w.ue = false)
include hi hf hue

theorem exec_fgroup_faults (h : s.ftLocked = false ∨ ((s.thread t).reg w.rb).toNat < s.fab.ft + 1000000) :
    exec (.fgroup t w) s = .next ((s.registered t {}).faultAt t .state 0x17 (s.thread t).pc) := by
  refine congrArg _ ((issueBlock_run s t w _ hi hue).trans ?_)
  refine (startUnit_free _ _ _ _ _ hf).trans (if_pos ?_)
  refine Bool.or_eq_true_iff.2 (h.imp (fun unlocked => ?_) fun early => decide_eq_true early)
  exact congrArg (!·) unlocked

omit hi hf hue in
theorem State.groupTimely {v : State} {time : Nat} (locked : v.ftLocked = true) (ahead : v.fab.ft + 1000000 ≤ time) :
    ¬((!v.ftLocked || decide (time < v.fab.ft + 1000000)) = true) := by
  simp [locked, ahead]

section
variable (locked : s.ftLocked = true) (ahead : s.fab.ft + 1000000 ≤ ((s.thread t).reg w.rb).toNat)
include locked ahead

theorem exec_fgroup_refused (h : ¬s.groupLegal (w.block (s.thread t) 64) ((s.thread t).reg w.rb).toNat) :
    exec (.fgroup t w) s = .next ((s.registered t {}).toUnit t w (some (.code 0x61))) := by
  refine congrArg _ ((issueBlock_run s t w _ hi hue).trans ?_)
  refine (startUnit_free _ _ _ _ _ hf).trans ((if_neg (State.groupTimely locked ahead)).trans (if_pos ?_))
  exact Bool.not_eq_false _ ▸ mt (State.groupLegal_iff s _ _).2 h

theorem exec_fgroup (h : s.groupLegal (w.block (s.thread t) 64) ((s.thread t).reg w.rb).toNat) (node : s.node? ≠ none)
    (ports : s.bcastPorts 1 ≠ []) : exec (.fgroup t w) s = .next (((s.registered t {}).issueGroup
      (w.block (s.thread t) 64 ++ leBytes 8 ((s.thread t).reg w.rb).toNat)).toUnit t w (some (.code 0))) := by
  refine congrArg _ ((issueBlock_run s t w _ hi hue).trans ?_)
  refine (startUnit_free _ _ _ _ _ hf).trans ((if_neg (State.groupTimely locked ahead)).trans ((if_neg ?_).trans ?_))
  · exact Bool.eq_false_iff.1 ((State.groupLegal_iff s _ _).1 h)
  · have known : (s.registered t {}).node?.isSome = true := Option.isSome_iff_ne_none.2 node
    simp only [known, if_true]
    refine (if_neg fun nobody => ports ?_).trans rfl
    exact List.isEmpty_iff.1 (Bool.and_eq_true_iff.1 nobody).1

end
end

end Sys2Proof.Machine
end

section
/-! O34: `FSEND` and `FGROUP` (R234, R267, R268, R440, R455, R458). -/

namespace Sys2Proof.Machine

/-- What a group command leaves on the ports and among the pending commands. -/
theorem State.issueGroup_facts (s : State) {m : List Byte} (h : m.length ≤ 2048) :
    (∀ p : Fin 8, (p.val < 4 ∧ s.fab.ports[p].st = .up → ∃ f : TxFrame,
      (s.issueGroup m).fab.ports[p] = { s.fab.ports[p] with tx1 := s.fab.ports[p].tx1 ++ [f] } ∧ f.carriesAll 1 4 m) ∧
      (4 ≤ p.val ∨ s.fab.ports[p].st ≠ .up → (s.issueGroup m).fab.ports[p] = s.fab.ports[p])) ∧
    (s.targeted (fieldAt m 4 4) = true → groupOk (fieldAt m 0 2) (fieldAt m 2 2) (bytesAt m 8 56) = true → s.enrolled = true →
      s.safe = false → s.fab.ft ≤ fieldAt m 64 8 → s.fab.group.length < 64 →
      (s.issueGroup m).fab.group.length = s.fab.group.length + 1) ∧
    (s.targeted (fieldAt m 4 4) = false → (s.issueGroup m).fab.group = s.fab.group) := by
  obtain ⟨frame, others, reached⟩ := foldl_sendGroup h (s.bcastPorts 1) (s.bcastPorts_nodup 1) s
  rw [State.issueGroup]
  generalize (s.bcastPorts 1).foldl (State.sendGroup m) s = u at *
  obtain ⟨ports, away⟩ := u.takeGroup_frame (BitVec.ofNat 12 (u.node?.getD 0)) u.enrolled m
  have here : u.targeted (fieldAt m 4 4) = s.targeted (fieldAt m 4 4) := by rw [frame]; rfl
  have group : u.fab.group = s.fab.group := by rw [frame]
  refine ⟨fun p => ⟨fun up => ?_, fun off => ?_⟩, fun target legal enrolled awake ahead room => ?_, fun target => ?_⟩
  · rw [ports]
    exact reached p ((s.mem_bcastPorts p).2 up)
  · rw [ports]
    exact others p fun mem => off.elim (Nat.not_le.2 ((s.mem_bcastPorts p).1 mem).1) fun down => down ((s.mem_bcastPorts p).1 mem).2
  · rw [u.takeGroup_takes _ m (here.trans target) legal (by rw [frame]; exact enrolled) (by rw [frame]; exact awake)
      (by rw [frame]; exact ahead) (by rw [group]; exact room), group]
  · rw [away (here.trans target), group]

/-- The fields of a group message: its block, and the time behind it. -/
theorem groupMessage_fields {b : List Byte} (h : b.length = 64) {x : Nat} (hx : x < 2 ^ 64) :
    fieldAt (b ++ leBytes 8 x) 4 4 = fieldAt b 4 4 ∧ fieldAt (b ++ leBytes 8 x) 0 2 = fieldAt b 0 2 ∧
      fieldAt (b ++ leBytes 8 x) 2 2 = fieldAt b 2 2 ∧ bytesAt (b ++ leBytes 8 x) 8 56 = bytesAt b 8 56 ∧
      fieldAt (b ++ leBytes 8 x) 64 8 = x := by
  refine ⟨fieldAt_append_left _ _ (by omega), fieldAt_append_left _ _ (by omega), fieldAt_append_left _ _ (by omega), ?_, ?_⟩
  · have front : ((b ++ leBytes 8 x).drop 8).take 56 = (b.drop 8).take 56 := by
      rw [List.drop_append_of_le_length (by omega), List.take_append_of_le_length (by rw [List.length_drop]; omega)]
    simp only [bytesAt, front]
  · have behind := fieldAt_append_right b (leBytes 8 x) 0 8
    rw [h] at behind
    rw [behind, ← List.append_nil (leBytes 8 x)]
    exact fieldAt_leBytes hx []

/-- Where the operation changed no thread, its thread waits at the unit with the result. -/
theorem State.toUnit_waits {s : State} (v : State) (t : Tid) (w : IWord) (d : Done) (h : OnlyEvents s v) :
    ((v.toUnit t w (some d)).thread t).st = .waiting ∧ ((v.toUnit t w (some d)).thread t).g = (s.thread t).g ∧
      ((v.toUnit t w (some d)).thread t).done = some d := by
  rw [State.toUnit_thread, h t]
  exact ⟨rfl, rfl, rfl⟩

/-- Settles O34. -/
theorem fsendAndFgroup : Obligations.FsendAndFgroup := by
  refine ⟨?_, ?_⟩
  · intro s t w b hi th h off n tc dst use bytes hb
    refine ⟨fun bad => exec_fsend_faults hi hb (by omega), fun class_ lo hi' inside hf clean away => ?_⟩
    have runs := exec_fsend hi hb ⟨class_, lo, hi'⟩ inside hf clean away
    cases hop : s.nextHop dst tc false with
    | none =>
      have answer : (s.fsendRead t w b).sendMsg t w dst tc bytes = _ := State.sendMsg_noRoute ((State.nextHop_congr rfl _ _ _).trans hop)
      obtain ⟨st, g, done⟩ := (s.fsendRead t w b).toUnit_waits (s := s) t w (.code 0x60) (.of_threads rfl)
      exact ⟨_, runs.trans (congrArg _ answer), rfl, st, g, fun _ => ⟨done, rfl, rfl⟩, fun p d e => by cases e⟩
    | some e =>
      obtain ⟨p, d⟩ := e
      cases room : s.txRoom p bytes with
      | false =>
        have answer : (s.fsendRead t w b).sendMsg t w dst tc bytes = _ := State.sendMsg_full ((State.nextHop_congr rfl _ _ _).trans hop) ((State.txRoom_congr rfl _ _).trans room)
        obtain ⟨st, g, done⟩ := (s.fsendRead t w b).toUnit_waits (s := s) t w (.code 0x50) (.of_threads rfl)
        refine ⟨_, runs.trans (congrArg _ answer), rfl, st, g, fun e => (by cases e), ?_⟩
        rintro q k ⟨⟩
        exact ⟨fun _ => ⟨done, rfl, rfl⟩, fun e => absurd (room.symm.trans e) Bool.false_ne_true⟩
      | true =>
        have answer : (s.fsendRead t w b).sendMsg t w dst tc bytes = _ := State.sendMsg_sends ((State.nextHop_congr rfl _ _ _).trans hop) ((State.txRoom_congr rfl _ _).trans room)
        generalize hx : ({ (s.fsendRead t w b).newItem tc 2 false dst bytes with detour := d } : TxItem) = x at answer
        have carried : x.bytes = bytes := by rw [← hx]; rfl
        have index : ∀ v : Vector Queue 64, v[txQueue p] = v[32 + p.val] := fun _ => rfl
        obtain ⟨mem, threads, fab⟩ := (s.fsendRead t w b).sendOwn_queueFrame p x
        have joins := (s.fsendRead t w b).sendOwn_ready p x
        generalize (s.fsendRead t w b).sendOwn p x = v at *
        obtain ⟨st, g, done⟩ := v.toUnit_waits (s := s) t w (.code 0) ((OnlyEvents.of_threads (s := s) rfl).trans threads)
        refine ⟨_, runs.trans (congrArg _ answer), mem, st, g, fun e => (by cases e), ?_⟩
        rintro q k ⟨⟩
        refine ⟨fun e => absurd (room.symm.trans e) Bool.noConfusion, fun _ mark agreed => ⟨done, ?_, x, fab, carried, ?_⟩⟩
        · have joined := joins mark agreed
          rw [carried, index, index] at joined
          exact joined
        · rw [← hx]
          have dst' : dst < 4096 := Nat.mod_lt _ (by decide)
          have tc' : tc < 4 := Nat.mod_lt _ (by decide)
          exact ⟨Nat.mod_eq_of_lt tc', rfl, rfl, Nat.mod_eq_of_lt dst', rfl, rfl⟩
  · intro s t w hi hf hue th b time target legal
    refine ⟨fun h => exec_fgroup_faults hi hf hue h, fun locked ahead => ⟨fun h => ?_, fun h node up => ?_⟩⟩
    · exact ⟨_, exec_fgroup_refused hi hf hue locked ahead h, threadTo_toUnit_of_threads rfl t w _, rfl⟩
    · obtain ⟨p, cardinal, up⟩ := up
      have some_ : s.bcastPorts 1 ≠ [] := List.ne_nil_of_mem ((s.mem_bcastPorts p).2 ⟨cardinal, up⟩)
      have length : b.length = 64 := IWord.length_block w th 64
      obtain ⟨target', gop, plen, payload, time'⟩ := groupMessage_fields length (x := time) ((th.reg w.rb).isLt)
      obtain ⟨ports, takes, away⟩ := (s.registered t {}).issueGroup_facts (m := b ++ leBytes 8 time) (by simp [length])
      rw [target', gop, plen, payload, time'] at takes
      rw [target'] at away
      refine ⟨_, exec_fgroup hi hf hue locked ahead h node some_, ?_, ?_, ports,
        fun here enrolled awake room => takes here h.1 enrolled awake (Nat.le_trans (Nat.le_add_right _ _) ahead) room, away⟩
      · rw [State.toUnit_thread]
        rfl
      · rw [State.toUnit_thread]
        rfl

end Sys2Proof.Machine
end

section
/-! SUPPORT. `BLT` at its issue: the checks, the queue of the engine, and the bits of the raster operation (R277, R280, R282). -/

namespace Sys2Proof.Machine

/-! ### Issue (R277) -/

theorem exec_blt (t : Tid) (w : IWord) (s : State) : exec (.blt t w) s = execBlt t w s := rfl

/-- The registered operation of a blit. -/
def State.bltSbOp (s : State) (t : Tid) (d : BltDesc) (isSync : Bool) : SbOp :=
  { op := s.nextOp, thread := t, sync := isSync, handles := d.handles, reads := (d.regions d.twoPass 0).1, writes := (d.regions d.twoPass 0).2 }

/-- Outside self-refresh a descriptor joins the scoreboard and the end of the engine's queue, and nothing else changes. -/
theorem State.queueBlt_awake (s : State) (t : Tid) (d : BltDesc) (isSync : Bool) (h : s.dram.sr = .out) : s.queueBlt t d isSync =
    { s with
      sboard := s.sboard ++ [s.bltSbOp t d isSync], nextOp := s.nextOp + 1
      blt := { s.blt with
        queue := s.blt.queue ++ [{ op := s.nextOp, thread := t, who := if isSync then .thread t else .async t s.nextOp, d := d }] } } := by
  have awake : ∀ v : State, v.dram = s.dram → v.wakeDram { handles := d.handles } = (v, false) := fun v e =>
    wakeDram_awake _ _ (.inr (e ▸ h))
  simp only [State.queueBlt]
  rw [awake]
  · rfl
  · rfl

section
variable {s : State} {t : Tid} {w : IWord} (hi : s.canIssue t 1) (hue : w.ue = false)
include hi hue

/-- A check that fails faults the thread at the instruction. -/
theorem exec_blt_refused {f : Flt} {sub : Nat} (h : s.bltCheck t (bltOf (w.block (s.thread t) 64)) = .error (f, sub)) :
    exec (.blt t w) s = .next (s.faultAt t f sub (s.thread t).pc) := by
  rw [exec_blt, execBlt, issueBlock_run s t w _ hi hue]
  simp only [h, bind, Except.bind, State.orFault]
  rfl

variable (h : s.bltCheck t (bltOf (w.block (s.thread t) 64)) = .ok ())
include h

theorem exec_blt_full (hf : s.full t = true) : exec (.blt t w) s = .next (s.hold t (.blt t w)) := by
  rw [exec_blt, execBlt, issueBlock_run s t w _ hi hue]
  simp only [h, hf, bind, Except.bind, pure, Except.pure, State.orFault, if_true]

variable (hf : s.full t = false)
include hf

theorem exec_blt_sync (ha : w.fn.getLsbD 7 = false) : exec (.blt t w) s =
    .next ((s.queueBlt t (bltOf (w.block (s.thread t) 64)) true).toUnit t w none) := by
  rw [exec_blt, execBlt, issueBlock_run s t w _ hi hue]
  simp only [h, hf, IWord.isAsync, ha, bind, Except.bind, pure, Except.pure, State.orFault, Bool.false_eq_true, if_false]

/-- The asynchronous form goes on with result 0 for the present, or waits for an entry of the queue. -/
theorem exec_blt_async (ha : w.fn.getLsbD 7 = true) : ∃ x : Thread,
    exec (.blt t w) s = .next ((s.queueBlt t (bltOf (w.block (s.thread t) 64)) false).setThread t x) ∧
      x.pc = ((s.queueBlt t (bltOf (w.block (s.thread t) 64)) false).thread t).pc + 8 ∧
      x.g = (((s.queueBlt t (bltOf (w.block (s.thread t) 64)) false).thread t).setReg w.rd 0).g ∧
      x.st = (if 64 ≤ s.blt.queue.length then .waiting else .running) ∧
      x.wait = if 64 ≤ s.blt.queue.length then .entry s.nextOp else .none := by
  rw [exec_blt, execBlt, issueBlock_run s t w _ hi hue]
  simp only [h, hf, IWord.isAsync, ha, bind, Except.bind, pure, Except.pure, State.orFault, Bool.false_eq_true, if_false, if_true,
    State.modThread_eq, decide_eq_true_eq]
  refine ⟨_, rfl, ?_, ?_, rfl, rfl⟩
  · rw [Thread.next, Thread.setReg_pc]
  · rw [Thread.next_g]

end

/-! ### The checks (R250, R279, R282) -/

section
variable {s : State} {t : Tid} {d : BltDesc} {b : Buf}

/-- A live buffer of the thread that is not dying passes its handle checks. -/
theorem State.checkHandle_mine {h : Nat} (h0 : 0 < h) (hlt : h < 4032) (hb : tabFind s.bufs.table h = some b) (ho : b.owner = some t)
    (hy : b.dying = false) : s.checkHandle t h = .ok b := by
  have live : s.buf? h = some b := hb
  simp [State.checkHandle, h0.ne', Nat.not_le.2 hlt, live, ho, hy, Buf.accessible]

/-- Without source and TMP the checks left are those of the fields, of the extent and of the lock. -/
theorem State.bltCheck_destination (hs : d.readsS = false) (ht : d.tmp = 0) (hc : s.checkHandle t d.dst = .ok b) :
    s.bltCheck t d = (do
      need (s.bltFields d) 0x20
      b.within d.dstOff (d.span d.dstPitch)
      need (!s.lockedBlt d.dst) 0x07) := by
  simp only [State.bltCheck, hc, hs, ht, sealedApart, bind, Except.bind, Option.any_none, Option.all_none,
    need_true 0x04 rfl, Bool.false_and, Bool.false_eq_true, if_false, if_true, bne_self_eq_false, Bool.and_false, Bool.not_false, Bool.and_true]

variable (hs : d.readsS = false) (ht : d.tmp = 0) (hc : s.checkHandle t d.dst = .ok b)
include hs ht hc

theorem State.bltCheck_badFields (hf : s.bltFields d = false) : s.bltCheck t d = .error (.state, 0x20) := by
  rw [State.bltCheck_destination hs ht hc, need_false _ hf]
  rfl

variable (hf : s.bltFields d = true)
include hf

theorem State.bltCheck_past (he : b.len < d.dstOff + d.span d.dstPitch) : s.bltCheck t d = .error (.state, 0x22) := by
  rw [State.bltCheck_destination hs ht hc, need_true _ hf, Buf.within_past he]
  rfl

theorem State.bltCheck_within (he : d.dstOff + d.span d.dstPitch ≤ b.len) :
    s.bltCheck t d = if s.lockedBlt d.dst then .error (.state, 0x07) else .ok () := by
  rw [State.bltCheck_destination hs ht hc, need_true _ hf, Buf.within_ok he]
  cases s.lockedBlt d.dst <;> rfl

end

/-! ### The raster operation (R280) -/

/-- A bit of what is gathered by OR is a bit of the start or of one of the parts. -/
theorem getLsbD_foldl_or {n : Nat} (c : Nat → Bool) (f : Nat → BitVec n) (l : List Nat) (x : BitVec n) (i : Nat) :
    (l.foldl (fun acc k => if c k then acc ||| f k else acc) x).getLsbD i = (x.getLsbD i || l.any fun k => c k && (f k).getLsbD i) := by
  induction l generalizing x with
  | nil => simp
  | cons k l ih =>
    rw [List.foldl_cons, ih, List.any_cons]
    cases c k <;> simp [Bool.or_assoc]

/-- Each bit of the result is the bit of ROP that pattern, source and destination select. -/
theorem ropByte_bit (rop p x d : Byte) (i : Fin 8) : (ropByte rop p x d).getLsbD i.val =
    rop.getLsbD (4 * (p.getLsbD i.val).toNat + 2 * (x.getLsbD i.val).toNat + (d.getLsbD i.val).toNat) := by
  have sel : ∀ (b : Bool) (y : Byte), (if b then y else ~~~y).getLsbD i.val = (y.getLsbD i.val == b) := by
    intro b y
    cases b <;> simp
  simp only [ropByte, getLsbD_foldl_or, BitVec.getLsbD_and, sel]
  cases p.getLsbD i.val <;> cases x.getLsbD i.val <;> cases d.getLsbD i.val <;> simp [List.range_succ, Nat.testBit]

end Sys2Proof.Machine
end

section
/-! SUPPORT. The blit engine between its rows: the start of a descriptor, its gate, and its end (R277, R285, R287, R289, R291). -/

namespace Sys2Proof.Machine

theorem exec_blitDescriptorStart (s : State) : exec .blitDescriptorStart s = execBlitDescriptorStart s := rfl
theorem exec_blitGateOpen (s : State) : exec .blitGateOpen s = execBlitGateOpen s := rfl
theorem exec_blitComplete (s : State) : exec .blitComplete s = execBlitComplete s := rfl

/-! ### The start of a descriptor -/

/-- The gate generator of a descriptor runs. -/
def State.gateRuns (s : State) (d : BltDesc) : Bool := s.tgRuns d.gateTg && s.tgLines d.gateTg != 0

theorem State.gateRuns_iff (s : State) (d : BltDesc) : s.gateRuns d = true ↔ s.tgRuns d.gateTg = true ∧ s.tgLines d.gateTg ≠ 0 := by
  rw [State.gateRuns, Bool.and_eq_true, bne_iff_ne]

/-- TMP holds the rows of a first pass (R285). -/
def State.tmpRoom (s : State) (d : BltDesc) : Prop := ∃ b, s.buf? d.tmp = some b ∧ d.tmp ≠ 0 ∧ d.rowLen * d.height ≤ b.len

/-- The fault of the handles when the descriptor is reached (R223, R240). -/
def State.bltFlt (s : State) (t : Tid) (d : BltDesc) : Option (Flt × BitVec 8) :=
  match s.bltRecheck t d with
  | .error (f, sub) => some (f, BitVec.ofNat 8 sub)
  | .ok _ => none

/-- A descriptor as the engine has it once it is taken. -/
def State.bltTaken (s : State) (o : BltOp) : BltOp :=
  { o with
    rows := 0, firstPass := o.d.twoPass, done := 0, res := s.bltEarly o.d, flt := s.bltFlt o.thread o.d
    gateWait := o.d.gate && (s.bltEarly o.d).isNone && s.gateRuns o.d
    ungated := o.d.gate && (s.bltEarly o.d).isNone && !s.gateRuns o.d }

theorem blitDescriptorStart_takes {s : State} {o : BltOp} {rest : List BltOp} (hs : s.stopped = false) (hr : s.dram.sr = .out)
    (hc : s.blt.cur = none) (hq : s.blt.queue = o :: rest) (hb : sbBlocked s.sboard o.op = false) :
    exec .blitDescriptorStart s = .next { s with blt := { s.blt with cur := some (s.bltTaken o), queue := rest } } := by
  have awake : (s.dram.sr == .inSr) = false := by rw [hr]; rfl
  simp only [exec_blitDescriptorStart, execBlitDescriptorStart, hc, hq, hs, awake, hb, Bool.or_false, Bool.false_eq_true, if_false]
  rfl

section
variable {s : State} {d : BltDesc}

theorem State.bltEarly_noBudget (h : s.bltBudget = some 0) : s.bltEarly d = some 0xC1 := by rw [State.bltEarly, if_pos h]

theorem State.bltEarly_onePass (h : s.bltBudget ≠ some 0) (ht : d.twoPass = false) : s.bltEarly d = none := by
  rw [State.bltEarly, if_neg h, if_neg (by simp [ht])]

theorem State.bltEarly_noRoom (h : s.bltBudget ≠ some 0) (ht : d.twoPass = true) (hr : ¬s.tmpRoom d) : s.bltEarly d = some 0xC0 := by
  rw [State.bltEarly, if_neg h, if_pos ht]
  split
  · rename_i b hb
    split at hb
    · cases hb
    · rename_i h0
      exact if_neg fun fits => hr ⟨b, hb, h0, fits⟩
  · rfl

theorem State.bltEarly_room (h : s.bltBudget ≠ some 0) (hr : s.tmpRoom d) : s.bltEarly d = none := by
  obtain ⟨b, hb, h0, fits⟩ := hr
  rw [State.bltEarly, if_neg h]
  split
  · simp only [hb, if_pos fits]
  · rfl

end

/-! ### The gate -/

section
variable {s : State} {o : BltOp} (hs : s.stopped = false) (hc : s.blt.cur = some o) (hg : o.gateWait = true)
include hs hc hg

theorem blitGateOpen_hit (hh : o.gateHit = true) :
    exec .blitGateOpen s = .next { s with blt := { s.blt with cur := some { o with gateWait := false } } } := by
  simp only [exec_blitGateOpen, execBlitGateOpen, hc, hg, hs, hh, Bool.not_true, Bool.or_false, Bool.false_eq_true, if_false, if_true]
  rfl

theorem blitGateOpen_waits (hh : o.gateHit = false) (hr : s.gateRuns o.d = true) : exec .blitGateOpen s = .next s := by
  rw [State.gateRuns] at hr
  simp only [exec_blitGateOpen, execBlitGateOpen, hc, hg, hs, hh, hr, Bool.not_true, Bool.or_false, Bool.false_eq_true, if_false, if_true]

theorem blitGateOpen_ungated (hh : o.gateHit = false) (hr : s.gateRuns o.d = false) : exec .blitGateOpen s =
    .next { s with blt := { s.blt with cur := some { o with gateWait := false, ungated := true } } } := by
  rw [State.gateRuns] at hr
  simp only [exec_blitGateOpen, execBlitGateOpen, hc, hg, hs, hh, hr, Bool.not_true, Bool.or_false, Bool.false_eq_true, if_false]
  rfl

end

/-! ### The end (Table 11-4) -/

/-- What a blit that is over delivers. -/
def BltOp.answer (o : BltOp) : Done :=
  match o.flt, o.res with
  | some f, _ => { wrRd := false, flt := some f, blt := true }
  | none, some r => { Done.code r.toNat with blt := true }
  | none, none => { Done.code (if o.ungated then 0xC3 else 0) with blt := true }

/-- A blit that has faulted, has its result, or has no row left ends. -/
theorem blitComplete_ends {s : State} {o : BltOp} (hs : s.stopped = false) (hc : s.blt.cur = some o) (hg : o.gateWait = false)
    (h : o.flt.isSome = true ∨ o.res.isSome = true ∨ (o.rows = o.d.height ∧ o.firstPass = false)) : exec .blitComplete s =
      .next (({ s with sboard := s.sboard.filter fun e => e.op != o.op, blt := { s.blt with cur := none } } : State).deliver o.who o.answer) := by
  simp only [exec_blitComplete, execBlitComplete, hc, hg, hs, Bool.or_false, Bool.false_eq_true, if_false, BltOp.answer]
  cases hf : o.flt with
  | some f => rfl
  | none =>
    cases hr : o.res with
    | some r => rfl
    | none =>
      have last : (decide (o.rows = o.d.height) && !o.firstPass) = true := by
        simpa [hf, hr] using h
      simp only [last, if_true]
      rfl

/-- A thread that waits for its unit gets the answer, and nothing else changes. -/
theorem State.deliver_thread {s : State} {t : Tid} (x : Done) (h : (s.thread t).wait = .unit) :
    s.deliver (.thread t) x = s.setThread t { s.thread t with done := some x } := by
  rw [State.deliver, State.modThread_eq, if_pos h]

end Sys2Proof.Machine
end

section
/-! SUPPORT. The bytes of a row of a blit, where they lie, and how far the budget reaches (R280, R284, R289). -/

namespace Sys2Proof.Machine

/-! ### Bytes -/

/-- Byte `j` of a little-endian number. -/
theorem getD_leBytes {n j : Nat} (x : Nat) (h : j < n) : (leBytes n x).getD j 0 = BitVec.ofNat 8 (x / 256 ^ j) := by
  induction n generalizing j x with
  | zero => omega
  | succ n ih =>
    cases j with
    | zero => simp [leBytes]
    | succ j => rw [leBytes, List.getD_cons_succ, ih _ (by omega), Nat.div_div_eq_div_mul, Nat.pow_succ']

theorem Memory.getD_readN (m : List Host.Cell) (a : Nat) {n i : Nat} (h : i < n) : (Memory.readN m a n).getD i 0 = Memory.read m (a + i) := by
  rw [List.getD_eq_getElem _ _ (by simpa using h)]
  simp only [Memory.readN, List.getElem_map, List.getElem_range]

/-- Items of one length stand one behind the other. -/
theorem length_flatMap_range {α : Type} (f : Nat → List α) {k : Nat} (hf : ∀ x, (f x).length = k) (n : Nat) :
    ((List.range n).flatMap f).length = n * k := by
  simp [List.length_flatMap, hf]

theorem getElem?_flatMap_range {α : Type} (f : Nat → List α) {k : Nat} (hf : ∀ x, (f x).length = k) {n x j : Nat} (hx : x < n)
    (hj : j < k) : ((List.range n).flatMap f)[x * k + j]? = (f x)[j]? := by
  induction n with
  | zero => omega
  | succ n ih =>
    rw [List.range_succ, List.flatMap_append, List.flatMap_singleton]
    have len := length_flatMap_range f hf n
    rcases Nat.lt_succ_iff_lt_or_eq.1 hx with before | rfl
    · have room : (x + 1) * k ≤ n * k := Nat.mul_le_mul_right k before
      rw [Nat.succ_mul] at room
      rw [List.getElem?_append_left (by omega), ih before]
    · rw [List.getElem?_append_right (by omega), len, Nat.add_sub_cancel_left]

/-- The source byte of a row, 0 where no source is read. -/
def BltRow.srcByte (r : BltRow) (m : List Host.Cell) (i : Nat) : Byte :=
  match r.src with
  | some (_, a) => Memory.read m (a + i)
  | none => 0

/-- A result byte of a row: byte `j` of element `x`. -/
def State.bltByte (s : State) (d : BltDesc) (r : BltRow) (x j : Nat) : Byte :=
  ropByte d.rop (BitVec.ofNat 8 (d.pattern x r.y / 256 ^ j)) (r.srcByte s.mem (x * d.size + j)) (Memory.read s.mem (r.pa + (x * d.size + j)))

theorem State.bltBytes_length (s : State) (d : BltDesc) (r : BltRow) : (s.bltBytes d r false).length = d.rowLen := by
  simp only [State.bltBytes, Bool.false_eq_true, if_false]
  rw [length_flatMap_range _ fun x => by rw [List.length_map, List.length_range]]
  rfl

/-- Byte `j` of element `x` lies within its row. -/
theorem BltDesc.lt_rowLen {d : BltDesc} {x j : Nat} (hx : x < d.width) (hj : j < d.size) : x * d.size + j < d.rowLen := by
  have room : (x + 1) * d.size ≤ d.width * d.size := Nat.mul_le_mul_right _ hx
  rw [Nat.succ_mul] at room
  rw [BltDesc.rowLen]
  omega

theorem State.bltBytes_getElem? (s : State) (d : BltDesc) (r : BltRow) {x j : Nat} (hx : x < d.width) (hj : j < d.size) :
    (s.bltBytes d r false)[x * d.size + j]? = some (s.bltByte d r x j) := by
  have inRow := BltDesc.lt_rowLen hx hj
  have source : (match r.src with | some (_, a) => Memory.readN s.mem a d.rowLen | none => List.replicate d.rowLen 0).getD (x * d.size + j) 0 =
      r.srcByte s.mem (x * d.size + j) := by
    rw [BltRow.srcByte]
    cases r.src with
    | none => simp [List.getD, inRow]
    | some e => exact Memory.getD_readN _ _ inRow
  simp only [State.bltBytes, Bool.false_eq_true, if_false]
  rw [getElem?_flatMap_range _ (fun x => by rw [List.length_map, List.length_range]) hx hj]
  rw [List.getElem?_map, List.getElem?_range hj, Option.map_some, getD_leBytes _ hj, Memory.getD_readN _ _ inRow]
  exact congrArg (fun z => some (ropByte d.rop _ z _)) source

/-! ### Segments (R284) -/

/-- Element `x` is among those from the `n`-th on in the order of processing. -/
def BltDesc.todo (d : BltDesc) (n x : Nat) : Prop := n ≤ if d.down then d.width - 1 - x else x

/-- The rest of a row is a range of bytes that ends with the row, or begins with it in descending order. -/
theorem BltDesc.seg_rest (d : BltDesc) (n : Nat) :
    d.seg n d.width = (if d.down then 0 else n * d.size, d.rowLen - n * d.size) := by
  simp only [BltDesc.seg, Nat.sub_self, Nat.zero_mul, BltDesc.rowLen, Nat.sub_mul]

/-- The bytes of the elements to do are those of the segment. -/
theorem BltDesc.todo_iff {d : BltDesc} {n x j : Nat} (hn : n ≤ d.width) (hx : x < d.width) (hj : j < d.size) :
    d.todo n x ↔ (d.seg n d.width).1 ≤ x * d.size + j ∧ x * d.size + j < (d.seg n d.width).1 + (d.seg n d.width).2 := by
  have inRow := BltDesc.lt_rowLen hx hj
  have rest : n * d.size ≤ d.rowLen := Nat.mul_le_mul_right _ hn
  rw [BltDesc.seg_rest, BltDesc.todo]
  cases d.down with
  | true =>
    have whole : x * d.size + j < (d.width - n) * d.size ↔ x + 1 ≤ d.width - n := by
      rw [← Nat.lt_iff_add_one_le, ← Nat.div_lt_iff_lt_mul (by omega), Nat.mul_comm x, Nat.mul_add_div (by omega), Nat.div_eq_of_lt hj]
      rfl
    rw [Nat.sub_mul] at whole
    simp only [if_true]
    rw [Nat.zero_add, BltDesc.rowLen, whole]
    omega
  | false =>
    have whole : n * d.size ≤ x * d.size + j ↔ n ≤ x := by
      rw [← Nat.le_div_iff_mul_le (by omega), Nat.mul_comm x, Nat.mul_add_div (by omega), Nat.div_eq_of_lt hj]
      rfl
    simp only [Bool.false_eq_true, if_false]
    rw [whole]
    omega

/-- What a segment of a row is in memory once it is written. -/
def BltDesc.segData (d : BltDesc) (n k : Nat) (l : List Byte) : List Byte := (l.drop (d.seg n k).1).take (d.seg n k).2

section
variable {s : State} {d : BltDesc} {r : BltRow} {n : Nat} (hw : Memory.wf s.mem = true) (hn : n ≤ d.width)

theorem State.bltRest_length : (d.segData n d.width (s.bltBytes d r false)).length = (d.seg n d.width).2 := by
  rw [BltDesc.segData, List.length_take, List.length_drop, State.bltBytes_length, BltDesc.seg_rest]
  split <;> dsimp only <;> omega

include hw hn

/-- An element that was to do holds its result bytes once the rest of the row is written. -/
theorem State.read_bltRest {x j : Nat} (hx : x < d.width) (ht : d.todo n x) (hj : j < d.size) :
    Memory.read (Memory.writeN s.mem (r.pa + (d.seg n d.width).1) (d.segData n d.width (s.bltBytes d r false))) (r.pa + (x * d.size + j)) =
      s.bltByte d r x j := by
  obtain ⟨lower, upper⟩ := (BltDesc.todo_iff hn hx hj).1 ht
  have place : r.pa + (x * d.size + j) = r.pa + (d.seg n d.width).1 + (x * d.size + j - (d.seg n d.width).1) := by omega
  have inside : x * d.size + j - (d.seg n d.width).1 < (d.segData n d.width (s.bltBytes d r false)).length := by
    rw [State.bltRest_length]
    omega
  rw [place, Memory.read_writeN_same _ _ _ _ hw inside]
  refine Option.some.inj ((List.getElem?_eq_getElem inside).symm.trans ?_)
  rw [BltDesc.segData, List.getElem?_take_of_lt (by omega), List.getElem?_drop, Nat.add_sub_cancel' lower, State.bltBytes_getElem? s d r hx hj]

omit hw

/-- An address of no element that was to do keeps its byte. -/
theorem State.read_bltRest_other (hz : 0 < d.size) {a : Nat} (ha : ∀ x j, x < d.width → d.todo n x → j < d.size → a ≠ r.pa + (x * d.size + j)) :
    Memory.read (Memory.writeN s.mem (r.pa + (d.seg n d.width).1) (d.segData n d.width (s.bltBytes d r false))) a = Memory.read s.mem a := by
  apply Memory.read_writeN_other
  rw [State.bltRest_length]
  by_contra inside
  have bound : (d.seg n d.width).1 + (d.seg n d.width).2 ≤ d.rowLen := by
    have rest : n * d.size ≤ d.rowLen := Nat.mul_le_mul_right _ hn
    rw [BltDesc.seg_rest]
    split <;> dsimp only <;> omega
  have split : (a - r.pa) / d.size * d.size + (a - r.pa) % d.size = a - r.pa := Nat.div_add_mod' _ _
  have inRow : (a - r.pa) / d.size < d.width := (Nat.div_lt_iff_lt_mul hz).2 (show a - r.pa < d.rowLen by omega)
  have inElement : (a - r.pa) % d.size < d.size := Nat.mod_lt _ hz
  exact ha _ _ inRow ((BltDesc.todo_iff hn inRow inElement).2 (by omega)) inElement (by omega)

end

/-! ### The budget (R289) -/

/-- What the elements of the row under way from the first that is not done to before the `k`-th charge. -/
def State.bltCharge (s : State) (o : BltOp) (k : Nat) : Nat :=
  (s.bltRow o).cost o.d k o.d.readsD - (s.bltRow o).cost o.d o.done o.d.readsD

section
variable {s : State} {o : BltOp} (hf : o.firstPass = false)
include hf

/-- A budget for the whole row reaches its end. -/
theorem State.bltReach_whole (hd : o.done < o.d.width) (hm : ∀ m, s.bltBudget = some m → s.bltCharge o o.d.width ≤ m - s.blt.spent) :
    s.bltReach o = o.d.width := by
  simp only [State.bltReach, hf, Bool.not_false, Bool.true_and]
  cases hb : s.bltBudget with
  | none => rfl
  | some m =>
    have paid := hm m hb
    have reached : (decide (o.done < o.d.width) && (s.bltRow o).cutAt o.d o.d.width && decide ((s.bltRow o).cost o.d o.d.width o.d.readsD ≤
        m - s.blt.spent + (s.bltRow o).cost o.d o.done o.d.readsD)) = true := by
      rw [State.bltCharge] at paid
      simp only [BltRow.cutAt, beq_self_eq_true, Bool.true_or, Bool.and_true, Bool.and_eq_true, decide_eq_true_eq]
      exact ⟨hd, by omega⟩
    simp only [List.range_succ, List.filter_append, List.filter_singleton, reached, cond_true, List.getLast?_concat, Option.getD_some]

/-- A budget that reaches no burst boundary of the row does not go beyond what is done. -/
theorem State.bltReach_none {m : Nat} (hb : s.bltBudget = some m) (hk : ∀ k, o.done < k → k ≤ o.d.width → (s.bltRow o).cutAt o.d k = true →
    m - s.blt.spent + (s.bltRow o).cost o.d o.done o.d.readsD < (s.bltRow o).cost o.d k o.d.readsD) : s.bltReach o = o.done := by
  simp only [State.bltReach, hf, hb, Bool.not_false, Bool.true_and]
  rw [List.filter_eq_nil_iff.2]
  · rfl
  · intro k hr reached
    simp only [Bool.and_eq_true, decide_eq_true_eq] at reached
    obtain ⟨⟨later, cut⟩, paid⟩ := reached
    exact absurd paid (Nat.not_le.2 (hk k later (Nat.lt_succ_iff.1 (List.mem_range.1 hr)) cut))

end

end Sys2Proof.Machine
end

section
/-! SUPPORT. A row of a blit over DRAM without errors (R280, R283, R286, R288, R289). -/

namespace Sys2Proof.Machine

theorem exec_blitRowComplete (s : State) : exec .blitRowComplete s = execBlitRowComplete s := rfl

/-! ### What is read -/

theorem State.bltBad_errorFree {s : State} (h : s.dram.ErrorFree) (r : BltRow) (n b i : Nat) (readsD : Bool) :
    s.bltBad r n b i readsD = none := by
  simp only [State.bltBad, h.suspects, List.filter_nil, List.head?_nil, Option.map_none]
  cases r.src <;> rfl

theorem State.readMarks_cleanWrite (s : State) (pa n port : Nat) (h : s.dram.ErrorFree) : CleanWrite s (s.readMarks pa n port).1 s.mem := by
  rw [State.readMarks_errorFree s pa n port h]
  exact State.dramRequest_cleanWrite _ _ _ _ _ _ _ h

theorem State.bltReadDst_cleanWrite (s : State) (pa n : Nat) (h : s.dram.ErrorFree) : CleanWrite s (s.bltReadDst pa n) s.mem := by
  rw [State.bltReadDst]
  split
  · exact State.readMarks_cleanWrite _ _ _ _ h
  · exact .refl h

/-- The state once the source and the destination of a stretch of a row are read. -/
def State.bltRead (s : State) (o : BltOp) (lo len : Nat) : State :=
  let r := s.bltRow o
  let u := match r.src with | some (_, a) => if len = 0 then s else (s.readMarks (a + lo) len 14).1 | none => s
  if !o.firstPass && o.d.readsD then u.bltReadDst (r.pa + lo) len else u

theorem State.bltRead_cleanWrite (s : State) (o : BltOp) (lo len : Nat) (h : s.dram.ErrorFree) :
    CleanWrite s (s.bltRead o lo len) s.mem := by
  have destination : ∀ u, CleanWrite s u s.mem →
      CleanWrite s (if !o.firstPass && o.d.readsD then u.bltReadDst ((s.bltRow o).pa + lo) len else u) s.mem := by
    intro u hu
    split
    · exact hu.trans (hu.mem_eq ▸ State.bltReadDst_cleanWrite _ _ _ hu.errorFree)
    · exact hu
  apply destination
  split
  · split
    · exact .refl h
    · exact State.readMarks_cleanWrite _ _ _ _ h
  · exact .refl h

/-! ### What is written -/

/-- The state once the elements of the row under way to before the `k`-th are read, written and charged. -/
def State.bltStored (s : State) (o : BltOp) (k : Nat) : State :=
  let r := s.bltRow o
  let readsD := !o.firstPass && o.d.readsD
  let at_ := o.d.seg o.done k
  ((s.bltRead o at_.1 at_.2).writeBuf r.dst (r.off + at_.1) (o.d.segData o.done k (s.bltBytes o.d r o.firstPass)) 14).modBlt fun b =>
    { b with spent := b.spent + (r.cost o.d k readsD - r.cost o.d o.done readsD) }

/-- Without errors the elements of the row under way are processed as far as they were to be. -/
theorem State.bltRun_errorFree {s : State} {o : BltOp} {k : Nat} (h : s.dram.ErrorFree) (hk : o.done ≤ k) : s.bltRun o k =
    if k = o.d.width then (s.bltStored o k).bltRowDone o else (s.bltStored o k).modBlt fun b => { b with cur := some { o with done := k } } := by
  have all : o.done + ((List.range (k - o.done)).takeWhile fun j =>
      (s.bltBad (s.bltRow o) o.d.rowLen o.d.size (o.d.seg (o.done + j) (o.done + j + 1)).1 (!o.firstPass && o.d.readsD)).isNone).length = k := by
    rw [List.takeWhile_eq_self_iff.2 fun _ _ => by rw [State.bltBad_errorFree h]; rfl, List.length_range, Nat.add_sub_cancel' hk]
  simp only [State.bltRun, all, Nat.le_refl, if_true]
  rfl

section
variable {s : State} {o : BltOp} {b : Buf} (hf : o.firstPass = false) (hb : tabFind s.bufs.table o.d.dst = some b)
include hf

theorem State.bltRow_dst : (s.bltRow o).dst = o.d.dst := by
  simp only [State.bltRow, hf, Bool.false_eq_true, if_false]

include hb

/-- A row of the last pass lies in its destination. -/
theorem State.bltRow_pa : (s.bltRow o).pa = b.base + (s.bltRow o).off := by
  have live : s.buf? o.d.dst = some b := hb
  simp only [State.bltRow, State.baseOf, hf, live, Bool.false_eq_true, if_false]
  omega

/-- Only memory, the DRAM controller, the mark of the destination's map and the charge change with what is stored. -/
theorem State.bltStored_frame (k : Nat) (h : s.dram.ErrorFree) : ∃ dr op bufs, s.bltStored o k =
    { s with
      mem := Memory.writeN s.mem ((s.bltRow o).pa + (o.d.seg o.done k).1) (o.d.segData o.done k (s.bltBytes o.d (s.bltRow o) false))
      dram := dr, nextOp := op, bufs := bufs, blt := { s.blt with spent := s.blt.spent + s.bltCharge o k } } := by
  have read := s.bltRead_cleanWrite o (o.d.seg o.done k).1 (o.d.seg o.done k).2 h
  simp only [State.bltStored, State.bltRow_dst hf, hf, Bool.not_false, Bool.true_and]
  generalize s.bltRead o (o.d.seg o.done k).1 (o.d.seg o.done k).2 = u at read
  obtain ⟨dr, op, -, wrote⟩ := u.writeBuf_errorFree o.d.dst ((s.bltRow o).off + (o.d.seg o.done k).1)
    (o.d.segData o.done k (s.bltBytes o.d (s.bltRow o) false)) 14 b (by rw [read.frame]; exact hb) read.errorFree
  refine ⟨dr, op, { s.bufs with table := tabPut s.bufs.table o.d.dst { b with mapChecked := false } }, ?_⟩
  rw [wrote, read.frame, State.bltRow_pa hf hb, Nat.add_assoc]
  rfl

end

/-! ### The end of a row (R286, R288) -/

/-- The state whose blit has one more row complete, before the watermark acts. -/
def State.bltCounted (s : State) (o : BltOp) : State :=
  let x := o.d.regions false (o.rows + 1)
  (s.modOp o.op fun y => { y with reads := x.1, writes := x.2 }).modBlt fun b =>
    { b with cur := some { o with done := 0, rows := o.rows + 1, firstPass := false } }

/-- The watermark of a descriptor sets the event of its thread and raises the thread's vector. -/
def State.bltMark (s : State) (o : BltOp) : State :=
  let u := if o.d.wmSig then s.modThread o.thread fun th => { th with evt := th.evt ||| BitVec.ofNat 32 (2 ^ (16 + o.d.wmBit)) } else s
  if o.d.wmInt then u.raise o.thread.val else u

theorem State.bltRowDone_last (s : State) {o : BltOp} (hf : o.firstPass = false) :
    s.bltRowDone o = if o.rows + 1 = o.d.wmRow then (s.bltCounted o).bltMark o else s.bltCounted o := by
  obtain ⟨op, thread, who, d, rows, firstPass, done, gateWait, gateHit, ungated, res, flt⟩ := o
  simp only at hf
  subst hf
  simp only [State.bltRowDone, Bool.false_and, Bool.false_or, Bool.false_eq_true, if_false, decide_eq_true_eq, ne_eq, ite_not]
  rfl

section
variable (s : State) (o : BltOp)

theorem State.bltMark_frame : s.bltMark o = { s with threads := (s.bltMark o).threads, host := (s.bltMark o).host } := by
  simp only [State.bltMark]
  split
  · rw [State.raise_frame]
    split <;> rfl
  · split <;> rfl

theorem State.bltMark_other {v : Tid} (hv : v ≠ o.thread) : (s.bltMark o).thread v = s.thread v := by
  have event : (if o.d.wmSig then s.modThread o.thread fun th => { th with evt := th.evt ||| BitVec.ofNat 32 (2 ^ (16 + o.d.wmBit)) }
      else s).thread v = s.thread v := by
    split
    · exact State.modThread_other _ _ _ _ hv
    · rfl
  simp only [State.bltMark]
  split
  · rw [State.raise_thread, event]
  · exact event

/-- WM_SIG sets the event of the watermark. -/
theorem State.bltMark_evt : ((s.bltMark o).thread o.thread).evt =
    if o.d.wmSig then (s.thread o.thread).evt ||| BitVec.ofNat 32 (2 ^ (16 + o.d.wmBit)) else (s.thread o.thread).evt := by
  have event : ((if o.d.wmSig then s.modThread o.thread fun th => { th with evt := th.evt ||| BitVec.ofNat 32 (2 ^ (16 + o.d.wmBit)) }
      else s).thread o.thread).evt =
      if o.d.wmSig then (s.thread o.thread).evt ||| BitVec.ofNat 32 (2 ^ (16 + o.d.wmBit)) else (s.thread o.thread).evt := by
    split
    · rw [State.modThread_self]
    · rfl
  rw [← event, State.bltMark]
  split
  · exact congrArg Thread.evt (State.raise_thread _ _ _)
  · rfl

/-- WM_INT raises the thread's vector. -/
theorem State.bltMark_cause (h : o.d.wmInt = true) : (s.bltMark o).host.cause.getLsbD o.thread.val = true := by
  rw [State.bltMark, if_pos h]
  exact State.raise_cause _ _ (by omega)

theorem State.bltMark_host (h : o.d.wmInt = false) : (s.bltMark o).host = s.host := by
  rw [State.bltMark, if_neg (by simp [h])]
  split <;> rfl

end

/-- From `s` to `u` the row under way of the blit `o` is complete. -/
structure RowCounted (s u : State) (o : BltOp) : Prop where
  frame : u = { s with
    sboard := u.sboard, blt := { s.blt with cur := some { o with done := 0, rows := o.rows + 1 } }, threads := u.threads, host := u.host }
  others : ∀ v, v ≠ o.thread → u.thread v = s.thread v
  evt : (u.thread o.thread).evt = if o.d.wmSig ∧ o.rows + 1 = o.d.wmRow
    then (s.thread o.thread).evt ||| BitVec.ofNat 32 (2 ^ (16 + o.d.wmBit)) else (s.thread o.thread).evt
  raised : o.d.wmInt = true → o.rows + 1 = o.d.wmRow → u.host.cause.getLsbD o.thread.val = true
  host : o.d.wmInt = false ∨ o.rows + 1 ≠ o.d.wmRow → u.host = s.host

theorem State.bltRowDone_counted (s : State) {o : BltOp} (hf : o.firstPass = false) : RowCounted s (s.bltRowDone o) o := by
  have next : { o with done := 0, rows := o.rows + 1, firstPass := false } = { o with done := 0, rows := o.rows + 1 } := by rw [hf]
  rw [State.bltRowDone_last s hf]
  by_cases hm : o.rows + 1 = o.d.wmRow
  · rw [if_pos hm]
    exact {
      frame := by
        rw [State.bltMark_frame]
        simp only [State.bltCounted, next]
        rfl
      others := fun _ hv => State.bltMark_other (s.bltCounted o) o hv
      evt := by rw [State.bltMark_evt]; simp only [hm, and_true]; rfl
      raised := fun hi _ => State.bltMark_cause _ _ hi
      host := fun hi => State.bltMark_host (s.bltCounted o) o (hi.resolve_right (not_not.2 hm)) }
  · rw [if_neg hm]
    exact {
      frame := by simp only [State.bltCounted, next]; rfl
      others := fun _ _ => rfl
      evt := by rw [if_neg fun marked => hm marked.2]; rfl
      raised := fun _ reached => absurd reached hm
      host := fun _ => rfl }

/-! ### The engine at a row -/

section
variable {s : State} {o : BltOp} (hs : s.stopped = false) (hc : s.blt.cur = some o) (hg : o.gateWait = false) (hr : o.res = none)
  (ht : o.flt = none) (hh : o.rows < o.d.height)
include hs hc hg hr ht hh

theorem blitRowComplete_runs (hk : s.bltReach o ≠ o.done) : exec .blitRowComplete s = .next (s.bltRun o (s.bltReach o)) := by
  simp only [exec_blitRowComplete, execBlitRowComplete, hc, hs, hg, hr, ht, Nat.not_le.2 hh, hk, Option.isSome_none, Bool.or_false,
    decide_false, Bool.false_eq_true, if_false]

theorem blitRowComplete_stays (hk : s.bltReach o = o.done) : exec .blitRowComplete s = .next s := by
  simp only [exec_blitRowComplete, execBlitRowComplete, hc, hs, hg, hr, ht, Nat.not_le.2 hh, hk, Option.isSome_none, Bool.or_false,
    decide_false, Bool.false_eq_true, if_false, if_true]

end

end Sys2Proof.Machine
end

section
/-! O29: `BLT` from its issue through the engine to the rows it writes (R277, R280-R291). -/

namespace Sys2Proof.Machine

/-- A good descriptor joins the queue and the scoreboard; the thread waits for it, or goes on (R277). -/
theorem exec_blt_queued {s : State} {t : Tid} {w : IWord} {d : BltDesc} (hi : s.canIssue t 1) (hue : w.ue = false) (hr : s.dram.sr = .out)
    (hd : bltOf (w.block (s.thread t) 64) = d) (hc : s.bltCheck t d = .ok ()) (hf : s.full t = false) : ∃ u, exec (.blt t w) s = .next u ∧
      u = { s with threads := u.threads, sboard := u.sboard, nextOp := s.nextOp + 1, blt := u.blt } ∧
      u.sboard.map (·.op) = s.sboard.map (·.op) ++ [s.nextOp] ∧ u.blt.cur = s.blt.cur ∧
      (w.fn.getLsbD 7 = false → ThreadTo s u t ((s.thread t).atUnit w none) ∧
        u.blt.queue = s.blt.queue ++ [{ op := s.nextOp, thread := t, who := .thread t, d := d }]) ∧
      (w.fn.getLsbD 7 = true → u.blt.queue = s.blt.queue ++ [{ op := s.nextOp, thread := t, who := .async t s.nextOp, d := d }] ∧
        (u.thread t).pc = (s.thread t).pc + 8 ∧ (u.thread t).g = ((s.thread t).setReg w.rd 0).g ∧
        (s.blt.queue.length < 64 → (u.thread t).st = .running) ∧
        (64 ≤ s.blt.queue.length → (u.thread t).st = .waiting ∧ (u.thread t).wait = .entry s.nextOp)) := by
  subst hd
  cases ha : w.fn.getLsbD 7 with
  | false =>
    refine ⟨_, exec_blt_sync hi hue hc hf ha, ?_⟩
    rw [State.queueBlt_awake _ _ _ _ hr]
    exact ⟨rfl, by simp [State.toUnit_eq, State.setThread, State.bltSbOp], rfl, fun _ => ⟨threadTo_toUnit_of_threads rfl t w none, rfl⟩, nofun⟩
  | true =>
    obtain ⟨x, run, pc, g, st, wait⟩ := exec_blt_async hi hue hc hf ha
    rw [State.queueBlt_awake _ _ _ _ hr] at run pc g
    refine ⟨_, run, rfl, by simp [State.setThread, State.bltSbOp], rfl, nofun, fun _ => ?_⟩
    rw [State.setThread_thread]
    exact ⟨rfl, pc, g, fun room => by rw [st, if_neg (by omega)], fun filled => ⟨by rw [st, if_pos filled], by rw [wait, if_pos filled]⟩⟩

/-- A thread that waits for the blit is told its answer when it ends. -/
theorem blitComplete_tells {s : State} {o : BltOp} {t : Tid} (hs : s.stopped = false) (hc : s.blt.cur = some o) (hg : o.gateWait = false)
    (hw : o.who = .thread t) (hu : (s.thread t).wait = .unit)
    (h : o.flt.isSome = true ∨ o.res.isSome = true ∨ (o.rows = o.d.height ∧ o.firstPass = false)) : exec .blitComplete s =
      .next { s.setThread t { s.thread t with done := some o.answer } with
        sboard := s.sboard.filter fun e => e.op != o.op, blt := { s.blt with cur := none } } := by
  rw [blitComplete_ends hs hc hg h, hw]
  exact congrArg _ (State.deliver_thread _ hu)

/-- Over DRAM without errors a budget for the rest of the row completes it. -/
theorem blitRowComplete_whole {s : State} {o : BltOp} {b : Buf} (hs : s.stopped = false) (hc : s.blt.cur = some o) (hg : o.gateWait = false)
    (hr : o.res = none) (ht : o.flt = none) (hh : o.rows < o.d.height) (hf : o.firstPass = false) (hd : o.done < o.d.width)
    (hb : tabFind s.bufs.table o.d.dst = some b) (he : s.dram.ErrorFree)
    (hm : ∀ m, s.bltBudget = some m → s.bltCharge o o.d.width ≤ m - s.blt.spent) : ∃ v dr op bufs, v = { s with
        mem := Memory.writeN s.mem ((s.bltRow o).pa + (o.d.seg o.done o.d.width).1)
          (o.d.segData o.done o.d.width (s.bltBytes o.d (s.bltRow o) false))
        dram := dr, nextOp := op, bufs := bufs, blt := { s.blt with spent := s.blt.spent + s.bltCharge o o.d.width } } ∧
      exec .blitRowComplete s = .next (v.bltRowDone o) := by
  have reach := State.bltReach_whole hf hd hm
  obtain ⟨dr, op, bufs, stored⟩ := State.bltStored_frame hf hb o.d.width he
  refine ⟨_, dr, op, bufs, stored, ?_⟩
  rw [blitRowComplete_runs hs hc hg hr ht hh (by omega), reach, State.bltRun_errorFree he hd.le, if_pos rfl]

/-- Settles O29: the issue by the checks in their order, the engine by the branches of its events, and a row by the segment that it
writes and the budget that it has. -/
theorem blits : Obligations.Blits := by
  unfold Obligations.Blits
  refine ⟨⟨?issue, ?checks, ropByte_bit⟩, ?engine, ?rows⟩
  case issue =>
    intro s t w hi hue hr th d
    exact ⟨fun f sub refused => exec_blt_refused hi hue refused, exec_blt_full hi hue, exec_blt_queued hi hue hr rfl⟩
  case checks =>
    intro s t d b _ hs ht h0 hlt hb ho hy
    have mine := State.checkHandle_mine h0 hlt hb ho hy
    exact ⟨State.bltCheck_badFields hs ht mine, State.bltCheck_past hs ht mine, State.bltCheck_within hs ht mine⟩
  case engine =>
    intro s o rest hs hr runs limit room
    have running : s.gateRuns o.d = true ↔ runs := s.gateRuns_iff o.d
    have stopped : s.gateRuns o.d = false ↔ ¬runs := by rw [← running, Bool.not_eq_true]
    have fits : s.tmpRoom o.d ↔ room := by
      simp only [State.tmpRoom, State.buf?, room]
      cases tabFind s.bufs.table o.d.tmp <;> simp [BltDesc.rowLen]
    refine ⟨fun hc hq hb => ?_, fun hc hg => ?_, fun t hc hg hw hu hend => ?_⟩
    · refine ⟨_, _, blitDescriptorStart_takes hs hr hc hq hb, rfl, rfl, rfl, rfl, rfl, rfl, rfl, rfl, State.bltEarly_noBudget,
        fun paid two full => State.bltEarly_noRoom paid two (mt fits.1 full), fun paid free => ?_⟩
      have early : s.bltEarly o.d = none := free.elim (State.bltEarly_onePass paid) fun r => State.bltEarly_room paid (fits.2 r)
      simp only [State.bltTaken, early, Option.isNone_none, Bool.and_true]
      refine ⟨trivial, fun gate on => ?_, fun gate off => ?_, fun gate => ?_⟩
      · rw [gate, running.2 on]; rfl
      · rw [gate, stopped.2 off]; exact ⟨rfl, rfl⟩
      · rw [gate]; exact ⟨rfl, rfl⟩
    · exact ⟨blitGateOpen_hit hs hc hg, fun hit on => blitGateOpen_waits hs hc hg hit (running.2 on),
        fun hit off => blitGateOpen_ungated hs hc hg hit (stopped.2 off)⟩
    · intro r
      have answer : o.answer = r := by
        simp only [BltOp.answer, r]
        cases o.flt with
        | some f => rfl
        | none =>
          cases o.res with
          | some x => rfl
          | none => cases o.ungated <;> rfl
      rw [blitComplete_tells hs hc hg hw hu hend, answer]
  case rows =>
    intro s o b hs hcan hc hg hr ht hf hh hz hd hb h1 h2 h3 d r cost limit todo
    have clean : s.dram.ErrorFree := ⟨h1, h2, h3⟩
    refine ⟨fun paid => ?_, fun m hm short => ?_, fun k reach later before => ?_⟩
    · obtain ⟨v, dr, op, bufs, stored, run⟩ := blitRowComplete_whole hs hc hg hr ht hh hf hd hb clean paid
      have counted := v.bltRowDone_counted hf
      generalize v.bltRowDone o = u at run counted
      obtain ⟨frame, others, evt, raised, host⟩ := counted
      have mem : u.mem = v.mem := by rw [frame]
      have blt : u.blt = { v.blt with cur := some { o with done := 0, rows := o.rows + 1 } } := by rw [frame]
      refine ⟨u, run, fun x j hx left hj => ?_, fun a away => ?_, ⟨_, congrArg Blt.cur blt, rfl, rfl, rfl, hr⟩, ?_, ?_, ?_, raised, ?_, ?_⟩
      · rw [mem, stored]
        exact State.read_bltRest hcan.1 hd.le hx left hj
      · rw [mem, stored]
        exact State.read_bltRest_other hd.le hz away
      · rw [blt, stored]
        rfl
      · intro x hx
        rw [others x hx, stored]
        rfl
      · rw [evt, stored]
        rfl
      · intro quiet
        rw [host quiet, stored]
      · rw [frame, stored]
    · exact blitRowComplete_stays hs hc hg hr ht hh (State.bltReach_none hf hm short)
    · obtain ⟨dr, op, bufs, stored⟩ := State.bltStored_frame hf hb k clean
      have run := blitRowComplete_runs hs hc hg hr ht hh (by omega)
      rw [reach, State.bltRun_errorFree clean later.le, if_neg before.ne, stored] at run
      exact ⟨_, run, rfl, rfl, rfl⟩

end Sys2Proof.Machine
end
